-- ==== Sys2Proof/Word.lean ====
section
/-! DEFINITION. The word type of the register fabric (R11: every register is 32 bits wide) and its plainest
arithmetic. -/

namespace Sys2Proof

/-- A 32-bit register or memory word (R11). -/
abbrev Word := BitVec 32

/-- A byte of an image, a link frame or a host transaction. -/
abbrev Byte := BitVec 8

end Sys2Proof
end

