-- ==== Sys2Proof/Syntax.lean ====
section
/-! DEFINITION. The commands of the block: one constructor of `Instr` per row of the opcode table, with the row's
operands, and the types of those operands. -/

namespace Sys2Proof

/-- The parties of the register fabric (R26), in rank order. -/
inductive Party where
  | reaction
  | test
  | strike
  | seq
  | pe (n : Fin 8)
  | link
  | host
deriving DecidableEq, Repr

/-- Party code of R26. -/
def Party.code : Party → Nat
  | .reaction => 0
  | .test => 1
  | .strike => 2
  | .seq => 3
  | .pe n => 4 + n.val
  | .link => 12
  | .host => 13

/-- Class code (R355) of the Notice the device makes for a party (R26). -/
def Party.noticeClass : Party → Option Nat
  | .reaction => none
  | .test => some 13
  | .strike => some 11
  | .seq => some 5
  | .pe _ => some 14
  | .link => some 11
  | .host => some 15

/-- Ranks 1 to 3 never wait (R29). -/
def Party.urgent : Party → Bool
  | .reaction => true
  | .test => true
  | .strike => true
  | _ => false

/-- One sample of a distribution channel as its converters deliver it (R243): the shunt code of 13 bits over ±80 mV, and
V_bus, V_out, V_GS and V_DS in mV. -/
structure ChanSample where
  shunt : Int
  vbus : Int
  vout : Int
  vgs : Int
  vds : Int
deriving DecidableEq, Repr, Inhabited

/-- What a loop samples at a carrier boundary: V_sense, V_local, and the pins VSENPn and VSENNn in µV, and the
cycle-average current of each phase cell PH0–PH23 in mA before its trims (R177, R178, R196, R232). -/
structure LoopSample where
  vsense : Int
  vlocal : Int
  senp : Int
  senn : Int
  iph : List Int
deriving DecidableEq, Repr, Inhabited

/-- How an on-time ended (R189). -/
inductive OnEnd where
  | peak
  | limit
  | maximum
deriving DecidableEq, Repr, Inhabited


/-- What the power-path cell measures (R377, R400): V_BAT, V_SRC, V_SYS and CHG_IN in mV, I_BAT (positive charging) and
I_SRC in mA, and the PTH pin in µV. -/
structure PathSample where
  vbat : Int
  vsrc : Int
  vsys : Int
  chgin : Int
  ibat : Int
  isrc : Int
  pth : Int
deriving DecidableEq, Repr, Inhabited


/-- What feeds the pre-regulator (R23): VIN, or the phantom of a port. -/
inductive Supply where
  | vin
  | phantom (port : Fin 2)
deriving DecidableEq, Repr

/-- The commands of the block: one constructor per row of the opcode table. -/
inductive Instr where
  /-- POWER_ON_RESET (R425). A supply rising from below threshold, or the SHIP# off-cycle, runs the power-on order up to reset release. -/
  | powerOnReset (v : Supply)
  /-- RST_N_LOW (R422). The board drives RST_N low for at least 1 µs, which is a hard reset. -/
  | rstNLow
  /-- RESET_RELEASE (R2). RST_N rises; ROLE and TEST_EN are sampled and OTP sensing starts. -/
  | resetRelease (worker testEn : Bool)
  /-- SOFT (R422). A keyed write of SYS_RST_CTRL.SOFT starts a soft reset in the next fabric cycle. -/
  | soft (p : Party) (key : BitVec 8)
  /-- HARD (R422). A keyed write of SYS_RST_CTRL.HARD starts a hard reset and holds RST_N low for 10 µs. -/
  | hard (p : Party) (key : BitVec 8)
  /-- OTP_SENSING_DONE (R487). OTP sensing ends; the regions are checked, the fault collector starts and image sources are tried. -/
  | otpSensingDone (cells : List (Nat × Word)) (locks : BitVec 32)
  /-- PLL_LOCK (R20). The PLL locks; the start-up oscillator leaves reference duty, SCK goes to 50 MHz and a manager's tick count starts. -/
  | pllLock
  /-- REFERENCE_LOST (R21). The clock monitor finds the reference lost and the PLL enters holdover. -/
  | referenceLost
  /-- RELOCK_OTHER_PORT (R21). A worker in holdover recovers a reference from its other port and re-locks to it. -/
  | relockOtherPort
  /-- HOLDOVER_EXPIRY (R21). After 10 ms of holdover the PLL switches to the start-up oscillator and LINK/L3 is raised. -/
  | holdoverExpiry
  /-- VIN_DISQUALIFY (R23). VIN falls below 5.8 V and is disqualified; a worker's pre-regulator moves to the phantom. -/
  | vinDisqualify (port : Fin 2)
  /-- VIN_QUALIFY (R23). VIN has stayed at or above 6.0 V for 10 ms and is qualified again. -/
  | vinQualify
  /-- REGISTER_WRITE (R33). A write to a register with no row of its own is arbitrated and takes effect per field ownership. -/
  | registerWrite (l : List (Party × BitVec 16 × Word))
  /-- IMAGE_SOURCE_TRY (R60). The device starts reading the next image source of its role. -/
  | imageSourceTry
  /-- HEADER_ARRIVED (R58). The image header has arrived and is checked. -/
  | headerArrived (b : List Byte)
  /-- DIRECTORY_ARRIVED (R58). The section directory has arrived and is checked. -/
  | directoryArrived (b : List Byte)
  /-- IMAGE_STREAM_END (R58). The last image byte arrives and the CRC-32 and tag are compared. -/
  | imageStreamEnd (b : List Byte)
  /-- IMAGE_CHECKS_DONE (R58). Range and consistency checks end and the image is accepted or fails. -/
  | imageChecksDone
  /-- START (R62). A write of CAL_LOAD_CTRL.START begins, restarts or refuses a host load, or requests a reload. -/
  | startLoad (p : Party) (both : Bool)
  /-- ABORT (R62). A write of CAL_LOAD_CTRL.ABORT aborts a streaming host load with code 0x0E. -/
  | abortLoad (p : Party)
  /-- CAL_LOAD_AP (R62). An aperture write delivers four image bytes of a host load. -/
  | calLoadAp (p : Party) (k : Fin 16) (w : Word)
  /-- HOST_LOAD_GAP_TIMEOUT (R62). A gap of more than 100 ms aborts the host load with code 0x0E. -/
  | hostLoadGapTimeout
  /-- ESC_STEP (R74). After three swings of error above 2 ticks the count is stepped and LINK/L1 raised. -/
  | escStep
  /-- ARM_ABSOLUTE (R86). ESC_ARM_CMD OP absolute arms a slot at the tick in ESC_ARM_TICK. -/
  | armAbsolute (p : Party) (hier useMask : Bool) (slot : Fin 256)
  /-- ARM_RELATIVE (R84). ESC_ARM_CMD OP relative arms a slot at the grant tick plus the lead. -/
  | armRelative (p : Party) (hier useMask : Bool) (slot : Fin 256)
  /-- CANCEL_CMD (R90). ESC_ARM_CMD OP cancel disarms a slot within the lead rules. -/
  | cancelCmd (p : Party) (hier : Bool) (slot : Fin 256)
  /-- ESC_TICK_READ (R102). A read of ESC_TICK_LO latches the high bits into the reader's ESC_TICK_HI. -/
  | escTickRead (p : Party)
  /-- ESC_CNT_CLR (R102). A write of ESC_CNT_CLR.CLR clears every ESC_CNT field. -/
  | escCntClr (p : Party)
  /-- STRIKE_LAUNCH (R92). At a launch tick the armed slots' actions apply as one batch. -/
  | strikeLaunch
  /-- STRIKE_ID_QUARANTINE_END (R91). 16,000 ticks after its close a strike ID leaves quarantine. -/
  | strikeIdQuarantineEnd
  /-- BEAT_ZERO_START (R96). The manager starts beat 0 at the first swing boundary 16,000 ticks after image acceptance. -/
  | beatZeroStart
  /-- BEAT_BOUNDARY (R97). At a beat boundary the statistics latch and restart and the next boundary is fixed. -/
  | beatBoundary
  /-- PORT_TRAIN_START (R118). A port that receives valid code groups locks and starts training. -/
  | portTrainStart (p : Fin 2) (bad : Nat)
  /-- TRAIN_SEND (R119). A port sends a TRAIN set every 400 ticks in training, and once per 256 swings when up. -/
  | trainSend (p : Fin 2)
  /-- TRAIN_RECEIVE (R117). A received TRAIN set gives a delay measurement and updates PATH_VIA and HOPS_VIA. -/
  | trainReceive (p : Fin 2) (b : List Byte) (fine : Fin 32) (bad idle : Nat)
  /-- UPSTREAM_SELECT (R118). A cold worker chooses its upstream port and switches its PLL to it. -/
  | upstreamSelect
  /-- PORT_RX_DOWN (R106). A receiver with no valid code group for 1 µs, or two /LD/, goes down. -/
  | portRxDown (p : Fin 2) (ld : Bool) (bad : Nat)
  /-- HEAL_RECEIVE (R138). A worker receiving /HL/ on its upstream port heals, or as an end adopts the open segment. -/
  | healReceive (p : Fin 2) (bad : Nat)
  /-- BRANCH_END_DETECT (R113). No /I2/ on the downstream port for 10 µs makes the worker the end of its branch. -/
  | branchEndDetect
  /-- LINK_RETRAIN (R144). A write of LINK_CTRL.RETRAIN_A or RETRAIN_B retrains that port. -/
  | linkRetrain (p : Party) (w : BitVec 4)
  /-- LINK_CNT_CLR (R144). A write of LINK_CNT_CLR.CLR clears the link counters. -/
  | linkCntClr (p : Party)
  /-- PHANTOM_SWITCH_TRIP (R108). A phantom switch at its limit for 1 ms opens; a third trip latches it off. -/
  | phantomSwitchTrip (w : Fin 3)
  /-- PHANTOM_SWITCH_RECLOSE (R108). A tripped phantom switch closes again after 100 ms. -/
  | phantomSwitchReclose (w : Fin 3)
  /-- DOWN_FRAME_SEND (R122). At each swing start the manager sends down frame k with its queued commands. -/
  | downFrameSend
  /-- DOWN_FRAME_HEADER (R115). A worker takes a down frame whose HCRC passes: tick comparison and grants. -/
  | downFrameHeader (p : Fin 2) (b : List Byte) (arr bad : Nat)
  /-- DOWN_FRAME_ACCEPT (R115). The last byte of a taken down frame arrives; with its CCRC passing its commands are acted on. -/
  | downFrameAccept (b : List Byte) (bad : Nat)
  /-- DOWN_FRAME_MISSING (R137). A worker that takes no down frame for 5 swings raises LINK/L2. -/
  | downFrameMissing
  /-- UP_FRAME_START (R125). At offset 2,200 a branch end starts up frame k. -/
  | upFrameStart
  /-- UP_FRAME_FORWARD (R114). A worker forwards a passing up frame and puts in its status word, alarm bit and long slot. -/
  | upFrameForward (b : List Byte) (bad : List Nat)
  /-- UP_FRAME_RECEIVE (R127). The manager decodes status words, alarm map and long slots of an up frame. -/
  | upFrameReceive (p : Fin 2) (b : List Byte) (bad : List Nat)
  /-- WORKER_LOST (R137). No valid status word in 5 up frames marks the worker lost and raises LINK/L2. -/
  | workerLost
  /-- TRANSACTION_TIMEOUT (R132). A transaction open for 12,000 ticks times out. -/
  | transactionTimeout
  /-- TAG_QUARANTINE_END (R132). A closed tag number leaves quarantine after 8,000 ticks. -/
  | tagQuarantineEnd
  /-- ARM (R89). A link ARM command arms a hierarchy slot on each target worker. -/
  | arm (b : List Byte)
  /-- CANCEL (R90). A link CANCEL command disarms a hierarchy slot on each target worker. -/
  | cancel (b : List Byte)
  /-- BEAT (R101). A link BEAT command gives a worker its next boundary tick and beat number. -/
  | beat (b : List Byte)
  /-- SELECT (R124). A SELECT command replaces a selection set. -/
  | select (b : List Byte)
  /-- RETRAIN (R123). A RETRAIN command retrains the named ports of the worker. -/
  | retrain (b : List Byte)
  /-- PHANTOM (R123). A PHANTOM command writes LINK_PH_CTRL bits 7:0. -/
  | phantom (b : List Byte)
  /-- REST (R428). A REST command schedules entry to rest at the carried tick. -/
  | rest (b : List Byte)
  /-- ASSIGN (R146). An ASSIGN command gives a worker without a number one from its hop count. -/
  | assign (b : List Byte)
  /-- PT_READ (R156). A PT_READ command reads points and replies in a long slot. -/
  | ptRead (b : List Byte)
  /-- PT_WRITE (R156). A PT_WRITE command writes points after checking all of them. -/
  | ptWrite (b : List Byte)
  /-- REG_READ (R156). A REG_READ command reads registers and replies in a long slot. -/
  | regRead (b : List Byte)
  /-- REG_WRITE (R156). A REG_WRITE command writes registers as rank-13 accesses. -/
  | regWrite (b : List Byte)
  /-- STG_OPEN (R159). An STG_OPEN command opens a stage on a worker, answered ready or refuse. -/
  | stgOpen (b : List Byte)
  /-- STG_DATA (R159). An STG_DATA command writes one chunk into the worker's stage. -/
  | stgData (b : List Byte)
  /-- STG_PREPARE (R160). An STG_PREPARE command asks the worker whether its stage is ready. -/
  | stgPrepare (b : List Byte)
  /-- COMMIT (R162). A link COMMIT command arms the worker's stage to apply at its tick. -/
  | commit (b : List Byte)
  /-- ABORT_STAGE (R162). A link ABORT command arms the discard of the worker's stage at its tick. -/
  | abortStage (b : List Byte)
  /-- CMT_CHECK (R165). A CMT_CHECK command asks the worker the outcome of a commit. -/
  | cmtCheck (b : List Byte)
  /-- DLV_START (R170). A DLV_START command starts, or restarts, an image delivery on a worker. -/
  | dlvStart (b : List Byte)
  /-- DLV_DATA (R170). A DLV_DATA command delivers 32 image bytes. -/
  | dlvData (b : List Byte)
  /-- DLV_QUERY (R171). A DLV_QUERY command asks the worker the outcome of the delivery. -/
  | dlvQuery (b : List Byte)
  /-- RA_READ (R155). HIER_RA_CMD OP read queues a remote or local point or register read. -/
  | raRead (p : Party)
  /-- RA_WRITE (R155). HIER_RA_CMD OP write queues a remote or broadcast write. -/
  | raWrite (p : Party)
  /-- RA_WRITE_ANS (R157). HIER_RA_CMD OP write with answer queues a write whose answer is awaited. -/
  | raWriteAns (p : Party)
  /-- HIER_STG_DATA (R158). A write of HIER_STG_DATA writes a stage word and advances WORD. -/
  | hierStgData (p : Party) (w : Word)
  /-- OPEN (R158). HIER_CMT_CMD OPEN takes an ID and sends SELECT, STG_OPEN and the stage chunks. -/
  | openCmt (p : Party)
  /-- SEND (R160). HIER_CMT_CMD SEND resends every chunk to targets not ready. -/
  | sendCmt (p : Party)
  /-- PREPARE (R160). HIER_CMT_CMD PREPARE sends STG_PREPARE to the targets. -/
  | prepareCmt (p : Party)
  /-- CMT_COMMIT (R161). HIER_CMT_CMD COMMIT sends COMMIT and arms the manager's own commit. -/
  | cmtCommit (p : Party)
  /-- CMT_ABORT (R161). HIER_CMT_CMD ABORT sends ABORT for the commit. -/
  | cmtAbort (p : Party)
  /-- REPAIR_COMMIT (R166). HIER_CMT_CMD REPAIR_COMMIT sends COMMIT to one stale worker. -/
  | repairCommit (p : Party) (dev : BitVec 6)
  /-- REPAIR_ABORT (R166). HIER_CMT_CMD REPAIR_ABORT sends ABORT to one stale worker. -/
  | repairAbort (p : Party) (dev : BitVec 6)
  /-- CLOSE (R167). HIER_CMT_CMD CLOSE closes the commit and its ID. -/
  | close (p : Party)
  /-- STAGE_CHECKS_DONE (R160). The stage checks of a fully received stage end and the stage is ready or refused. -/
  | stageChecksDone
  /-- COMMIT_APPLY (R163). At the armed tick a commit applies every parcel, or an abort discards the stage. -/
  | commitApply
  /-- STAGE_STALE (R164). A worker reaching T_d with its stage open and nothing armed goes stale. -/
  | stageStale
  /-- CMT_CHECK_SEND (R165). In the first down frame at or after T_d or the repair tick the unit sends CMT_CHECK. -/
  | cmtCheckSend
  /-- DLV_START_OP (R169). HIER_DLV_CMD START begins a delivery of a worker image. -/
  | dlvStartOp (p : Party) (flash : List Byte)
  /-- START_RELOAD (R169). HIER_DLV_CMD START_RELOAD begins a delivery that reloads loaded workers. -/
  | startReload (p : Party) (flash : List Byte)
  /-- DLV_ABORT (R169). HIER_DLV_CMD ABORT stops sending the delivery. -/
  | dlvAbort (p : Party)
  /-- DLV_QUERY_SEND (R171). 32 swings after the last chunk the manager sends DLV_QUERY. -/
  | dlvQuerySend
  /-- RELAY_DEVICE_UPDATE (R307). When both relay reads of a device complete, its mirror and the hold maps are updated. -/
  | relayDeviceUpdate
  /-- MIRROR_STALE (R305). A mirror entry not written for 256 swings goes stale. -/
  | mirrorStale (d : Fin 64)
  /-- CARRIER_BOUNDARY (R217). At a carrier boundary the loop applies writes, updates its hint, fixes the active set and runs the compensator. -/
  | carrierBoundary (n : Fin 8) (x : LoopSample)
  /-- SYNC_IN_EDGE (R186). A rising SYNC_IN edge is qualified and moves the loop toward lock. -/
  | syncInEdge (d : Nat)
  /-- SYNC_IN_LOST (R186). SYNC_IN is lost; the loop records CONV/L0 and glides to its own period. -/
  | syncInLost (n : Fin 8)
  /-- ON_TIME_END (R189). A phase's on-time ends at its peak trip, IPK_LIM or maximum on-time. -/
  | onTimeEnd (p : Fin 24) (xs : List (Nat × Int))
  /-- LOOP_FAST_SHORT (R222). A phase current above ISC stops the loop through the wired path with CONV/L2. -/
  | loopFastShort (n : Fin 8) (p : Fin 24) (raw : Int)
  /-- BRAKE_ENGAGE (R219). The output crossing V_tgt plus BRK_ON puts every phase at mid-Z. -/
  | brakeEngage (n : Fin 8) (v vl : Int)
  /-- HINT_EDGE (R207). A HINTn edge registers at its third tick and starts or withdraws a step or release. -/
  | hintEdge (k : Fin 4) (high : Bool) (held : Nat)
  /-- OVERLOAD_BIN_END (R223). At each 160 µs bin end the overload budget is updated and may trip. -/
  | overloadBinEnd (n : Fin 8)
  /-- STGFLT_EDGE (R229). A falling stage fault line stops the loop with PHASE/L2. -/
  | stgfltEdge (n : Fin 8) (held : Nat)
  /-- STAGE_FAULT_IDENTIFY (R229). 50 µs after the stage fault edge the phases reading full scale are dropped. -/
  | stageFaultIdentify (n : Fin 8) (raw : List Int)
  /-- THROTTLE_RELEASE (R230). THROTTLEn# is released THR_HOLD after the last source goes inactive. -/
  | throttleRelease (n : Fin 8)
  /-- LOOP_DISCHARGE_TIMEOUT (R200). 10 ms after withdrawal a discharging loop puts its phases at mid-Z. -/
  | loopDischargeTimeout (n : Fin 8)
  /-- CHANNEL_SAMPLE (R243). Every 10 µs a channel samples and runs its ramp, breaker, power-good and retry logic. -/
  | channelSample (n : Fin 24) (x : ChanSample)
  /-- CHANNEL_FAST_SHORT (R259). A shunt voltage above ISC starts the fast pull-down and trips the channel. -/
  | channelFastShort (n : Fin 24) (v : Int)
  /-- REVERSE_BLOCK (R265). A pair member's current below −IREV puts it in Blocked. -/
  | reverseBlock (n : Fin 24) (v : Int)
  /-- STANDBY_RESCUE (R266). A standby member seeing V_out below STBY_UV closes and makes DIST/L1. -/
  | standbyRescue (n : Fin 24) (v : Int) (held : Nat)
  /-- PAIR_BREAK (R267). At the scheduled break tick a member goes to Standby. -/
  | pairBreak (n : Fin 24)
  /-- CHANNEL_ON_WRITE (R248). A write of CHn_CTRL.ON starts or stops the channel. -/
  | channelOnWrite (p : Party) (n : Fin 24) (w : Word)
  /-- PMODE_WRITE (R267). A write of CHn_PAIR.PMODE closes a member or schedules its break. -/
  | pmodeWrite (p : Party) (n : Fin 24) (w : Word)
  /-- POINT_CH_ON (R273). A channel point command 0b01 writes ON. -/
  | pointChOn (p : Party) (point : Fin 2048) (v : Bool)
  /-- POINT_CH_PMODE (R273). A channel point command 0b10 writes PMODE. -/
  | pointChPmode (p : Party) (point : Fin 2048) (v : Bool)
  /-- POINT_LOOP_MARGIN (R203). A loop point command 0b01 writes MARGIN. -/
  | pointLoopMargin (p : Party) (point : Fin 2048) (v : BitVec 8)
  /-- POINT_LOOP_NMIN (R203). A loop point command 0b10 writes NMIN. -/
  | pointLoopNmin (p : Party) (point : Fin 2048) (v : BitVec 5)
  /-- POINT_PHASE_DIS (R203). A phase point command writes PHn_CTRL.DIS. -/
  | pointPhaseDis (p : Party) (point : Fin 2048) (v : Bool)
  /-- POINT_RAIL_ON (R310). A rail point command 0b01 writes ON. -/
  | pointRailOn (p : Party) (point : Fin 2048) (v : Bool)
  /-- POINT_RAIL_MARGIN (R303). A rail point command 0b10 writes MARGIN and forwards it to a loop rail. -/
  | pointRailMargin (p : Party) (point : Fin 2048) (v : BitVec 8)
  /-- POINT_KEEP_BYTE_WRITE (R413). A keep-memory point write queues a one-byte keep commit. -/
  | pointKeepByteWrite (p : Party) (point : Fin 2048) (v : BitVec 8)
  /-- SEQUENCER_EVAL (R282). Each tick the sequencer evaluates every rail's levels and state in order. -/
  | sequencerEval
  /-- RAIL_DELAY_END (R285). A rail's DELAY has held and its target is enabled. -/
  | railDelayEnd (n : Fin 64)
  /-- RUN_AHEAD_START (R291). A rail reaching its predicted start tick starts early. -/
  | runAheadStart (n : Fin 64)
  /-- RAIL_QUALIFIED (R286). Power-good has held for TSTABLE and the rail enters Good. -/
  | railQualified (n : Fin 64)
  /-- RAIL_DEADLINE (R288). A rail not qualified by TDEAD fails with SEQ/L2. -/
  | railDeadline (n : Fin 64)
  /-- RAIL_PG_LOST (R289). Power-good bad for LOSS_T fails the rail. -/
  | railPgLost (n : Fin 64)
  /-- RAIL_LD_DELAY_END (R299). A rail in Lower with no child UP has held LD_DELAY and enters Stop. -/
  | railLdDelayEnd (n : Fin 64)
  /-- TARGET_STOP_TIMEOUT (R276). STOP_T or 5 ms after withdrawal a pair or channel target counts as stopped. -/
  | targetStopTimeout (n : Fin 64)
  /-- PWRGD_EDGE (R276). A PWRGDk level change registers at its third tick. -/
  | pwrgdEdge (k : Fin 32) (high : Bool) (held : Nat)
  /-- RAIL_CTRL_WRITE (R303). A write of SEQ_RAILn_CTRL sets ON and MARGIN, forwarding MARGIN to a loop rail. -/
  | railCtrlWrite (p : Party) (n : Fin 64) (w : Word)
  /-- MARGIN_STEP (R304). Every RATE × 10 µs the MRGk current moves one STEP toward its value. -/
  | marginStep (k : Fin 8)
  /-- CONVERSION_END (R314). A conversion's result is registered, windowed and metered and the next one starts. -/
  | conversionEnd (m : Fin 4) (code : Int)
  /-- MEAS_MASK_WRITE (R319). A write of MEASm_MASK changes the scan from the end of the conversion in progress. -/
  | measMaskWrite (p : Party) (m : Fin 4) (w : Word)
  /-- URG (R320). A write of MEASm_URG.GO requests an urgent conversion. -/
  | urg (p : Party) (m : Fin 4) (e : BitVec 5)
  /-- MONITOR_LEVEL_CHANGE (R333). A cell's filtered UV or OV changes and feeds rail, collector and causes. -/
  | monitorLevelChange (n : Fin 64) (l : List Int)
  /-- MONITOR_SETTLE_END (R332). A cell's settle hold ends and its output follows the filled history. -/
  | monitorSettleEnd (n : Fin 64) (v : Int)
  /-- MON_TEST_GO (R334). A write of MON_TEST.GO starts or refuses a self-test sweep. -/
  | monTestGo (p : Party) (cell : BitVec 6) (first last : BitVec 10)
  /-- SWEEP_STEP (R334). Every DWELL the test DAC moves one code; at the end the input returns and DONE is set. -/
  | sweepStep
  /-- THERMAL_UPDATE (R340). Every 100 µs the thermal model computes nodes, applies sensors, sets levels and acts. -/
  | thermalUpdate (pdev : Nat)
  /-- SHED_STEP (R350). Every SHED_STEP × 10 ms a hot node sheds the next lower group. -/
  | shedStep
  /-- FAULT_RECORD (R364). The fault collector processes an event into a record and starts its reactions. -/
  | faultRecord
  /-- ACK (R368). FLT_CMD ACK acknowledges one record. -/
  | ack (p : Party) (slot : Fin 256)
  /-- CLEAR (R368). FLT_CMD CLEAR moves one record to the history and frees its holds. -/
  | clear (p : Party) (slot : Fin 256)
  /-- ACK_CLASS (R368). FLT_CMD ACK_CLASS acknowledges every record of a class. -/
  | ackClass (p : Party) (cls : Fin 16)
  /-- CLEAR_L0 (R368). FLT_CMD CLEAR_L0 clears every L0 record. -/
  | clearL0 (p : Party)
  /-- SOURCE_LOST (R380). V_SRC below SRC_UV for 2 µs loses the source and may start a hand-over. -/
  | sourceLost (x : PathSample) (held : Nat)
  /-- HANDOVER_COMPLETE (R383). The battery gate reaches VGS_FULL and the path enters Reserve. -/
  | handoverComplete (x : PathSample)
  /-- SOURCE_QUALIFIED (R384). The source good for 50 ms starts the hand-back. -/
  | sourceQualified (x : PathSample)
  /-- HANDBACK_COMPLETE (R384). The source gate reaches VGS_FULL and the path returns to Source. -/
  | handbackComplete (x : PathSample)
  /-- SOURCE_REVERSE_BLOCK (R378). I_SRC below −0.5 A blocks the source switch. -/
  | sourceReverseBlock (x : PathSample)
  /-- DEPLETION (R385). V_BAT below NCELL × VCUT for 10 ms in Reserve opens the battery switch. -/
  | depletion (x : PathSample) (held : Nat)
  /-- SUPPLEMENT_START (R382). I_BAT below −0.1 A for 1 ms starts supplementing with PWRP/L0. -/
  | supplementStart (x : PathSample) (held : Nat)
  /-- SUPPLEMENT_STOP (R382). I_BAT at or above −0.1 A for 1 ms ends supplementing. -/
  | supplementStop (x : PathSample) (held : Nat)
  /-- PACK_PROBE_START (R387). A suspected or missing pack is probed with 50 mA for 100 ms. -/
  | packProbeStart (x : PathSample) (held : Nat)
  /-- PACK_PROBE_END (R387). The probe ends and judges the pack missing, shorted or present. -/
  | packProbeEnd (x : PathSample)
  /-- PACK_REMOVED (R388). The charging comparators detect a removed pack and stop the charger. -/
  | packRemoved (x : PathSample) (held : Nat)
  /-- PACK_SHORTED (R389). A pack held below NCELL × 0.20 V for 1 s in Precharge is judged shorted. -/
  | packShorted (x : PathSample) (held : Nat)
  /-- CHARGE_SECOND (R392). Each second of Fast averages V_BAT and T and tests −ΔV and dT/dt. -/
  | chargeSecond (vavg tavg : Int)
  /-- CHARGER_TIMER_FAULT (R393). A charge timer or TMAX puts the charger in Fault with PWRP/L1. -/
  | chargerTimerFault (x : PathSample)
  /-- TOPOFF_END (R390). TTOP elapses and the charger enters Done. -/
  | topoffEnd (x : PathSample)
  /-- RECHARGE_START (R390). V_cell below VRECHG for 1 minute in Done returns the charger to Qualify. -/
  | rechargeStart (x : PathSample) (held : Nat)
  /-- SHIP (R395). A write of PWRP_CTRL.SHIP puts the path in Ship. -/
  | ship (p : Party) (chgEn : Bool)
  /-- SHIP_EXIT (R395). A write of PWRP_CTRL.SHIP_EXIT ends Ship. -/
  | shipExit (p : Party) (chgEn : Bool)
  /-- CHG_GO (R390). A write of PWRP_CTRL.CHG_GO charges into Fast or restarts from Done. -/
  | chgGo (p : Party) (chgEn : Bool)
  /-- PWRP_CFG_WRITE (R390). A write of PWRP_CFG returns the charger to Qualify with timers restarted. -/
  | pwrpCfgWrite (p : Party) (w : Word)
  /-- SHIP_PRESS (R395). A SHIP# press of 100 ms to 8 s released ends Ship. -/
  | shipPress (held : Nat)
  /-- OFF_CYCLE_START (R396). SHIP# held 8 s opens both switches and holds the device in power-on reset. -/
  | offCycleStart (held : Nat)
  /-- OFF_CYCLE_END (R396). After 2 s the path returns to Source and the reset is released. -/
  | offCycleEnd
  /-- KEEP_RESET (R404). VKEEP below 1.45 V resets the whole keep domain. -/
  | keepReset
  /-- SWITCH_OVER (R403). The cell branch takes over VKEEP; the count increments and the first is stamped. -/
  | switchOver
  /-- XTAL_STOP (R406). No keep crystal edge for 1 ms sets OSC_STOP and clears TIME_VALID. -/
  | xtalStop
  /-- CALENDAR_SECOND (R409). 32,768 keep periods advance the calendar one second. -/
  | calendarSecond
  /-- TRIM_ADD (R408). Every 32 s TRIM periods are added to the sub-second count. -/
  | trimAdd
  /-- KEEP_CAL_WINDOW (R407). A window of 32,768 keep periods ends with its tick count for KEEP_CAL. -/
  | keepCalWindow (n : Nat)
  /-- KEEP_COMMIT_APPLY (R413). The keep domain applies the head commit whole at a keep edge. -/
  | keepCommitApply
  /-- SET_TIME (R411). KEEP_CMD SET_TIME queues a checked setting of date and time. -/
  | setTime (p : Party)
  /-- HOUR_ADD (R412). KEEP_CMD HOUR_ADD adds an hour and sets DST. -/
  | hourAdd (p : Party)
  /-- HOUR_SUB (R412). KEEP_CMD HOUR_SUB subtracts an hour and clears DST. -/
  | hourSub (p : Party)
  /-- MEM_COMMIT (R416). KEEP_CMD MEM_COMMIT writes the masked staged bytes of keep memory. -/
  | memCommit (p : Party)
  /-- ALARM_SET (R417). KEEP_CMD ALARM_SET sets the alarm from the staged date and time. -/
  | alarmSet (p : Party)
  /-- KEEP_CFG_WRITE (R413). A write of KEEP_CFG queues a keep commit. -/
  | keepCfgWrite (p : Party) (w : Word)
  /-- KEEP_STAT_CLEAR (R413). A write of 1 to a W1C bit of KEEP_STAT queues a keep commit. -/
  | keepStatClear (p : Party) (w : Word)
  /-- KEEP_DATE_READ (R415). A read of KEEP_DATE latches KEEP_TIME into the reader's copy. -/
  | keepDateRead (p : Party)
  /-- ENTER (R428). A write of SYS_REST_CTRL.ENTER schedules rest or is refused. -/
  | enter (p : Party) (wake : BitVec 6)
  /-- REST_ENTRY (R429). At tick E the device latches, disarms, switches everything off and stops its clocks. -/
  | restEntry
  /-- WAKE_EVENT (R431). A wake source in rest starts the wake burst and the restore. -/
  | wakeEvent (src : BitVec 6) (periods : Nat)
  /-- FULLY_ACTIVE (R431). Every domain is restored, the PLL locked and the host bus answers. -/
  | fullyActive
  /-- WRITE (R443). A host WRITE transaction writes COUNT words at ascending addresses. -/
  | hostWrite (tgt : BitVec 7) (op : BitVec 8) (addr : BitVec 16) (b : List Byte) (stop : Bool)
  /-- READ (R444). A host READ transaction returns COUNT words with a PEC. -/
  | hostRead (tgt : BitVec 7) (count : Fin 16) (addr : BitVec 16) (n : Option Nat) (stop : Bool)
  /-- WRITE_FIX (R440). A host WRITE_FIX transaction writes COUNT words to one address. -/
  | writeFix (tgt : BitVec 7) (count : Fin 16) (addr : BitVec 16) (b : List Byte) (stop : Bool)
  /-- READ_FIX (R440). A host READ_FIX transaction reads one address COUNT times. -/
  | readFix (tgt : BitVec 7) (count : Fin 16) (addr : BitVec 16) (n : Option Nat) (stop : Bool)
  /-- SCL_TIMEOUT (R446). SCL low for 30 ms releases SDA, discards the write and records HOST/L1. -/
  | sclTimeout (again : Bool)
  /-- SDA_TIMEOUT (R446). SDA low for 30 ms releases SDA, discards the write and records HOST/L1. -/
  | sdaTimeout (again : Bool)
  /-- ADD (R456). Engine instruction ADD. -/
  | add (n : Fin 8) (rd a b : Fin 16)
  /-- SUB (R456). Engine instruction SUB. -/
  | sub (n : Fin 8) (rd a b : Fin 16)
  /-- AND (R456). Engine instruction AND. -/
  | andI (n : Fin 8) (rd a b : Fin 16)
  /-- OR (R456). Engine instruction OR. -/
  | orI (n : Fin 8) (rd a b : Fin 16)
  /-- XOR (R456). Engine instruction XOR. -/
  | xorI (n : Fin 8) (rd a b : Fin 16)
  /-- SLL (R456). Engine instruction SLL. -/
  | sll (n : Fin 8) (rd a b : Fin 16)
  /-- SRL (R456). Engine instruction SRL. -/
  | srl (n : Fin 8) (rd a b : Fin 16)
  /-- SRA (R456). Engine instruction SRA. -/
  | sra (n : Fin 8) (rd a b : Fin 16)
  /-- SLT (R456). Engine instruction SLT. -/
  | slt (n : Fin 8) (rd a b : Fin 16)
  /-- SLTU (R456). Engine instruction SLTU. -/
  | sltu (n : Fin 8) (rd a b : Fin 16)
  /-- MIN (R456). Engine instruction MIN. -/
  | minI (n : Fin 8) (rd a b : Fin 16)
  /-- MAX (R456). Engine instruction MAX. -/
  | maxI (n : Fin 8) (rd a b : Fin 16)
  /-- MUL (R456). Engine instruction MUL. -/
  | mul (n : Fin 8) (rd a b : Fin 16)
  /-- MULH (R456). Engine instruction MULH. -/
  | mulh (n : Fin 8) (rd a b : Fin 16)
  /-- MULHU (R456). Engine instruction MULHU. -/
  | mulhu (n : Fin 8) (rd a b : Fin 16)
  /-- DIV (R457). Engine instruction DIV. -/
  | div (n : Fin 8) (rd a b : Fin 16)
  /-- DIVU (R457). Engine instruction DIVU. -/
  | divu (n : Fin 8) (rd a b : Fin 16)
  /-- REM (R457). Engine instruction REM. -/
  | rem (n : Fin 8) (rd a b : Fin 16)
  /-- REMU (R457). Engine instruction REMU. -/
  | remu (n : Fin 8) (rd a b : Fin 16)
  /-- MULQ (R456). Engine instruction MULQ. -/
  | mulq (n : Fin 8) (rd a b : Fin 16)
  /-- ADDI (R456). Engine instruction ADDI. -/
  | addi (n : Fin 8) (rd a : Fin 16) (imm : BitVec 18)
  /-- SLTI (R456). Engine instruction SLTI. -/
  | slti (n : Fin 8) (rd a : Fin 16) (imm : BitVec 18)
  /-- ANDI (R456). Engine instruction ANDI. -/
  | andi (n : Fin 8) (rd a : Fin 16) (imm : BitVec 18)
  /-- ORI (R456). Engine instruction ORI. -/
  | ori (n : Fin 8) (rd a : Fin 16) (imm : BitVec 18)
  /-- XORI (R456). Engine instruction XORI. -/
  | xori (n : Fin 8) (rd a : Fin 16) (imm : BitVec 18)
  /-- SLLI (R456). Engine instruction SLLI. -/
  | slli (n : Fin 8) (rd a : Fin 16) (sh : BitVec 5)
  /-- SRLI (R456). Engine instruction SRLI. -/
  | srli (n : Fin 8) (rd a : Fin 16) (sh : BitVec 5)
  /-- SRAI (R456). Engine instruction SRAI. -/
  | srai (n : Fin 8) (rd a : Fin 16) (sh : BitVec 5)
  /-- LUI (R456). Engine instruction LUI. -/
  | lui (n : Fin 8) (rd : Fin 16) (imm : BitVec 16)
  /-- LDW (R453). Engine instruction LDW loads a shared data word. -/
  | ldw (n : Fin 8) (rd a : Fin 16) (imm : BitVec 18)
  /-- STW (R453). Engine instruction STW stores a shared data word. -/
  | stw (n : Fin 8) (b a : Fin 16) (imm : BitVec 18)
  /-- FRD (R456). Engine instruction FRD reads a fabric word. -/
  | frd (n : Fin 8) (rd a : Fin 16) (imm : BitVec 18)
  /-- FWR (R456). Engine instruction FWR writes a fabric word. -/
  | fwr (n : Fin 8) (b a : Fin 16) (imm : BitVec 18)
  /-- BEQ (R456). Engine instruction BEQ. -/
  | beq (n : Fin 8) (a b : Fin 16) (off : BitVec 18)
  /-- BNE (R456). Engine instruction BNE. -/
  | bne (n : Fin 8) (a b : Fin 16) (off : BitVec 18)
  /-- BLT (R456). Engine instruction BLT. -/
  | blt (n : Fin 8) (a b : Fin 16) (off : BitVec 18)
  /-- BGE (R456). Engine instruction BGE. -/
  | bge (n : Fin 8) (a b : Fin 16) (off : BitVec 18)
  /-- BLTU (R456). Engine instruction BLTU. -/
  | bltu (n : Fin 8) (a b : Fin 16) (off : BitVec 18)
  /-- BGEU (R456). Engine instruction BGEU. -/
  | bgeu (n : Fin 8) (a b : Fin 16) (off : BitVec 18)
  /-- JAL (R456). Engine instruction JAL. -/
  | jal (n : Fin 8) (rd : Fin 16) (off : BitVec 22)
  /-- JALR (R456). Engine instruction JALR. -/
  | jalr (n : Fin 8) (rd a : Fin 16) (imm : BitVec 18)
  /-- NOP (R456). Engine instruction NOP. -/
  | nop (n : Fin 8)
  /-- HALT (R459). Engine instruction HALT ends the present run. -/
  | halt (n : Fin 8)
  /-- TICKL (R456). Engine instruction TICKL reads the low tick bits and latches the high bits. -/
  | tickl (n : Fin 8) (rd : Fin 16)
  /-- TICKH (R456). Engine instruction TICKH reads the latched high tick bits. -/
  | tickh (n : Fin 8) (rd : Fin 16)
  /-- CYC (R456). Engine instruction CYC reads the cycles of the run. -/
  | cyc (n : Fin 8) (rd : Fin 16)
  /-- EVT (R460). Engine instruction EVT reads the run's event word. -/
  | evt (n : Fin 8) (rd : Fin 16)
  /-- WAITT (R456). Engine instruction WAITT waits until a given tick. -/
  | waitt (n : Fin 8) (a : Fin 16)
  /-- RUN_START (R461). An idle engine begins the run of its lowest pending slot. -/
  | runStart (n : Fin 8)
  /-- BUDGET_OVERRUN (R462). A run reaching its BUDGET makes ENGINE/L0 and sets OVER. -/
  | budgetOverrun (n : Fin 8)
  /-- WATCHDOG_EXPIRY (R463). A run lasting 64 × LIMIT cycles makes ENGINE/L1 and restarts the engine. -/
  | watchdogExpiry (n : Fin 8)
  /-- RESTART (R464). A write of PEn_CTRL.RESTART stops the engine and starts its restart. -/
  | restart (p : Party) (n : Fin 8)
  /-- RESTART_CHECK_DONE (R464). The instruction memory check ends; registers clear or the engine enters code error. -/
  | restartCheckDone (n : Fin 8)
  /-- INIT_RUN_START (R464). At F + 5,000 the engine begins its init run and RESTARTED is set. -/
  | initRunStart (n : Fin 8)
  /-- GO (R472). A write of PEn_CTRL.GO starts a stopped engine from address 0. -/
  | go (p : Party) (n : Fin 8)
  /-- STOP (R471). A write of PEn_CTRL.STOP stops the engine at the end of its run. -/
  | stop (p : Party) (n : Fin 8)
  /-- MBOX_WRITE (R460). A write of PEn_MBOXk stores the word and registers a mailbox event. -/
  | mboxWrite (p : Party) (n : Fin 8) (k : Fin 4) (w : Word)
  /-- PE_NOTIFY (R473). A write of PE_NOTIFY sets NOTIFY cause bits. -/
  | peNotify (p : Party) (set : BitVec 8)
  /-- WRITEBACK_VERIFY (R477). A corrected word is written back and re-read, and a hard fault is remapped. -/
  | writebackVerify (again : Bool)
  /-- SCRUB_READ (R481). The scrubber reads the next word and ends the lap at the last one. -/
  | scrubRead (busy : Nat)
  /-- MEM_SCRUB_WRITE (R483). A write of MEM_SCRUB sets mode and lock, or is ignored once locked. -/
  | memScrubWrite (p : Party) (w : Word)
  /-- READ_RAW (R484). MEM_CHK_CMD READ_RAW loads a word's raw data and check bits. -/
  | readRaw (p : Party) (key : BitVec 8)
  /-- WRITE_RAW (R484). MEM_CHK_CMD WRITE_RAW writes raw data and check bits to a word. -/
  | writeRaw (p : Party) (key : BitVec 8)
  /-- MEM_CNT_CLR (R501). A write of MEM_CNT_CLR.CLR clears MEM_ECC0–11. -/
  | memCntClr (p : Party)
  /-- PROGRAM (R494). OTP_CMD PROGRAM programs the set bits of one OTP word. -/
  | program (p : Party) (key : BitVec 8)
  /-- WLOCK (R493). OTP_CMD WLOCK sets a region's write-lock. -/
  | wlock (p : Party) (key : BitVec 8)
  /-- RLOCK (R493). OTP_CMD RLOCK sets a region's read-lock. -/
  | rlock (p : Party) (key : BitVec 8)
  /-- CTR_INC (R491). OTP_CMD CTR_INC programs the lowest unprogrammed bit of a counter. -/
  | ctrInc (p : Party) (key : BitVec 8)
  /-- OTP_PULSE_END (R494). A 20 µs programming pulse ends and the word is verified at strict margin. -/
  | otpPulseEnd (seen : Word)
  /-- OTP_WINDOW_READ (R492). A read of the OTP window returns the shadow, or 0 with a Notice when read-locked. -/
  | otpWindowRead (p : Party) (k : Fin 512)
  /-- EXTEST (R498). TAP instruction EXTEST puts the pins under the boundary register. -/
  | extest (d : Option (List Bool))
  /-- SAMPLE_PRELOAD (R496). TAP instruction SAMPLE/PRELOAD selects the boundary register. -/
  | samplePreload (ins : List Bool) (d : Option (List Bool))
  /-- HIGHZ (R498). TAP instruction HIGHZ makes every boundary output high-impedance. -/
  | highz
  /-- CLAMP (R498). TAP instruction CLAMP holds outputs from the boundary register. -/
  | clamp
  /-- DEVID (R496). TAP instruction DEVID selects the 32-bit SYS_ID register. -/
  | devid
  /-- FABRIC (R497). TAP instruction FABRIC selects the 51-bit fabric access register. -/
  | fabric
  /-- BYPASS (R496). TAP instruction BYPASS selects the bypass register. -/
  | bypass (op : BitVec 8)
  /-- FABRIC_ACCESS (R497). An Update-DR with FABRIC selected queues one test-port fabric access. -/
  | fabricAccess (write : Bool) (addr : BitVec 16) (data : Word)
  /-- REFERENCE_RETURN (R21). In holdover the reference returns on the same port, or a manager's crystal returns, before 10 ms expire; the PLL leaves holdover and the count is corrected. -/
  | referenceReturn
  /-- SUPPLY_UNDERVOLTAGE (R422). VCC5 falls below 4.3 V or VCORE below 0.80 V and the device enters power-on reset, with outputs off and unmarked keep commits lost. -/
  | supplyUndervoltage
  /-- KEEP_RESET_RELEASE (R404). VKEEP rises above 1.60 V and the keep reset is released, with the keep domain running from its reset values. -/
  | keepResetRelease
  /-- MAIN_BRANCH_RETURN (R403). The main branch takes VKEEP back from the cell and ON_CELL returns to 0. -/
  | mainBranchReturn
  /-- KEEP_CRYSTAL_RESTART (R406). The keep crystal runs again, XTAL_OK returns to 1 and the calendar counts on from its held value. -/
  | keepCrystalRestart
  /-- I2_RECEIVED (R113). /I2/ arrives on a branch end's downstream port and the worker stops being the end of its branch. -/
  | i2Received (p : Fin 2) (bad : Nat)
  /-- STGFLT_RISE (R229). STGFLTn# returns high, STGLINE clears and the loop's enable block from the low line ends. -/
  | stgfltRise (n : Fin 8)
  /-- SOURCE_BLOCK_RELEASE (R378). V_SRC rises above V_SYS + 50 mV and the source switch leaves Blocked for Ramp. -/
  | sourceBlockRelease (x : PathSample)
  /-- SOURCE_GOOD (R380). V_SRC reaches SRC_UV + SRC_HYS and the source is judged good again. -/
  | sourceGood (x : PathSample)
  /-- CHARGE_CONDITION_CHANGE (R391). The Qualify conditions of temperature, CHG_IN headroom, hold and path come to hold or stop holding, moving the charger out of or back to Qualify. -/
  | chargeConditionChange (x : PathSample)
  /-- PRECHARGE_END (R390). V_cell reaches VPRE in Precharge and the charger enters Fast. -/
  | prechargeEnd (x : PathSample)
  /-- PERIODIC_TRIGGER (R460). At a tick that is a multiple of 1,000 × PERIOD a periodic handler slot registers its event. -/
  | periodicTrigger (n : Fin 8) (h : Fin 8)
  /-- SCRUB_LAP_STARVED (R482). An IDLE scrub lap exceeds LAP_MAX × 100 ms and MEM_CAUSE.STARVED is set. -/
  | scrubLapStarved
deriving DecidableEq, Repr

end Sys2Proof
end

