-- ==== Sys2Proof/Machine/Flags.lean ====
section
/-! DEFINITION. Check computations over bytes: the CRCs of the link, the host bus, the image and the OTP, SHA-256 and
HMAC of the image tag, and little-endian fields. -/

namespace Sys2Proof.Machine

/-! ### Little-endian fields -/

/-- Byte `i` of a list, 0 beyond its end. -/
def byteAt (b : List Byte) (i : Nat) : Nat := (b.getD i 0).toNat

/-- Little-endian number in `n` bytes from offset `o`. -/
def leAt (b : List Byte) (o : Nat) : Nat → Nat
  | 0 => 0
  | n + 1 => byteAt b o + 256 * leAt b (o + 1) n

/-- The low `n` bytes of a number, lowest first. -/
def leBytes (v : Nat) : Nat → List Byte
  | 0 => []
  | n + 1 => BitVec.ofNat 8 v :: leBytes (v / 256) n

/-- The bytes from offset `o`, `n` of them, 0 beyond the end. -/
def slice (b : List Byte) (o n : Nat) : List Byte := (List.range n).map (fun i => b.getD (o + i) 0)

/-- The words of a byte list, four bytes each, lowest first. -/
def wordsOf (b : List Byte) : List Word :=
  (List.range ((b.length + 3) / 4)).map (fun i => BitVec.ofNat 32 (leAt b (4 * i) 4))

/-- The bytes of words, lowest first. -/
def bytesOf (w : List Word) : List Byte := w.flatMap (fun x => leBytes x.toNat 4)

/-! ### Link commands -/

/-- Length of the command at the front of a list of bytes; 0 where it has none of those R123 gives. -/
def cmdLength (b : List Byte) : Nat :=
  let op := byteAt b 0
  let n := byteAt b 1
  if 1 ≤ op ∧ op ≤ 3 then 40
  else if 8 ≤ n ∧ n ≤ 40 ∧ n % 4 = 0 then n else 0

/-! ### CRCs -/

/-- One step of a CRC register of `n` bits, most significant bit first. -/
def crcStep (n poly : Nat) (bit : Bool) (r : Nat) : Nat :=
  let top := r.testBit (n - 1)
  let r2 := (r * 2) % 2 ^ n
  if top != bit then r2 ^^^ poly else r2

/-- A CRC over the bits of a list, in order. -/
def crcBits (n poly init : Nat) (bits : List Bool) : Nat := bits.foldl (fun r b => crcStep n poly b r) init

/-- Bits of a byte, most significant first. -/
def msbBits (b : Byte) : List Bool := [7, 6, 5, 4, 3, 2, 1, 0].map (fun i => b.getLsbD i)

/-- CRC-8 with polynomial 0x07 and initial value 0x00 (R116, R442). -/
def crc8 (b : List Byte) : Nat := crcBits 8 0x07 0 (b.flatMap msbBits)

/-- CRC-16 with polynomial 0x1021, initial value 0xFFFF, no reflection, no final XOR (R122, R487). -/
def crc16 (b : List Byte) : Nat := crcBits 16 0x1021 0xFFFF (b.flatMap msbBits)

/-- CRC-5 over bits 15:5 of a status word, most significant first, polynomial x⁵ + x² + 1, initial value 0b11111
(R126). -/
def crc5 (w : Nat) : Nat :=
  crcBits 5 0b00101 0b11111 ((List.range 11).map (fun i => w.testBit (15 - i)))

/-- One reflected CRC-32 step. -/
def crc32Bit (r : Nat) : Nat := if r % 2 = 1 then (r / 2) ^^^ 0xEDB88320 else r / 2

/-- One byte of the reflected CRC-32. -/
def crc32Byte (r : Nat) (b : Byte) : Nat :=
  crc32Bit (crc32Bit (crc32Bit (crc32Bit (crc32Bit (crc32Bit (crc32Bit (crc32Bit (r ^^^ b.toNat))))))))

/-- CRC-32 of polynomial 0x04C11DB7, reflected, initial value and final XOR 0xFFFFFFFF (R56). -/
def crc32 (b : List Byte) : Nat := (b.foldl crc32Byte 0xFFFFFFFF) ^^^ 0xFFFFFFFF

/-! ### SHA-256 and HMAC (R57) -/

/-- The greatest number below `2 ^ n` above `r` whose power `k` does not exceed `x`, found bit by bit. -/
def rootBits (k x : Nat) : Nat → Nat → Nat
  | 0, r => r
  | n + 1, r => rootBits k x n (if (r + 2 ^ n) ^ k ≤ x then r + 2 ^ n else r)

/-- The first 32 bits after the binary point of the `k`-th root of `p`. -/
def rootFraction (k p : Nat) : Nat := rootBits k (p * 2 ^ (32 * k)) 37 0 % 2 ^ 32

/-- The primes below 312: the first 64 of them. -/
def primes64 : List Nat :=
  (List.range 312).filter (fun p => 2 ≤ p && (List.range p).all (fun d => d < 2 || p % d != 0))

/-- The round constants of SHA-256: the fractions of the cube roots of the first 64 primes. -/
def roundConstants : List Word := primes64.map (fun p => BitVec.ofNat 32 (rootFraction 3 p))

/-- Its initial chaining value: the fractions of the square roots of the first 8 primes. -/
def firstDigest : List Word := (primes64.take 8).map (fun p => BitVec.ofNat 32 (rootFraction 2 p))

/-- The exclusive or of a word turned right by each of three counts; the third count shifts where `cut` is set. -/
def mix3 (cut : Bool) (i j k : Nat) (x : Word) : Word :=
  x.rotateRight i ^^^ x.rotateRight j ^^^ (if cut then x >>> k else x.rotateRight k)

/-- What a round reads and leaves: the eight working words, and the last sixteen words of the message schedule, oldest
first. -/
structure HashSt where
  work : List Word
  sched : List Word
deriving DecidableEq, Repr

/-- One round: it uses the oldest word of the schedule and appends the word sixteen places on. -/
def hashRound (z : HashSt) (k : Word) : HashSt :=
  let v (i : Nat) : Word := z.work.getD i 0
  let m (i : Nat) : Word := z.sched.getD i 0
  let choose := (v 4 &&& v 5) ||| (~~~(v 4) &&& v 6)
  let majority := (v 0 &&& (v 1 ||| v 2)) ||| (v 1 &&& v 2)
  let step := v 7 + mix3 false 6 11 25 (v 4) + choose + k + m 0
  { work := (step + mix3 false 2 13 22 (v 0) + majority) :: z.work.take 3 ++ (v 3 + step) :: (z.work.drop 4).take 3
    sched := z.sched.drop 1 ++ [m 0 + mix3 true 7 18 3 (m 1) + m 9 + mix3 true 17 19 10 (m 14)] }

/-- The chaining value after one block of 64 bytes. -/
def hashBlock (h : List Word) (blk : List Byte) : List Word :=
  let first := (List.range 16).map (fun i => BitVec.ofNat 32 (leAt (slice blk (4 * i) 4).reverse 0 4))
  List.zipWith (· + ·) h (roundConstants.foldl hashRound ⟨h, first⟩).work

/-- A message with its padding: the byte 0x80, zeros up to 8 bytes short of a multiple of 64, the length in bits. -/
def hashPadded (m : List Byte) : List Byte :=
  let body := m ++ [0x80]
  body ++ List.replicate ((120 - body.length % 64) % 64) 0 ++ (leBytes (8 * m.length) 8).reverse

/-- SHA-256 of a message. -/
def sha256 (m : List Byte) : List Byte :=
  let p := hashPadded m
  ((List.range (p.length / 64)).foldl (fun h i => hashBlock h (slice p (64 * i) 64)) firstDigest).flatMap
    (fun w => (leBytes w.toNat 4).reverse)

/-- HMAC-SHA-256 under a 32-byte key. -/
def hmacSha256 (key m : List Byte) : List Byte :=
  let k := key ++ List.replicate (64 - key.length) 0
  let ipad := k.map (fun b => b ^^^ 0x36)
  let opad := k.map (fun b => b ^^^ 0x5C)
  sha256 (opad ++ sha256 (ipad ++ m))

end Sys2Proof.Machine
end

