-- ==== Sys2Proof/Config.lean ====
section
/-! DEFINITION. What the spec leaves open: constants without a body, applied to the operands they depend on or to the
state's counter of free values. Nothing can prove a value of one. -/

namespace Sys2Proof.Config

/-- Column of data bit `i` in the matrix of the (39,32) Hsiao code, which the manual does not give (R475, R484). -/
opaque hsiaoCol : Nat → BitVec 7

/-- The `k`-th free bit: the last place of a result whose rounding no rule states, and other yes-or-no outcomes. -/
opaque freeBit : Nat → Bool

/-- The `k`-th free word. -/
opaque freeWord : Nat → BitVec 64

/-- Where the breaker's trip time lies within ±1 % of the exact interpolation, for a current in mA between two curve points
(R254). -/
opaque curveTime : Nat → Word → Word → Nat

/-- Pin reference point and origin of a port's measurement counter, in 1/32 tick (R116). -/
opaque pinRef : Nat → BitVec 32

/-- Byte of the manager's boot flash, which lies outside the device (R61, R169). -/
opaque flashByte : Nat → BitVec 8

end Sys2Proof.Config
end

