-- ==== Sys2Proof/Machine/Regs.lean ====
section
/-! DEFINITION. The register index of R509: one constant per field of every register's field table (the names are the
manual's), one row per register with its access masks (R12) and its reset value, by block (R504). -/

namespace Sys2Proof.Machine

/-- A register field (R11): the word address of copy 0, the distance between copies, the lowest bit and the width. -/
structure Fld where
  base : Nat
  stride : Nat
  lo : Nat
  width : Nat
deriving DecidableEq, Repr

/-- Word address (with the bank in the bits above 16) of copy `i` of a field. -/
def Fld.addr (f : Fld) (i : Nat) : Nat := f.base + f.stride * i

/-- The same field `k` words on: the second index of a register with two. -/
def Fld.off (f : Fld) (k : Nat) : Fld := { f with base := f.base + k }

/-- The same field in party `p`'s bank (R102): keys of banked copies lie at `65536 * p` above the word address. -/
def Fld.bk (f : Fld) (p : Nat) : Fld := { f with base := f.base + 65536 * p }

namespace F

-- SYS
def SYS_ID : Fld := ⟨0x0000, 0x0, 0, 32⟩
def SYS_ID_PART : Fld := ⟨0x0000, 0x0, 16, 16⟩
def SYS_ID_STEP : Fld := ⟨0x0000, 0x0, 0, 16⟩
def SYS_CLK_STAT : Fld := ⟨0x0001, 0x0, 0, 32⟩
def SYS_CLK_STAT_KEEP_XTAL_OK : Fld := ⟨0x0001, 0x0, 6, 1⟩
def SYS_CLK_STAT_LREF_LOST : Fld := ⟨0x0001, 0x0, 5, 1⟩
def SYS_CLK_STAT_XTAL_LOST : Fld := ⟨0x0001, 0x0, 4, 1⟩
def SYS_CLK_STAT_HOLDOVER : Fld := ⟨0x0001, 0x0, 3, 1⟩
def SYS_CLK_STAT_REF_SRC : Fld := ⟨0x0001, 0x0, 1, 2⟩
def SYS_CLK_STAT_PLL_LOCK : Fld := ⟨0x0001, 0x0, 0, 1⟩
def SYS_DOM_STAT : Fld := ⟨0x0002, 0x0, 0, 32⟩
def SYS_DOM_STAT_ROLE : Fld := ⟨0x0002, 0x0, 6, 1⟩
def SYS_DOM_STAT_KEEP_ON_CELL : Fld := ⟨0x0002, 0x0, 5, 1⟩
def SYS_DOM_STAT_VDDA_OK : Fld := ⟨0x0002, 0x0, 4, 1⟩
def SYS_DOM_STAT_VIN_OK : Fld := ⟨0x0002, 0x0, 3, 1⟩
def SYS_DOM_STAT_LINK_HELD : Fld := ⟨0x0002, 0x0, 2, 1⟩
def SYS_DOM_STAT_VCC5_SRC : Fld := ⟨0x0002, 0x0, 0, 2⟩
def SYS_ARB_DROP : Fld := ⟨0x0003, 0x0, 0, 32⟩
def SYS_ARB_DROP_VALID : Fld := ⟨0x0003, 0x0, 31, 1⟩
def SYS_ARB_DROP_DROP_CNT : Fld := ⟨0x0003, 0x0, 20, 8⟩
def SYS_ARB_DROP_WRITER : Fld := ⟨0x0003, 0x0, 16, 4⟩
def SYS_ARB_DROP_ADDR : Fld := ⟨0x0003, 0x0, 0, 16⟩
def SYS_RST_CTRL : Fld := ⟨0x0004, 0x0, 0, 32⟩
def SYS_RST_CTRL_KEY : Fld := ⟨0x0004, 0x0, 24, 8⟩
def SYS_RST_CTRL_HARD : Fld := ⟨0x0004, 0x0, 1, 1⟩
def SYS_RST_CTRL_SOFT : Fld := ⟨0x0004, 0x0, 0, 1⟩
def SYS_RST_STAT : Fld := ⟨0x0005, 0x0, 0, 32⟩
def SYS_RST_STAT_CAUSE : Fld := ⟨0x0005, 0x0, 29, 3⟩
def SYS_RST_STAT_TEST_EN : Fld := ⟨0x0005, 0x0, 28, 1⟩
def SYS_RST_STAT_RDEF : Fld := ⟨0x0005, 0x0, 27, 1⟩
def SYS_RST_STAT_SOFT_CNT : Fld := ⟨0x0005, 0x0, 0, 16⟩
def SYS_REST_CTRL : Fld := ⟨0x0006, 0x0, 0, 32⟩
def SYS_REST_CTRL_ENTER : Fld := ⟨0x0006, 0x0, 31, 1⟩
def SYS_REST_CTRL_WAKE_SHIP : Fld := ⟨0x0006, 0x0, 5, 1⟩
def SYS_REST_CTRL_WAKE_PWRP : Fld := ⟨0x0006, 0x0, 4, 1⟩
def SYS_REST_CTRL_WAKE_ALARM : Fld := ⟨0x0006, 0x0, 3, 1⟩
def SYS_REST_CTRL_WAKE_MON : Fld := ⟨0x0006, 0x0, 2, 1⟩
def SYS_REST_CTRL_WAKE_HOST : Fld := ⟨0x0006, 0x0, 1, 1⟩
def SYS_REST_CTRL_WAKE_LINK : Fld := ⟨0x0006, 0x0, 0, 1⟩
def SYS_REST_MON : Fld := ⟨0x0007, 0x1, 0, 32⟩
def SYS_REST_MON_MASK : Fld := ⟨0x0007, 0x1, 0, 32⟩
def SYS_REST_STAT : Fld := ⟨0x0009, 0x0, 0, 32⟩
def SYS_REST_STAT_STATE : Fld := ⟨0x0009, 0x0, 30, 2⟩
def SYS_REST_STAT_FORCED : Fld := ⟨0x0009, 0x0, 29, 1⟩
def SYS_REST_STAT_REFUSED : Fld := ⟨0x0009, 0x0, 28, 1⟩
def SYS_REST_STAT_WAKE_SRC : Fld := ⟨0x0009, 0x0, 16, 6⟩
def SYS_REST_STAT_RESTS : Fld := ⟨0x0009, 0x0, 0, 16⟩
def SYS_REST_TICK : Fld := ⟨0x000A, 0x1, 0, 32⟩
def SYS_REST_TICK_TICK : Fld := ⟨0x000A, 0x1, 0, 32⟩
def SYS_REST_DUR : Fld := ⟨0x000C, 0x0, 0, 32⟩
def SYS_REST_DUR_DUR : Fld := ⟨0x000C, 0x0, 0, 32⟩
-- CAL
def CAL_STAT : Fld := ⟨0x0400, 0x0, 0, 32⟩
def CAL_STAT_FAIL_CODE : Fld := ⟨0x0400, 0x0, 24, 8⟩
def CAL_STAT_FAIL_SRC : Fld := ⟨0x0400, 0x0, 20, 4⟩
def CAL_STAT_SRC : Fld := ⟨0x0400, 0x0, 8, 4⟩
def CAL_STAT_TAGGED : Fld := ⟨0x0400, 0x0, 3, 1⟩
def CAL_STAT_STATE : Fld := ⟨0x0400, 0x0, 0, 3⟩
def CAL_ID : Fld := ⟨0x0401, 0x0, 0, 32⟩
def CAL_ID_IMAGE_ID : Fld := ⟨0x0401, 0x0, 0, 32⟩
def CAL_VER : Fld := ⟨0x0402, 0x0, 0, 32⟩
def CAL_VER_IMAGE_VER : Fld := ⟨0x0402, 0x0, 0, 32⟩
def CAL_EDIT : Fld := ⟨0x0403, 0x0, 0, 32⟩
def CAL_EDIT_EDIT : Fld := ⟨0x0403, 0x0, 0, 32⟩
def CAL_LOAD_CTRL : Fld := ⟨0x0404, 0x0, 0, 32⟩
def CAL_LOAD_CTRL_ABORT : Fld := ⟨0x0404, 0x0, 1, 1⟩
def CAL_LOAD_CTRL_START : Fld := ⟨0x0404, 0x0, 0, 1⟩
def CAL_LOAD_CNT : Fld := ⟨0x0405, 0x0, 0, 32⟩
def CAL_LOAD_CNT_BYTES : Fld := ⟨0x0405, 0x0, 0, 20⟩
def CAL_LOAD_AP : Fld := ⟨0x0410, 0x1, 0, 32⟩
def CAL_LOAD_AP_DATA : Fld := ⟨0x0410, 0x1, 0, 32⟩
-- ESC
def ESC_TICK_LO : Fld := ⟨0x0800, 0x0, 0, 32⟩
def ESC_TICK_LO_TICK : Fld := ⟨0x0800, 0x0, 0, 32⟩
def ESC_TICK_HI : Fld := ⟨0x0801, 0x0, 0, 32⟩
def ESC_TICK_HI_TICK : Fld := ⟨0x0801, 0x0, 0, 32⟩
def ESC_STAT : Fld := ⟨0x0802, 0x0, 0, 32⟩
def ESC_STAT_STEP_DIR : Fld := ⟨0x0802, 0x0, 4, 1⟩
def ESC_STAT_STEPPED : Fld := ⟨0x0802, 0x0, 3, 1⟩
def ESC_STAT_SYNC : Fld := ⟨0x0802, 0x0, 0, 3⟩
def ESC_OFFSET : Fld := ⟨0x0803, 0x0, 0, 32⟩
def ESC_OFFSET_PATH_INT : Fld := ⟨0x0803, 0x0, 5, 16⟩
def ESC_OFFSET_PATH_FRAC : Fld := ⟨0x0803, 0x0, 0, 5⟩
def ESC_ERR : Fld := ⟨0x0804, 0x0, 0, 32⟩
def ESC_ERR_ERR : Fld := ⟨0x0804, 0x0, 0, 16⟩
def ESC_ARM_TICK : Fld := ⟨0x0805, 0x0, 0, 32⟩
def ESC_ARM_TICK_VALUE : Fld := ⟨0x0805, 0x0, 0, 32⟩
def ESC_ARM_MASK_LO : Fld := ⟨0x0806, 0x0, 0, 32⟩
def ESC_ARM_MASK_LO_MASK : Fld := ⟨0x0806, 0x0, 0, 32⟩
def ESC_ARM_MASK_HI : Fld := ⟨0x0807, 0x0, 0, 32⟩
def ESC_ARM_MASK_HI_MASK : Fld := ⟨0x0807, 0x0, 0, 32⟩
def ESC_ARM_CMD : Fld := ⟨0x0808, 0x0, 0, 32⟩
def ESC_ARM_CMD_OP : Fld := ⟨0x0808, 0x0, 30, 2⟩
def ESC_ARM_CMD_HIER : Fld := ⟨0x0808, 0x0, 29, 1⟩
def ESC_ARM_CMD_USE_MASK : Fld := ⟨0x0808, 0x0, 28, 1⟩
def ESC_ARM_CMD_SLOT : Fld := ⟨0x0808, 0x0, 0, 8⟩
def ESC_ARM_RES : Fld := ⟨0x0809, 0x0, 0, 32⟩
def ESC_ARM_RES_ID : Fld := ⟨0x0809, 0x0, 16, 16⟩
def ESC_ARM_RES_RESULT : Fld := ⟨0x0809, 0x0, 12, 4⟩
def ESC_ARM_RES_SLOT : Fld := ⟨0x0809, 0x0, 0, 8⟩
def ESC_SLOT_SEL : Fld := ⟨0x080A, 0x0, 0, 32⟩
def ESC_SLOT_SEL_SLOT : Fld := ⟨0x080A, 0x0, 0, 8⟩
def ESC_SLOT_DATA : Fld := ⟨0x0810, 0x1, 0, 32⟩
def ESC_SLOT_DATA_DATA : Fld := ⟨0x0810, 0x1, 0, 32⟩
def ESC_SLOT_STAT : Fld := ⟨0x0818, 0x0, 0, 32⟩
def ESC_SLOT_STAT_ID : Fld := ⟨0x0818, 0x0, 16, 16⟩
def ESC_SLOT_STAT_ARMED : Fld := ⟨0x0818, 0x0, 0, 1⟩
def ESC_SLOT_LAUNCH_LO : Fld := ⟨0x0819, 0x0, 0, 32⟩
def ESC_SLOT_LAUNCH_LO_TICK : Fld := ⟨0x0819, 0x0, 0, 32⟩
def ESC_SLOT_LAUNCH_HI : Fld := ⟨0x081A, 0x0, 0, 32⟩
def ESC_SLOT_LAUNCH_HI_TICK : Fld := ⟨0x081A, 0x0, 0, 32⟩
def ESC_BEAT_NUM : Fld := ⟨0x0820, 0x0, 0, 32⟩
def ESC_BEAT_NUM_NUM : Fld := ⟨0x0820, 0x0, 0, 32⟩
def ESC_BEAT_LEN : Fld := ⟨0x0821, 0x0, 0, 32⟩
def ESC_BEAT_LEN_LEN : Fld := ⟨0x0821, 0x0, 0, 32⟩
def ESC_BEAT_START_LO : Fld := ⟨0x0822, 0x0, 0, 32⟩
def ESC_BEAT_START_LO_TICK : Fld := ⟨0x0822, 0x0, 0, 32⟩
def ESC_BEAT_START_HI : Fld := ⟨0x0823, 0x0, 0, 32⟩
def ESC_BEAT_START_HI_TICK : Fld := ⟨0x0823, 0x0, 0, 32⟩
def ESC_BEAT_STAT : Fld := ⟨0x0824, 0x0, 0, 32⟩
def ESC_BEAT_STAT_RUN : Fld := ⟨0x0824, 0x0, 2, 1⟩
def ESC_BEAT_STAT_COVER : Fld := ⟨0x0824, 0x0, 0, 2⟩
def ESC_CNT : Fld := ⟨0x0828, 0x0, 0, 32⟩
def ESC_CNT_REST_DISARM : Fld := ⟨0x0828, 0x0, 24, 8⟩
def ESC_CNT_BEAT_MISS : Fld := ⟨0x0828, 0x0, 16, 8⟩
def ESC_CNT_STEP : Fld := ⟨0x0828, 0x0, 8, 8⟩
def ESC_CNT_STALE_ID : Fld := ⟨0x0828, 0x0, 0, 8⟩
def ESC_CNT_CLR : Fld := ⟨0x0829, 0x0, 0, 32⟩
def ESC_CNT_CLR_CLR : Fld := ⟨0x0829, 0x0, 0, 1⟩
-- LINK
def LINK_CTRL : Fld := ⟨0x0C00, 0x0, 0, 32⟩
def LINK_CTRL_RETRAIN_B : Fld := ⟨0x0C00, 0x0, 3, 1⟩
def LINK_CTRL_RETRAIN_A : Fld := ⟨0x0C00, 0x0, 2, 1⟩
def LINK_CTRL_PORTB_EN : Fld := ⟨0x0C00, 0x0, 1, 1⟩
def LINK_CTRL_PORTA_EN : Fld := ⟨0x0C00, 0x0, 0, 1⟩
def LINK_PORT_STAT : Fld := ⟨0x0C01, 0x1, 0, 32⟩
def LINK_PORT_STAT_NB_DEV : Fld := ⟨0x0C01, 0x1, 24, 8⟩
def LINK_PORT_STAT_HOPS_VIA : Fld := ⟨0x0C01, 0x1, 16, 8⟩
def LINK_PORT_STAT_NB_ROLE : Fld := ⟨0x0C01, 0x1, 6, 1⟩
def LINK_PORT_STAT_NB_ADOPT : Fld := ⟨0x0C01, 0x1, 5, 1⟩
def LINK_PORT_STAT_END : Fld := ⟨0x0C01, 0x1, 4, 1⟩
def LINK_PORT_STAT_UPSTREAM : Fld := ⟨0x0C01, 0x1, 3, 1⟩
def LINK_PORT_STAT_LD_RX : Fld := ⟨0x0C01, 0x1, 2, 1⟩
def LINK_PORT_STAT_STATE : Fld := ⟨0x0C01, 0x1, 0, 2⟩
def LINK_PATH : Fld := ⟨0x0C03, 0x1, 0, 32⟩
def LINK_PATH_VALID : Fld := ⟨0x0C03, 0x1, 31, 1⟩
def LINK_PATH_PATH_INT : Fld := ⟨0x0C03, 0x1, 5, 16⟩
def LINK_PATH_PATH_FRAC : Fld := ⟨0x0C03, 0x1, 0, 5⟩
def LINK_PH_CTRL : Fld := ⟨0x0C05, 0x0, 0, 32⟩
def LINK_PH_CTRL_PASS_DIS : Fld := ⟨0x0C05, 0x0, 3, 1⟩
def LINK_PH_CTRL_REINJ : Fld := ⟨0x0C05, 0x0, 2, 1⟩
def LINK_PH_CTRL_INJ_B : Fld := ⟨0x0C05, 0x0, 1, 1⟩
def LINK_PH_CTRL_INJ_A : Fld := ⟨0x0C05, 0x0, 0, 1⟩
def LINK_PH_STAT : Fld := ⟨0x0C06, 0x0, 0, 32⟩
def LINK_PH_STAT_PASS_OFF : Fld := ⟨0x0C06, 0x0, 7, 1⟩
def LINK_PH_STAT_ON_B : Fld := ⟨0x0C06, 0x0, 6, 1⟩
def LINK_PH_STAT_ON_A : Fld := ⟨0x0C06, 0x0, 5, 1⟩
def LINK_PH_STAT_PASS_LIM : Fld := ⟨0x0C06, 0x0, 4, 1⟩
def LINK_PH_STAT_OFF_B : Fld := ⟨0x0C06, 0x0, 3, 1⟩
def LINK_PH_STAT_OFF_A : Fld := ⟨0x0C06, 0x0, 2, 1⟩
def LINK_PH_STAT_LIM_B : Fld := ⟨0x0C06, 0x0, 1, 1⟩
def LINK_PH_STAT_LIM_A : Fld := ⟨0x0C06, 0x0, 0, 1⟩
def LINK_WKR : Fld := ⟨0x0C08, 0x1, 0, 32⟩
def LINK_WKR_WKR : Fld := ⟨0x0C08, 0x1, 0, 32⟩
def LINK_ALARM : Fld := ⟨0x0C0A, 0x1, 0, 32⟩
def LINK_ALARM_ALARM : Fld := ⟨0x0C0A, 0x1, 0, 32⟩
def LINK_TAG_STAT : Fld := ⟨0x0C0C, 0x0, 0, 32⟩
def LINK_TAG_STAT_OPEN : Fld := ⟨0x0C0C, 0x0, 8, 6⟩
def LINK_TAG_STAT_GEN : Fld := ⟨0x0C0C, 0x0, 6, 2⟩
def LINK_TAG_STAT_NEXT : Fld := ⟨0x0C0C, 0x0, 0, 6⟩
def LINK_CNT0 : Fld := ⟨0x0C10, 0x0, 0, 32⟩
def LINK_CNT0_CODE_ERR_A : Fld := ⟨0x0C10, 0x0, 24, 8⟩
def LINK_CNT0_CODE_ERR_B : Fld := ⟨0x0C10, 0x0, 16, 8⟩
def LINK_CNT0_HCRC_ERR : Fld := ⟨0x0C10, 0x0, 8, 8⟩
def LINK_CNT0_CCRC_ERR : Fld := ⟨0x0C10, 0x0, 0, 8⟩
def LINK_CNT1 : Fld := ⟨0x0C11, 0x0, 0, 32⟩
def LINK_CNT1_STATUS_ERR : Fld := ⟨0x0C11, 0x0, 24, 8⟩
def LINK_CNT1_SLOT_ERR : Fld := ⟨0x0C11, 0x0, 16, 8⟩
def LINK_CNT1_TIMEOUT : Fld := ⟨0x0C11, 0x0, 8, 8⟩
def LINK_CNT1_HEAL : Fld := ⟨0x0C11, 0x0, 0, 8⟩
def LINK_LATE_CNT : Fld := ⟨0x0C12, 0x0, 0, 32⟩
def LINK_LATE_CNT_DLOST : Fld := ⟨0x0C12, 0x0, 16, 16⟩
def LINK_LATE_CNT_LATE : Fld := ⟨0x0C12, 0x0, 0, 16⟩
def LINK_CNT_CLR : Fld := ⟨0x0C13, 0x0, 0, 32⟩
def LINK_CNT_CLR_CLR : Fld := ⟨0x0C13, 0x0, 0, 1⟩
-- HIER
def HIER_CTRL : Fld := ⟨0x1000, 0x0, 0, 32⟩
def HIER_CTRL_AUTO_ASSIGN : Fld := ⟨0x1000, 0x0, 31, 1⟩
def HIER_CTRL_BASE_B : Fld := ⟨0x1000, 0x0, 8, 6⟩
def HIER_CTRL_BASE_A : Fld := ⟨0x1000, 0x0, 0, 6⟩
def HIER_STAT : Fld := ⟨0x1001, 0x0, 0, 32⟩
def HIER_STAT_DUP : Fld := ⟨0x1001, 0x0, 31, 1⟩
def HIER_STAT_NONUM : Fld := ⟨0x1001, 0x0, 30, 1⟩
def HIER_STAT_DEV_SRC : Fld := ⟨0x1001, 0x0, 28, 2⟩
def HIER_STAT_DEV : Fld := ⟨0x1001, 0x0, 22, 6⟩
def HIER_STAT_STG_STATE : Fld := ⟨0x1001, 0x0, 19, 3⟩
def HIER_STAT_STG_ID : Fld := ⟨0x1001, 0x0, 0, 16⟩
def HIER_LAST : Fld := ⟨0x1002, 0x0, 0, 32⟩
def HIER_LAST_OUT : Fld := ⟨0x1002, 0x0, 16, 2⟩
def HIER_LAST_ID : Fld := ⟨0x1002, 0x0, 0, 16⟩
def HIER_RA_ADDR : Fld := ⟨0x1004, 0x0, 0, 32⟩
def HIER_RA_ADDR_MODE : Fld := ⟨0x1004, 0x0, 31, 1⟩
def HIER_RA_ADDR_BCAST : Fld := ⟨0x1004, 0x0, 30, 1⟩
def HIER_RA_ADDR_COUNT : Fld := ⟨0x1004, 0x0, 24, 3⟩
def HIER_RA_ADDR_TARGET : Fld := ⟨0x1004, 0x0, 0, 22⟩
def HIER_RA_STAT : Fld := ⟨0x1006, 0x0, 0, 32⟩
def HIER_RA_STAT_BUSY : Fld := ⟨0x1006, 0x0, 31, 1⟩
def HIER_RA_STAT_RESULT : Fld := ⟨0x1006, 0x0, 0, 4⟩
def HIER_RA_CMD : Fld := ⟨0x1005, 0x0, 0, 32⟩
def HIER_RA_CMD_OP : Fld := ⟨0x1005, 0x0, 0, 2⟩
def HIER_RA_DATA : Fld := ⟨0x1008, 0x1, 0, 32⟩
def HIER_RA_DATA_DATA : Fld := ⟨0x1008, 0x1, 0, 32⟩
def HIER_WERR : Fld := ⟨0x1010, 0x1, 0, 32⟩
def HIER_WERR_WERR : Fld := ⟨0x1010, 0x1, 0, 32⟩
def HIER_WIRQ : Fld := ⟨0x1012, 0x1, 0, 32⟩
def HIER_WIRQ_WIRQ : Fld := ⟨0x1012, 0x1, 0, 32⟩
def HIER_REJOIN : Fld := ⟨0x1014, 0x1, 0, 32⟩
def HIER_REJOIN_REJOIN : Fld := ⟨0x1014, 0x1, 0, 32⟩
def HIER_SREF : Fld := ⟨0x1016, 0x0, 0, 32⟩
def HIER_SREF_VALID : Fld := ⟨0x1016, 0x0, 31, 1⟩
def HIER_SREF_RESULT : Fld := ⟨0x1016, 0x0, 16, 4⟩
def HIER_SREF_SLOT : Fld := ⟨0x1016, 0x0, 8, 8⟩
def HIER_SREF_DEV : Fld := ⟨0x1016, 0x0, 0, 6⟩
def HIER_SREF_ID : Fld := ⟨0x1017, 0x0, 0, 32⟩
def HIER_SREF_ID_ID : Fld := ⟨0x1017, 0x0, 0, 16⟩
def HIER_STG_ADDR : Fld := ⟨0x1018, 0x0, 0, 32⟩
def HIER_STG_ADDR_WORD : Fld := ⟨0x1018, 0x0, 2, 13⟩
def HIER_STG_DATA : Fld := ⟨0x1019, 0x0, 0, 32⟩
def HIER_STG_DATA_DATA : Fld := ⟨0x1019, 0x0, 0, 32⟩
def HIER_CMT_CMD : Fld := ⟨0x1020, 0x0, 0, 32⟩
def HIER_CMT_CMD_OP : Fld := ⟨0x1020, 0x0, 28, 4⟩
def HIER_CMT_CMD_DEV : Fld := ⟨0x1020, 0x0, 0, 6⟩
def HIER_CMT_LEN : Fld := ⟨0x1021, 0x0, 0, 32⟩
def HIER_CMT_LEN_NPAR : Fld := ⟨0x1021, 0x0, 16, 11⟩
def HIER_CMT_LEN_STAGE_LEN : Fld := ⟨0x1021, 0x0, 0, 15⟩
def HIER_CMT_TICK : Fld := ⟨0x1022, 0x0, 0, 32⟩
def HIER_CMT_TICK_VALUE : Fld := ⟨0x1022, 0x0, 0, 32⟩
def HIER_CMT_DEAD : Fld := ⟨0x1023, 0x0, 0, 32⟩
def HIER_CMT_DEAD_VALUE : Fld := ⟨0x1023, 0x0, 0, 32⟩
def HIER_CMT_STAT : Fld := ⟨0x1024, 0x0, 0, 32⟩
def HIER_CMT_STAT_ID : Fld := ⟨0x1024, 0x0, 16, 16⟩
def HIER_CMT_STAT_RESULT : Fld := ⟨0x1024, 0x0, 12, 4⟩
def HIER_CMT_STAT_OWNER : Fld := ⟨0x1024, 0x0, 8, 4⟩
def HIER_CMT_STAT_PHASE : Fld := ⟨0x1024, 0x0, 0, 3⟩
def HIER_CMT_TGT : Fld := ⟨0x1028, 0x1, 0, 32⟩
def HIER_CMT_TGT_TGT : Fld := ⟨0x1028, 0x1, 0, 32⟩
def HIER_CMT_READY : Fld := ⟨0x102A, 0x1, 0, 32⟩
def HIER_CMT_READY_READY : Fld := ⟨0x102A, 0x1, 0, 32⟩
def HIER_CMT_REFUSE : Fld := ⟨0x102C, 0x1, 0, 32⟩
def HIER_CMT_REFUSE_REFUSE : Fld := ⟨0x102C, 0x1, 0, 32⟩
def HIER_CMT_STALE : Fld := ⟨0x102E, 0x1, 0, 32⟩
def HIER_CMT_STALE_STALE : Fld := ⟨0x102E, 0x1, 0, 32⟩
def HIER_CMT_DONE : Fld := ⟨0x1030, 0x1, 0, 32⟩
def HIER_CMT_DONE_DONE : Fld := ⟨0x1030, 0x1, 0, 32⟩
def HIER_DLV_ADDR : Fld := ⟨0x1038, 0x0, 0, 32⟩
def HIER_DLV_ADDR_FLASH : Fld := ⟨0x1038, 0x0, 0, 24⟩
def HIER_DLV_CMD : Fld := ⟨0x1039, 0x0, 0, 32⟩
def HIER_DLV_CMD_OP : Fld := ⟨0x1039, 0x0, 30, 2⟩
def HIER_DLV_STAT : Fld := ⟨0x103A, 0x0, 0, 32⟩
def HIER_DLV_STAT_BUSY : Fld := ⟨0x103A, 0x0, 31, 1⟩
def HIER_DLV_STAT_RESULT : Fld := ⟨0x103A, 0x0, 28, 3⟩
def HIER_DLV_STAT_NEXT : Fld := ⟨0x103A, 0x0, 0, 14⟩
def HIER_DLV_TGT : Fld := ⟨0x103C, 0x1, 0, 32⟩
def HIER_DLV_TGT_TGT : Fld := ⟨0x103C, 0x1, 0, 32⟩
def HIER_DLV_OK : Fld := ⟨0x103E, 0x1, 0, 32⟩
def HIER_DLV_OK_OK : Fld := ⟨0x103E, 0x1, 0, 32⟩
def HIER_DLV_FAIL : Fld := ⟨0x1040, 0x1, 0, 32⟩
def HIER_DLV_FAIL_FAIL : Fld := ⟨0x1040, 0x1, 0, 32⟩
-- LOOP
def LOOPn_CTRL : Fld := ⟨0x2000, 0x100, 0, 32⟩
def LOOPn_CTRL_SKIP_EN : Fld := ⟨0x2000, 0x100, 1, 1⟩
def LOOPn_CTRL_DCM_EN : Fld := ⟨0x2000, 0x100, 0, 1⟩
def LOOPn_STAT : Fld := ⟨0x2001, 0x100, 0, 32⟩
def LOOPn_STAT_CLK_STATE : Fld := ⟨0x2001, 0x100, 29, 3⟩
def LOOPn_STAT_SYNC_LOST : Fld := ⟨0x2001, 0x100, 28, 1⟩
def LOOPn_STAT_ALIGNED : Fld := ⟨0x2001, 0x100, 27, 1⟩
def LOOPn_STAT_CLAMP_HI : Fld := ⟨0x2001, 0x100, 26, 1⟩
def LOOPn_STAT_CLAMP_LO : Fld := ⟨0x2001, 0x100, 25, 1⟩
def LOOPn_STAT_SS_DONE : Fld := ⟨0x2001, 0x100, 24, 1⟩
def LOOPn_STAT_PG : Fld := ⟨0x2001, 0x100, 23, 1⟩
def LOOPn_STAT_NACT : Fld := ⟨0x2001, 0x100, 18, 5⟩
def LOOPn_STAT_EN : Fld := ⟨0x2001, 0x100, 17, 1⟩
def LOOPn_STAT_ILOOP : Fld := ⟨0x2001, 0x100, 0, 16⟩
def LOOPn_FSW : Fld := ⟨0x2002, 0x100, 0, 32⟩
def LOOPn_FSW_DMAX : Fld := ⟨0x2002, 0x100, 24, 8⟩
def LOOPn_FSW_PERIOD : Fld := ⟨0x2002, 0x100, 0, 14⟩
def LOOPn_ALIGN : Fld := ⟨0x2003, 0x100, 0, 32⟩
def LOOPn_ALIGN_OFS : Fld := ⟨0x2003, 0x100, 0, 14⟩
def LOOPn_TARGET : Fld := ⟨0x2004, 0x100, 0, 32⟩
def LOOPn_TARGET_MARGIN : Fld := ⟨0x2004, 0x100, 24, 8⟩
def LOOPn_TARGET_VREF : Fld := ⟨0x2004, 0x100, 0, 13⟩
def LOOPn_SS : Fld := ⟨0x2005, 0x100, 0, 32⟩
def LOOPn_SS_SLEW : Fld := ⟨0x2005, 0x100, 16, 10⟩
def LOOPn_SS_PG_WIN : Fld := ⟨0x2005, 0x100, 0, 8⟩
def LOOPn_KPKI : Fld := ⟨0x2006, 0x100, 0, 32⟩
def LOOPn_KPKI_KP : Fld := ⟨0x2006, 0x100, 16, 16⟩
def LOOPn_KPKI_KI : Fld := ⟨0x2006, 0x100, 0, 16⟩
def LOOPn_KD : Fld := ⟨0x2007, 0x100, 0, 32⟩
def LOOPn_KD_KD : Fld := ⟨0x2007, 0x100, 0, 16⟩
def LOOPn_POLES : Fld := ⟨0x2008, 0x100, 0, 32⟩
def LOOPn_POLES_A1 : Fld := ⟨0x2008, 0x100, 16, 16⟩
def LOOPn_POLES_A2 : Fld := ⟨0x2008, 0x100, 0, 16⟩
def LOOPn_CLAMP : Fld := ⟨0x2009, 0x100, 0, 32⟩
def LOOPn_CLAMP_IMAX_PH : Fld := ⟨0x2009, 0x100, 16, 10⟩
def LOOPn_CLAMP_IMIN_PH : Fld := ⟨0x2009, 0x100, 0, 10⟩
def LOOPn_LL : Fld := ⟨0x200A, 0x100, 0, 32⟩
def LOOPn_LL_RLL : Fld := ⟨0x200A, 0x100, 0, 12⟩
def LOOPn_PWM : Fld := ⟨0x200B, 0x100, 0, 32⟩
def LOOPn_PWM_SLOPE : Fld := ⟨0x200B, 0x100, 20, 12⟩
def LOOPn_PWM_BLANK : Fld := ⟨0x200B, 0x100, 16, 4⟩
def LOOPn_PWM_DT_FALL : Fld := ⟨0x200B, 0x100, 10, 5⟩
def LOOPn_PWM_DT_RISE : Fld := ⟨0x200B, 0x100, 5, 5⟩
def LOOPn_SHED : Fld := ⟨0x200C, 0x100, 0, 32⟩
def LOOPn_SHED_ADD_I : Fld := ⟨0x200C, 0x100, 24, 8⟩
def LOOPn_SHED_SHED_I : Fld := ⟨0x200C, 0x100, 16, 8⟩
def LOOPn_SHED_SHED_T : Fld := ⟨0x200C, 0x100, 8, 8⟩
def LOOPn_SHED_NMIN : Fld := ⟨0x200C, 0x100, 0, 5⟩
def LOOPn_ACTIVE : Fld := ⟨0x200D, 0x100, 0, 32⟩
def LOOPn_ACTIVE_MASK : Fld := ⟨0x200D, 0x100, 0, 24⟩
def LOOPn_VSENSE : Fld := ⟨0x200E, 0x100, 0, 32⟩
def LOOPn_VSENSE_ERR : Fld := ⟨0x200E, 0x100, 16, 16⟩
def LOOPn_VSENSE_VSENSE : Fld := ⟨0x200E, 0x100, 0, 13⟩
def LOOPn_DEMAND : Fld := ⟨0x200F, 0x100, 0, 32⟩
def LOOPn_DEMAND_D : Fld := ⟨0x200F, 0x100, 0, 10⟩
def LOOPn_STATS : Fld := ⟨0x2020, 0x100, 0, 32⟩
def LOOPn_STATS_V : Fld := ⟨0x2020, 0x100, 0, 32⟩
def LOOPn_HINT : Fld := ⟨0x2010, 0x100, 0, 32⟩
def LOOPn_HINT_EN : Fld := ⟨0x2010, 0x100, 31, 1⟩
def LOOPn_HINT_REL_EN : Fld := ⟨0x2010, 0x100, 30, 1⟩
def LOOPn_HINT_LEAD : Fld := ⟨0x2010, 0x100, 20, 8⟩
def LOOPn_HINT_GUARD : Fld := ⟨0x2010, 0x100, 12, 8⟩
def LOOPn_HINT_STEP : Fld := ⟨0x2010, 0x100, 0, 12⟩
def LOOPn_HINT2 : Fld := ⟨0x2011, 0x100, 0, 32⟩
def LOOPn_HINT2_FF_ADV : Fld := ⟨0x2011, 0x100, 24, 8⟩
def LOOPn_HINT2_UW_STEP : Fld := ⟨0x2011, 0x100, 16, 8⟩
def LOOPn_HINT2_COUT : Fld := ⟨0x2011, 0x100, 0, 12⟩
def LOOPn_BRAKE : Fld := ⟨0x2012, 0x100, 0, 32⟩
def LOOPn_BRAKE_EN : Fld := ⟨0x2012, 0x100, 31, 1⟩
def LOOPn_BRAKE_BRK_ON : Fld := ⟨0x2012, 0x100, 16, 8⟩
def LOOPn_BRAKE_BRK_OFF : Fld := ⟨0x2012, 0x100, 8, 8⟩
def LOOPn_BRAKE_BRK_TMAX : Fld := ⟨0x2012, 0x100, 0, 8⟩
def LOOPn_OCP : Fld := ⟨0x2013, 0x100, 0, 32⟩
def LOOPn_OCP_ISC : Fld := ⟨0x2013, 0x100, 16, 10⟩
def LOOPn_OCP_IPK_LIM : Fld := ⟨0x2013, 0x100, 0, 10⟩
def LOOPn_OVLD : Fld := ⟨0x2014, 0x100, 0, 32⟩
def LOOPn_OVLD_OVL_I : Fld := ⟨0x2014, 0x100, 20, 12⟩
def LOOPn_OVLD_OVL_PK : Fld := ⟨0x2014, 0x100, 8, 12⟩
def LOOPn_OVLD_T : Fld := ⟨0x2015, 0x100, 0, 32⟩
def LOOPn_OVLD_T_NBIN : Fld := ⟨0x2015, 0x100, 0, 13⟩
def LOOPn_OVLD_B : Fld := ⟨0x2016, 0x100, 0, 32⟩
def LOOPn_OVLD_B_B : Fld := ⟨0x2016, 0x100, 0, 28⟩
def LOOPn_PHFLT : Fld := ⟨0x2017, 0x100, 0, 32⟩
def LOOPn_PHFLT_IMB_I : Fld := ⟨0x2017, 0x100, 24, 8⟩
def LOOPn_PHFLT_IMB_N : Fld := ⟨0x2017, 0x100, 20, 4⟩
def LOOPn_PHFLT_PLA_N : Fld := ⟨0x2017, 0x100, 16, 4⟩
def LOOPn_PHFLT_CAP_FLOOR : Fld := ⟨0x2017, 0x100, 8, 5⟩
def LOOPn_PHFLT_IMB_MIN : Fld := ⟨0x2017, 0x100, 0, 6⟩
def LOOPn_PHFLT2 : Fld := ⟨0x2018, 0x100, 0, 32⟩
def LOOPn_PHFLT2_L_PH : Fld := ⟨0x2018, 0x100, 16, 16⟩
def LOOPn_PHFLT2_VIN_NOM : Fld := ⟨0x2018, 0x100, 0, 10⟩
def LOOPn_SENSE : Fld := ⟨0x2019, 0x100, 0, 32⟩
def LOOPn_SENSE_LOCAL_EN : Fld := ⟨0x2019, 0x100, 31, 1⟩
def LOOPn_SENSE_SNS_DEV : Fld := ⟨0x2019, 0x100, 16, 8⟩
def LOOPn_SENSE_SNS_N : Fld := ⟨0x2019, 0x100, 12, 4⟩
def LOOPn_THR : Fld := ⟨0x201A, 0x100, 0, 32⟩
def LOOPn_THR_SW : Fld := ⟨0x201A, 0x100, 31, 1⟩
def LOOPn_THR_THR_N : Fld := ⟨0x201A, 0x100, 16, 8⟩
def LOOPn_THR_THR_HOLD : Fld := ⟨0x201A, 0x100, 0, 16⟩
def LOOPn_TSTAT : Fld := ⟨0x201B, 0x100, 0, 32⟩
def LOOPn_TSTAT_HSTATE : Fld := ⟨0x201B, 0x100, 29, 3⟩
def LOOPn_TSTAT_BRAKING : Fld := ⟨0x201B, 0x100, 28, 1⟩
def LOOPn_TSTAT_OVL : Fld := ⟨0x201B, 0x100, 27, 1⟩
def LOOPn_TSTAT_LOCAL : Fld := ⟨0x201B, 0x100, 26, 1⟩
def LOOPn_TSTAT_SC : Fld := ⟨0x201B, 0x100, 25, 1⟩
def LOOPn_TSTAT_STG : Fld := ⟨0x201B, 0x100, 24, 1⟩
def LOOPn_TSTAT_THR : Fld := ⟨0x201B, 0x100, 23, 1⟩
def LOOPn_TSTAT_SRC : Fld := ⟨0x201B, 0x100, 18, 5⟩
def LOOPn_TSTAT_NAVAIL : Fld := ⟨0x201B, 0x100, 13, 5⟩
def LOOPn_TSTAT_STGLINE : Fld := ⟨0x201B, 0x100, 12, 1⟩
def LOOPn_TSTAT_ARRIVED : Fld := ⟨0x201B, 0x100, 11, 1⟩
def LOOPn_OPTB0 : Fld := ⟨0x201C, 0x100, 0, 32⟩
def LOOPn_OPTB0_ADD_MAX : Fld := ⟨0x201C, 0x100, 24, 8⟩
def LOOPn_OPTB0_ADD_MIN : Fld := ⟨0x201C, 0x100, 16, 8⟩
def LOOPn_OPTB0_SHED_MAX : Fld := ⟨0x201C, 0x100, 8, 8⟩
def LOOPn_OPTB0_SHED_MIN : Fld := ⟨0x201C, 0x100, 0, 8⟩
def LOOPn_OPTB1 : Fld := ⟨0x201D, 0x100, 0, 32⟩
def LOOPn_OPTB1_LOCK : Fld := ⟨0x201D, 0x100, 31, 1⟩
def LOOPn_OPTB1_DTR_MAX : Fld := ⟨0x201D, 0x100, 20, 5⟩
def LOOPn_OPTB1_DTR_MIN : Fld := ⟨0x201D, 0x100, 15, 5⟩
def LOOPn_OPTB1_DTF_MAX : Fld := ⟨0x201D, 0x100, 10, 5⟩
def LOOPn_OPTB1_DTF_MIN : Fld := ⟨0x201D, 0x100, 5, 5⟩
def LOOPn_OPTB2 : Fld := ⟨0x201E, 0x100, 0, 32⟩
def LOOPn_OPTB2_PER_MAX : Fld := ⟨0x201E, 0x100, 16, 14⟩
def LOOPn_OPTB2_PER_MIN : Fld := ⟨0x201E, 0x100, 0, 14⟩
def LOOPn_TSTATS : Fld := ⟨0x2028, 0x100, 0, 32⟩
def LOOPn_TSTATS_V : Fld := ⟨0x2028, 0x100, 0, 32⟩
-- PH
def PHn_CTRL : Fld := ⟨0x2800, 0x20, 0, 32⟩
def PHn_CTRL_DIS : Fld := ⟨0x2800, 0x20, 16, 1⟩
def PHn_CTRL_IGAIN : Fld := ⟨0x2800, 0x20, 8, 8⟩
def PHn_CTRL_IOFS : Fld := ⟨0x2800, 0x20, 0, 8⟩
def PHn_STAT : Fld := ⟨0x2801, 0x20, 0, 32⟩
def PHn_STAT_STATE : Fld := ⟨0x2801, 0x20, 29, 3⟩
def PHn_STAT_IPH : Fld := ⟨0x2801, 0x20, 16, 10⟩
def PHn_STAT_IPK : Fld := ⟨0x2801, 0x20, 0, 10⟩
def PHn_FLT : Fld := ⟨0x2802, 0x20, 0, 32⟩
def PHn_FLT_CAUSE : Fld := ⟨0x2802, 0x20, 29, 3⟩
def PHn_FLT_PLA_CNT : Fld := ⟨0x2802, 0x20, 12, 4⟩
def PHn_FLT_IMB_CNT : Fld := ⟨0x2802, 0x20, 8, 4⟩
-- CHAN
def CHn_CTRL : Fld := ⟨0x3000, 0x40, 0, 32⟩
def CHn_CTRL_ON : Fld := ⟨0x3000, 0x40, 0, 1⟩
def CHn_STAT : Fld := ⟨0x3001, 0x40, 0, 32⟩
def CHn_STAT_STATE : Fld := ⟨0x3001, 0x40, 28, 4⟩
def CHn_STAT_PG : Fld := ⟨0x3001, 0x40, 27, 1⟩
def CHn_STAT_FET_DMG : Fld := ⟨0x3001, 0x40, 26, 1⟩
def CHn_STAT_RESCUED : Fld := ⟨0x3001, 0x40, 25, 1⟩
def CHn_STAT_BRK_PEND : Fld := ⟨0x3001, 0x40, 24, 1⟩
def CHn_STAT_RETRY_CNT : Fld := ⟨0x3001, 0x40, 20, 4⟩
def CHn_STAT_CAUSE : Fld := ⟨0x3001, 0x40, 17, 3⟩
def CHn_STAT_TRIP : Fld := ⟨0x3001, 0x40, 16, 1⟩
def CHn_CFG : Fld := ⟨0x3002, 0x40, 0, 32⟩
def CHn_CFG_RSH : Fld := ⟨0x3002, 0x40, 16, 16⟩
def CHn_CFG_SHED_GRP : Fld := ⟨0x3002, 0x40, 12, 4⟩
def CHn_CFG_DSCH : Fld := ⟨0x3002, 0x40, 11, 1⟩
def CHn_CFG_DECAY_T : Fld := ⟨0x3002, 0x40, 0, 8⟩
def CHn_INRUSH : Fld := ⟨0x3003, 0x40, 0, 32⟩
def CHn_INRUSH_SR : Fld := ⟨0x3003, 0x40, 16, 9⟩
def CHn_INRUSH_TSTART : Fld := ⟨0x3003, 0x40, 8, 8⟩
def CHn_LIMIT : Fld := ⟨0x3004, 0x40, 0, 32⟩
def CHn_LIMIT_ISC : Fld := ⟨0x3004, 0x40, 16, 12⟩
def CHn_LIMIT_ILIM_SS : Fld := ⟨0x3004, 0x40, 0, 12⟩
def CHn_PG : Fld := ⟨0x3005, 0x40, 0, 32⟩
def CHn_PG_VGS_FULL : Fld := ⟨0x3005, 0x40, 8, 8⟩
def CHn_PG_VDS_PG : Fld := ⟨0x3005, 0x40, 0, 8⟩
def CHn_RETRY : Fld := ⟨0x3006, 0x40, 0, 32⟩
def CHn_RETRY_RETRY_N : Fld := ⟨0x3006, 0x40, 28, 4⟩
def CHn_RETRY_RETRY_DLY : Fld := ⟨0x3006, 0x40, 20, 8⟩
def CHn_RETRY_RETRY_HYS : Fld := ⟨0x3006, 0x40, 14, 6⟩
def CHn_RETRY_RETRY_CLR : Fld := ⟨0x3006, 0x40, 0, 8⟩
def CHn_PAIR : Fld := ⟨0x3007, 0x40, 0, 32⟩
def CHn_PAIR_EN : Fld := ⟨0x3007, 0x40, 31, 1⟩
def CHn_PAIR_PMODE : Fld := ⟨0x3007, 0x40, 30, 1⟩
def CHn_PAIR_BRK_DLY : Fld := ⟨0x3007, 0x40, 16, 8⟩
def CHn_PAIR_IREV : Fld := ⟨0x3007, 0x40, 8, 8⟩
def CHn_PAIR_VFWD_ON : Fld := ⟨0x3007, 0x40, 0, 8⟩
def CHn_PAIR2 : Fld := ⟨0x3008, 0x40, 0, 32⟩
def CHn_PAIR2_STBY_UV : Fld := ⟨0x3008, 0x40, 16, 10⟩
def CHn_PAIR2_STBY_FLOOR : Fld := ⟨0x3008, 0x40, 0, 10⟩
def CHn_MEAS : Fld := ⟨0x3009, 0x40, 0, 32⟩
def CHn_MEAS_I : Fld := ⟨0x3009, 0x40, 16, 16⟩
def CHn_MEAS_VGS : Fld := ⟨0x3009, 0x40, 8, 8⟩
def CHn_VOLT : Fld := ⟨0x300A, 0x40, 0, 32⟩
def CHn_VOLT_VBUS : Fld := ⟨0x300A, 0x40, 16, 16⟩
def CHn_VOLT_VOUT : Fld := ⟨0x300A, 0x40, 0, 16⟩
def CHn_TEMP : Fld := ⟨0x300B, 0x40, 0, 32⟩
def CHn_TEMP_TW1 : Fld := ⟨0x300B, 0x40, 16, 16⟩
def CHn_TEMP_TW2 : Fld := ⟨0x300B, 0x40, 0, 16⟩
def CHn_TEMP2 : Fld := ⟨0x300C, 0x40, 0, 32⟩
def CHn_TEMP2_TFET : Fld := ⟨0x300C, 0x40, 16, 16⟩
def CHn_TEMP2_BACC : Fld := ⟨0x300C, 0x40, 0, 16⟩
def CHn_CURVE : Fld := ⟨0x3010, 0x40, 0, 32⟩
def CHn_CURVE_W : Fld := ⟨0x3010, 0x40, 0, 32⟩
def CHn_WIRE : Fld := ⟨0x301C, 0x40, 0, 32⟩
def CHn_WIRE_W : Fld := ⟨0x301C, 0x40, 0, 32⟩
def CHn_FET : Fld := ⟨0x3022, 0x40, 0, 32⟩
def CHn_FET_W : Fld := ⟨0x3022, 0x40, 0, 32⟩
def CHn_STATS : Fld := ⟨0x3030, 0x40, 0, 32⟩
def CHn_STATS_V : Fld := ⟨0x3030, 0x40, 0, 32⟩
-- SEQ
def SEQ_CTRL : Fld := ⟨0x3800, 0x0, 0, 32⟩
def SEQ_CTRL_RLY_EN : Fld := ⟨0x3800, 0x0, 31, 1⟩
def SEQ_STAT : Fld := ⟨0x3801, 0x0, 0, 32⟩
def SEQ_STAT_NUP : Fld := ⟨0x3801, 0x0, 24, 8⟩
def SEQ_STAT_NGOOD : Fld := ⟨0x3801, 0x0, 16, 8⟩
def SEQ_STAT_NFAIL : Fld := ⟨0x3801, 0x0, 8, 8⟩
def SEQ_STAT_LETDOWN : Fld := ⟨0x3801, 0x0, 1, 1⟩
def SEQ_STAT_WINDING : Fld := ⟨0x3801, 0x0, 0, 1⟩
def SEQ_HOLD : Fld := ⟨0x3802, 0x1, 0, 32⟩
def SEQ_HOLD_HOLD : Fld := ⟨0x3802, 0x1, 0, 32⟩
def SEQ_SUM : Fld := ⟨0x3804, 0x1, 0, 32⟩
def SEQ_SUM_V : Fld := ⟨0x3804, 0x1, 0, 32⟩
def SEQ_RPAR : Fld := ⟨0x380A, 0x1, 0, 32⟩
def SEQ_RPAR_HOLD : Fld := ⟨0x380A, 0x1, 31, 1⟩
def SEQ_RPAR_POINT : Fld := ⟨0x380A, 0x1, 0, 17⟩
def SEQ_RLY_MASK : Fld := ⟨0x3812, 0x1, 0, 32⟩
def SEQ_RLY_MASK_MASK : Fld := ⟨0x3812, 0x1, 0, 32⟩
def SEQ_REC_SEL : Fld := ⟨0x3814, 0x0, 0, 32⟩
def SEQ_REC_SEL_RAIL : Fld := ⟨0x3814, 0x0, 0, 6⟩
def SEQ_REC : Fld := ⟨0x3815, 0x1, 0, 32⟩
def SEQ_REC_DATA : Fld := ⟨0x3815, 0x1, 0, 32⟩
def SEQ_MRG_CFG : Fld := ⟨0x3820, 0x1, 0, 32⟩
def SEQ_MRG_CFG_INV : Fld := ⟨0x3820, 0x1, 31, 1⟩
def SEQ_MRG_CFG_STEP : Fld := ⟨0x3820, 0x1, 16, 10⟩
def SEQ_MRG_CFG_RATE : Fld := ⟨0x3820, 0x1, 8, 8⟩
def SEQ_RLY_CNT : Fld := ⟨0x3828, 0x0, 0, 32⟩
def SEQ_RLY_CNT_ROUNDS : Fld := ⟨0x3828, 0x0, 16, 16⟩
def SEQ_RLY_CNT_ERRS : Fld := ⟨0x3828, 0x0, 0, 16⟩
def SEQ_MIR : Fld := ⟨0x3B00, 0x6, 0, 32⟩
def SEQ_MIR_V : Fld := ⟨0x3B00, 0x6, 0, 32⟩
def SEQ_MIR_STALE : Fld := ⟨0x3C80, 0x1, 0, 32⟩
def SEQ_MIR_STALE_STALE : Fld := ⟨0x3C80, 0x1, 0, 32⟩
def SEQ_RAILn_CTRL : Fld := ⟨0x3840, 0x8, 0, 32⟩
def SEQ_RAILn_CTRL_MARGIN : Fld := ⟨0x3840, 0x8, 8, 8⟩
def SEQ_RAILn_CTRL_ON : Fld := ⟨0x3840, 0x8, 0, 1⟩
def SEQ_RAILn_STAT : Fld := ⟨0x3841, 0x8, 0, 32⟩
def SEQ_RAILn_STAT_STATE : Fld := ⟨0x3841, 0x8, 28, 4⟩
def SEQ_RAILn_STAT_GOOD : Fld := ⟨0x3841, 0x8, 27, 1⟩
def SEQ_RAILn_STAT_DEMAND : Fld := ⟨0x3841, 0x8, 26, 1⟩
def SEQ_RAILn_STAT_UP : Fld := ⟨0x3841, 0x8, 25, 1⟩
def SEQ_RAILn_STAT_EARLY : Fld := ⟨0x3841, 0x8, 24, 1⟩
def SEQ_RAILn_STAT_TBLK : Fld := ⟨0x3841, 0x8, 23, 1⟩
def SEQ_RAILn_STAT_CAUSE : Fld := ⟨0x3841, 0x8, 20, 3⟩
def SEQ_RAILn_STAT_UNWOUND : Fld := ⟨0x3841, 0x8, 19, 1⟩
def SEQ_RAILn_STAT_CUT : Fld := ⟨0x3841, 0x8, 18, 1⟩
def SEQ_RAILn_CFG : Fld := ⟨0x3842, 0x8, 0, 32⟩
def SEQ_RAILn_CFG_STOP_T : Fld := ⟨0x3842, 0x8, 24, 8⟩
def SEQ_RAILn_CFG_RAMP : Fld := ⟨0x3842, 0x8, 10, 14⟩
def SEQ_RAILn_CFG_LOSS_T : Fld := ⟨0x3842, 0x8, 0, 10⟩
def SEQ_RAILn_TICK : Fld := ⟨0x3843, 0x8, 0, 32⟩
def SEQ_RAILn_TICK_TICK : Fld := ⟨0x3843, 0x8, 0, 32⟩
def SEQ_RAILn_STATS0 : Fld := ⟨0x3844, 0x8, 0, 32⟩
def SEQ_RAILn_STATS0_STARTS : Fld := ⟨0x3844, 0x8, 16, 16⟩
def SEQ_RAILn_STATS0_UNWINDS : Fld := ⟨0x3844, 0x8, 0, 16⟩
def SEQ_RAILn_STATS1 : Fld := ⟨0x3845, 0x8, 0, 32⟩
def SEQ_RAILn_STATS1_FAILS : Fld := ⟨0x3845, 0x8, 16, 16⟩
def SEQ_RAILn_STATS1_CUTS : Fld := ⟨0x3845, 0x8, 0, 16⟩
def SEQ_RAILn_STATS2 : Fld := ⟨0x3846, 0x8, 0, 32⟩
def SEQ_RAILn_STATS2_CHATTER : Fld := ⟨0x3846, 0x8, 0, 32⟩
def SEQ_RAILn_STATS3 : Fld := ⟨0x3847, 0x8, 0, 32⟩
def SEQ_RAILn_STATS3_WIND_T : Fld := ⟨0x3847, 0x8, 0, 32⟩
-- MEAS
def MEASm_MASK : Fld := ⟨0x4000, 0xC0, 0, 32⟩
def MEASm_MASK_MASK : Fld := ⟨0x4000, 0xC0, 0, 32⟩
def MEASm_CFG : Fld := ⟨0x4001, 0xC0, 0, 32⟩
def MEASm_CFG_URG_SPLIT : Fld := ⟨0x4001, 0xC0, 16, 6⟩
def MEASm_CFG_RATE : Fld := ⟨0x4001, 0xC0, 0, 14⟩
def MEASm_STAT : Fld := ⟨0x4002, 0xC0, 0, 32⟩
def MEASm_STAT_RUN : Fld := ⟨0x4002, 0xC0, 31, 1⟩
def MEASm_STAT_URG_PEND : Fld := ⟨0x4002, 0xC0, 30, 1⟩
def MEASm_STAT_URG_DONE : Fld := ⟨0x4002, 0xC0, 29, 1⟩
def MEASm_STAT_URG_BUSY : Fld := ⟨0x4002, 0xC0, 28, 1⟩
def MEASm_STAT_OVR : Fld := ⟨0x4002, 0xC0, 27, 1⟩
def MEASm_STAT_CUR : Fld := ⟨0x4002, 0xC0, 16, 5⟩
def MEASm_STAT_SCANS : Fld := ⟨0x4002, 0xC0, 0, 16⟩
def MEASm_URG : Fld := ⟨0x4003, 0xC0, 0, 32⟩
def MEASm_URG_GO : Fld := ⟨0x4003, 0xC0, 31, 1⟩
def MEASm_URG_ENTRY : Fld := ⟨0x4003, 0xC0, 0, 5⟩
def MEASm_VALID : Fld := ⟨0x4004, 0xC0, 0, 32⟩
def MEASm_VALID_VALID : Fld := ⟨0x4004, 0xC0, 0, 32⟩
def MEASm_WOUT : Fld := ⟨0x4005, 0xC0, 0, 32⟩
def MEASm_WOUT_WOUT : Fld := ⟨0x4005, 0xC0, 0, 32⟩
def MEASm_WRET : Fld := ⟨0x4006, 0xC0, 0, 32⟩
def MEASm_WRET_WRET : Fld := ⟨0x4006, 0xC0, 0, 32⟩
def MEASm_WSTATE : Fld := ⟨0x4007, 0xC0, 0, 32⟩
def MEASm_WSTATE_WSTATE : Fld := ⟨0x4007, 0xC0, 0, 32⟩
def MEASm_TSTAMP : Fld := ⟨0x4008, 0xC0, 0, 32⟩
def MEASm_TSTAMP_TICK : Fld := ⟨0x4008, 0xC0, 0, 32⟩
def MEASm_WCNT : Fld := ⟨0x4010, 0xC0, 0, 32⟩
def MEASm_WCNT_CNT_HI : Fld := ⟨0x4010, 0xC0, 16, 16⟩
def MEASm_WCNT_CNT_LO : Fld := ⟨0x4010, 0xC0, 0, 16⟩
def MEASm_RES : Fld := ⟨0x4020, 0xC0, 0, 32⟩
def MEASm_RES_RESULT : Fld := ⟨0x4020, 0xC0, 0, 32⟩
def MEASm_ENT : Fld := ⟨0x4040, 0xC0, 0, 32⟩
def MEASm_ENT_WORD : Fld := ⟨0x4040, 0xC0, 0, 32⟩
def MEASm_WLO : Fld := ⟨0x4060, 0xC0, 0, 32⟩
def MEASm_WLO_LO : Fld := ⟨0x4060, 0xC0, 0, 24⟩
def MEASm_WHI : Fld := ⟨0x4080, 0xC0, 0, 32⟩
def MEASm_WHI_HI : Fld := ⟨0x4080, 0xC0, 0, 24⟩
def MEAS_METERk_CFG : Fld := ⟨0x4300, 0x4, 0, 32⟩
def MEAS_METERk_CFG_SHUNT : Fld := ⟨0x4300, 0x4, 16, 16⟩
def MEAS_METERk_CFG_VSCALE : Fld := ⟨0x4300, 0x4, 0, 16⟩
def MEAS_METERk_STAT : Fld := ⟨0x4301, 0x4, 0, 32⟩
def MEAS_METERk_STAT_GAP : Fld := ⟨0x4301, 0x4, 31, 1⟩
def MEAS_METERk_STAT_NOSCALE : Fld := ⟨0x4301, 0x4, 30, 1⟩
def MEAS_METERk_STAT_LOOPMODE : Fld := ⟨0x4301, 0x4, 29, 1⟩
def MEAS_METERk_STAT_I_ENT : Fld := ⟨0x4301, 0x4, 7, 7⟩
def MEAS_METERk_STAT_V_ENT : Fld := ⟨0x4301, 0x4, 0, 7⟩
def MEAS_METERk_E_LO : Fld := ⟨0x4302, 0x4, 0, 32⟩
def MEAS_METERk_E_LO_E : Fld := ⟨0x4302, 0x4, 0, 32⟩
def MEAS_METERk_E_HI : Fld := ⟨0x4303, 0x4, 0, 32⟩
def MEAS_METERk_E_HI_E : Fld := ⟨0x4303, 0x4, 0, 32⟩
def MEAS_REFCHK : Fld := ⟨0x4340, 0x0, 0, 32⟩
def MEAS_REFCHK_REF_ERR : Fld := ⟨0x4340, 0x0, 31, 1⟩
def MEAS_REFCHK_REF_TOL : Fld := ⟨0x4340, 0x0, 0, 8⟩
-- MON
def MONn_CFG : Fld := ⟨0x4400, 0x4, 0, 32⟩
def MONn_CFG_OV_HYS : Fld := ⟨0x4400, 0x4, 20, 4⟩
def MONn_CFG_UV_HYS : Fld := ⟨0x4400, 0x4, 16, 4⟩
def MONn_CFG_IRQ_OV : Fld := ⟨0x4400, 0x4, 13, 1⟩
def MONn_CFG_IRQ_UV : Fld := ⟨0x4400, 0x4, 12, 1⟩
def MONn_CFG_FILT_K : Fld := ⟨0x4400, 0x4, 8, 4⟩
def MONn_CFG_FILT_N : Fld := ⟨0x4400, 0x4, 4, 3⟩
def MONn_CFG_MODE : Fld := ⟨0x4400, 0x4, 0, 2⟩
def MONn_TH : Fld := ⟨0x4401, 0x4, 0, 32⟩
def MONn_TH_OV_TH : Fld := ⟨0x4401, 0x4, 16, 10⟩
def MONn_TH_UV_TH : Fld := ⟨0x4401, 0x4, 0, 10⟩
def MONn_STAT : Fld := ⟨0x4402, 0x4, 0, 32⟩
def MONn_STAT_MODE_ACT : Fld := ⟨0x4402, 0x4, 6, 2⟩
def MONn_STAT_TEST : Fld := ⟨0x4402, 0x4, 5, 1⟩
def MONn_STAT_SETTLE : Fld := ⟨0x4402, 0x4, 4, 1⟩
def MONn_STAT_OV_RAW : Fld := ⟨0x4402, 0x4, 3, 1⟩
def MONn_STAT_UV_RAW : Fld := ⟨0x4402, 0x4, 2, 1⟩
def MONn_STAT_OV : Fld := ⟨0x4402, 0x4, 1, 1⟩
def MONn_STAT_UV : Fld := ⟨0x4402, 0x4, 0, 1⟩
def MONn_ROUTE : Fld := ⟨0x4403, 0x4, 0, 32⟩
def MONn_ROUTE_FAULTS : Fld := ⟨0x4403, 0x4, 16, 2⟩
def MONn_ROUTE_RAIL : Fld := ⟨0x4403, 0x4, 8, 8⟩
def MONn_ROUTE_INPUT : Fld := ⟨0x4403, 0x4, 0, 8⟩
def MON_UV : Fld := ⟨0x4500, 0x1, 0, 32⟩
def MON_UV_UV : Fld := ⟨0x4500, 0x1, 0, 32⟩
def MON_OV : Fld := ⟨0x4502, 0x1, 0, 32⟩
def MON_OV_OV : Fld := ⟨0x4502, 0x1, 0, 32⟩
def MON_UVC : Fld := ⟨0x4504, 0x1, 0, 32⟩
def MON_UVC_UVC : Fld := ⟨0x4504, 0x1, 0, 32⟩
def MON_OVC : Fld := ⟨0x4506, 0x1, 0, 32⟩
def MON_OVC_OVC : Fld := ⟨0x4506, 0x1, 0, 32⟩
def MON_TEST : Fld := ⟨0x4508, 0x0, 0, 32⟩
def MON_TEST_GO : Fld := ⟨0x4508, 0x0, 31, 1⟩
def MON_TEST_END : Fld := ⟨0x4508, 0x0, 20, 10⟩
def MON_TEST_START : Fld := ⟨0x4508, 0x0, 10, 10⟩
def MON_TEST_CELL : Fld := ⟨0x4508, 0x0, 0, 6⟩
def MON_TEST_DW : Fld := ⟨0x4509, 0x0, 0, 32⟩
def MON_TEST_DW_DWELL : Fld := ⟨0x4509, 0x0, 0, 8⟩
def MON_TEST_STAT : Fld := ⟨0x450A, 0x0, 0, 32⟩
def MON_TEST_STAT_BUSY : Fld := ⟨0x450A, 0x0, 31, 1⟩
def MON_TEST_STAT_DONE : Fld := ⟨0x450A, 0x0, 30, 1⟩
def MON_TEST_STAT_REFUSED : Fld := ⟨0x450A, 0x0, 29, 1⟩
def MON_TEST_STAT_UV_SEEN : Fld := ⟨0x450A, 0x0, 28, 1⟩
def MON_TEST_STAT_OV_SEEN : Fld := ⟨0x450A, 0x0, 27, 1⟩
def MON_TEST_STAT_OV_AT : Fld := ⟨0x450A, 0x0, 16, 10⟩
def MON_TEST_STAT_UV_AT : Fld := ⟨0x450A, 0x0, 0, 10⟩
-- THM
def THM_CTRL : Fld := ⟨0x4800, 0x0, 0, 32⟩
def THM_CTRL_SHED_STEP : Fld := ⟨0x4800, 0x0, 0, 8⟩
def THM_STAT : Fld := ⟨0x4801, 0x0, 0, 32⟩
def THM_STAT_ENG_SLOW : Fld := ⟨0x4801, 0x0, 31, 1⟩
def THM_STAT_NSHUT : Fld := ⟨0x4801, 0x0, 16, 8⟩
def THM_STAT_NTHR : Fld := ⟨0x4801, 0x0, 8, 8⟩
def THM_STAT_NWARN : Fld := ⟨0x4801, 0x0, 0, 8⟩
def THM_PDEV : Fld := ⟨0x4802, 0x0, 0, 32⟩
def THM_PDEV_P_DEV : Fld := ⟨0x4802, 0x0, 0, 16⟩
def THM_LOOPn_STG : Fld := ⟨0x4808, 0x1, 0, 32⟩
def THM_LOOPn_STG_RST : Fld := ⟨0x4808, 0x1, 20, 12⟩
def THM_LOOPn_STG_KI : Fld := ⟨0x4808, 0x1, 10, 10⟩
def THM_LOOPn_STG_P0 : Fld := ⟨0x4808, 0x1, 0, 10⟩
def THM_LOOPn_CEIL : Fld := ⟨0x4810, 0x1, 0, 32⟩
def THM_LOOPn_CEIL_CEIL : Fld := ⟨0x4810, 0x1, 0, 10⟩
def THM_SENSk : Fld := ⟨0x4818, 0x1, 0, 32⟩
def THM_SENSk_BAD : Fld := ⟨0x4818, 0x1, 31, 1⟩
def THM_SENSk_ABSENT : Fld := ⟨0x4818, 0x1, 30, 1⟩
def THM_SENSk_DISAGREE : Fld := ⟨0x4818, 0x1, 29, 1⟩
def THM_SENSk_CAUSE : Fld := ⟨0x4818, 0x1, 28, 1⟩
def THM_SENSk_GAIN : Fld := ⟨0x4818, 0x1, 16, 8⟩
def THM_SENSk_TS : Fld := ⟨0x4818, 0x1, 0, 16⟩
def THM_NTCk_CFG : Fld := ⟨0x4824, 0x1, 0, 32⟩
def THM_NTCk_CFG_R25 : Fld := ⟨0x4824, 0x1, 16, 16⟩
def THM_NTCk_CFG_B : Fld := ⟨0x4824, 0x1, 0, 13⟩
def THM_NTCk_MAP : Fld := ⟨0x4828, 0x1, 0, 32⟩
def THM_NTCk_MAP_NODE : Fld := ⟨0x4828, 0x1, 0, 8⟩
def THM_LVLW : Fld := ⟨0x4830, 0x1, 0, 32⟩
def THM_LVLW_LVLW : Fld := ⟨0x4830, 0x1, 0, 32⟩
def THM_LVLT : Fld := ⟨0x4834, 0x1, 0, 32⟩
def THM_LVLT_LVLT : Fld := ⟨0x4834, 0x1, 0, 32⟩
def THM_LVLS : Fld := ⟨0x4838, 0x1, 0, 32⟩
def THM_LVLS_LVLS : Fld := ⟨0x4838, 0x1, 0, 32⟩
def THM_UPC : Fld := ⟨0x483C, 0x1, 0, 32⟩
def THM_UPC_UPC : Fld := ⟨0x483C, 0x1, 0, 32⟩
def THM_NODEn_T : Fld := ⟨0x4900, 0x1, 0, 32⟩
def THM_NODEn_T_T : Fld := ⟨0x4900, 0x1, 16, 16⟩
def THM_NODEn_T_LEVEL : Fld := ⟨0x4900, 0x1, 14, 2⟩
def THM_NODEn_T_USED : Fld := ⟨0x4900, 0x1, 13, 1⟩
def THM_NODEn_TH : Fld := ⟨0x4980, 0x1, 0, 32⟩
def THM_NODEn_TH_SHUT : Fld := ⟨0x4980, 0x1, 24, 8⟩
def THM_NODEn_TH_THROT : Fld := ⟨0x4980, 0x1, 16, 8⟩
def THM_NODEn_TH_WARN : Fld := ⟨0x4980, 0x1, 8, 8⟩
def THM_NODEn_TH_HYS : Fld := ⟨0x4980, 0x1, 0, 5⟩
def THM_NODEn_ACT : Fld := ⟨0x4A00, 0x1, 0, 32⟩
def THM_NODEn_ACT_THR : Fld := ⟨0x4A00, 0x1, 31, 1⟩
def THM_NODEn_ACT_LOOP : Fld := ⟨0x4A00, 0x1, 24, 4⟩
def THM_NODEn_ACT_SHED_D : Fld := ⟨0x4A00, 0x1, 16, 4⟩
def THM_NODEn_ACT_CEIL : Fld := ⟨0x4A00, 0x1, 0, 10⟩
def THM_NODEn_P0 : Fld := ⟨0x4A80, 0x1, 0, 32⟩
def THM_NODEn_P0_RTH : Fld := ⟨0x4A80, 0x1, 16, 16⟩
def THM_NODEn_P0_CTH : Fld := ⟨0x4A80, 0x1, 0, 16⟩
def THM_NODEn_P1 : Fld := ⟨0x4B00, 0x1, 0, 32⟩
def THM_NODEn_P1_REF : Fld := ⟨0x4B00, 0x1, 24, 8⟩
def THM_NODEn_P1_TFIX : Fld := ⟨0x4B00, 0x1, 16, 8⟩
def THM_NODEn_P1_SHARE : Fld := ⟨0x4B00, 0x1, 8, 8⟩
def THM_XMAXn : Fld := ⟨0x4B80, 0x1, 0, 32⟩
def THM_XMAXn_TMAX : Fld := ⟨0x4B80, 0x1, 16, 16⟩
-- FLT
def FLT_STAT : Fld := ⟨0x4C00, 0x0, 0, 32⟩
def FLT_STAT_ERR : Fld := ⟨0x4C00, 0x0, 31, 1⟩
def FLT_STAT_SAFE : Fld := ⟨0x4C00, 0x0, 30, 1⟩
def FLT_STAT_HALT : Fld := ⟨0x4C00, 0x0, 29, 1⟩
def FLT_STAT_FULL : Fld := ⟨0x4C00, 0x0, 28, 1⟩
def FLT_STAT_MAXLVL : Fld := ⟨0x4C00, 0x0, 25, 3⟩
def FLT_STAT_NREC : Fld := ⟨0x4C00, 0x0, 16, 9⟩
def FLT_STAT_NERR : Fld := ⟨0x4C00, 0x0, 7, 9⟩
def FLT_NEWC : Fld := ⟨0x4C01, 0x0, 0, 32⟩
def FLT_NEWC_HWRAP : Fld := ⟨0x4C01, 0x0, 7, 1⟩
def FLT_NEWC_OVF : Fld := ⟨0x4C01, 0x0, 6, 1⟩
def FLT_NEWC_ESC : Fld := ⟨0x4C01, 0x0, 5, 1⟩
def FLT_NEWC_LVL : Fld := ⟨0x4C01, 0x0, 0, 5⟩
def FLT_DROP : Fld := ⟨0x4C02, 0x0, 0, 32⟩
def FLT_DROP_L0 : Fld := ⟨0x4C02, 0x0, 16, 16⟩
def FLT_DROP_MERGE : Fld := ⟨0x4C02, 0x0, 0, 16⟩
def FLT_LOCK : Fld := ⟨0x4C03, 0x0, 0, 32⟩
def FLT_LOCK_LOCK : Fld := ⟨0x4C03, 0x0, 0, 1⟩
def FLT_SAFE_RAIL : Fld := ⟨0x4C04, 0x1, 0, 32⟩
def FLT_SAFE_RAIL_KEEP : Fld := ⟨0x4C04, 0x1, 0, 32⟩
def FLT_SAFE_CH : Fld := ⟨0x4C06, 0x0, 0, 32⟩
def FLT_SAFE_CH_KEEP : Fld := ⟨0x4C06, 0x0, 0, 24⟩
def FLT_HOLD_RAIL : Fld := ⟨0x4C08, 0x1, 0, 32⟩
def FLT_HOLD_RAIL_RAIL : Fld := ⟨0x4C08, 0x1, 0, 32⟩
def FLT_HOLD_CH : Fld := ⟨0x4C0A, 0x0, 0, 32⟩
def FLT_HOLD_CH_CH : Fld := ⟨0x4C0A, 0x0, 0, 24⟩
def FLT_HOLD_PAIR : Fld := ⟨0x4C0B, 0x0, 0, 32⟩
def FLT_HOLD_PAIR_PAIR : Fld := ⟨0x4C0B, 0x0, 0, 32⟩
def FLT_HOLD_TGT : Fld := ⟨0x4C0C, 0x0, 0, 32⟩
def FLT_HOLD_TGT_CHG : Fld := ⟨0x4C0C, 0x0, 16, 1⟩
def FLT_HOLD_TGT_ENG : Fld := ⟨0x4C0C, 0x0, 8, 8⟩
def FLT_HOLD_TGT_LOOP : Fld := ⟨0x4C0C, 0x0, 0, 8⟩
def FLT_SEL : Fld := ⟨0x4C10, 0x0, 0, 32⟩
def FLT_SEL_HIST : Fld := ⟨0x4C10, 0x0, 31, 1⟩
def FLT_SEL_INDEX : Fld := ⟨0x4C10, 0x0, 0, 10⟩
def FLT_RECD : Fld := ⟨0x4C11, 0x1, 0, 32⟩
def FLT_RECD_DATA : Fld := ⟨0x4C11, 0x1, 0, 32⟩
def FLT_HIST_HEAD : Fld := ⟨0x4C19, 0x0, 0, 32⟩
def FLT_HIST_HEAD_WRAPS : Fld := ⟨0x4C19, 0x0, 16, 16⟩
def FLT_HIST_HEAD_NEXT : Fld := ⟨0x4C19, 0x0, 0, 10⟩
def FLT_CMD_ARG : Fld := ⟨0x4C20, 0x0, 0, 32⟩
def FLT_CMD_ARG_SEQ : Fld := ⟨0x4C20, 0x0, 16, 16⟩
def FLT_CMD_ARG_CNT : Fld := ⟨0x4C20, 0x0, 0, 8⟩
def FLT_CMD : Fld := ⟨0x4C21, 0x0, 0, 32⟩
def FLT_CMD_OP : Fld := ⟨0x4C21, 0x0, 28, 4⟩
def FLT_CMD_CLASS : Fld := ⟨0x4C21, 0x0, 8, 4⟩
def FLT_CMD_INDEX : Fld := ⟨0x4C21, 0x0, 0, 8⟩
def FLT_CMD_RES : Fld := ⟨0x4C22, 0x0, 0, 32⟩
def FLT_CMD_RES_RESULT : Fld := ⟨0x4C22, 0x0, 4, 4⟩
def FLT_CMD_RES_OP : Fld := ⟨0x4C22, 0x0, 0, 4⟩
def FLT_CNT : Fld := ⟨0x4C28, 0x1, 0, 32⟩
def FLT_CNT_CNT_HI : Fld := ⟨0x4C28, 0x1, 16, 16⟩
def FLT_CNT_CNT_LO : Fld := ⟨0x4C28, 0x1, 0, 16⟩
-- IRQ
def IRQ_SUMMARY : Fld := ⟨0x5000, 0x0, 0, 32⟩
def IRQ_SUMMARY_GROUP : Fld := ⟨0x5000, 0x0, 0, 32⟩
def IRQ_EN : Fld := ⟨0x5001, 0x0, 0, 32⟩
def IRQ_EN_EN : Fld := ⟨0x5001, 0x0, 0, 25⟩
def IRQ_SUB_CHAN : Fld := ⟨0x5002, 0x0, 0, 32⟩
def IRQ_SUB_CHAN_CH : Fld := ⟨0x5002, 0x0, 0, 24⟩
def IRQ_SUB_SEQ : Fld := ⟨0x5003, 0x1, 0, 32⟩
def IRQ_SUB_SEQ_RAIL : Fld := ⟨0x5003, 0x1, 0, 32⟩
-- PWRP
def PWRP_CTRL : Fld := ⟨0x5400, 0x0, 0, 32⟩
def PWRP_CTRL_SHIP : Fld := ⟨0x5400, 0x0, 31, 1⟩
def PWRP_CTRL_SHIP_EXIT : Fld := ⟨0x5400, 0x0, 30, 1⟩
def PWRP_CTRL_CHG_GO : Fld := ⟨0x5400, 0x0, 29, 1⟩
def PWRP_CTRL_CHG_EN : Fld := ⟨0x5400, 0x0, 0, 1⟩
def PWRP_STAT : Fld := ⟨0x5401, 0x0, 0, 32⟩
def PWRP_STAT_PATH : Fld := ⟨0x5401, 0x0, 29, 3⟩
def PWRP_STAT_CHG : Fld := ⟨0x5401, 0x0, 26, 3⟩
def PWRP_STAT_AVAIL : Fld := ⟨0x5401, 0x0, 25, 1⟩
def PWRP_STAT_BAT_MISSING : Fld := ⟨0x5401, 0x0, 24, 1⟩
def PWRP_STAT_SHORTED : Fld := ⟨0x5401, 0x0, 23, 1⟩
def PWRP_STAT_DEPLETED : Fld := ⟨0x5401, 0x0, 22, 1⟩
def PWRP_STAT_SRC_GOOD : Fld := ⟨0x5401, 0x0, 21, 1⟩
def PWRP_STAT_HEADROOM : Fld := ⟨0x5401, 0x0, 20, 1⟩
def PWRP_STAT_SUPPL : Fld := ⟨0x5401, 0x0, 19, 1⟩
def PWRP_STAT_ELAPSED : Fld := ⟨0x5401, 0x0, 0, 16⟩
def PWRP_CFG : Fld := ⟨0x5402, 0x0, 0, 32⟩
def PWRP_CFG_NCELL : Fld := ⟨0x5402, 0x0, 28, 4⟩
def PWRP_CFG_IFAST : Fld := ⟨0x5402, 0x0, 16, 8⟩
def PWRP_CFG_IPRE : Fld := ⟨0x5402, 0x0, 8, 8⟩
def PWRP_CFG_ITOP : Fld := ⟨0x5402, 0x0, 0, 8⟩
def PWRP_CHG2 : Fld := ⟨0x5403, 0x0, 0, 32⟩
def PWRP_CHG2_IFAST_HI : Fld := ⟨0x5403, 0x0, 31, 1⟩
def PWRP_CHG2_TPRE_MAX : Fld := ⟨0x5403, 0x0, 16, 8⟩
def PWRP_CHG2_TFAST_MAX : Fld := ⟨0x5403, 0x0, 8, 8⟩
def PWRP_CHG2_TTOP : Fld := ⟨0x5403, 0x0, 0, 8⟩
def PWRP_EOC : Fld := ⟨0x5404, 0x0, 0, 32⟩
def PWRP_EOC_DV : Fld := ⟨0x5404, 0x0, 24, 8⟩
def PWRP_EOC_DTDT : Fld := ⟨0x5404, 0x0, 16, 8⟩
def PWRP_EOC_THOLD : Fld := ⟨0x5404, 0x0, 8, 8⟩
def PWRP_TLIM : Fld := ⟨0x5405, 0x0, 0, 32⟩
def PWRP_TLIM_TCHG_LO : Fld := ⟨0x5405, 0x0, 24, 8⟩
def PWRP_TLIM_TCHG_HI : Fld := ⟨0x5405, 0x0, 16, 8⟩
def PWRP_TLIM_TMAX : Fld := ⟨0x5405, 0x0, 8, 8⟩
def PWRP_VCELL : Fld := ⟨0x5406, 0x0, 0, 32⟩
def PWRP_VCELL_VPRE : Fld := ⟨0x5406, 0x0, 24, 8⟩
def PWRP_VCELL_VRECHG : Fld := ⟨0x5406, 0x0, 16, 8⟩
def PWRP_VCELL_VAVAIL : Fld := ⟨0x5406, 0x0, 8, 8⟩
def PWRP_VCELL_VCUT : Fld := ⟨0x5406, 0x0, 0, 8⟩
def PWRP_SW : Fld := ⟨0x5407, 0x0, 0, 32⟩
def PWRP_SW_SRC_UV : Fld := ⟨0x5407, 0x0, 24, 8⟩
def PWRP_SW_SRC_HYS : Fld := ⟨0x5407, 0x0, 20, 4⟩
def PWRP_SW_ILIM_SRC : Fld := ⟨0x5407, 0x0, 12, 8⟩
def PWRP_SW_AVAIL_RAIL : Fld := ⟨0x5407, 0x0, 4, 8⟩
def PWRP_SW_VGS_FULL : Fld := ⟨0x5407, 0x0, 0, 4⟩
def PWRP_SHUNT : Fld := ⟨0x5408, 0x0, 0, 32⟩
def PWRP_SHUNT_RSH_BAT : Fld := ⟨0x5408, 0x0, 16, 16⟩
def PWRP_SHUNT_RSH_SRC : Fld := ⟨0x5408, 0x0, 0, 16⟩
def PWRP_PTH : Fld := ⟨0x5409, 0x0, 0, 32⟩
def PWRP_PTH_R25 : Fld := ⟨0x5409, 0x0, 16, 16⟩
def PWRP_PTH_B : Fld := ⟨0x5409, 0x0, 0, 13⟩
def PWRP_MEAS0 : Fld := ⟨0x540A, 0x0, 0, 32⟩
def PWRP_MEAS0_VBAT : Fld := ⟨0x540A, 0x0, 16, 16⟩
def PWRP_MEAS0_IBAT : Fld := ⟨0x540A, 0x0, 0, 16⟩
def PWRP_MEAS1 : Fld := ⟨0x540B, 0x0, 0, 32⟩
def PWRP_MEAS1_VSRC : Fld := ⟨0x540B, 0x0, 16, 16⟩
def PWRP_MEAS1_ISRC : Fld := ⟨0x540B, 0x0, 0, 16⟩
def PWRP_MEAS2 : Fld := ⟨0x540C, 0x0, 0, 32⟩
def PWRP_MEAS2_TPACK : Fld := ⟨0x540C, 0x0, 16, 16⟩
def PWRP_MEAS2_VSYS : Fld := ⟨0x540C, 0x0, 0, 16⟩
def PWRP_CAUSE : Fld := ⟨0x540D, 0x0, 0, 32⟩
def PWRP_CAUSE_SHIP_EXIT : Fld := ⟨0x540D, 0x0, 8, 1⟩
def PWRP_CAUSE_DEPLETE : Fld := ⟨0x540D, 0x0, 7, 1⟩
def PWRP_CAUSE_SUPPL : Fld := ⟨0x540D, 0x0, 6, 1⟩
def PWRP_CAUSE_CHG_FAULT : Fld := ⟨0x540D, 0x0, 5, 1⟩
def PWRP_CAUSE_CHG_DONE : Fld := ⟨0x540D, 0x0, 4, 1⟩
def PWRP_CAUSE_SHORT : Fld := ⟨0x540D, 0x0, 3, 1⟩
def PWRP_CAUSE_PRESENT : Fld := ⟨0x540D, 0x0, 2, 1⟩
def PWRP_CAUSE_MISSING : Fld := ⟨0x540D, 0x0, 1, 1⟩
def PWRP_CAUSE_HANDBACK : Fld := ⟨0x540D, 0x0, 0, 1⟩
def PWRP_CNT : Fld := ⟨0x540E, 0x0, 0, 32⟩
def PWRP_CNT_HANDOVERS : Fld := ⟨0x540E, 0x0, 16, 16⟩
def PWRP_CNT_CYCLES : Fld := ⟨0x540E, 0x0, 0, 16⟩
-- KEEP
def KEEP_STAT : Fld := ⟨0x5800, 0x0, 0, 32⟩
def KEEP_STAT_TIME_VALID : Fld := ⟨0x5800, 0x0, 31, 1⟩
def KEEP_STAT_MEM_VALID : Fld := ⟨0x5800, 0x0, 30, 1⟩
def KEEP_STAT_DST : Fld := ⟨0x5800, 0x0, 29, 1⟩
def KEEP_STAT_ON_CELL : Fld := ⟨0x5800, 0x0, 28, 1⟩
def KEEP_STAT_XTAL_OK : Fld := ⟨0x5800, 0x0, 27, 1⟩
def KEEP_STAT_QUEUE : Fld := ⟨0x5800, 0x0, 23, 4⟩
def KEEP_STAT_KRST : Fld := ⟨0x5800, 0x0, 8, 1⟩
def KEEP_STAT_SWITCH : Fld := ⟨0x5800, 0x0, 7, 1⟩
def KEEP_STAT_OSC_STOP : Fld := ⟨0x5800, 0x0, 6, 1⟩
def KEEP_STAT_YEAR_WRAP : Fld := ⟨0x5800, 0x0, 5, 1⟩
def KEEP_STAT_DATE_REJECT : Fld := ⟨0x5800, 0x0, 4, 1⟩
def KEEP_STAT_DST_REJECT : Fld := ⟨0x5800, 0x0, 3, 1⟩
def KEEP_STAT_ALARM : Fld := ⟨0x5800, 0x0, 2, 1⟩
def KEEP_CFG : Fld := ⟨0x5801, 0x0, 0, 32⟩
def KEEP_CFG_ALARM_EN : Fld := ⟨0x5801, 0x0, 31, 1⟩
def KEEP_CFG_PWRON_FORCE : Fld := ⟨0x5801, 0x0, 30, 1⟩
def KEEP_CFG_TRIM_AUTO : Fld := ⟨0x5801, 0x0, 29, 1⟩
def KEEP_CFG_CELL_CHG : Fld := ⟨0x5801, 0x0, 28, 1⟩
def KEEP_CFG_TRIM : Fld := ⟨0x5801, 0x0, 0, 8⟩
def KEEP_DATE : Fld := ⟨0x5802, 0x0, 0, 32⟩
def KEEP_DATE_YEAR : Fld := ⟨0x5802, 0x0, 16, 9⟩
def KEEP_DATE_WDAY : Fld := ⟨0x5802, 0x0, 12, 3⟩
def KEEP_DATE_MONTH : Fld := ⟨0x5802, 0x0, 8, 4⟩
def KEEP_DATE_DAY : Fld := ⟨0x5802, 0x0, 0, 5⟩
def KEEP_SET_DATE : Fld := ⟨0x5804, 0x0, 0, 32⟩
def KEEP_SET_DATE_DST : Fld := ⟨0x5804, 0x0, 31, 1⟩
def KEEP_SET_DATE_YEAR : Fld := ⟨0x5804, 0x0, 16, 9⟩
def KEEP_SET_DATE_MONTH : Fld := ⟨0x5804, 0x0, 8, 4⟩
def KEEP_SET_DATE_DAY : Fld := ⟨0x5804, 0x0, 0, 5⟩
def KEEP_ALARM_DATE : Fld := ⟨0x5808, 0x0, 0, 32⟩
def KEEP_ALARM_DATE_YEAR : Fld := ⟨0x5808, 0x0, 16, 9⟩
def KEEP_ALARM_DATE_WDAY : Fld := ⟨0x5808, 0x0, 12, 3⟩
def KEEP_ALARM_DATE_MONTH : Fld := ⟨0x5808, 0x0, 8, 4⟩
def KEEP_ALARM_DATE_DAY : Fld := ⟨0x5808, 0x0, 0, 5⟩
def KEEP_SWSTAMP_DATE : Fld := ⟨0x580B, 0x0, 0, 32⟩
def KEEP_SWSTAMP_DATE_VALID : Fld := ⟨0x580B, 0x0, 31, 1⟩
def KEEP_SWSTAMP_DATE_STAMP_TV : Fld := ⟨0x580B, 0x0, 30, 1⟩
def KEEP_SWSTAMP_DATE_YEAR : Fld := ⟨0x580B, 0x0, 16, 9⟩
def KEEP_SWSTAMP_DATE_WDAY : Fld := ⟨0x580B, 0x0, 12, 3⟩
def KEEP_SWSTAMP_DATE_MONTH : Fld := ⟨0x580B, 0x0, 8, 4⟩
def KEEP_SWSTAMP_DATE_DAY : Fld := ⟨0x580B, 0x0, 0, 5⟩
def KEEP_TIME : Fld := ⟨0x5803, 0x0, 0, 32⟩
def KEEP_TIME_SUBSEC : Fld := ⟨0x5803, 0x0, 17, 15⟩
def KEEP_TIME_HOUR : Fld := ⟨0x5803, 0x0, 12, 5⟩
def KEEP_TIME_MIN : Fld := ⟨0x5803, 0x0, 6, 6⟩
def KEEP_TIME_SEC : Fld := ⟨0x5803, 0x0, 0, 6⟩
def KEEP_SET_TIME : Fld := ⟨0x5805, 0x0, 0, 32⟩
def KEEP_SET_TIME_HOUR : Fld := ⟨0x5805, 0x0, 12, 5⟩
def KEEP_SET_TIME_MIN : Fld := ⟨0x5805, 0x0, 6, 6⟩
def KEEP_SET_TIME_SEC : Fld := ⟨0x5805, 0x0, 0, 6⟩
def KEEP_ALARM_TIME : Fld := ⟨0x5809, 0x0, 0, 32⟩
def KEEP_ALARM_TIME_HOUR : Fld := ⟨0x5809, 0x0, 12, 5⟩
def KEEP_ALARM_TIME_MIN : Fld := ⟨0x5809, 0x0, 6, 6⟩
def KEEP_ALARM_TIME_SEC : Fld := ⟨0x5809, 0x0, 0, 6⟩
def KEEP_SWSTAMP_TIME : Fld := ⟨0x580C, 0x0, 0, 32⟩
def KEEP_SWSTAMP_TIME_SUBSEC : Fld := ⟨0x580C, 0x0, 17, 15⟩
def KEEP_SWSTAMP_TIME_HOUR : Fld := ⟨0x580C, 0x0, 12, 5⟩
def KEEP_SWSTAMP_TIME_MIN : Fld := ⟨0x580C, 0x0, 6, 6⟩
def KEEP_SWSTAMP_TIME_SEC : Fld := ⟨0x580C, 0x0, 0, 6⟩
def KEEP_CMD : Fld := ⟨0x5806, 0x0, 0, 32⟩
def KEEP_CMD_OP : Fld := ⟨0x5806, 0x0, 28, 4⟩
def KEEP_CMD_RES : Fld := ⟨0x5807, 0x0, 0, 32⟩
def KEEP_CMD_RES_RESULT : Fld := ⟨0x5807, 0x0, 4, 4⟩
def KEEP_CMD_RES_OP : Fld := ⟨0x5807, 0x0, 0, 4⟩
def KEEP_CAL : Fld := ⟨0x580A, 0x0, 0, 32⟩
def KEEP_CAL_VALID : Fld := ⟨0x580A, 0x0, 31, 1⟩
def KEEP_CAL_ERR : Fld := ⟨0x580A, 0x0, 0, 24⟩
def KEEP_SWCNT : Fld := ⟨0x580D, 0x0, 0, 32⟩
def KEEP_SWCNT_COUNT : Fld := ⟨0x580D, 0x0, 0, 16⟩
def KEEP_MEM : Fld := ⟨0x5810, 0x1, 0, 32⟩
def KEEP_MEM_DATA : Fld := ⟨0x5810, 0x1, 0, 32⟩
def KEEP_MEMW : Fld := ⟨0x5820, 0x1, 0, 32⟩
def KEEP_MEMW_DATA : Fld := ⟨0x5820, 0x1, 0, 32⟩
def KEEP_MEM_MASK : Fld := ⟨0x5830, 0x1, 0, 32⟩
def KEEP_MEM_MASK_MASK : Fld := ⟨0x5830, 0x1, 0, 32⟩
-- HOST
def HOST_ADDR : Fld := ⟨0x5C00, 0x0, 0, 32⟩
def HOST_ADDR_EN3 : Fld := ⟨0x5C00, 0x0, 31, 1⟩
def HOST_ADDR_ADDR3 : Fld := ⟨0x5C00, 0x0, 24, 7⟩
def HOST_ADDR_EN2 : Fld := ⟨0x5C00, 0x0, 23, 1⟩
def HOST_ADDR_ADDR2 : Fld := ⟨0x5C00, 0x0, 16, 7⟩
def HOST_ADDR_EN1 : Fld := ⟨0x5C00, 0x0, 15, 1⟩
def HOST_ADDR_ADDR1 : Fld := ⟨0x5C00, 0x0, 8, 7⟩
def HOST_ADDR_EN0 : Fld := ⟨0x5C00, 0x0, 7, 1⟩
def HOST_ADDR_ADDR0 : Fld := ⟨0x5C00, 0x0, 0, 7⟩
def HOST_MASK : Fld := ⟨0x5C01, 0x0, 0, 32⟩
def HOST_MASK_MODE : Fld := ⟨0x5C01, 0x0, 31, 1⟩
def HOST_MASK_MASK : Fld := ⟨0x5C01, 0x0, 0, 7⟩
def HOST_CFG : Fld := ⟨0x5C02, 0x0, 0, 32⟩
def HOST_CFG_PEC_REQ : Fld := ⟨0x5C02, 0x0, 0, 1⟩
def HOST_STAT : Fld := ⟨0x5C03, 0x0, 0, 32⟩
def HOST_STAT_BUSY : Fld := ⟨0x5C03, 0x0, 31, 1⟩
def HOST_STAT_AIDX : Fld := ⟨0x5C03, 0x0, 8, 2⟩
def HOST_STAT_LATE_RD : Fld := ⟨0x5C03, 0x0, 4, 1⟩
def HOST_STAT_SDA_TO : Fld := ⟨0x5C03, 0x0, 3, 1⟩
def HOST_STAT_SCL_TO : Fld := ⟨0x5C03, 0x0, 2, 1⟩
def HOST_STAT_FRAME_ERR : Fld := ⟨0x5C03, 0x0, 1, 1⟩
def HOST_STAT_PEC_ERR : Fld := ⟨0x5C03, 0x0, 0, 1⟩
def HOST_CNT : Fld := ⟨0x5C04, 0x0, 0, 32⟩
def HOST_CNT_TRANS : Fld := ⟨0x5C04, 0x0, 16, 16⟩
def HOST_CNT_BUSY_NACK : Fld := ⟨0x5C04, 0x0, 8, 8⟩
def HOST_CNT_PEC_FAIL : Fld := ⟨0x5C04, 0x0, 0, 8⟩
def HOST_LAST : Fld := ⟨0x5C05, 0x0, 0, 32⟩
def HOST_LAST_OPCODE : Fld := ⟨0x5C05, 0x0, 24, 8⟩
def HOST_LAST_ADDR : Fld := ⟨0x5C05, 0x0, 0, 16⟩
-- PE
def PEn_CTRL : Fld := ⟨0x6000, 0x40, 0, 32⟩
def PEn_CTRL_GO : Fld := ⟨0x6000, 0x40, 31, 1⟩
def PEn_CTRL_RESTART : Fld := ⟨0x6000, 0x40, 30, 1⟩
def PEn_CTRL_STOP : Fld := ⟨0x6000, 0x40, 29, 1⟩
def PEn_STAT : Fld := ⟨0x6001, 0x40, 0, 32⟩
def PEn_STAT_STATE : Fld := ⟨0x6001, 0x40, 29, 3⟩
def PEn_STAT_SLOW : Fld := ⟨0x6001, 0x40, 28, 1⟩
def PEn_STAT_INIT : Fld := ⟨0x6001, 0x40, 27, 1⟩
def PEn_STAT_SLOT : Fld := ⟨0x6001, 0x40, 24, 3⟩
def PEn_STAT_PC : Fld := ⟨0x6001, 0x40, 0, 12⟩
def PEn_WD : Fld := ⟨0x6002, 0x40, 0, 32⟩
def PEn_WD_LIMIT : Fld := ⟨0x6002, 0x40, 0, 16⟩
def PEn_PEND : Fld := ⟨0x6003, 0x40, 0, 32⟩
def PEn_PEND_PEND : Fld := ⟨0x6003, 0x40, 0, 8⟩
def PEn_MBOX : Fld := ⟨0x6004, 0x40, 0, 32⟩
def PEn_MBOX_DATA : Fld := ⟨0x6004, 0x40, 0, 32⟩
def PEn_HCFG : Fld := ⟨0x6008, 0x40, 0, 32⟩
def PEn_HCFG_TRIG : Fld := ⟨0x6008, 0x40, 28, 4⟩
def PEn_HCFG_ARG : Fld := ⟨0x6008, 0x40, 16, 12⟩
def PEn_HCFG_ENTRY : Fld := ⟨0x6008, 0x40, 0, 12⟩
def PEn_HLIM : Fld := ⟨0x6009, 0x40, 0, 32⟩
def PEn_HLIM_PERIOD : Fld := ⟨0x6009, 0x40, 16, 16⟩
def PEn_HLIM_BUDGET : Fld := ⟨0x6009, 0x40, 0, 16⟩
def PEn_LAST : Fld := ⟨0x6018, 0x40, 0, 32⟩
def PEn_LAST_CAUSE : Fld := ⟨0x6018, 0x40, 28, 4⟩
def PEn_LAST_INIT : Fld := ⟨0x6018, 0x40, 27, 1⟩
def PEn_LAST_SLOT : Fld := ⟨0x6018, 0x40, 24, 3⟩
def PEn_LAST_PC : Fld := ⟨0x6018, 0x40, 0, 12⟩
def PEn_STATS : Fld := ⟨0x6020, 0x40, 0, 32⟩
def PEn_STATS_V : Fld := ⟨0x6020, 0x40, 0, 32⟩
def PE_CAUSE : Fld := ⟨0x6200, 0x0, 0, 32⟩
def PE_CAUSE_NOTIFY : Fld := ⟨0x6200, 0x0, 16, 8⟩
def PE_CAUSE_OVER : Fld := ⟨0x6200, 0x0, 8, 8⟩
def PE_CAUSE_RESTARTED : Fld := ⟨0x6200, 0x0, 0, 8⟩
def PE_NOTIFY : Fld := ⟨0x6201, 0x0, 0, 32⟩
def PE_NOTIFY_SET : Fld := ⟨0x6201, 0x0, 0, 8⟩
def PE_WIN_SEL : Fld := ⟨0x6202, 0x0, 0, 32⟩
def PE_WIN_SEL_PAGE : Fld := ⟨0x6202, 0x0, 0, 4⟩
-- MEM
def MEM_STAT : Fld := ⟨0x6800, 0x0, 0, 32⟩
def MEM_STAT_MODE_ACT : Fld := ⟨0x6800, 0x0, 30, 2⟩
def MEM_STAT_REMAP_USED : Fld := ⟨0x6800, 0x0, 24, 4⟩
def MEM_STAT_LAPS : Fld := ⟨0x6800, 0x0, 0, 16⟩
def MEM_SCRUB : Fld := ⟨0x6801, 0x0, 0, 32⟩
def MEM_SCRUB_MODE : Fld := ⟨0x6801, 0x0, 30, 2⟩
def MEM_SCRUB_LOCK : Fld := ⟨0x6801, 0x0, 29, 1⟩
def MEM_SCRUB_LAP_MAX : Fld := ⟨0x6801, 0x0, 16, 8⟩
def MEM_SCRUB_INTERVAL : Fld := ⟨0x6801, 0x0, 0, 16⟩
def MEM_LAP : Fld := ⟨0x6802, 0x0, 0, 32⟩
def MEM_LAP_LAP : Fld := ⟨0x6802, 0x0, 0, 32⟩
def MEM_LAST_CE : Fld := ⟨0x6803, 0x0, 0, 32⟩
def MEM_LAST_CE_VALID : Fld := ⟨0x6803, 0x0, 31, 1⟩
def MEM_LAST_CE_SRC : Fld := ⟨0x6803, 0x0, 28, 3⟩
def MEM_LAST_CE_REGION : Fld := ⟨0x6803, 0x0, 24, 4⟩
def MEM_LAST_CE_BIT : Fld := ⟨0x6803, 0x0, 16, 6⟩
def MEM_LAST_CE_WORD : Fld := ⟨0x6803, 0x0, 0, 14⟩
def MEM_LAST_UE : Fld := ⟨0x6804, 0x0, 0, 32⟩
def MEM_LAST_UE_VALID : Fld := ⟨0x6804, 0x0, 31, 1⟩
def MEM_LAST_UE_SRC : Fld := ⟨0x6804, 0x0, 28, 3⟩
def MEM_LAST_UE_REGION : Fld := ⟨0x6804, 0x0, 24, 4⟩
def MEM_LAST_UE_BIT : Fld := ⟨0x6804, 0x0, 16, 6⟩
def MEM_LAST_UE_WORD : Fld := ⟨0x6804, 0x0, 0, 14⟩
def MEM_CAUSE : Fld := ⟨0x6805, 0x0, 0, 32⟩
def MEM_CAUSE_STARVED : Fld := ⟨0x6805, 0x0, 5, 1⟩
def MEM_CAUSE_LAP : Fld := ⟨0x6805, 0x0, 4, 1⟩
def MEM_CAUSE_FULL : Fld := ⟨0x6805, 0x0, 3, 1⟩
def MEM_CAUSE_REMAP : Fld := ⟨0x6805, 0x0, 2, 1⟩
def MEM_CAUSE_UE : Fld := ⟨0x6805, 0x0, 1, 1⟩
def MEM_CAUSE_CE : Fld := ⟨0x6805, 0x0, 0, 1⟩
def MEM_CNT_CLR : Fld := ⟨0x6806, 0x0, 0, 32⟩
def MEM_CNT_CLR_CLR : Fld := ⟨0x6806, 0x0, 0, 1⟩
def MEM_REMAP : Fld := ⟨0x6808, 0x1, 0, 32⟩
def MEM_REMAP_VALID : Fld := ⟨0x6808, 0x1, 31, 1⟩
def MEM_REMAP_REGION : Fld := ⟨0x6808, 0x1, 24, 4⟩
def MEM_REMAP_WORD : Fld := ⟨0x6808, 0x1, 0, 14⟩
def MEM_ECC : Fld := ⟨0x6810, 0x1, 0, 32⟩
def MEM_ECC_CE : Fld := ⟨0x6810, 0x1, 16, 16⟩
def MEM_ECC_UE : Fld := ⟨0x6810, 0x1, 0, 16⟩
def MEM_CHK_CMD : Fld := ⟨0x6820, 0x0, 0, 32⟩
def MEM_CHK_CMD_KEY : Fld := ⟨0x6820, 0x0, 24, 8⟩
def MEM_CHK_CMD_OP : Fld := ⟨0x6820, 0x0, 0, 2⟩
def MEM_CHK_ADDR : Fld := ⟨0x6821, 0x0, 0, 32⟩
def MEM_CHK_ADDR_REGION : Fld := ⟨0x6821, 0x0, 16, 4⟩
def MEM_CHK_ADDR_WORD : Fld := ⟨0x6821, 0x0, 0, 14⟩
def MEM_CHK_DATA : Fld := ⟨0x6822, 0x0, 0, 32⟩
def MEM_CHK_DATA_DATA : Fld := ⟨0x6822, 0x0, 0, 32⟩
def MEM_CHK_ECC : Fld := ⟨0x6823, 0x0, 0, 32⟩
def MEM_CHK_ECC_RESULT : Fld := ⟨0x6823, 0x0, 28, 4⟩
def MEM_CHK_ECC_ECC : Fld := ⟨0x6823, 0x0, 0, 7⟩
-- OTP
def OTP_STAT : Fld := ⟨0x6E00, 0x0, 0, 32⟩
def OTP_STAT_BUSY : Fld := ⟨0x6E00, 0x0, 31, 1⟩
def OTP_STAT_SENSED : Fld := ⟨0x6E00, 0x0, 30, 1⟩
def OTP_STAT_CHKFAIL : Fld := ⟨0x6E00, 0x0, 16, 8⟩
def OTP_STAT_RLOCK : Fld := ⟨0x6E00, 0x0, 8, 8⟩
def OTP_STAT_WLOCK : Fld := ⟨0x6E00, 0x0, 0, 8⟩
def OTP_PGM_ADDR : Fld := ⟨0x6E01, 0x0, 0, 32⟩
def OTP_PGM_ADDR_REGION : Fld := ⟨0x6E01, 0x0, 6, 3⟩
def OTP_PGM_ADDR_WORD : Fld := ⟨0x6E01, 0x0, 0, 6⟩
def OTP_PGM_DATA : Fld := ⟨0x6E02, 0x0, 0, 32⟩
def OTP_PGM_DATA_BITS : Fld := ⟨0x6E02, 0x0, 0, 32⟩
def OTP_CMD : Fld := ⟨0x6E03, 0x0, 0, 32⟩
def OTP_CMD_KEY : Fld := ⟨0x6E03, 0x0, 24, 8⟩
def OTP_CMD_OP : Fld := ⟨0x6E03, 0x0, 0, 4⟩
def OTP_RES : Fld := ⟨0x6E04, 0x0, 0, 32⟩
def OTP_RES_RESULT : Fld := ⟨0x6E04, 0x0, 28, 4⟩
def OTP_RES_FAILBIT : Fld := ⟨0x6E04, 0x0, 16, 5⟩
def OTP_RES_PULSES : Fld := ⟨0x6E04, 0x0, 4, 12⟩
def OTP_RES_OP : Fld := ⟨0x6E04, 0x0, 0, 4⟩
def OTP_CAUSE : Fld := ⟨0x6E05, 0x0, 0, 32⟩
def OTP_CAUSE_PROG_DONE : Fld := ⟨0x6E05, 0x0, 1, 1⟩
def OTP_CAUSE_PROG_FAIL : Fld := ⟨0x6E05, 0x0, 0, 1⟩
def OTP_CTR : Fld := ⟨0x6E08, 0x1, 0, 32⟩
def OTP_CTR_COUNT : Fld := ⟨0x6E08, 0x1, 0, 9⟩
-- TEST
def TEST_STAT : Fld := ⟨0x7000, 0x0, 0, 32⟩
def TEST_STAT_ENABLED : Fld := ⟨0x7000, 0x0, 31, 1⟩
def TEST_STAT_PINCTL : Fld := ⟨0x7000, 0x0, 30, 1⟩
def TEST_STAT_IR : Fld := ⟨0x7000, 0x0, 0, 8⟩
end F

/-- One register of R509: where its copies lie, which bits a write reaches and how (R12), its reset value, and
whether it is banked per party (R102) or exists on a manager only. -/
structure RegDef where
  base : Nat
  stride : Nat
  count : Nat
  stride2 : Nat
  count2 : Nat
  rw : Word        -- RW, RWS and RWL bits: take the written value
  w1c : Word       -- 1 clears
  wo : Word        -- WO bits: read 0
  soft : Word      -- RWS bits: kept by a soft reset
  reset : Word
  banked : Bool
  managerOnly : Bool
deriving DecidableEq, Repr

/-- Does word address `a` hold a copy of this register? -/
def RegDef.covers (d : RegDef) (a : Nat) : Bool :=
  if a < d.base then false
  else
    let o := a - d.base
    let i := if d.stride = 0 then 0 else min (o / d.stride) (d.count - 1)
    let r := o - d.stride * i
    if d.stride2 = 0 then r == 0
    else r % d.stride2 == 0 && decide (r / d.stride2 < d.count2)

/-- The registers of the SYS block (R509). -/
def regsSYS : List RegDef := [
  ⟨0x0000, 0x0, 1, 0, 1, 0x00000000, 0x00000000, 0x00000000, 0x00000000, 0x94804231, false, false⟩,  -- SYS_ID (R34)
  ⟨0x0001, 0x0, 1, 0, 1, 0x00000000, 0x00000030, 0x00000000, 0x00000000, 0x00000006, false, false⟩,  -- SYS_CLK_STAT (R35)
  ⟨0x0002, 0x0, 1, 0, 1, 0x00000000, 0x00000000, 0x00000000, 0x00000000, 0x00000000, false, false⟩,  -- SYS_DOM_STAT (R36)
  ⟨0x0003, 0x0, 1, 0, 1, 0x00000000, 0x80000000, 0x00000000, 0x00000000, 0x00000000, false, false⟩,  -- SYS_ARB_DROP (R37)
  ⟨0x0004, 0x0, 1, 0, 1, 0x00000000, 0x00000000, 0xFF000003, 0x00000000, 0x00000000, false, false⟩,  -- SYS_RST_CTRL (R434)
  ⟨0x0005, 0x0, 1, 0, 1, 0x0000FFFF, 0x00000000, 0x00000000, 0x0000FFFF, 0x00000000, false, false⟩,  -- SYS_RST_STAT (R434)
  ⟨0x0006, 0x0, 1, 0, 1, 0x0000003F, 0x00000000, 0x80000000, 0x00000000, 0x0000003B, false, false⟩,  -- SYS_REST_CTRL (R434)
  ⟨0x0007, 0x1, 2, 0, 1, 0xFFFFFFFF, 0x00000000, 0x00000000, 0x00000000, 0x00000000, false, false⟩,  -- SYS_REST_MON (R434)
  ⟨0x0009, 0x0, 1, 0, 1, 0x0000FFFF, 0x30000000, 0x00000000, 0x0000FFFF, 0x00000000, false, false⟩,  -- SYS_REST_STAT (R434)
  ⟨0x000A, 0x1, 2, 0, 1, 0x00000000, 0x00000000, 0x00000000, 0x00000000, 0x00000000, false, false⟩,  -- SYS_REST_TICK (R434)
  ⟨0x000C, 0x0, 1, 0, 1, 0x00000000, 0x00000000, 0x00000000, 0x00000000, 0x00000000, false, false⟩]  -- SYS_REST_DUR (R434)

/-- The registers of the CAL block (R509). -/
def regsCAL : List RegDef := [
  ⟨0x0400, 0x0, 1, 0, 1, 0x00000000, 0x00000000, 0x00000000, 0x00000000, 0x00000000, false, false⟩,  -- CAL_STAT (R66)
  ⟨0x0401, 0x0, 1, 0, 1, 0x00000000, 0x00000000, 0x00000000, 0x00000000, 0x00000000, false, false⟩,  -- CAL_ID (R66)
  ⟨0x0402, 0x0, 1, 0, 1, 0x00000000, 0x00000000, 0x00000000, 0x00000000, 0x00000000, false, false⟩,  -- CAL_VER (R66)
  ⟨0x0403, 0x0, 1, 0, 1, 0x00000000, 0x00000000, 0x00000000, 0x00000000, 0x00000000, false, false⟩,  -- CAL_EDIT (R66)
  ⟨0x0404, 0x0, 1, 0, 1, 0x00000000, 0x00000000, 0x00000003, 0x00000000, 0x00000000, false, false⟩,  -- CAL_LOAD_CTRL (R66)
  ⟨0x0405, 0x0, 1, 0, 1, 0x00000000, 0x00000000, 0x00000000, 0x00000000, 0x00000000, false, false⟩,  -- CAL_LOAD_CNT (R66)
  ⟨0x0410, 0x1, 16, 0, 1, 0x00000000, 0x00000000, 0xFFFFFFFF, 0x00000000, 0x00000000, false, false⟩]  -- CAL_LOAD_AP (R66)

/-- The registers of the ESC block (R509). -/
def regsESC : List RegDef := [
  ⟨0x0800, 0x0, 1, 0, 1, 0x00000000, 0x00000000, 0x00000000, 0x00000000, 0x00000000, false, false⟩,  -- ESC_TICK_LO (R102)
  ⟨0x0801, 0x0, 1, 0, 1, 0x00000000, 0x00000000, 0x00000000, 0x00000000, 0x00000000, true, false⟩,  -- ESC_TICK_HI (R102)
  ⟨0x0802, 0x0, 1, 0, 1, 0x00000000, 0x00000008, 0x00000000, 0x00000000, 0x00000000, false, false⟩,  -- ESC_STAT (R102)
  ⟨0x0803, 0x0, 1, 0, 1, 0x00000000, 0x00000000, 0x00000000, 0x00000000, 0x00000000, false, false⟩,  -- ESC_OFFSET (R102)
  ⟨0x0804, 0x0, 1, 0, 1, 0x00000000, 0x00000000, 0x00000000, 0x00000000, 0x00000000, false, false⟩,  -- ESC_ERR (R102)
  ⟨0x0805, 0x0, 1, 0, 1, 0xFFFFFFFF, 0x00000000, 0x00000000, 0x00000000, 0x00000000, true, false⟩,  -- ESC_ARM_TICK (R102)
  ⟨0x0806, 0x0, 1, 0, 1, 0xFFFFFFFF, 0x00000000, 0x00000000, 0x00000000, 0x00000000, true, false⟩,  -- ESC_ARM_MASK_LO (R102)
  ⟨0x0807, 0x0, 1, 0, 1, 0xFFFFFFFF, 0x00000000, 0x00000000, 0x00000000, 0x00000000, true, false⟩,  -- ESC_ARM_MASK_HI (R102)
  ⟨0x0808, 0x0, 1, 0, 1, 0x00000000, 0x00000000, 0xF00000FF, 0x00000000, 0x00000000, true, false⟩,  -- ESC_ARM_CMD (R102)
  ⟨0x0809, 0x0, 1, 0, 1, 0x00000000, 0x00000000, 0x00000000, 0x00000000, 0x00000000, true, false⟩,  -- ESC_ARM_RES (R102)
  ⟨0x080A, 0x0, 1, 0, 1, 0x000000FF, 0x00000000, 0x00000000, 0x00000000, 0x00000000, true, false⟩,  -- ESC_SLOT_SEL (R102)
  ⟨0x0810, 0x1, 8, 0, 1, 0xFFFFFFFF, 0x00000000, 0x00000000, 0x00000000, 0x00000000, false, false⟩,  -- ESC_SLOT_DATA (R102)
  ⟨0x0818, 0x0, 1, 0, 1, 0x00000000, 0x00000000, 0x00000000, 0x00000000, 0x00000000, false, false⟩,  -- ESC_SLOT_STAT (R102)
  ⟨0x0819, 0x0, 1, 0, 1, 0x00000000, 0x00000000, 0x00000000, 0x00000000, 0x00000000, false, false⟩,  -- ESC_SLOT_LAUNCH_LO (R102)
  ⟨0x081A, 0x0, 1, 0, 1, 0x00000000, 0x00000000, 0x00000000, 0x00000000, 0x00000000, false, false⟩,  -- ESC_SLOT_LAUNCH_HI (R102)
  ⟨0x0820, 0x0, 1, 0, 1, 0x00000000, 0x00000000, 0x00000000, 0x00000000, 0x00000000, false, false⟩,  -- ESC_BEAT_NUM (R102)
  ⟨0x0821, 0x0, 1, 0, 1, 0x00000000, 0x00000000, 0x00000000, 0x00000000, 0x00000000, false, false⟩,  -- ESC_BEAT_LEN (R102)
  ⟨0x0822, 0x0, 1, 0, 1, 0x00000000, 0x00000000, 0x00000000, 0x00000000, 0x00000000, false, false⟩,  -- ESC_BEAT_START_LO (R102)
  ⟨0x0823, 0x0, 1, 0, 1, 0x00000000, 0x00000000, 0x00000000, 0x00000000, 0x00000000, false, false⟩,  -- ESC_BEAT_START_HI (R102)
  ⟨0x0824, 0x0, 1, 0, 1, 0x00000000, 0x00000000, 0x00000000, 0x00000000, 0x00000003, false, false⟩,  -- ESC_BEAT_STAT (R102)
  ⟨0x0828, 0x0, 1, 0, 1, 0x00000000, 0x00000000, 0x00000000, 0x00000000, 0x00000000, false, false⟩,  -- ESC_CNT (R102)
  ⟨0x0829, 0x0, 1, 0, 1, 0x00000000, 0x00000000, 0x00000001, 0x00000000, 0x00000000, false, false⟩]  -- ESC_CNT_CLR (R102)

/-- The registers of the LINK block (R509). -/
def regsLINK : List RegDef := [
  ⟨0x0C00, 0x0, 1, 0, 1, 0x00000003, 0x00000000, 0x0000000C, 0x00000000, 0x00000003, false, false⟩,  -- LINK_CTRL (R144)
  ⟨0x0C01, 0x1, 2, 0, 1, 0x00000000, 0x00000000, 0x00000000, 0x00000000, 0xFFFF0040, false, false⟩,  -- LINK_PORT_STAT (R144)
  ⟨0x0C03, 0x1, 2, 0, 1, 0x00000000, 0x00000000, 0x00000000, 0x00000000, 0x00000000, false, false⟩,  -- LINK_PATH (R144)
  ⟨0x0C05, 0x0, 1, 0, 1, 0x0000000F, 0x00000000, 0x00000000, 0x00000000, 0x00000000, false, false⟩,  -- LINK_PH_CTRL (R144)
  ⟨0x0C06, 0x0, 1, 0, 1, 0x00000000, 0x0000009F, 0x00000000, 0x00000000, 0x00000000, false, false⟩,  -- LINK_PH_STAT (R144)
  ⟨0x0C08, 0x1, 2, 0, 1, 0x00000000, 0x00000000, 0x00000000, 0x00000000, 0x00000000, false, true⟩,  -- LINK_WKR (R144)
  ⟨0x0C0A, 0x1, 2, 0, 1, 0x00000000, 0xFFFFFFFF, 0x00000000, 0x00000000, 0x00000000, false, true⟩,  -- LINK_ALARM (R144)
  ⟨0x0C0C, 0x0, 1, 0, 1, 0x00000000, 0x00000000, 0x00000000, 0x00000000, 0x00000000, false, true⟩,  -- LINK_TAG_STAT (R144)
  ⟨0x0C10, 0x0, 1, 0, 1, 0x00000000, 0x00000000, 0x00000000, 0x00000000, 0x00000000, false, false⟩,  -- LINK_CNT0 (R144)
  ⟨0x0C11, 0x0, 1, 0, 1, 0x00000000, 0x00000000, 0x00000000, 0x00000000, 0x00000000, false, false⟩,  -- LINK_CNT1 (R144)
  ⟨0x0C12, 0x0, 1, 0, 1, 0x00000000, 0x00000000, 0x00000000, 0x00000000, 0x00000000, false, false⟩,  -- LINK_LATE_CNT (R144)
  ⟨0x0C13, 0x0, 1, 0, 1, 0x00000000, 0x00000000, 0x00000001, 0x00000000, 0x00000000, false, false⟩]  -- LINK_CNT_CLR (R144)

/-- The registers of the HIER block (R509). -/
def regsHIER : List RegDef := [
  ⟨0x1000, 0x0, 1, 0, 1, 0x80003F3F, 0x00000000, 0x00000000, 0x00000000, 0x00000000, false, true⟩,  -- HIER_CTRL (R175)
  ⟨0x1001, 0x0, 1, 0, 1, 0x00000000, 0xC0000000, 0x00000000, 0x00000000, 0x00000000, false, false⟩,  -- HIER_STAT (R175)
  ⟨0x1002, 0x0, 1, 0, 1, 0x00000000, 0x00000000, 0x00000000, 0x00000000, 0x00000000, false, false⟩,  -- HIER_LAST (R175)
  ⟨0x1004, 0x0, 1, 0, 1, 0xC73FFFFF, 0x00000000, 0x00000000, 0x00000000, 0x00000000, true, true⟩,  -- HIER_RA_ADDR (R175)
  ⟨0x1006, 0x0, 1, 0, 1, 0x00000000, 0x00000000, 0x00000000, 0x00000000, 0x00000000, true, true⟩,  -- HIER_RA_STAT (R175)
  ⟨0x1005, 0x0, 1, 0, 1, 0x00000000, 0x00000000, 0x00000003, 0x00000000, 0x00000000, true, true⟩,  -- HIER_RA_CMD (R175)
  ⟨0x1008, 0x1, 8, 0, 1, 0xFFFFFFFF, 0x00000000, 0x00000000, 0x00000000, 0x00000000, true, true⟩,  -- HIER_RA_DATA (R175)
  ⟨0x1010, 0x1, 2, 0, 1, 0x00000000, 0x00000000, 0x00000000, 0x00000000, 0x00000000, false, true⟩,  -- HIER_WERR (R175)
  ⟨0x1012, 0x1, 2, 0, 1, 0x00000000, 0x00000000, 0x00000000, 0x00000000, 0x00000000, false, true⟩,  -- HIER_WIRQ (R175)
  ⟨0x1014, 0x1, 2, 0, 1, 0x00000000, 0xFFFFFFFF, 0x00000000, 0x00000000, 0x00000000, false, true⟩,  -- HIER_REJOIN (R175)
  ⟨0x1016, 0x0, 1, 0, 1, 0x00000000, 0x80000000, 0x00000000, 0x00000000, 0x00000000, false, true⟩,  -- HIER_SREF (R175)
  ⟨0x1017, 0x0, 1, 0, 1, 0x00000000, 0x00000000, 0x00000000, 0x00000000, 0x00000000, false, true⟩,  -- HIER_SREF_ID (R175)
  ⟨0x1018, 0x0, 1, 0, 1, 0x00007FFC, 0x00000000, 0x00000000, 0x00000000, 0x00000000, false, true⟩,  -- HIER_STG_ADDR (R175)
  ⟨0x1019, 0x0, 1, 0, 1, 0xFFFFFFFF, 0x00000000, 0x00000000, 0x00000000, 0x00000000, false, true⟩,  -- HIER_STG_DATA (R175)
  ⟨0x1020, 0x0, 1, 0, 1, 0x00000000, 0x00000000, 0xF000003F, 0x00000000, 0x00000000, false, true⟩,  -- HIER_CMT_CMD (R175)
  ⟨0x1021, 0x0, 1, 0, 1, 0x07FF7FFF, 0x00000000, 0x00000000, 0x00000000, 0x00000000, false, true⟩,  -- HIER_CMT_LEN (R175)
  ⟨0x1022, 0x0, 1, 0, 1, 0xFFFFFFFF, 0x00000000, 0x00000000, 0x00000000, 0x00000000, false, true⟩,  -- HIER_CMT_TICK (R175)
  ⟨0x1023, 0x0, 1, 0, 1, 0xFFFFFFFF, 0x00000000, 0x00000000, 0x00000000, 0x00000000, false, true⟩,  -- HIER_CMT_DEAD (R175)
  ⟨0x1024, 0x0, 1, 0, 1, 0x00000000, 0x00000000, 0x00000000, 0x00000000, 0x00000000, false, true⟩,  -- HIER_CMT_STAT (R175)
  ⟨0x1028, 0x1, 2, 0, 1, 0xFFFFFFFF, 0x00000000, 0x00000000, 0x00000000, 0x00000000, false, true⟩,  -- HIER_CMT_TGT (R175)
  ⟨0x102A, 0x1, 2, 0, 1, 0x00000000, 0x00000000, 0x00000000, 0x00000000, 0x00000000, false, true⟩,  -- HIER_CMT_READY (R175)
  ⟨0x102C, 0x1, 2, 0, 1, 0x00000000, 0x00000000, 0x00000000, 0x00000000, 0x00000000, false, true⟩,  -- HIER_CMT_REFUSE (R175)
  ⟨0x102E, 0x1, 2, 0, 1, 0x00000000, 0x00000000, 0x00000000, 0x00000000, 0x00000000, false, true⟩,  -- HIER_CMT_STALE (R175)
  ⟨0x1030, 0x1, 2, 0, 1, 0x00000000, 0x00000000, 0x00000000, 0x00000000, 0x00000000, false, true⟩,  -- HIER_CMT_DONE (R175)
  ⟨0x1038, 0x0, 1, 0, 1, 0x00FFFFFF, 0x00000000, 0x00000000, 0x00000000, 0x00000000, false, true⟩,  -- HIER_DLV_ADDR (R175)
  ⟨0x1039, 0x0, 1, 0, 1, 0x00000000, 0x00000000, 0xC0000000, 0x00000000, 0x00000000, false, true⟩,  -- HIER_DLV_CMD (R175)
  ⟨0x103A, 0x0, 1, 0, 1, 0x00000000, 0x00000000, 0x00000000, 0x00000000, 0x00000000, false, true⟩,  -- HIER_DLV_STAT (R175)
  ⟨0x103C, 0x1, 2, 0, 1, 0xFFFFFFFF, 0x00000000, 0x00000000, 0x00000000, 0x00000000, false, true⟩,  -- HIER_DLV_TGT (R175)
  ⟨0x103E, 0x1, 2, 0, 1, 0x00000000, 0x00000000, 0x00000000, 0x00000000, 0x00000000, false, true⟩,  -- HIER_DLV_OK (R175)
  ⟨0x1040, 0x1, 2, 0, 1, 0x00000000, 0x00000000, 0x00000000, 0x00000000, 0x00000000, false, true⟩]  -- HIER_DLV_FAIL (R175)

/-- The registers of the LOOP block (R509). -/
def regsLOOP : List RegDef := [
  ⟨0x2000, 0x100, 8, 0, 1, 0x00000003, 0x00000000, 0x00000000, 0x00000000, 0x00000000, false, false⟩,  -- LOOPn_CTRL (R205)
  ⟨0x2001, 0x100, 8, 0, 1, 0x00000000, 0x10000000, 0x00000000, 0x00000000, 0x00000000, false, false⟩,  -- LOOPn_STAT (R205)
  ⟨0x2002, 0x100, 8, 0, 1, 0xFF003FFF, 0x00000000, 0x00000000, 0x00000000, 0xE0000FA0, false, false⟩,  -- LOOPn_FSW (R205)
  ⟨0x2003, 0x100, 8, 0, 1, 0x00003FFF, 0x00000000, 0x00000000, 0x00000000, 0x00000000, false, false⟩,  -- LOOPn_ALIGN (R205)
  ⟨0x2004, 0x100, 8, 0, 1, 0xFF001FFF, 0x00000000, 0x00000000, 0x00000000, 0x00000000, false, false⟩,  -- LOOPn_TARGET (R205)
  ⟨0x2005, 0x100, 8, 0, 1, 0x03FF00FF, 0x00000000, 0x00000000, 0x00000000, 0x00640032, false, false⟩,  -- LOOPn_SS (R205)
  ⟨0x2006, 0x100, 8, 0, 1, 0xFFFFFFFF, 0x00000000, 0x00000000, 0x00000000, 0x00000000, false, false⟩,  -- LOOPn_KPKI (R205)
  ⟨0x2007, 0x100, 8, 0, 1, 0x0000FFFF, 0x00000000, 0x00000000, 0x00000000, 0x00000000, false, false⟩,  -- LOOPn_KD (R205)
  ⟨0x2008, 0x100, 8, 0, 1, 0xFFFFFFFF, 0x00000000, 0x00000000, 0x00000000, 0x00000000, false, false⟩,  -- LOOPn_POLES (R205)
  ⟨0x2009, 0x100, 8, 0, 1, 0x03FF03FF, 0x00000000, 0x00000000, 0x00000000, 0x03FF00C8, false, false⟩,  -- LOOPn_CLAMP (R205)
  ⟨0x200A, 0x100, 8, 0, 1, 0x00000FFF, 0x00000000, 0x00000000, 0x00000000, 0x00000000, false, false⟩,  -- LOOPn_LL (R205)
  ⟨0x200B, 0x100, 8, 0, 1, 0xFFFF7FE0, 0x00000000, 0x00000000, 0x00000000, 0x00020000, false, false⟩,  -- LOOPn_PWM (R205)
  ⟨0x200C, 0x100, 8, 0, 1, 0xFFFFFF1F, 0x00000000, 0x00000000, 0x00000000, 0xFF001018, false, false⟩,  -- LOOPn_SHED (R205)
  ⟨0x200D, 0x100, 8, 0, 1, 0x00000000, 0x00000000, 0x00000000, 0x00000000, 0x00000000, false, false⟩,  -- LOOPn_ACTIVE (R205)
  ⟨0x200E, 0x100, 8, 0, 1, 0x00000000, 0x00000000, 0x00000000, 0x00000000, 0x00000000, false, false⟩,  -- LOOPn_VSENSE (R205)
  ⟨0x200F, 0x100, 8, 0, 1, 0x00000000, 0x00000000, 0x00000000, 0x00000000, 0x00000000, false, false⟩,  -- LOOPn_DEMAND (R205)
  ⟨0x2020, 0x100, 8, 1, 8, 0x00000000, 0x00000000, 0x00000000, 0x00000000, 0x00000000, false, false⟩,  -- LOOPn_STATS (R205)
  ⟨0x2010, 0x100, 8, 0, 1, 0xCFFFFFFF, 0x00000000, 0x00000000, 0x00000000, 0x03214064, false, false⟩,  -- LOOPn_HINT (R239)
  ⟨0x2011, 0x100, 8, 0, 1, 0xFFFF0FFF, 0x00000000, 0x00000000, 0x00000000, 0x0A280064, false, false⟩,  -- LOOPn_HINT2 (R239)
  ⟨0x2012, 0x100, 8, 0, 1, 0x80FFFFFF, 0x00000000, 0x00000000, 0x00000000, 0x00321410, false, false⟩,  -- LOOPn_BRAKE (R239)
  ⟨0x2013, 0x100, 8, 0, 1, 0x03FF03FF, 0x00000000, 0x00000000, 0x00000000, 0x03FF03FE, false, false⟩,  -- LOOPn_OCP (R239)
  ⟨0x2014, 0x100, 8, 0, 1, 0xFFFFFF00, 0x00000000, 0x00000000, 0x00000000, 0x00000000, false, false⟩,  -- LOOPn_OVLD (R239)
  ⟨0x2015, 0x100, 8, 0, 1, 0x00001FFF, 0x00000000, 0x00000000, 0x00000000, 0x00000271, false, false⟩,  -- LOOPn_OVLD_T (R239)
  ⟨0x2016, 0x100, 8, 0, 1, 0x00000000, 0x00000000, 0x00000000, 0x00000000, 0x00000000, false, false⟩,  -- LOOPn_OVLD_B (R239)
  ⟨0x2017, 0x100, 8, 0, 1, 0xFFFF1F3F, 0x00000000, 0x00000000, 0x00000000, 0x28880105, false, false⟩,  -- LOOPn_PHFLT (R239)
  ⟨0x2018, 0x100, 8, 0, 1, 0xFFFF03FF, 0x00000000, 0x00000000, 0x00000000, 0x00640078, false, false⟩,  -- LOOPn_PHFLT2 (R239)
  ⟨0x2019, 0x100, 8, 0, 1, 0x80FFF000, 0x00000000, 0x00000000, 0x00000000, 0x00644000, false, false⟩,  -- LOOPn_SENSE (R239)
  ⟨0x201A, 0x100, 8, 0, 1, 0x80FFFFFF, 0x00000000, 0x00000000, 0x00000000, 0x00080064, false, false⟩,  -- LOOPn_THR (R239)
  ⟨0x201B, 0x100, 8, 0, 1, 0x00000000, 0x03000000, 0x00000000, 0x00000000, 0x00000000, false, false⟩,  -- LOOPn_TSTAT (R239)
  ⟨0x201C, 0x100, 8, 0, 1, 0xFFFFFFFF, 0x00000000, 0x00000000, 0x00000000, 0xFFFF0000, false, false⟩,  -- LOOPn_OPTB0 (R239)
  ⟨0x201D, 0x100, 8, 0, 1, 0x81FFFFE0, 0x00000000, 0x00000000, 0x00000000, 0x00000000, false, false⟩,  -- LOOPn_OPTB1 (R239)
  ⟨0x201E, 0x100, 8, 0, 1, 0x3FFF3FFF, 0x00000000, 0x00000000, 0x00000000, 0x0FA00FA0, false, false⟩,  -- LOOPn_OPTB2 (R239)
  ⟨0x2028, 0x100, 8, 1, 5, 0x00000000, 0x00000000, 0x00000000, 0x00000000, 0x00000000, false, false⟩]  -- LOOPn_TSTATS (R239)

/-- The registers of the PH block (R509). -/
def regsPH : List RegDef := [
  ⟨0x2800, 0x20, 24, 0, 1, 0x0001FFFF, 0x00000000, 0x00000000, 0x00000000, 0x00000000, false, false⟩,  -- PHn_CTRL (R206)
  ⟨0x2801, 0x20, 24, 0, 1, 0x00000000, 0x00000000, 0x00000000, 0x00000000, 0x20C800C8, false, false⟩,  -- PHn_STAT (R206)
  ⟨0x2802, 0x20, 24, 0, 1, 0x00000000, 0x00000000, 0x00000000, 0x00000000, 0x00000000, false, false⟩]  -- PHn_FLT (R240)

/-- The registers of the CHAN block (R509). -/
def regsCHAN : List RegDef := [
  ⟨0x3000, 0x40, 24, 0, 1, 0x00000001, 0x00000000, 0x00000000, 0x00000000, 0x00000000, false, false⟩,  -- CHn_CTRL (R275)
  ⟨0x3001, 0x40, 24, 0, 1, 0x00000000, 0x06010000, 0x00000000, 0x00000000, 0x10000000, false, false⟩,  -- CHn_STAT (R275)
  ⟨0x3002, 0x40, 24, 0, 1, 0xFFFFF8FF, 0x00000000, 0x00000000, 0x00000000, 0x03E8F80A, false, false⟩,  -- CHn_CFG (R275)
  ⟨0x3003, 0x40, 24, 0, 1, 0x01FFFF00, 0x00000000, 0x00000000, 0x00000000, 0x00320A00, false, false⟩,  -- CHn_INRUSH (R275)
  ⟨0x3004, 0x40, 24, 0, 1, 0x0FFF0FFF, 0x00000000, 0x00000000, 0x00000000, 0x01400050, false, false⟩,  -- CHn_LIMIT (R275)
  ⟨0x3005, 0x40, 24, 0, 1, 0x0000FFFF, 0x00000000, 0x00000000, 0x00000000, 0x00005A14, false, false⟩,  -- CHn_PG (R275)
  ⟨0x3006, 0x40, 24, 0, 1, 0xFFFFC0FF, 0x00000000, 0x00000000, 0x00000000, 0x30A28032, false, false⟩,  -- CHn_RETRY (R275)
  ⟨0x3007, 0x40, 24, 0, 1, 0xC0FFFFFF, 0x00000000, 0x00000000, 0x00000000, 0x000A0A05, false, false⟩,  -- CHn_PAIR (R275)
  ⟨0x3008, 0x40, 24, 0, 1, 0x03FF03FF, 0x00000000, 0x00000000, 0x00000000, 0x0064003C, false, false⟩,  -- CHn_PAIR2 (R275)
  ⟨0x3009, 0x40, 24, 0, 1, 0x00000000, 0x00000000, 0x00000000, 0x00000000, 0x00000000, false, false⟩,  -- CHn_MEAS (R275)
  ⟨0x300A, 0x40, 24, 0, 1, 0x00000000, 0x00000000, 0x00000000, 0x00000000, 0x00000000, false, false⟩,  -- CHn_VOLT (R275)
  ⟨0x300B, 0x40, 24, 0, 1, 0x00000000, 0x00000000, 0x00000000, 0x00000000, 0x00000000, false, false⟩,  -- CHn_TEMP (R275)
  ⟨0x300C, 0x40, 24, 0, 1, 0x00000000, 0x00000000, 0x00000000, 0x00000000, 0x00000000, false, false⟩,  -- CHn_TEMP2 (R275)
  ⟨0x3010, 0x40, 24, 1, 12, 0x00000000, 0x00000000, 0x00000000, 0x00000000, 0x00000000, false, false⟩,  -- CHn_CURVE (R275)
  ⟨0x301C, 0x40, 24, 1, 6, 0x00000000, 0x00000000, 0x00000000, 0x00000000, 0x00000000, false, false⟩,  -- CHn_WIRE (R275)
  ⟨0x3022, 0x40, 24, 1, 4, 0x00000000, 0x00000000, 0x00000000, 0x00000000, 0x00000000, false, false⟩,  -- CHn_FET (R275)
  ⟨0x3030, 0x40, 24, 1, 6, 0x00000000, 0x00000000, 0x00000000, 0x00000000, 0x00000000, false, false⟩]  -- CHn_STATS (R275)

/-- The registers of the SEQ block (R509). -/
def regsSEQ : List RegDef := [
  ⟨0x3800, 0x0, 1, 0, 1, 0x80000000, 0x00000000, 0x00000000, 0x00000000, 0x00000000, false, false⟩,  -- SEQ_CTRL (R312)
  ⟨0x3801, 0x0, 1, 0, 1, 0x00000000, 0x00000000, 0x00000000, 0x00000000, 0x00000000, false, false⟩,  -- SEQ_STAT (R312)
  ⟨0x3802, 0x1, 2, 0, 1, 0xFFFFFFFF, 0x00000000, 0x00000000, 0x00000000, 0x00000000, false, false⟩,  -- SEQ_HOLD (R312)
  ⟨0x3804, 0x1, 6, 0, 1, 0x00000000, 0x00000000, 0x00000000, 0x00000000, 0x00000000, false, false⟩,  -- SEQ_SUM (R312)
  ⟨0x380A, 0x1, 8, 0, 1, 0x00000000, 0x00000000, 0x00000000, 0x00000000, 0x00000000, false, false⟩,  -- SEQ_RPAR (R312)
  ⟨0x3812, 0x1, 2, 0, 1, 0xFFFFFFFF, 0x00000000, 0x00000000, 0x00000000, 0x00000000, false, true⟩,  -- SEQ_RLY_MASK (R312)
  ⟨0x3814, 0x0, 1, 0, 1, 0x0000003F, 0x00000000, 0x00000000, 0x00000000, 0x00000000, true, false⟩,  -- SEQ_REC_SEL (R312)
  ⟨0x3815, 0x1, 8, 0, 1, 0x00000000, 0x00000000, 0x00000000, 0x00000000, 0x00000000, false, false⟩,  -- SEQ_REC (R312)
  ⟨0x3820, 0x1, 8, 0, 1, 0x83FFFF00, 0x00000000, 0x00000000, 0x00000000, 0x00640100, false, false⟩,  -- SEQ_MRG_CFG (R312)
  ⟨0x3828, 0x0, 1, 0, 1, 0x00000000, 0x00000000, 0x00000000, 0x00000000, 0x00000000, false, true⟩,  -- SEQ_RLY_CNT (R312)
  ⟨0x3B00, 0x6, 64, 1, 6, 0xFFFFFFFF, 0x00000000, 0x00000000, 0x00000000, 0x00000000, false, false⟩,  -- SEQ_MIR (R312)
  ⟨0x3C80, 0x1, 2, 0, 1, 0x00000000, 0x00000000, 0x00000000, 0x00000000, 0xFFFFFFFF, false, false⟩,  -- SEQ_MIR_STALE (R312)
  ⟨0x3840, 0x8, 64, 0, 1, 0x0000FF01, 0x00000000, 0x00000000, 0x00000000, 0x00000000, false, false⟩,  -- SEQ_RAILn_CTRL (R313)
  ⟨0x3841, 0x8, 64, 0, 1, 0x00000000, 0x000C0000, 0x00000000, 0x00000000, 0x10000000, false, false⟩,  -- SEQ_RAILn_STAT (R313)
  ⟨0x3842, 0x8, 64, 0, 1, 0xFFFFFFFF, 0x00000000, 0x00000000, 0x00000000, 0x0A000000, false, false⟩,  -- SEQ_RAILn_CFG (R313)
  ⟨0x3843, 0x8, 64, 0, 1, 0x00000000, 0x00000000, 0x00000000, 0x00000000, 0x00000000, false, false⟩,  -- SEQ_RAILn_TICK (R313)
  ⟨0x3844, 0x8, 64, 0, 1, 0x00000000, 0x00000000, 0x00000000, 0x00000000, 0x00000000, false, false⟩,  -- SEQ_RAILn_STATS0 (R313)
  ⟨0x3845, 0x8, 64, 0, 1, 0x00000000, 0x00000000, 0x00000000, 0x00000000, 0x00000000, false, false⟩,  -- SEQ_RAILn_STATS1 (R313)
  ⟨0x3846, 0x8, 64, 0, 1, 0x00000000, 0x00000000, 0x00000000, 0x00000000, 0x00000000, false, false⟩,  -- SEQ_RAILn_STATS2 (R313)
  ⟨0x3847, 0x8, 64, 0, 1, 0x00000000, 0x00000000, 0x00000000, 0x00000000, 0x00000000, false, false⟩]  -- SEQ_RAILn_STATS3 (R313)

/-- The registers of the MEAS block (R509). -/
def regsMEAS : List RegDef := [
  ⟨0x4000, 0xC0, 4, 0, 1, 0xFFFFFFFF, 0x00000000, 0x00000000, 0x00000000, 0x00000000, false, false⟩,  -- MEASm_MASK (R337)
  ⟨0x4001, 0xC0, 4, 0, 1, 0x003F3FFF, 0x00000000, 0x00000000, 0x00000000, 0x0004000A, false, false⟩,  -- MEASm_CFG (R337)
  ⟨0x4002, 0xC0, 4, 0, 1, 0x00000000, 0x38000000, 0x00000000, 0x00000000, 0x00000000, false, false⟩,  -- MEASm_STAT (R337)
  ⟨0x4003, 0xC0, 4, 0, 1, 0x00000000, 0x00000000, 0x8000001F, 0x00000000, 0x00000000, false, false⟩,  -- MEASm_URG (R337)
  ⟨0x4004, 0xC0, 4, 0, 1, 0x00000000, 0x00000000, 0x00000000, 0x00000000, 0x00000000, false, false⟩,  -- MEASm_VALID (R337)
  ⟨0x4005, 0xC0, 4, 0, 1, 0x00000000, 0xFFFFFFFF, 0x00000000, 0x00000000, 0x00000000, false, false⟩,  -- MEASm_WOUT (R337)
  ⟨0x4006, 0xC0, 4, 0, 1, 0x00000000, 0xFFFFFFFF, 0x00000000, 0x00000000, 0x00000000, false, false⟩,  -- MEASm_WRET (R337)
  ⟨0x4007, 0xC0, 4, 0, 1, 0x00000000, 0x00000000, 0x00000000, 0x00000000, 0x00000000, false, false⟩,  -- MEASm_WSTATE (R337)
  ⟨0x4008, 0xC0, 4, 0, 1, 0x00000000, 0x00000000, 0x00000000, 0x00000000, 0x00000000, false, false⟩,  -- MEASm_TSTAMP (R337)
  ⟨0x4010, 0xC0, 4, 1, 16, 0x00000000, 0x00000000, 0x00000000, 0x00000000, 0x00000000, false, false⟩,  -- MEASm_WCNT (R337)
  ⟨0x4020, 0xC0, 4, 1, 32, 0x00000000, 0x00000000, 0x00000000, 0x00000000, 0x00000000, false, false⟩,  -- MEASm_RES (R337)
  ⟨0x4040, 0xC0, 4, 1, 32, 0x00000000, 0x00000000, 0x00000000, 0x00000000, 0x00000000, false, false⟩,  -- MEASm_ENT (R337)
  ⟨0x4060, 0xC0, 4, 1, 32, 0x00FFFFFF, 0x00000000, 0x00000000, 0x00000000, 0x00800000, false, false⟩,  -- MEASm_WLO (R337)
  ⟨0x4080, 0xC0, 4, 1, 32, 0x00FFFFFF, 0x00000000, 0x00000000, 0x00000000, 0x007FFFFF, false, false⟩,  -- MEASm_WHI (R337)
  ⟨0x4300, 0x4, 16, 0, 1, 0xFFFFFFFF, 0x00000000, 0x00000000, 0x00000000, 0x00001000, false, false⟩,  -- MEAS_METERk_CFG (R337)
  ⟨0x4301, 0x4, 16, 0, 1, 0x00000000, 0x80000000, 0x00000000, 0x00000000, 0x00003FFF, false, false⟩,  -- MEAS_METERk_STAT (R337)
  ⟨0x4302, 0x4, 16, 0, 1, 0x00000000, 0x00000000, 0x00000000, 0x00000000, 0x00000000, false, false⟩,  -- MEAS_METERk_E_LO (R337)
  ⟨0x4303, 0x4, 16, 0, 1, 0x00000000, 0x00000000, 0x00000000, 0x00000000, 0x00000000, false, false⟩,  -- MEAS_METERk_E_HI (R337)
  ⟨0x4340, 0x0, 1, 0, 1, 0x000000FF, 0x80000000, 0x00000000, 0x00000000, 0x00000032, false, false⟩]  -- MEAS_REFCHK (R337)

/-- The registers of the MON block (R509). -/
def regsMON : List RegDef := [
  ⟨0x4400, 0x4, 64, 0, 1, 0x00FF3F73, 0x00000000, 0x00000000, 0x00000000, 0x00220001, false, false⟩,  -- MONn_CFG (R338)
  ⟨0x4401, 0x4, 64, 0, 1, 0x03FF03FF, 0x00000000, 0x00000000, 0x00000000, 0x03FD0000, false, false⟩,  -- MONn_TH (R338)
  ⟨0x4402, 0x4, 64, 0, 1, 0x00000000, 0x00000000, 0x00000000, 0x00000000, 0x00000041, false, false⟩,  -- MONn_STAT (R338)
  ⟨0x4403, 0x4, 64, 0, 1, 0x00000000, 0x00000000, 0x00000000, 0x00000000, 0x0000FFFF, false, false⟩,  -- MONn_ROUTE (R338)
  ⟨0x4500, 0x1, 2, 0, 1, 0x00000000, 0x00000000, 0x00000000, 0x00000000, 0x00000000, false, false⟩,  -- MON_UV (R338)
  ⟨0x4502, 0x1, 2, 0, 1, 0x00000000, 0x00000000, 0x00000000, 0x00000000, 0x00000000, false, false⟩,  -- MON_OV (R338)
  ⟨0x4504, 0x1, 2, 0, 1, 0x00000000, 0xFFFFFFFF, 0x00000000, 0x00000000, 0x00000000, false, false⟩,  -- MON_UVC (R338)
  ⟨0x4506, 0x1, 2, 0, 1, 0x00000000, 0xFFFFFFFF, 0x00000000, 0x00000000, 0x00000000, false, false⟩,  -- MON_OVC (R338)
  ⟨0x4508, 0x0, 1, 0, 1, 0x3FFFFC3F, 0x00000000, 0x80000000, 0x00000000, 0x00000000, false, false⟩,  -- MON_TEST (R338)
  ⟨0x4509, 0x0, 1, 0, 1, 0x000000FF, 0x00000000, 0x00000000, 0x00000000, 0x00000001, false, false⟩,  -- MON_TEST_DW (R338)
  ⟨0x450A, 0x0, 1, 0, 1, 0x00000000, 0x60000000, 0x00000000, 0x00000000, 0x00000000, false, false⟩]  -- MON_TEST_STAT (R338)

/-- The registers of the THM block (R509). -/
def regsTHM : List RegDef := [
  ⟨0x4800, 0x0, 1, 0, 1, 0x000000FF, 0x00000000, 0x00000000, 0x00000000, 0x0000000A, false, false⟩,  -- THM_CTRL (R354)
  ⟨0x4801, 0x0, 1, 0, 1, 0x00000000, 0x00000000, 0x00000000, 0x00000000, 0x00000000, false, false⟩,  -- THM_STAT (R354)
  ⟨0x4802, 0x0, 1, 0, 1, 0x00000000, 0x00000000, 0x00000000, 0x00000000, 0x00000000, false, false⟩,  -- THM_PDEV (R354)
  ⟨0x4808, 0x1, 8, 0, 1, 0xFFFFFFFF, 0x00000000, 0x00000000, 0x00000000, 0x00000000, false, false⟩,  -- THM_LOOPn_STG (R354)
  ⟨0x4810, 0x1, 8, 0, 1, 0x00000000, 0x00000000, 0x00000000, 0x00000000, 0x000003FF, false, false⟩,  -- THM_LOOPn_CEIL (R354)
  ⟨0x4818, 0x1, 12, 0, 1, 0x00FF0000, 0x80000000, 0x00000000, 0x00000000, 0x40100000, false, false⟩,  -- THM_SENSk (R354)
  ⟨0x4824, 0x1, 4, 0, 1, 0xFFFF1FFF, 0x00000000, 0x00000000, 0x00000000, 0x03E80D6B, false, false⟩,  -- THM_NTCk_CFG (R354)
  ⟨0x4828, 0x1, 4, 0, 1, 0x000000FF, 0x00000000, 0x00000000, 0x00000000, 0x000000FF, false, false⟩,  -- THM_NTCk_MAP (R354)
  ⟨0x4830, 0x1, 4, 0, 1, 0x00000000, 0x00000000, 0x00000000, 0x00000000, 0x00000000, false, false⟩,  -- THM_LVLW (R354)
  ⟨0x4834, 0x1, 4, 0, 1, 0x00000000, 0x00000000, 0x00000000, 0x00000000, 0x00000000, false, false⟩,  -- THM_LVLT (R354)
  ⟨0x4838, 0x1, 4, 0, 1, 0x00000000, 0x00000000, 0x00000000, 0x00000000, 0x00000000, false, false⟩,  -- THM_LVLS (R354)
  ⟨0x483C, 0x1, 4, 0, 1, 0x00000000, 0xFFFFFFFF, 0x00000000, 0x00000000, 0x00000000, false, false⟩,  -- THM_UPC (R354)
  ⟨0x4900, 0x1, 128, 0, 1, 0x00000000, 0x00000000, 0x00000000, 0x00000000, 0x00000000, false, false⟩,  -- THM_NODEn_T (R354)
  ⟨0x4980, 0x1, 128, 0, 1, 0xFFFFFF1F, 0x00000000, 0x00000000, 0x00000000, 0xFFFFFF05, false, false⟩,  -- THM_NODEn_TH (R354)
  ⟨0x4A00, 0x1, 128, 0, 1, 0x8F0F03FF, 0x00000000, 0x00000000, 0x00000000, 0x0F0003FF, false, false⟩,  -- THM_NODEn_ACT (R354)
  ⟨0x4A80, 0x1, 128, 0, 1, 0xFFFFFFFF, 0x00000000, 0x00000000, 0x00000000, 0x00000000, false, false⟩,  -- THM_NODEn_P0 (R354)
  ⟨0x4B00, 0x1, 128, 0, 1, 0xFFFFFF00, 0x00000000, 0x00000000, 0x00000000, 0xFF190000, false, false⟩,  -- THM_NODEn_P1 (R354)
  ⟨0x4B80, 0x1, 128, 0, 1, 0x00000000, 0x00000000, 0x00000000, 0x00000000, 0x00000000, false, false⟩]  -- THM_XMAXn (R354)

/-- The registers of the FLT block (R509). -/
def regsFLT : List RegDef := [
  ⟨0x4C00, 0x0, 1, 0, 1, 0x00000000, 0x00000000, 0x00000000, 0x00000000, 0x00000000, false, false⟩,  -- FLT_STAT (R375)
  ⟨0x4C01, 0x0, 1, 0, 1, 0x00000000, 0x000000FF, 0x00000000, 0x00000000, 0x00000000, false, false⟩,  -- FLT_NEWC (R375)
  ⟨0x4C02, 0x0, 1, 0, 1, 0x00000000, 0x00000000, 0x00000000, 0x00000000, 0x00000000, false, false⟩,  -- FLT_DROP (R375)
  ⟨0x4C03, 0x0, 1, 0, 1, 0x00000001, 0x00000000, 0x00000000, 0x00000000, 0x00000000, false, false⟩,  -- FLT_LOCK (R375)
  ⟨0x4C04, 0x1, 2, 0, 1, 0xFFFFFFFF, 0x00000000, 0x00000000, 0x00000000, 0x00000000, false, false⟩,  -- FLT_SAFE_RAIL (R375)
  ⟨0x4C06, 0x0, 1, 0, 1, 0x00FFFFFF, 0x00000000, 0x00000000, 0x00000000, 0x00000000, false, false⟩,  -- FLT_SAFE_CH (R375)
  ⟨0x4C08, 0x1, 2, 0, 1, 0x00000000, 0x00000000, 0x00000000, 0x00000000, 0x00000000, false, false⟩,  -- FLT_HOLD_RAIL (R375)
  ⟨0x4C0A, 0x0, 1, 0, 1, 0x00000000, 0x00000000, 0x00000000, 0x00000000, 0x00000000, false, false⟩,  -- FLT_HOLD_CH (R375)
  ⟨0x4C0B, 0x0, 1, 0, 1, 0x00000000, 0x00000000, 0x00000000, 0x00000000, 0x00000000, false, false⟩,  -- FLT_HOLD_PAIR (R375)
  ⟨0x4C0C, 0x0, 1, 0, 1, 0x00000000, 0x00000000, 0x00000000, 0x00000000, 0x00000000, false, false⟩,  -- FLT_HOLD_TGT (R375)
  ⟨0x4C10, 0x0, 1, 0, 1, 0x800003FF, 0x00000000, 0x00000000, 0x00000000, 0x00000000, true, false⟩,  -- FLT_SEL (R375)
  ⟨0x4C11, 0x1, 8, 0, 1, 0x00000000, 0x00000000, 0x00000000, 0x00000000, 0x00000000, false, false⟩,  -- FLT_RECD (R375)
  ⟨0x4C19, 0x0, 1, 0, 1, 0x00000000, 0x00000000, 0x00000000, 0x00000000, 0x00000000, false, false⟩,  -- FLT_HIST_HEAD (R375)
  ⟨0x4C20, 0x0, 1, 0, 1, 0xFFFF00FF, 0x00000000, 0x00000000, 0x00000000, 0x00000000, true, false⟩,  -- FLT_CMD_ARG (R375)
  ⟨0x4C21, 0x0, 1, 0, 1, 0x00000000, 0x00000000, 0xF0000FFF, 0x00000000, 0x00000000, true, false⟩,  -- FLT_CMD (R375)
  ⟨0x4C22, 0x0, 1, 0, 1, 0x00000000, 0x00000000, 0x00000000, 0x00000000, 0x00000000, true, false⟩,  -- FLT_CMD_RES (R375)
  ⟨0x4C28, 0x1, 8, 0, 1, 0x00000000, 0x00000000, 0x00000000, 0x00000000, 0x00000000, false, false⟩]  -- FLT_CNT (R375)

/-- The registers of the IRQ block (R509). -/
def regsIRQ : List RegDef := [
  ⟨0x5000, 0x0, 1, 0, 1, 0x00000000, 0x00000000, 0x00000000, 0x00000000, 0x00000000, false, false⟩,  -- IRQ_SUMMARY (R376)
  ⟨0x5001, 0x0, 1, 0, 1, 0x01FFFFFF, 0x00000000, 0x00000000, 0x00000000, 0x00000000, false, false⟩,  -- IRQ_EN (R376)
  ⟨0x5002, 0x0, 1, 0, 1, 0x00000000, 0x00000000, 0x00000000, 0x00000000, 0x00000000, false, false⟩,  -- IRQ_SUB_CHAN (R376)
  ⟨0x5003, 0x1, 2, 0, 1, 0x00000000, 0x00000000, 0x00000000, 0x00000000, 0x00000000, false, false⟩]  -- IRQ_SUB_SEQ (R376)

/-- The registers of the PWRP block (R509). -/
def regsPWRP : List RegDef := [
  ⟨0x5400, 0x0, 1, 0, 1, 0x00000001, 0x00000000, 0xE0000000, 0x00000000, 0x00000000, false, false⟩,  -- PWRP_CTRL (R400)
  ⟨0x5401, 0x0, 1, 0, 1, 0x00000000, 0x00000000, 0x00000000, 0x00000000, 0x00000000, false, false⟩,  -- PWRP_STAT (R400)
  ⟨0x5402, 0x0, 1, 0, 1, 0xF0FFFFFF, 0x00000000, 0x00000000, 0x00000000, 0x60640A0A, false, false⟩,  -- PWRP_CFG (R400)
  ⟨0x5403, 0x0, 1, 0, 1, 0x80FFFFFF, 0x00000000, 0x00000000, 0x00000000, 0x001E781E, false, false⟩,  -- PWRP_CHG2 (R400)
  ⟨0x5404, 0x0, 1, 0, 1, 0xFFFFFF00, 0x00000000, 0x00000000, 0x00000000, 0x050A0500, false, false⟩,  -- PWRP_EOC (R400)
  ⟨0x5405, 0x0, 1, 0, 1, 0xFFFFFF00, 0x00000000, 0x00000000, 0x00000000, 0x325F6400, false, false⟩,  -- PWRP_TLIM (R400)
  ⟨0x5406, 0x0, 1, 0, 1, 0xFFFFFFFF, 0x00000000, 0x00000000, 0x00000000, 0x5A827364, false, false⟩,  -- PWRP_VCELL (R400)
  ⟨0x5407, 0x0, 1, 0, 1, 0xFFFFFFFF, 0x00000000, 0x00000000, 0x00000000, 0x64500FF4, false, false⟩,  -- PWRP_SW (R400)
  ⟨0x5408, 0x0, 1, 0, 1, 0xFFFFFFFF, 0x00000000, 0x00000000, 0x00000000, 0x271003E8, false, false⟩,  -- PWRP_SHUNT (R400)
  ⟨0x5409, 0x0, 1, 0, 1, 0xFFFF1FFF, 0x00000000, 0x00000000, 0x00000000, 0x03E80D6B, false, false⟩,  -- PWRP_PTH (R400)
  ⟨0x540A, 0x0, 1, 0, 1, 0x00000000, 0x00000000, 0x00000000, 0x00000000, 0x00000000, false, false⟩,  -- PWRP_MEAS0 (R400)
  ⟨0x540B, 0x0, 1, 0, 1, 0x00000000, 0x00000000, 0x00000000, 0x00000000, 0x00000000, false, false⟩,  -- PWRP_MEAS1 (R400)
  ⟨0x540C, 0x0, 1, 0, 1, 0x00000000, 0x00000000, 0x00000000, 0x00000000, 0x00000000, false, false⟩,  -- PWRP_MEAS2 (R400)
  ⟨0x540D, 0x0, 1, 0, 1, 0x00000000, 0x000001FF, 0x00000000, 0x00000000, 0x00000000, false, false⟩,  -- PWRP_CAUSE (R400)
  ⟨0x540E, 0x0, 1, 0, 1, 0xFFFFFFFF, 0x00000000, 0x00000000, 0xFFFFFFFF, 0x00000000, false, false⟩]  -- PWRP_CNT (R400)

/-- The registers of the KEEP block (R509). -/
def regsKEEP : List RegDef := [
  ⟨0x5800, 0x0, 1, 0, 1, 0x00000000, 0x000001FC, 0x00000000, 0x00000000, 0x00000100, false, false⟩,  -- KEEP_STAT (R421)
  ⟨0x5801, 0x0, 1, 0, 1, 0xF00000FF, 0x00000000, 0x00000000, 0x00000000, 0x00000000, false, false⟩,  -- KEEP_CFG (R421)
  ⟨0x5802, 0x0, 1, 0, 1, 0x00000000, 0x00000000, 0x00000000, 0x00000000, 0x00006101, false, false⟩,  -- KEEP_DATE (R421)
  ⟨0x5804, 0x0, 1, 0, 1, 0x81FF0F1F, 0x00000000, 0x00000000, 0x00000000, 0x00000000, true, false⟩,  -- KEEP_SET_DATE (R421)
  ⟨0x5808, 0x0, 1, 0, 1, 0x00000000, 0x00000000, 0x00000000, 0x00000000, 0x00000101, false, false⟩,  -- KEEP_ALARM_DATE (R421)
  ⟨0x580B, 0x0, 1, 0, 1, 0x00000000, 0x00000000, 0x00000000, 0x00000000, 0x00000000, false, false⟩,  -- KEEP_SWSTAMP_DATE (R421)
  ⟨0x5803, 0x0, 1, 0, 1, 0x00000000, 0x00000000, 0x00000000, 0x00000000, 0x00000000, true, false⟩,  -- KEEP_TIME (R421)
  ⟨0x5805, 0x0, 1, 0, 1, 0x0001FFFF, 0x00000000, 0x00000000, 0x00000000, 0x00000000, true, false⟩,  -- KEEP_SET_TIME (R421)
  ⟨0x5809, 0x0, 1, 0, 1, 0x00000000, 0x00000000, 0x00000000, 0x00000000, 0x00000000, false, false⟩,  -- KEEP_ALARM_TIME (R421)
  ⟨0x580C, 0x0, 1, 0, 1, 0x00000000, 0x00000000, 0x00000000, 0x00000000, 0x00000000, false, false⟩,  -- KEEP_SWSTAMP_TIME (R421)
  ⟨0x5806, 0x0, 1, 0, 1, 0x00000000, 0x00000000, 0xF0000000, 0x00000000, 0x00000000, true, false⟩,  -- KEEP_CMD (R421)
  ⟨0x5807, 0x0, 1, 0, 1, 0x00000000, 0x00000000, 0x00000000, 0x00000000, 0x00000000, true, false⟩,  -- KEEP_CMD_RES (R421)
  ⟨0x580A, 0x0, 1, 0, 1, 0x00000000, 0x00000000, 0x00000000, 0x00000000, 0x00000000, false, false⟩,  -- KEEP_CAL (R421)
  ⟨0x580D, 0x0, 1, 0, 1, 0x00000000, 0x00000000, 0x00000000, 0x00000000, 0x00000000, false, false⟩,  -- KEEP_SWCNT (R421)
  ⟨0x5810, 0x1, 16, 0, 1, 0x00000000, 0x00000000, 0x00000000, 0x00000000, 0x00000000, false, false⟩,  -- KEEP_MEM (R421)
  ⟨0x5820, 0x1, 16, 0, 1, 0xFFFFFFFF, 0x00000000, 0x00000000, 0x00000000, 0x00000000, true, false⟩,  -- KEEP_MEMW (R421)
  ⟨0x5830, 0x1, 2, 0, 1, 0xFFFFFFFF, 0x00000000, 0x00000000, 0x00000000, 0x00000000, true, false⟩]  -- KEEP_MEM_MASK (R421)

/-- The registers of the HOST block (R509). -/
def regsHOST : List RegDef := [
  ⟨0x5C00, 0x0, 1, 0, 1, 0xFFFFFFFF, 0x00000000, 0x00000000, 0x00000000, 0x000000C8, false, false⟩,  -- HOST_ADDR (R450)
  ⟨0x5C01, 0x0, 1, 0, 1, 0x8000007F, 0x00000000, 0x00000000, 0x00000000, 0x00000000, false, false⟩,  -- HOST_MASK (R450)
  ⟨0x5C02, 0x0, 1, 0, 1, 0x00000001, 0x00000000, 0x00000000, 0x00000000, 0x00000000, false, false⟩,  -- HOST_CFG (R450)
  ⟨0x5C03, 0x0, 1, 0, 1, 0x00000000, 0x0000001F, 0x00000000, 0x00000000, 0x00000000, false, false⟩,  -- HOST_STAT (R450)
  ⟨0x5C04, 0x0, 1, 0, 1, 0x00000000, 0x00000000, 0x00000000, 0x00000000, 0x00000000, false, false⟩,  -- HOST_CNT (R450)
  ⟨0x5C05, 0x0, 1, 0, 1, 0x00000000, 0x00000000, 0x00000000, 0x00000000, 0x00000000, false, false⟩]  -- HOST_LAST (R450)

/-- The registers of the PE block (R509). -/
def regsPE : List RegDef := [
  ⟨0x6000, 0x40, 8, 0, 1, 0x00000000, 0x00000000, 0xE0000000, 0x00000000, 0x00000000, false, false⟩,  -- PEn_CTRL (R472)
  ⟨0x6001, 0x40, 8, 0, 1, 0x00000000, 0x00000000, 0x00000000, 0x00000000, 0x00000000, false, false⟩,  -- PEn_STAT (R472)
  ⟨0x6002, 0x40, 8, 0, 1, 0x0000FFFF, 0x00000000, 0x00000000, 0x00000000, 0x00000100, false, false⟩,  -- PEn_WD (R472)
  ⟨0x6003, 0x40, 8, 0, 1, 0x00000000, 0x00000000, 0x00000000, 0x00000000, 0x00000000, false, false⟩,  -- PEn_PEND (R472)
  ⟨0x6004, 0x40, 8, 1, 4, 0xFFFFFFFF, 0x00000000, 0x00000000, 0x00000000, 0x00000000, false, false⟩,  -- PEn_MBOX (R472)
  ⟨0x6008, 0x40, 8, 2, 8, 0xFFFF0FFF, 0x00000000, 0x00000000, 0x00000000, 0x00000000, false, false⟩,  -- PEn_HCFG (R472)
  ⟨0x6009, 0x40, 8, 2, 8, 0xFFFFFFFF, 0x00000000, 0x00000000, 0x00000000, 0x00000000, false, false⟩,  -- PEn_HLIM (R472)
  ⟨0x6018, 0x40, 8, 0, 1, 0x00000000, 0x00000000, 0x00000000, 0x00000000, 0x00000000, false, false⟩,  -- PEn_LAST (R472)
  ⟨0x6020, 0x40, 8, 1, 5, 0x00000000, 0x00000000, 0x00000000, 0x00000000, 0x00000000, false, false⟩,  -- PEn_STATS (R472)
  ⟨0x6200, 0x0, 1, 0, 1, 0x00000000, 0x00FFFFFF, 0x00000000, 0x00000000, 0x00000000, false, false⟩,  -- PE_CAUSE (R473)
  ⟨0x6201, 0x0, 1, 0, 1, 0x00000000, 0x00000000, 0x000000FF, 0x00000000, 0x00000000, false, false⟩,  -- PE_NOTIFY (R473)
  ⟨0x6202, 0x0, 1, 0, 1, 0x0000000F, 0x00000000, 0x00000000, 0x00000000, 0x00000000, true, false⟩]  -- PE_WIN_SEL (R473)

/-- The registers of the MEM block (R509). -/
def regsMEM : List RegDef := [
  ⟨0x6800, 0x0, 1, 0, 1, 0x00000000, 0x00000000, 0x00000000, 0x00000000, 0x00000000, false, false⟩,  -- MEM_STAT (R501)
  ⟨0x6801, 0x0, 1, 0, 1, 0xE0FFFFFF, 0x00000000, 0x00000000, 0x00000000, 0x000A0064, false, false⟩,  -- MEM_SCRUB (R501)
  ⟨0x6802, 0x0, 1, 0, 1, 0x00000000, 0x00000000, 0x00000000, 0x00000000, 0x00000000, false, false⟩,  -- MEM_LAP (R501)
  ⟨0x6803, 0x0, 1, 0, 1, 0x00000000, 0x00000000, 0x00000000, 0x00000000, 0x00000000, false, false⟩,  -- MEM_LAST_CE (R501)
  ⟨0x6804, 0x0, 1, 0, 1, 0x00000000, 0x00000000, 0x00000000, 0x00000000, 0x00000000, false, false⟩,  -- MEM_LAST_UE (R501)
  ⟨0x6805, 0x0, 1, 0, 1, 0x00000000, 0x0000003F, 0x00000000, 0x00000000, 0x00000000, false, false⟩,  -- MEM_CAUSE (R501)
  ⟨0x6806, 0x0, 1, 0, 1, 0x00000000, 0x00000000, 0x00000001, 0x00000000, 0x00000000, false, false⟩,  -- MEM_CNT_CLR (R501)
  ⟨0x6808, 0x1, 8, 0, 1, 0x00000000, 0x00000000, 0x00000000, 0x00000000, 0x00000000, false, false⟩,  -- MEM_REMAP (R501)
  ⟨0x6810, 0x1, 12, 0, 1, 0x00000000, 0x00000000, 0x00000000, 0x00000000, 0x00000000, false, false⟩,  -- MEM_ECC (R501)
  ⟨0x6820, 0x0, 1, 0, 1, 0x00000000, 0x00000000, 0xFF000003, 0x00000000, 0x00000000, false, false⟩,  -- MEM_CHK_CMD (R501)
  ⟨0x6821, 0x0, 1, 0, 1, 0x000F3FFF, 0x00000000, 0x00000000, 0x00000000, 0x00000000, false, false⟩,  -- MEM_CHK_ADDR (R501)
  ⟨0x6822, 0x0, 1, 0, 1, 0xFFFFFFFF, 0x00000000, 0x00000000, 0x00000000, 0x00000000, false, false⟩,  -- MEM_CHK_DATA (R501)
  ⟨0x6823, 0x0, 1, 0, 1, 0x0000007F, 0x00000000, 0x00000000, 0x00000000, 0x00000000, false, false⟩]  -- MEM_CHK_ECC (R501)

/-- The registers of the OTP block (R509). -/
def regsOTP : List RegDef := [
  ⟨0x6E00, 0x0, 1, 0, 1, 0x00000000, 0x00000000, 0x00000000, 0x00000000, 0x00000000, false, false⟩,  -- OTP_STAT (R502)
  ⟨0x6E01, 0x0, 1, 0, 1, 0x000001FF, 0x00000000, 0x00000000, 0x00000000, 0x00000000, false, false⟩,  -- OTP_PGM_ADDR (R502)
  ⟨0x6E02, 0x0, 1, 0, 1, 0xFFFFFFFF, 0x00000000, 0x00000000, 0x00000000, 0x00000000, false, false⟩,  -- OTP_PGM_DATA (R502)
  ⟨0x6E03, 0x0, 1, 0, 1, 0x00000000, 0x00000000, 0xFF00000F, 0x00000000, 0x00000000, false, false⟩,  -- OTP_CMD (R502)
  ⟨0x6E04, 0x0, 1, 0, 1, 0x00000000, 0x00000000, 0x00000000, 0x00000000, 0x00000000, false, false⟩,  -- OTP_RES (R502)
  ⟨0x6E05, 0x0, 1, 0, 1, 0x00000000, 0x00000003, 0x00000000, 0x00000000, 0x00000000, false, false⟩,  -- OTP_CAUSE (R502)
  ⟨0x6E08, 0x1, 8, 0, 1, 0x00000000, 0x00000000, 0x00000000, 0x00000000, 0x00000000, false, false⟩]  -- OTP_CTR (R502)

/-- The registers of the TEST block (R509). -/
def regsTEST : List RegDef := [
  ⟨0x7000, 0x0, 1, 0, 1, 0x00000000, 0x00000000, 0x00000000, 0x00000000, 0x000000FF, false, false⟩]  -- TEST_STAT (R503)

/-- The block a word address below 0x8000 lies in, as its index in the order of R504's bases (0 SYS … 20 TEST);
the windows of R504 follow: 21 the engine memory window, 22 the point window, 23 the latched bank, 24 none. -/
def blockOf (a : Nat) : Nat :=
  if a < 0x1000 then a / 0x400
  else if a < 0x2000 then 4
  else if a < 0x4000 then 5 + (a - 0x2000) / 0x800
  else if a < 0x6000 then 9 + (a - 0x4000) / 0x400
  else if a < 0x6800 then 17
  else if a < 0x7000 then 18 + (a - 0x6800) / 0x400
  else if a < 0x8000 then 20
  else if a < 0x9000 then 21
  else if a < 0x9800 then 22
  else if a < 0xA000 then 24
  else if a < 0xA800 then 23
  else 24

/-- The rows of a block. -/
def regsOfBlock : Nat → List RegDef
  | 0 => regsSYS
  | 1 => regsCAL
  | 2 => regsESC
  | 3 => regsLINK
  | 4 => regsHIER
  | 5 => regsLOOP
  | 6 => regsPH
  | 7 => regsCHAN
  | 8 => regsSEQ
  | 9 => regsMEAS
  | 10 => regsMON
  | 11 => regsTHM
  | 12 => regsFLT
  | 13 => regsIRQ
  | 14 => regsPWRP
  | 15 => regsKEEP
  | 16 => regsHOST
  | 17 => regsPE
  | 18 => regsMEM
  | 19 => regsOTP
  | 20 => regsTEST
  | _ => []

/-- The register at a word address, if the address holds one (R28). -/
def regDef (a : Nat) : Option RegDef :=
  if a < 0x8000 then (regsOfBlock (blockOf a)).find? (fun d => d.covers a) else none

/-- The reset value the field tables give the word at a key (word address, bank above bit 16). Three registers
differ by index: THM_NODEn_TH.SHUT and THM_NODEn_P1.SHARE for nodes 0–7, THM_NODEn_P1 reading 0 for nodes 32–103
(R354). -/
def regReset (key : Nat) : Word :=
  let a := key % 65536
  if 0x4980 ≤ a ∧ a < 0x4988 then 0xD2FFFF05
  else if 0x4B00 ≤ a ∧ a < 0x4B08 then 0xFF192000
  else if 0x4B20 ≤ a ∧ a < 0x4B68 then 0
  else match regDef a with
    | some d => d.reset
    | none => 0

end Sys2Proof.Machine
end

