-- ==== Sys2Proof/Machine/State.lean ====
section
/-! DEFINITION. The state of the F9480 as plain data, and the state right after reset. Register fields live in one
sparse map (`regs`), SRAM words in another (`sram`); the rest is state the chapters give the machine without giving it
a register. -/

namespace Sys2Proof.Machine

/-- A sparse map from keys to words in canonical form: keys strictly rising, no entry equal to its default. -/
abbrev SMap := List (Nat × Word)

/-- An event registered with the fault collector (R364): SOURCE, DATA0, the worker named, the tick of the cycle in
which it arose (R79), and whether the collector takes it in the present cycle. -/
structure Event where
  source : Nat
  data0 : Word
  dev : Option Nat
  tick : Nat
  ready : Bool
deriving DecidableEq, Repr

/-- What a fault record holds (R357–R361). -/
inductive HoldObj where
  | rail (n : Nat)
  | chan (n : Nat)
  | pair (k : Nat)
  | loop (n : Nat)
  | eng (n : Nat)
  | chg
deriving DecidableEq, Repr

/-- Where the device stands: power-on and hard reset hold it in reset; release starts OTP sensing; then it runs, rests or
wakes (R422, R425, R428, R431). -/
inductive Phase where
  | inReset | sensing | running | resting | waking
deriving DecidableEq, Repr, Inhabited

/-- A step of a remote access to device 0 (R155): its word `i` of `n`, with the words of a write still to be written after it;
or its end in the next cycle, with its result. -/
inductive RaStep where
  | word (i n : Nat) (rest : List Word)
  | done (result : Nat)
deriving DecidableEq, Repr

/-- An access of the register fabric (R26): party, word address, the word of a write (none: a read), and for a remote access
to device 0 its step (R155). -/
structure Access where
  party : Party
  addr : Nat
  word : Option Word
  ra : Option RaStep := none
  mask : Word := 0xFFFFFFFF           -- the bits it writes
deriving DecidableEq, Repr

/-- The image load under way (R58–R62). -/
structure LoadSt where
  src : Nat := 0                      -- its source, a FAIL_SRC code; 0 none
  bytes : List Byte := []             -- image bytes received
  stage : Nat := 0                    -- 0 header, 1 directory, 2 body awaited, 3 closed and being checked
  lastAt : Nat := 0                   -- cycle of the grant of START or of the last aperture write
  nextSrc : Nat := 0                  -- flash slot to be tried next: 1 A, 2 B, 0 none
  command : Nat := 0                  -- flash command under way: 0x0B Fast Read, 0x6B Quad Output Fast Read, 0 none (R61)
  address : Nat := 0                  -- its 24-bit byte address
  began : Nat := 0                    -- cycle in which it began
deriving DecidableEq, Repr, Inhabited


/-- The gate drive modes of R244. -/
inductive GateMode where
  | normalDown | fastDown | ramp | enhance | fastClose | hold
deriving DecidableEq, Repr, Inhabited

/-- What a distribution channel holds beside its registers (R243–R267). Voltages in mV, times in fabric cycles. -/
structure ChanSt where
  gate : GateMode := .normalDown
  vbus : Int := 0                       -- last sample (R243)
  vout : Int := 0
  vgs : Int := 0
  lastSample : Option Nat := none       -- tick of the last sample
  target : Option Int := none           -- ramp target voltage (R249); none before the first sample of Ramp
  rampStart : Nat := 0
  vbusStart : Int := 0
  rampModel : Option Nat := none        -- ticks of the ramp model, fixed at the start of Ramp (R276)
  offAt : Nat := 0                      -- when the channel last entered Off or Latched
  enhStart : Nat := 0
  acc : Nat := 0                        -- breaker accumulator D, 64 fractional bits of which R254 shows 32 (log entry 35)
  charge : Nat := 0                     -- sum of |I| in mA per sample, behind CHn_STATS1
  pgSince : Option Nat := none          -- first sample of the run of samples that meet R251
  pgBlk : Bool := false                 -- PG was 1 when the block began (R251)
  pgHigh : Option Nat := none           -- PG 1 since (R261)
  tripAt : Nat := 0
  rescue : Bool := false                -- a rescued member (R266)
  breakAt : Option Nat := none          -- scheduled break (R267)
  stbyRetry : Bool := false             -- break tick reached in Cooling (R271)
  allowEnd : Option Nat := none         -- end of the discharge allowance (R263)
  dmgSince : Option Nat := none
  samples : List (Nat × Int × Int × Bool) := []  -- tick, I in mA, V_DS in mV, spent in On: the last samples (R255)
  was : Nat × Nat := (0, 0)             -- cycle of the last trip or block, and the state at the start of that cycle (R260, R271)
  eff : List Word := []                 -- CFG to PAIR2 as in force since the last sample tick (R248)
deriving DecidableEq, Repr, Inhabited

/-- A write that takes effect in the fabric cycle after its grant (R248): ON or PMODE of a channel. -/
inductive DueWrite where
  | chanOn (n : Nat) (v : Bool)
  | chanPmode (n : Nat) (v : Bool) (grant : Nat)
deriving DecidableEq, Repr

/-- A phase cell beside its registers. Currents in mA, times in fine units of 312.5 ps. -/
structure PhaseSt where
  eff : Word := 0                     -- PHn_CTRL in force since the last boundary (R201)
  shadow : Word := 0                  -- PHn_CTRL before the writes of the cycle `wAt` of its loop
  onEnd : Option (Nat × Int × Int × Nat × Nat) := none  -- its on-time of this cycle: how it ended, I_start, I_end, length, demand
  starts : List (Nat × Nat × Nat) := []  -- on-times that have not ended: start, maximum length, demand (R183, R189, R197)
  on : Option (Nat × Nat) := none     -- its last on-time, from and to; none since it began to switch or a brake (R191)
  skipFrom : Option Nat := none       -- first start it has skipped since that on-time (R190)
  zero : Option Nat := none           -- when its current fell to 0 A after that (R190)
  sumOf : Nat := 0                    -- number of a thermal interval of 10,000 ticks (R340)
  sums : Nat × Nat × Nat × Nat := (0, 0, 0, 0) -- of its cycles: sum of I_ph² in (0.1 A)², of |I_ph| in 0.1 A, their number, the active ones
  sumsPrev : Nat × Nat × Nat × Nat := (0, 0, 0, 0)  -- of the interval before it
deriving DecidableEq, Repr, Inhabited

/-- A conversion loop beside its registers. Sense voltages in 3.125 nV (1/64,000 of 0.2 mV), currents in 0.1 A, fine
times in 1/32 of a fabric cycle. -/
structure LoopSt where
  bnd : Option Nat := none            -- next carrier boundary; none: the loop is off and has no carrier
  per : Nat := 0                      -- length of the period in progress (R185)
  eff : List Word := []               -- the loop's words in force since the last boundary (R201)
  shadow : List Word := []            -- its words before the writes of cycle `wAt`
  wAt : Option Nat := none            -- cycle of the last write to the loop's or its phases' words
  stopped : Option Nat := none        -- stopped by its own protection, until it is enabled again: the SOURCE of its record (R296)
  withdraw : Bool := false            -- withdrawn without discharge: it stops at the next boundary (R200)
  discharge : Option Nat := none      -- withdrawn with discharge in this cycle
  int : Int := 0                      -- I, y1, y2 with 16 fractional bits (R196)
  y1 : Int := 0
  y2 : Int := 0
  ePrev : Int := 0
  clampHi : Bool := false             -- the last demand was clamped at C, or at IMIN_PH
  clampLo : Bool := false
  ceil : Nat := 1023                  -- C of the last boundary
  thmPrev : Nat := 1023               -- the thermal ceiling before the last update (R349)
  skip : Bool := false                -- the phases skip the on-time of this cycle (R190)
  vRamp : Int := 0
  v0 : Int := 0                       -- V_0: V_sense at the first boundary after the enable (R198)
  goal0 : Int := 0                    -- V_tgt and SS_SLEW at the enable, which fix the ramp model (R276)
  slew0 : Nat := 0
  vBase : Int := 0                    -- the part of V_ramp that VREF and MARGIN set, after SS_DONE (R198)
  vTgt : Int := 0
  vSense : Option Int := none         -- V_sense of the last boundary
  iLoad : Int := 0                    -- I_load of the last boundary (R209)
  nShed : Nat := 0
  shedRun : Nat := 0                  -- boundaries in a row that meet the shed condition (R193)
  nactPrev : Nat := 0
  activePrev : Nat := 0               -- phases active in the cycle under way
  nactChanged : Bool := false         -- NACT changed at the boundary that began it
  braked : Bool := false              -- a brake was engaged in it
  edges : Nat := 0                    -- qualified SYNC_IN edges in a row (R186)
  locked : Bool := false
  lost : Bool := false                -- gliding after SYNC_IN loss
  hStep : Nat := 0                    -- STEP, LEAD, GUARD, FF_ADV latched at t_h (R208)
  hLead : Nat := 0
  hGuard : Nat := 0
  hAdv : Nat := 0
  tH : Nat := 0                       -- cycle t_h
  hPend : Nat := 0                    -- an edge that waits for the boundary after t_h: 1 a rise, 2 a release (R212, R213)
  hRel : Bool := false                -- a release has begun, until idle (R213)
  iLoad0 : Int := 0
  fA : Int := 0                       -- F_A in amperes
  nHint : Nat := 0
  withdrawn : Bool := false           -- an edge withdrew the pre-positioning (R217)
  brakeCyc : Nat := 0
  binNo : Nat := 0                    -- number of the overload bin under way (R223)
  binSum : Int := 0
  binCnt : Nat := 0
  binDue : Bool := false              -- a bin has ended and is closed at the next boundary
  b : Nat := 0                        -- B in 0.1 A·bins
  clampRun : Nat := 0                 -- boundaries in a row with the demand at C (R230)
  clampSrc : Bool := false
  phcap : Option Int := none          -- PHCAP: the remaining capacity
  therm : Bool := false               -- the thermal model asks THROTTLEn# (R349)
  relAt : Option Nat := none          -- THROTTLEn# is released in this cycle
  openRun : Nat := 0                  -- boundaries in a row with an open line, with divergence, with VLSENn out (R232, R234)
  divRun : Nat := 0
  localRun : Nat := 0
  offs : List Int := []               -- V_sense − V_local of up to 256 boundaries with PG, newest first (R232)
  stgAt : Option Nat := none          -- cycle of the stage fault edge, until the phases are identified (R229)
  stgSeen : Bool := false             -- the edge of this low of STGFLTn# has registered (R229)
  trunc : Bool := false               -- an on-time of this cycle was truncated at IPK_LIM
  useLocal : Bool := false            -- V_sense is the local sense since the last boundary (R233)
  vSeen : Bool := false               -- VMIN and VMAX hold a sample
deriving DecidableEq, Repr, Inhabited

/-- SYNC_IN (R186): last edge and last interval, in fine units. -/
structure SyncSt where
  last : Option Nat := none
  interval : Nat := 0
deriving DecidableEq, Repr, Inhabited

/-- A strike slot's arming state (R83, R91). Ticks are of the tick count. -/
structure StrikeSlot where
  armed : Bool := false
  launch : Nat := 0
  id : Nat := 0                       -- open strike ID; 0 for a local arming
  targets : Nat := 0                  -- manager: workers its ARM named
  ownRun : Bool := true               -- the device runs its own actions at launch (R89)
  lastId : Nat := 0                   -- ID of its last closed arming (R91)
  lastClose : Option Nat := none      -- and the tick of that close
deriving DecidableEq, Repr, Inhabited

/-- Beats of the device (R96-R101). -/
structure BeatSt where
  accepted : Option Nat := none       -- manager: tick at which the first beat after image or wake starts (R96, R432)
  next : Option Nat := none           -- next boundary
  nextNum : Nat := 0                  -- number of the beat that starts there (worker: from BEAT)
  start : Nat := 0                    -- tick at which counting began, for a partial bank
  firstBank : Bool := true            -- the next bank is the first since image load, first sync or wake: partial (R100)
  merged : Bool := false              -- a boundary was missed or stepped over: the next bank is merged (R100)
  seen : Option (Nat × Nat) := none   -- worker: number and boundary of the last BEAT command it received
  prior : Option (Nat × Nat) := none  -- and of the one before the BEAT command taken last
  missed : Nat := 0                   -- boundaries missed since the last latch (R101)
  afterWake : Bool := false           -- the next boundary is the first after wake: no beat ends there (R96)
deriving DecidableEq, Repr, Inhabited

/-- A link port beside its registers (R106, R116-R119). Delays in 1/32 tick, times in fabric cycles. -/
structure PortSt where
  cs : List Int := []                 -- C of the latest exchanges of this training, newest first
  c : Int := 0                        -- C in force
  rxT : Option (Nat × Nat) := none    -- T_TX of the last TRAIN received and its receipt time
  pathThru : Option Nat := none       -- neighbour's PATH_THRU, none for 0x1FFFFF
  hopsThru : Option Nat := none       -- neighbour's HOPS_THRU, none for 0xFF
  upOnce : Bool := false              -- has been up since the last reset or wake (R126)
  lastSignal : Nat := 0               -- cycle of the last valid signal
  lastI2 : Option Nat := none         -- cycle of the last /I2/ received
  warm : Bool := false                -- stored values of before rest still to be confirmed (R142)
  secondMgr : Bool := false           -- another manager was found on it (R120)
  healEnd : Option Nat := none        -- /HL/ is sent until this cycle (R138)
  sent : List Byte := []              -- the last TRAIN set sent
  sentAt : Option Nat := none         -- cycle in which its byte 0 left (R118)
  sentSwing : Option Nat := none      -- swing of the TRAIN set sent while the port is up (R119)
  frame : List Byte := []             -- the last frame sent on the port, as far as its bytes are known
  frameAt : Option Nat := none        -- cycle in which its byte 0 leaves
  rd : Bool := false                  -- running disparity before byte 0 of what was sent last, true for positive (R105)
  rdKept : Bool := false              -- only sets that leave the disparity as it was have followed that
deriving DecidableEq, Repr, Inhabited

/-- A point in time at which the link unit touches a passing up frame of swing `k`: on a worker, its own fields entering
the transmitter of port `p` (R126-R128); on the manager, a field registered 2 ticks after its last code group on port `p`
(R127). -/
inductive LineEvent where
  | ownWord (p k : Nat)
  | ownSlot (p k i : Nat)
  | ownMap (p k : Nat)
  | word (p k d w : Nat) (good : Bool)
  | slot (p k i : Nat) (b : List Byte) (good : Bool)
  | map (p k i w : Nat)
  | last (p k : Nat)
deriving DecidableEq, Repr, Inhabited

/-- A phantom switch: 0 port A, 1 port B, 2 pass (R108). -/
structure SwitchSt where
  trips : Nat := 0                    -- trips in a row
  reclose : Option Nat := none        -- cycle at which it closes again
  closedAt : Nat := 0                 -- cycle at which it last closed again
deriving DecidableEq, Repr, Inhabited

/-- Why the manager queued a command: who learns of its reply or answer. -/
inductive CmdFor where
  | none
  | ra (party : Nat)                  -- a remote access of HIER_RA_CMD (R155)
  | bcast (party : Nat)               -- a broadcast write: DONE when its frame is sent (R157)
  | relay (dev part : Nat)            -- a relay read (R307)
  | stgOpen
  | stgData
  | prepare
  | check
  | dlvStart
  | dlvData
  | dlvQuery
deriving DecidableEq, Repr, Inhabited

/-- A command waiting for a down frame, in its group of R154. -/
structure LinkCmd where
  grp : Nat
  bytes : List Byte
  purpose : CmdFor
deriving DecidableEq, Repr, Inhabited

/-- An open transaction (R131, R132). -/
structure Txn where
  tag : Nat
  dev : Nat
  opened : Nat
  count : Nat
  purpose : CmdFor
deriving DecidableEq, Repr, Inhabited

/-- The answer the manager expects in up frame `swing` (R135). -/
structure AnsWait where
  swing : Nat
  targets : Nat                       -- mask of the workers addressed
  purpose : CmdFor
  got : Nat := 0                      -- workers whose word has arrived
deriving DecidableEq, Repr, Inhabited

/-- A sent down frame kept for R136: swing and its ARM, CANCEL and BEAT commands. -/
structure SentFrame where
  swing : Nat
  strikes : List (List Byte)
  lost : Nat := 0                     -- workers whose words report it lost, not yet repeated to
deriving DecidableEq, Repr, Inhabited

/-- What the manager keeps of a worker (R129, R137, R138). -/
structure WorkerSt where
  wasIn : Bool := false               -- has been in LINK_WKR and was marked lost (R173)
  pdown : Bool := false               -- its last valid word showed PDOWN
  req : Bool := false                 -- its word in the latest up frame of its branch had REQ (R129)
  lastSwing : Option Nat := none      -- swing of its last valid word
  lastPort : Nat := 0                 -- port that word came by
deriving DecidableEq, Repr, Inhabited

/-- A reply a worker holds until a granted slot takes it (R134). -/
structure Reply where
  tag : Nat
  swing : Nat
  received : Nat
  payload : List Byte
deriving DecidableEq, Repr, Inhabited

/-- The link unit: worker side, then manager side. -/
structure LinkSt where
  port : Vector PortSt 2 := Vector.replicate 2 {}
  sw : Vector SwitchSt 3 := Vector.replicate 3 {}
  coldDone : Bool := false            -- the upstream port has been chosen (R118)
  taken : Option Nat := none          -- swing of the last down frame taken (R115)
  accepted : Option Nat := none       -- swing of the last down frame accepted
  acceptedLog : List Nat := []        -- and of the accepted frames before it, newest first (R126)
  header : Option (List Byte) := none -- header of a taken frame whose commands are still to come
  passing : Option (List Byte) := none  -- header of the down frame that passes, taken or not (R114)
  lineDue : List (Nat × LineEvent) := []  -- fields of passing up frames still to come, with their cycles (R126, R127)
  burst : Option Nat := none          -- start of the wake burst (R141)
  shift : Int := 0                    -- e of that header, for an unsynced worker that sets its count (R118)
  warmWake : Bool := false            -- woken with stored values: synced at the first accepted frame (R142)
  healed : Bool := false              -- the upstream was changed by a heal (R126)
  everTaken : Bool := false           -- a down frame was taken since reset or wake (R137)
  missed : Nat := 0                   -- swings in a row without one
  grants : List Nat := [0, 0, 0]      -- grants of the coming up frame
  grantSwing : Nat := 0
  alt : Bool := false                 -- ALT of the last word sent
  alarmWord : Bool := false           -- an alarm still to be shown in the status word
  alarmMap : Bool := false            -- and in the alarm map (R127)
  answers : List (Nat × Nat) := []    -- swing of an ANS command and the answer code, newest first (R135)
  replies : List Reply := []          -- replies held (R134)
  reports : List (Nat × Nat × Nat) := []  -- strike refusals to report: slot, result, ID (R174)
  upSent : Option Nat := none         -- swing of the last up frame this device started as a branch end (R125)
  sets : Vector (BitVec 64) 4 := Vector.replicate 4 0  -- selection sets 0-3 (R124)
  dupStop : Bool := false             -- found a duplicate: no word, no addressed commands (R149)
  queue : List LinkCmd := []          -- manager: commands queued
  sentFrames : List SentFrame := []
  tagNext : Nat := 0                  -- tag number tried next (R131)
  tagTaken : List Nat := List.replicate 64 0  -- how often each tag number was taken
  txns : List Txn := []               -- open transactions
  tagQuar : List (Nat × Nat) := []    -- quarantined tag numbers and the tick of their close (R132)
  nextGrants : List Nat := []         -- targets of the REQ commands of the last frame sent (R129)
  grantLog : List (Nat × List Nat) := []  -- grants of the latest up frames, newest first (R128)
  rrLast : Nat := 0                   -- worker last granted by round robin (R129)
  ansWait : List AnsWait := []
  sentSwing : Option Nat := none      -- swing of the last down frame sent
  assignDue : Bool := false           -- the first ASSIGN after acceptance is still to be sent (R147)
  restCopies : List (Nat × Nat) := [] -- REST copies to send: swing and E (R428)
  wkr : Vector WorkerSt 64 := Vector.replicate 64 {}
  upBranch : List Nat := []           -- manager ports whose up frame of the present swing has arrived
  upSwing : Nat := 0
deriving DecidableEq, Repr, Inhabited

/-- A stage and what is armed on it (R158-R164); its state and ID are in HIER_STAT. -/
structure StageSt where
  npar : Nat := 0
  len : Nat := 0
  dead : Nat := 0                     -- T_d
  got : List Nat := []                -- chunks received
  armedAt : Option Nat := none        -- tick of the armed COMMIT or ABORT
  checking : Bool := false            -- the checks run (R160)
  failed : Bool := false              -- a parcel failed
deriving DecidableEq, Repr, Inhabited

/-- The manager's commit unit (R158-R168) beside its registers. -/
structure CommitSt where
  dead : Int := 0                     -- T_d as taken at OPEN
  decided : Option Bool := none       -- commit (true) or abort decided
  tick : Nat := 0                     -- T_c
  lastData : Option Nat := none       -- swing of the frame that carried the last chunk
  dataLeft : Nat := 0                 -- STG_DATA commands still queued
  prepareDue : Bool := false          -- STG_PREPARE is to be sent once R160 allows
  prepareTo : List Nat := []          -- its single targets; none: set 3
  checkAt : Option Nat := none        -- tick from which CMT_CHECK is due to set 3 (R165)
  repairs : List (Nat × Nat) := []    -- worker and repair tick
deriving DecidableEq, Repr, Inhabited

/-- An image delivery (R169-R171): the manager's sending and the worker's taking. -/
structure DelivSt where
  queryAt : Option Nat := none        -- manager: first swing DLV_QUERY may ride in
  takes : Bool := false               -- worker: takes part
  next : Nat := 0                     -- worker: next chunk expected
  outcome : Nat := 0                  -- worker: answer to DLV_QUERY (R171)
deriving DecidableEq, Repr, Inhabited

/-- A modulator beside its registers (R314, R318–R321). RUN and CUR of MEASm_STAT say what converts. -/
structure ModSt where
  start : Nat := 0                    -- cycle in which the conversion under way began
  rate : Nat := 10                    -- its RATE
  urgPend : Option Nat := none        -- entry of a request that waits for the conversion in progress
  urgRun : Bool := false              -- the conversion under way is the urgent one
  pos : Option Nat := none            -- last entry of the scan that was converted or abandoned
  again : Bool := false               -- that entry was abandoned and is converted again
  stopped : Bool := false             -- stopped by link-held entry or rest (R336)
deriving DecidableEq, Repr, Inhabited

/-- An energy meter beside its registers (R325–R327). Voltages in 2^-35 µV; a current is `iNum / iDen` A. -/
structure MeterSt where
  loop : Option Nat := none           -- the loop of a single-entry meter
  since : Option Nat := none          -- t_p; none after an interruption
  v : Int := 0
  iNum : Int := 0
  iDen : Nat := 1
  acc : Int := 0                      -- E in 2^-20 µJ
  iSum : Int := 0                     -- I_loop in 0.1 A over the carrier cycles since the previous result
  iCnt : Nat := 0
deriving DecidableEq, Repr, Inhabited

/-- A window monitor cell beside its registers (R331, R332). -/
structure MonSt where
  histU : List Bool := []             -- last 15 raw samples, newest first
  histO : List Bool := []
  settleEnd : Option Nat := none      -- cycle in which the hold ends
  befU : Bool := false                -- levels reported before the hold began
  befO : Bool := false
  sampleAt : Option Nat := none       -- tick of the last sample (R331)
  doneDue : Bool := false             -- the refill after a sweep is under way, and DONE follows it (R334)
  using' : Nat := 0                   -- MODE, FILT_N and FILT_K in use, as they stand in MONn_CFG
deriving DecidableEq, Repr, Inhabited

/-- The monitor self-test sweep (R334). -/
structure SweepSt where
  cell : Nat
  code : Nat                          -- present code of the test DAC
  due : Nat                           -- cycle of the next move
  uv : Bool                           -- filtered levels at its start
  ov : Bool
  moves : List (Nat × Nat) := []      -- its last moves, newest first: cycle and code (R330, R334)
deriving DecidableEq, Repr, Inhabited

/-- A temperature sensor beside its register (R344–R347). -/
structure SensSt where
  fresh : Bool := true                -- its next trusted in-range result sets its node
  run : Option Nat := none            -- tick of the first result of the unbroken run with DISAGREE 1
  result : List (Nat × Int) := []     -- results registered since the last update: tick and code
deriving DecidableEq, Repr, Inhabited

/-- A node that sheds groups (R350): the next lower group and its cycle. -/
structure ShedSt where
  node : Nat
  next : Nat
  due : Nat
  source : Nat                        -- SOURCE of the record whose reaction the sheds are
  cleared : Bool := false             -- that record has been cleared: a further shed holds nothing (R350, R361)
deriving DecidableEq, Repr, Inhabited

/-- A rail beside its registers (R283–R300). Times in fabric cycles. -/
structure RailSt where
  since : Nat := 0                    -- cycle of the last state change
  enabled : Nat := 0                  -- enable tick E
  took : Bool := false                -- the target took the enable
  reacted : Option Nat := none        -- the SOURCE of the record whose reaction withdrew the target directly (R296)
  failOf : List Nat := []             -- the SOURCEs of the records that stand for its failure (R296, R298)
  noDead : Bool := false              -- TDEAD does not apply: qualifying after Retry (R290)
  badSince : Option Nat := none       -- first tick of the present run of bad samples that began in Good or Lower
  pgWas : Bool := false               -- power-good at the last sample
  fromGood : Bool := false            -- Lower was entered from Good
  withdrawn : Nat := 0                -- tick of the withdrawal
  freeSince : Option Nat := none      -- in Lower: since when no child is UP
deriving DecidableEq, Repr, Inhabited

/-- A margin pin (R304): its current in nA, positive sinking; none while high-impedance. -/
structure MrgSt where
  current : Option Int := none
  due : Nat := 0                      -- cycle of the next step
deriving DecidableEq, Repr, Inhabited

/-- The relay of the manager's sequencer (R307). -/
structure RelaySt where
  todo : List (Nat × Nat) := []       -- reads of the round still to be issued: device and part
  out : List (Nat × Nat) := []        -- reads outstanding
  got : List (Nat × Nat × List Word) := []  -- reads completed and not yet used
  rpar : List (Nat × List Word) := [] -- SEQ_RPAR0-7 of each device as last read
  maps : List (Nat × BitVec 64) := [] -- hold map last sent to each device
  running : Bool := false             -- a round is under way
deriving DecidableEq, Repr, Inhabited

/-- Modes of the source switch (R378). -/
inductive SrcMode where
  | off | ramp | on | limit | blocked
deriving DecidableEq, Repr, Inhabited

/-- Modes of the battery switch (R378). -/
inductive BatMode where
  | off | diode | on
deriving DecidableEq, Repr, Inhabited

/-- The power path beside its registers (R377–R398). Times in fabric cycles. -/
structure PpSt where
  fitted : Bool := false              -- CELL_MAP byte 163 is 0x01
  src : SrcMode := .off
  bat : BatMode := .off
  x : Option PathSample := none       -- last sample
  goodSince : Option Nat := none      -- the source has been good since
  handDone : Nat := 0                 -- the last hand-over completed
  probe : Option Nat := none          -- start of the probe under way
  lastProbe : Option Nat := none      -- start of the last probe, or the removal (R388)
  probeNow : Bool := false            -- a probe is to start at once (R389)
  acc : Nat := 0                      -- time in the charger's state, and since when it counts on (R382, R391)
  since : Option Nat := some 0
  kept : Option (Nat × Nat) := none   -- Precharge or Fast, interrupted, with its time (R391)
  chgGo : Bool := false               -- CHG_GO stands in Qualify
  second : Option Nat := none         -- end of the present second of Fast (R392)
  secHeld : Bool := false             -- a hold fell in it
  vpk : Option Int := none            -- greatest average of V_BAT, mV
  temps : List (Nat × Int) := []      -- averages of T in mK with their times, newest first, up to 61
  offEnd : Nat := 0                   -- end of the off-cycle (R396)
  backAt : Option Nat := none         -- cycle in which the last hand-back began (R398)
  doneAt : Option (Nat × Word × Word) := none  -- cycle in which Fast ended in Done, PWRP_CAUSE and PWRP_CNT before it (R398)
deriving DecidableEq, Repr, Inhabited

/-- A commit of the keep domain (R413), with the party code that learns of it. -/
inductive KeepCommit where
  | setTime (party : Nat) (date time : Word)
  | hourAdd (party : Nat)
  | hourSub (party : Nat)
  | mem (party : Nat) (lo hi : Word) (data : List Word)
  | alarm (party : Nat) (date time : Word)
  | cfg (w : Word)
  | clear (w : Word)
  | byte (b : Nat) (v : Nat)
  | trim (t : Nat)
deriving DecidableEq, Repr

/-- The keep domain beside its registers. -/
structure KeepSt where
  queue : List KeepCommit := []       -- commits of the main domain, head first (R413)
  held : Option KeepCommit := none    -- a marked commit that outlived a reset of the main domain (R414)
  heldSilent : Bool := false          -- a reset has come since it was marked: it reports to no party (R421)
  periods : Nat := 0                  -- keep periods modulo 2^20 (R408)
  inReset : Bool := false             -- the keep reset stands (R404)
  window : Option Nat := none         -- ticks of the last completed window (R407)
deriving DecidableEq, Repr, Inhabited

/-- Rest (R428-R432). -/
structure RestSt where
  entry : Option Nat := none          -- scheduled entry tick E
  err : Int := 0                      -- KEEP_CAL.ERR as it stood at entry, 0 where it was not valid (R407)
  periods : Nat := 0                  -- keep periods of the rest, as counted at the wake event
  since : Nat := 0                    -- cycle of the entry
  held : Bool := false                -- the device was link-held at entry
deriving DecidableEq, Repr, Inhabited

/-! ### Host bus (chapter 16) -/

/-- A transaction of the host bus that stands open: a write of which nothing is applied yet, with its matched address entry, target
address, OPCODE, word address, step and the bytes after ADDR_H; or a read, and whether it has sent data. -/
inductive HostOpen where
  | write (k tgt opcode addr step : Nat) (b : List Byte)
  | read (k opcode addr : Nat) (data : Bool)
deriving DecidableEq, Repr


/-- What a policy engine holds beside its registers (R451, R459-R465). -/
structure EngSt where
  x : Vector Word 16 := Vector.replicate 16 0        -- x0 to x15; x0 is never written (R451)
  data : Vector (BitVec 16) 8 := Vector.replicate 8 0  -- event DATA of each slot (R461)
  evt : Word := 0                                     -- event word of the present run (R460)
  runStart : Nat := 0                                 -- CLK_ENG cycles before the run: 2 per fabric cycle
  cycles : Nat := 0                                   -- CLK_ENG cycles since the run began (R456)
  ahead : Nat := 0                                    -- cycles of the run counted before the instruction they belong to has ended
  nextAt : Option Nat := none                         -- CLK_ENG cycle at which a HALT ended with an event pending (R461)
  overDone : Bool := false                            -- the run has already overrun its budget (R462)
  tickH : Word := 0                                   -- bits 63:32 latched by TICKL (R456)
  codeLen : Nat := 0                                  -- CODE_LEN of its program, bytes (R53)
  stopReq : Bool := false                             -- STOP written during a run (R471)
  failAt : Option Nat := none                         -- tick F of a restart under way (R464)
  halted : Bool := false                              -- stopped by an L4 record or link-held entry: it starts again after it
  perAt : List (Nat × Nat) := []                      -- tick at which each periodic slot last registered
  checked : Bool := false                             -- F + 2,049 passed with no uncorrectable word
  afterRestart : Bool := false                        -- the coming init run follows a restart: RESTARTED is set (R464)
deriving DecidableEq, Repr, Inhabited

/-- The scrubber's place in its lap (R481, R482). -/
structure ScrubSt where
  pos : Nat := 0                      -- next word of the 69,632
  last : Nat := 0                     -- cycle of the last scrub read
  lapStart : Nat := 0                 -- cycle from which the lap time counts; rest moves it on
  starved : Bool := false             -- STARVED has been set in this lap
deriving DecidableEq, Repr, Inhabited

/-- An OTP operation that runs (R493, R494). `bits` are the bits still to be programmed, ascending. -/
structure OtpOp where
  op : Nat
  region : Nat
  word : Nat
  bits : List Nat
  target : List Nat                   -- every bit of the operation
  tries : Nat := 0                    -- pulses that the first of `bits` has had
  due : Nat                           -- cycle at which the pulse ends
deriving DecidableEq, Repr, Inhabited

/-- The test port beside TEST_STAT (R495–R498). -/
structure TapSt where
  boundary : List Bool := []          -- the boundary register
  logicReset : Bool := true           -- the controller stands in Test-Logic-Reset, as at power-on (R495)
  irOut : Option Nat := none          -- what the instruction register captured in its last scan (R496)
  dr : Nat := 0                       -- the data register as captured
  ask : Option (Bool × Nat × Word) := none  -- an access of FABRIC that is pending: WRITE, address and data (R497)
deriving DecidableEq, Repr, Inhabited

/-- The state of the block: every register, memory, unit, pin and queue the spec gives it, and the queue of commands
that wait, first in, first out. Every field's default is its value right after reset. -/
structure State where
  -- base
  pending : List Instr := []          -- commands that wait, first in, first out
  phase : Phase := .inReset           -- where the device stands between power-on and rest (R422, R425, R428)
  now : Nat := 0                      -- fabric cycles since power-on: the base of every delay
  tick : Nat := 0                     -- the 64-bit tick count of the escapement (R72)
  ticking : Bool := false             -- the tick count runs (R73, R94)
  regs : SMap := []                   -- register words that differ from their reset value; key: address, bank above bit 16
  sram : SMap := []                   -- SRAM words that are not 0; key: region code above bit 13 (R474)
  sramRaw : List (Nat × Word × BitVec 7) := []  -- words a raw write left, data and check bits (R484)
  writeBack : List Nat := []          -- words due for write-back after a corrected read (R477)
  free : Nat := 0                     -- MODEL'S OWN: place from which the next command draws its free values
  events : List Event := []           -- events registered with the fault collector (R364)
  collector : Bool := false           -- the fault collector runs (R425 step 5)
  seqNext : Nat := 1                  -- SEQ of the next fault record (R365)
  recUse : BitVec 256 := 0             -- table slots that hold a record (R365)
  merged : List (Nat × Nat) := []     -- SOURCEs whose events joined the record of a slot at a full table (R366)
  holds : List (Nat × HoldObj) := []  -- what each record of the table holds, by slot (R357-R361)
  irqSeen : Word := 0                 -- IRQ_SUMMARY as last evaluated, for the interrupt trigger (R460)
  waiting : List Access := []         -- fabric accesses of ranks 4 to 14 not yet granted (R27, R30)
  barred : List (Nat × Nat × List Nat) := []  -- block, party granted there, parties that waited then (R30)
  occupied : List Nat := []           -- blocks that ranks 1 to 3 reached in this cycle (R29)
  holdWait : List (Nat × HoldObj) := []   -- holds that wait for the record of a SOURCE, to be held by it (R350)
  flash : Option (List Byte) := none  -- MODEL'S OWN: what the boot flash holds from HIER_DLV_ADDR on, while a row that says it writes HIER_DLV_CMD
  busWord : Word := 0                 -- MODEL'S OWN: the word the last read row returned to its party
  -- caliber
  hdr : List Byte := []                               -- header of the loaded image (R40)
  sections : List (List (List Byte)) := []            -- records of each section type 1 to 12, as in force (R43)
  cellMap : List Byte := List.replicate 176 0         -- CELL_MAP of the loaded image (R44)
  loopMap : List (List Byte) := List.replicate 8 []   -- LOOP_MAP records (R45)
  railGraph : Vector (List Byte) 64 := Vector.replicate 64 []  -- RAIL_GRAPH records (R46)
  curveFlags : List Nat := List.replicate 24 0        -- FLAGS of each channel's CURVES record (R47)
  load : LoadSt := {}                                 -- the image load under way
  -- chan
  chan : Vector ChanSt 24 := Vector.replicate 24 {}   -- channels CH0–CH23
  due : List DueWrite := []                            -- writes that take effect in the next cycle (R248)
  -- loop
  loop : Vector LoopSt 8 := Vector.replicate 8 {}     -- conversion loops L0-L7
  phCell : Vector PhaseSt 24 := Vector.replicate 24 {} -- phase cells PH0-PH23
  syncIn : SyncSt := {}                               -- the SYNC_IN pin
  hintPin : BitVec 4 := 0                             -- HINT0-HINT3 as registered (R207)
  pointCmd : SMap := []                               -- last command word of each point that takes one (R203), key: kind above bit 8
  -- esc
  slots : Vector StrikeSlot 256 := Vector.replicate 256 {}  -- strike slots 0-255 (R83)
  strikeNext : Nat := 1                                 -- manager: strike number tried next (R91)
  strikeTaken : SMap := []                              -- manager: how often each number has been taken (R91)
  quarantine : List (Nat × Nat) := []                   -- closed strike IDs and the tick of their close (R91)
  cancelSent : List Nat := []                           -- manager: IDs for which a CANCEL was sent (R174)
  openIds : List Nat := []                              -- open IDs that no slot holds: a commit's (R158)
  errRun : Nat := 0                                     -- worker: swings in a row with |e| above 64 (R74)
  pllPhase : Int := 0                                   -- worker: sum of the slew steps of the PLL phase, in 1/32 tick (R74)
  stepDue : Option Int := none                          -- worker: e of a step that is due (R74)
  beat : BeatSt := {}                                   -- beats (R96)
  -- link
  link : LinkSt := {}                                   -- the link unit (chapter 4)
  -- hier
  stage : StageSt := {}                                 -- the device's stage (R159)
  commit : CommitSt := {}                               -- manager: the commit unit
  deliv : DelivSt := {}                                 -- image delivery
  -- meas
  modl : Vector ModSt 4 := Vector.replicate 4 {}      -- modulators M0-M3
  meter : Vector MeterSt 16 := Vector.replicate 16 {} -- energy meters 0-15
  refBad : Bool := false                              -- the last reference check lay outside REF_TOL (R324)
  mon : Vector MonSt 64 := Vector.replicate 64 {}     -- window monitors MON0-MON63
  sweep : Option SweepSt := none                      -- the self-test sweep under way
  -- therm
  nodeT : Vector Int 128 := Vector.replicate 128 0    -- thermal nodes 0-127 in 1/65,536 K of °C (R343)
  sens : Vector SensSt 12 := Vector.replicate 12 {}   -- sensors 0-11
  sheds : List ShedSt := []                           -- nodes that go on shedding
  nodeKept : Bool := false                            -- node temperatures stand from before a soft reset or rest (R257, R347)
  thermalAt : Option Nat := none                      -- tick of the last thermal update (R340)
  parOld : Nat × List (Nat × Word) × List Nat := (0, [], [])  -- cycle of the last change of a model's parameters, the words and curve flags before it (R353)
  -- seq
  rail : Vector RailSt 64 := Vector.replicate 64 {}   -- rails RAIL0-RAIL63
  pwren : BitVec 32 := 0                              -- PWRENk asserted (R276)
  pwrgd : BitVec 32 := 0                              -- PWRGDk high, as registered (R276)
  mrg : Vector MrgSt 8 := Vector.replicate 8 {}       -- margin pins MRG0-MRG7
  mirAt : Vector (Option Nat) 64 := Vector.replicate 64 none  -- cycle of the last write to each mirror entry (R305)
  relay : RelaySt := {}                               -- the relay (R307)
  evalAt : Option Nat := none                          -- cycle of the sequencer's last evaluation (R282)
  -- pwr
  pp : PpSt := {}                                     -- the power path
  wakePend : Nat := 0                                 -- wake sources registered since rest was entered, bits of SYS_REST_CTRL (R430)
  -- keep
  keep : KeepSt := {}                                 -- the keep domain
  -- rest
  rstHold : Nat := 0                  -- cycle until which the device itself holds RST_N low: from its regulators being good, or from a HARD write (R422, R425)
  senseEnd : Nat := 0                 -- cycle at which the OTP sensing under way ends (R425)
  rest : RestSt := {}                 -- rest
  refFallback : Bool := false          -- the start-up oscillator serves until the next power-on or hard reset (R21)
  vinFall : Option Nat := none        -- worker: cycle at which VIN last fell below 5.8 V (R23)
  syncBefore : Nat := 0                -- what ESC_STAT.SYNC goes back to when holdover ends (R76)
  holdEnd : Option Nat := none         -- cycle at which 10 ms of holdover expire (R21)
  -- host
  -- host
  hostTx : List Byte := []            -- the data and PEC bytes the host bus interface sent in its last read (R439)
  hostAcks : List Bool := []          -- its acknowledge of each byte of the controller in the last transaction: true ACK, false NACK (R439)
  hostOpen : Option HostOpen := none  -- the transaction that stands open: neither STOP nor START has ended it yet (R446)
  hostBurst : Bool := false           -- words of the last applied write are still being granted (R445)
  hostScl : Bool := false             -- SCL's present low episode has made its record (R446)
  hostSda : Bool := false             -- SDA's
  -- eng
  trigs : List (Nat × Nat × Nat) := []                 -- triggers of the present cycle that handler slots have yet to register: TRIG, ARG, DATA (R460, R471)
  eng : Vector EngSt 8 := Vector.replicate 8 {}       -- policy engines PE0-PE7
  pllLockAt : Nat := 0                                -- cycle of the PLL lock: the port-A round counts from it (R452)
  -- mem
  memHit : Option (Nat × Nat × Nat) := none           -- the last read that found an error: word, cycle and source (R500)
  portLog : List (Nat × Nat × Nat) := []              -- words the parties wrote in the last cycle of such a write: word, cycle, party (R452, R500)
  scrub : ScrubSt := {}                               -- the scrubber
  otp : SMap := []                                    -- OTP cells that are programmed; key 64 × region + word
  otpShadow : SMap := []                              -- the shadow of every region
  otpLocks : BitVec 32 := 0                           -- lock row: two cells each, write-locks in bits 15:0, read-locks above (R486)
  otpOp : Option OtpOp := none                        -- the OTP operation under way
  tap : TapSt := {}                                   -- the test port
deriving DecidableEq, Repr

/-- Why the block stops with a fault. -/
inductive Fault where
  /-- Raised by a meaning whose operand lists do not have the form the row asks for (a wrong number of samples, bytes or
  words): no such command exists. Safe: the model stops. -/
  | illFormed
deriving DecidableEq, Repr

/-- Why a command is refused. -/
inductive Refusal where
  /-- Raised only by an arm of `exec` whose command has no meaning yet. Safe: the model stops. -/
  | notModelled (mnemonic : String)
deriving DecidableEq, Repr

/-- The block right after power-on: in power-on reset with RST_N held low (R422, R425), every register at the reset
value its field table gives, every SRAM word 0 (R476), no command waiting. -/
def State.reset : State := {}

end Sys2Proof.Machine
end

