-- ==== Sys2Proof/Machine/Ops.lean ====
section
/-! DEFINITION. The named operations every meaning is built from: the sparse maps, register fields, SRAM words under
their SEC-DED code, the passing of time, the registering of fault events and handler events, and holds. -/

namespace Sys2Proof.Machine

/-! ### Sparse maps -/

/-- The word at a key: its entry, else the default of the key. -/
def SMap.get (d : Nat → Word) : SMap → Nat → Word
  | [], k => d k
  | (k', w) :: m, k => if k = k' then w else SMap.get d m k

/-- Remove a key. -/
def SMap.erase (m : SMap) (k : Nat) : SMap := m.filter (fun e => e.1 != k)

/-- Insert an entry before the first greater key. -/
def SMap.insert : SMap → Nat → Word → SMap
  | [], k, w => [(k, w)]
  | (k', w') :: m, k, w => if k < k' then (k, w) :: (k', w') :: m else (k', w') :: SMap.insert m k w

/-- Write a word; writing the default of the key removes the entry, so that equal contents are equal lists. -/
def SMap.set (d : Nat → Word) (m : SMap) (k : Nat) (w : Word) : SMap :=
  if w = d k then SMap.erase m k else SMap.insert (SMap.erase m k) k w

/-- Keys strictly rise. -/
def SMap.sorted : SMap → Bool
  | [] => true
  | [_] => true
  | a :: b :: m => decide (a.1 < b.1) && SMap.sorted (b :: m)

/-- The canonical form: keys strictly rising and no entry equal to its default. -/
def SMap.wf (d : Nat → Word) (m : SMap) : Bool :=
  SMap.sorted m && m.all (fun e => decide (e.2 ≠ d e.1))

/-- Every word of SRAM is cleared to 0 at power-on (R476). -/
def sramDefault (_ : Nat) : Word := 0

/-! ### Bits, fields, numbers -/

/-- Bits `lo` to `lo + width - 1` of a word, as a number. -/
def bitsOf (w : Word) (lo width : Nat) : Nat := (w.toNat >>> lo) % 2 ^ width

/-- A word with bits `lo` to `lo + width - 1` set to `v` modulo 2^width and every other bit kept. -/
def withBits (w : Word) (lo width v : Nat) : Word :=
  let m : Word := BitVec.ofNat 32 (2 ^ width - 1)
  (w &&& ~~~(m <<< lo)) ||| ((BitVec.ofNat 32 v &&& m) <<< lo)

/-- Bit `i` of a word. -/
def bitOf (w : Word) (i : Nat) : Bool := w.getLsbD i

/-- Two's complement reading of the low `width` bits of a number. -/
def toS (width v : Nat) : Int :=
  let u := v % 2 ^ width
  if u < 2 ^ (width - 1) then (u : Int) else (u : Int) - (2 ^ width : Nat)

/-- Two's complement writing of an integer in `width` bits. -/
def ofS (width : Nat) (z : Int) : Nat := (z % ((2 ^ width : Nat) : Int)).toNat

/-- An integer held to the range of a signed field of `width` bits. -/
def clampS (width : Nat) (z : Int) : Int :=
  max (-((2 ^ (width - 1) : Nat) : Int)) (min z (((2 ^ (width - 1) : Nat) : Int) - 1))

/-- An integer held to `[lo, hi]`. -/
def clampI (lo hi z : Int) : Int := max lo (min z hi)

/-- A number held to the range of an unsigned field of `width` bits. -/
def satU (width : Nat) (z : Int) : Nat := (min (max z 0) (((2 ^ width : Nat) : Int) - 1)).toNat

/-- Division rounded to the nearest integer, halves away from zero. -/
def roundDiv (a b : Int) : Int :=
  if b = 0 then 0
  else if 0 ≤ a then (2 * a + b) / (2 * b) else -((2 * (-a) + b) / (2 * b))

/-- 1 for true. -/
def b2n (b : Bool) : Nat := if b then 1 else 0

/-- Least multiple of `m` that is at least `x`. -/
def ceilTo (m x : Nat) : Nat := if m = 0 then x else (x + m - 1) / m * m

/-- Insert into a sorted list. -/
def sortInsert {α : Type} (le : α → α → Bool) (x : α) : List α → List α
  | [] => [x]
  | y :: l => if le x y then x :: y :: l else y :: sortInsert le x l

/-- A list in the order `le`. -/
def sortBy {α : Type} (le : α → α → Bool) (l : List α) : List α := l.foldr (sortInsert le) []

/-- Entry of a table of records, the default outside it. -/
def tget {α : Type} {n : Nat} [Inhabited α] (v : Vector α n) (i : Nat) : α := v.toArray.getD i default

/-- A table with one entry replaced; unchanged outside its range. -/
def tset {α : Type} {n : Nat} (v : Vector α n) (i : Nat) (x : α) : Vector α n := v.setIfInBounds i x

/-! ### Registers -/

/-- The word at a register key. -/
def State.reg (s : State) (k : Nat) : Word := SMap.get regReset s.regs k

/-- Store a word at a register key. -/
def State.setReg (s : State) (k : Nat) (w : Word) : State := { s with regs := SMap.set regReset s.regs k w }

/-- A field of copy `i` of a register. -/
def State.get (s : State) (f : Fld) (i : Nat := 0) : Nat := bitsOf (s.reg (f.addr i)) f.lo f.width

/-- Write a field of copy `i` of a register. -/
def State.put (s : State) (f : Fld) (v : Nat) (i : Nat := 0) : State :=
  s.setReg (f.addr i) (withBits (s.reg (f.addr i)) f.lo f.width v)

/-- A one-bit field as a truth value. -/
def State.on (s : State) (f : Fld) (i : Nat := 0) : Bool := s.get f i != 0

/-- A field read as a two's complement number. -/
def State.getS (s : State) (f : Fld) (i : Nat := 0) : Int := toS f.width (s.get f i)

/-- Write a signed field. -/
def State.putS (s : State) (f : Fld) (z : Int) (i : Nat := 0) : State := s.put f (ofS f.width z) i

/-- Write a one-bit field. -/
def State.putB (s : State) (f : Fld) (b : Bool) (i : Nat := 0) : State := s.put f (b2n b) i

/-- Add to a counter field that saturates at its greatest value. -/
def State.bump (s : State) (f : Fld) (i : Nat := 0) (by' : Nat := 1) : State :=
  s.put f (min (s.get f i + by') (2 ^ f.width - 1)) i

/-- Bit `n` of a mask kept in two words, LO then HI. -/
def State.maskBit (s : State) (f : Fld) (n : Nat) : Bool := bitOf (s.reg (f.addr (n / 32))) (n % 32)

/-- Write bit `n` of a mask kept in two words. -/
def State.setMaskBit (s : State) (f : Fld) (n : Nat) (b : Bool) : State :=
  s.setReg (f.addr (n / 32)) (withBits (s.reg (f.addr (n / 32))) (n % 32) 1 (b2n b))

/-- A 64-bit value kept in two words, LO at the first address. -/
def State.get64 (s : State) (f : Fld) : Nat := (s.reg (f.addr 0)).toNat + 2 ^ 32 * (s.reg (f.addr 0 + 1)).toNat

/-- Write a 64-bit value to two words, LO at the first address. -/
def State.put64 (s : State) (f : Fld) (v : Nat) : State :=
  (s.setReg (f.addr 0) (BitVec.ofNat 32 v)).setReg (f.addr 0 + 1) (BitVec.ofNat 32 (v / 2 ^ 32))

/-- The strapped role (R1, R2): 0 manager, 1 worker. -/
def State.isManager (s : State) : Bool := !s.on F.SYS_DOM_STAT_ROLE

/-- Free values are drawn, at most 64 by one command: the counter of `Config`'s free constants moves past them. -/
def State.draw (s : State) : State := { s with free := s.free + 64 }

/-! ### SRAM under SEC-DED (R474–R478) -/

/-- Key of a word of SRAM: region code above bit 13 (R474). -/
def sramKey (region word : Nat) : Nat := region * 16384 + word

/-- What the code finds in a stored word (R475). -/
inductive EccFind where
  | clean
  | corrected (bit : Nat)
  | uncorrectable
deriving DecidableEq, Repr

/-- Number of ones of a column. -/
def weight7 (c : BitVec 7) : Nat := ((List.range 7).filter (fun j => c.getLsbD j)).length

/-- The columns of the matrix: those of the hardware where they make a Hsiao code, distinct and of odd weight of at
least 3, as they must (R475); the columns of weight 3 stand for a matrix that does not. -/
def hsiaoCols : List (BitVec 7) :=
  let cs := (List.range 32).map Config.hsiaoCol
  if cs.all (fun c => weight7 c % 2 == 1 && decide (3 ≤ weight7 c)) && decide cs.Nodup then cs
  else (((List.range 128).map (BitVec.ofNat 7)).filter (fun c => weight7 c == 3)).take 32

/-- Check bits of a data word (R475). -/
def hsiao (d : Word) : BitVec 7 :=
  ((List.range 32).zip hsiaoCols).foldl (fun a p => if d.getLsbD p.1 then a ^^^ p.2 else a) 0

/-- The words one data-bit flip away from `d`, with the number of the bit. -/
def flips (d : Word) : List (Nat × Word) := (List.range 32).map (fun i => (i, withBits d i 1 (1 - bitsOf d i 1)))

/-- Decode a raw word: a valid pair is clean, one flipped data or check bit is corrected, anything else is found
uncorrectable (R475). The matrix of the code is `hsiaoCols`. -/
def eccDecode (d : Word) (c : BitVec 7) : Word × EccFind :=
  if hsiao d = c then (d, .clean)
  else match (flips d).find? (fun p => hsiao p.2 == c) with
    | some (i, d') => (d', .corrected i)
    | none =>
      match (List.range 7).find? (fun j => hsiao d ^^^ BitVec.ofNat 7 (2 ^ j) == c) with
      | some j => (d, .corrected (32 + j))
      | none => (d, .uncorrectable)

/-! ### The statistics region (R98, R474, R506) -/

/-- Words of the latched bank and the registers they copy, by group of STATS_MASK (R98, R506). -/
def bankGroup (g : Nat) : List (Nat × Nat) :=
  if g = 0 then (List.range 16).flatMap (fun k =>
    [(4 + 2 * k, F.MEAS_METERk_E_LO.addr k), (5 + 2 * k, F.MEAS_METERk_E_HI.addr k)])
  else if g = 1 then (List.range 8).flatMap (fun n => (List.range 13).map (fun j =>
    (36 + 13 * n + j, (F.LOOPn_STATS_V.off j).addr n)))
  else if g = 2 then (List.range 24).flatMap (fun n => (List.range 6).map (fun j =>
    (140 + 6 * n + j, (F.CHn_STATS_V.off j).addr n)))
  else if g = 3 then (List.range 64).flatMap (fun n => (List.range 4).map (fun j =>
    (284 + 4 * n + j, F.SEQ_RAILn_STATS0.addr n + j)))
  else if g = 4 then (List.range 128).map (fun n => (540 + n, F.THM_XMAXn.addr n))
  else if g = 5 then [(668, F.LINK_CNT0.base), (669, F.LINK_CNT1.base), (670, F.LINK_LATE_CNT.base)]
  else if g = 6 then (List.range 8).map (fun j => (671 + j, F.FLT_CNT.addr j))
  else if g = 7 then (List.range 8).flatMap (fun n => (List.range 5).map (fun j =>
    (679 + 5 * n + j, (F.PEn_STATS_V.off j).addr n)))
  else if g = 8 then (List.range 4).flatMap (fun m => (List.range 16).map (fun j =>
    (719 + 16 * m + j, (F.MEASm_WCNT.off j).addr m)))
  else []

/-- Key of a word of the latched bank. -/
def latchKey (o : Nat) : Nat := sramKey 11 o

/-- Key of the live word whose copy is bank word `o`: the live statistics fill the other half of the region in the bank's order
(DESIGN CHOICE, log entry 12). -/
def liveKey (o : Nat) : Nat := sramKey 11 (2048 + o)

/-- Every bank word with the register of its live statistic. -/
def bankRegs : List (Nat × Nat) := (List.range 9).flatMap bankGroup

/-- The register that holds the live statistic of a word of SRAM. -/
def liveReg (k : Nat) : Option Nat :=
  if liveKey 0 ≤ k then (bankRegs.find? (fun w => liveKey w.1 == k)).map (fun (w : Nat × Nat) => w.2) else none

/-- The raw data and check bits of a word: what a raw write left, else a valid code word. -/
def State.rawWord (s : State) (k : Nat) : Word × BitVec 7 :=
  match s.sramRaw.find? (fun e => e.1 == k) with
  | some e => (e.2.1, e.2.2)
  | none =>
    let d := match liveReg k with
      | some a => s.reg a
      | none => SMap.get sramDefault s.sram k
    (d, hsiao d)

/-- The word as its region reads it, and what the code found. A word never written raw is valid by construction. -/
def State.eccRead (s : State) (k : Nat) : Word × EccFind :=
  match s.sramRaw.find? (fun e => e.1 == k) with
  | some e => eccDecode e.2.1 e.2.2
  | none => (SMap.get sramDefault s.sram k, .clean)

/-- Write a whole word with fresh check bits (R475). -/
def State.sramWrite (s : State) (k : Nat) (w : Word) : State :=
  { s with
    sram := SMap.set sramDefault s.sram k w
    sramRaw := s.sramRaw.filter (fun e => e.1 != k)
    writeBack := s.writeBack.filter (fun e => e != k) }

/-- The word without the effects of a read: for structures the device keeps in SRAM. -/
def State.sramPeek (s : State) (k : Nat) : Word := (s.eccRead k).1

/-- Store eight words from `k` on. -/
def State.sramWrites (s : State) (k : Nat) : List Word → State
  | [] => s
  | w :: ws => State.sramWrites (s.sramWrite k w) (k + 1) ws

/-! ### Events, holds, handlers -/

/-- SOURCE code of an event (R356). -/
def sourceOf (cls ev obj : Nat) : Nat := cls * 4096 + ev * 128 + obj

/-- Register an event with the collector. Writer notices and the decisions of the sequencer and of channels arise from
the outcome of a cycle and are taken with the next cycle's events; a monitor's output reaches the collector one cycle
later and carries that tick (R17, R79); every other event is taken in this one (R364). Before the collector starts (R425 step 5) no event is registered. -/
def State.raise (s : State) (cls ev obj : Nat) (data0 : Word := 0) (dev : Option Nat := none) : State :=
  if !s.collector then s
  else
    { s with events := s.events ++
        [⟨sourceOf cls ev obj, data0, dev, if cls == 6 && s.ticking then s.tick + 1 else s.tick,
          !(ev == 0 || (3 ≤ cls && cls ≤ 6 : Bool))⟩] }

/-- An event whose DATA0 copies a register (R356). -/
def State.raiseReg (s : State) (cls ev obj : Nat) (f : Fld) (i : Nat := 0) : State :=
  s.raise cls ev obj (s.reg (f.addr i))

/-- The Notice of the writer's class (R13, R28, R31, R33, R356): event 0, object the party code. -/
def State.notice (s : State) (p : Party) (a : Nat) : State :=
  match p.noticeClass with
  | none => s
  | some c => s.raise c 0 p.code (BitVec.ofNat 32 (a * 65536 + p.code))

/-- Is the object held (R361): by a record of the table, or by a reaction whose record does not stand there? -/
def State.held (s : State) (o : HoldObj) : Bool := s.holds.any (fun h => h.2 == o) || s.holdWait.any (fun h => h.2 == o)

/-- The slot of the record with this SOURCE (R365): word 0 of slot i holds SOURCE in bits 31:16. -/
def State.slotOfSource (s : State) (src : Nat) : Option Nat :=
  (List.range 256).find? (fun i =>
    s.recUse.getLsbD i && (s.sramPeek (sramKey 10 (8 * i))).toNat / 65536 == src)

/-- The slot of the record that stands for a SOURCE: its own, or the one its events joined at a full table (R366). -/
def State.standsIn (s : State) (src : Nat) : Option Nat :=
  match s.slotOfSource src with
  | some i => some i
  | none => (s.merged.find? (fun x => x.1 == src)).map (fun x => x.2)

/-- Does a record stand for this SOURCE in the fault table (R357, R365, R366)? -/
def State.recordOf (s : State) (src : Nat) : Bool := (s.standsIn src).isSome

/-- The mask of the numbers an object constructor is held for, below `n`. -/
def State.holdMask (s : State) (mk : Nat → HoldObj) (lo n : Nat) : Nat :=
  (List.range n).foldl (fun m i => if s.held (mk (lo + i)) then m + 2 ^ i else m) 0

/-- FLT_HOLD_* show what is held (R375). -/
def State.showHolds (s : State) : State :=
  ((((((s.put F.FLT_HOLD_RAIL_RAIL (s.holdMask .rail 0 32) 0).put F.FLT_HOLD_RAIL_RAIL (s.holdMask .rail 32 32) 1).put
    F.FLT_HOLD_CH_CH (s.holdMask .chan 0 24)).put F.FLT_HOLD_PAIR_PAIR (s.holdMask .pair 0 32)).put
    F.FLT_HOLD_TGT_CHG (b2n (s.held .chg))).put F.FLT_HOLD_TGT_ENG (s.holdMask .eng 0 8)).put
    F.FLT_HOLD_TGT_LOOP (s.holdMask .loop 0 8)

/-- An object is held by the record that stands for a SOURCE, which shows it; where that record is still to be made the hold
waits for it (R33, R350, R365, R375). -/
def State.holdFor (src : Nat) (o : HoldObj) (s : State) : State :=
  match s.standsIn src with
  | some i =>
    if s.holds.contains (i, o) then s
    else
      let k := sramKey 10 (8 * i)
      ({ s with holds := s.holds ++ [(i, o)] }.sramWrite k (withBits (s.sramPeek k) 6 1 1)).showHolds
  | none => { s with holdWait := s.holdWait ++ [(src, o)] }.showHolds

/-- Engine `n` registers an event in slot `h` (R461): the pending bit is set and DATA takes the latest value; a bit
already set counts MISSED; an engine neither idle nor running counts LOST. -/
def State.slotEvent (s : State) (n h data : Nat) : State :=
  let st := s.get F.PEn_STAT_STATE n
  if st == 2 || st == 3 then
    let e := tget s.eng n
    let pend := s.get F.PEn_PEND_PEND n
    let s1 := if bitOf (BitVec.ofNat 32 pend) h then s.bump ((F.PEn_STATS_V).off 2) n
              else s.put F.PEn_PEND_PEND (pend + 2 ^ h) n
    { s1 with eng := tset s1.eng n { e with data := tset e.data h (BitVec.ofNat 16 data) } }
  else s.bump ((F.PEn_STATS_V).off 4) n

/-- A trigger of R460: the slots that watch it register the event at the end of the cycle, under the values they then have
(R471). -/
def State.trigger (s : State) (trig arg data : Nat) : State := { s with trigs := s.trigs ++ [(trig, arg, data)] }

/-- A mailbox of engine `n` is written (R460): only that engine's slots watch it, so its place stands in the argument. -/
def State.triggerMbox (s : State) (n k data : Nat) : State := s.trigger 6 (4 * n + k) data

/-- Every handler slot that watches a trigger registers its event (R460). -/
def State.register (s : State) (t : Nat × Nat × Nat) : State :=
  (List.range 64).foldl (fun s i =>
    let n := i / 8; let h := i % 8
    let arg := s.get ((F.PEn_HCFG_ARG).off (2 * h)) n
    if s.get ((F.PEn_HCFG_TRIG).off (2 * h)) n = t.1 ∧ (if t.1 = 6 then 4 * n + arg else arg) = t.2.1 then
      s.slotEvent n h t.2.2 else s) s

/-- The cycle ends: its triggers are registered. -/
def State.runTrigs (s : State) : State :=
  let t := s.trigs.foldl State.register s
  { t with trigs := [] }

/-- Does a read by `src` find an error that the scrubber and a port both find in this cycle (R500)? -/
def State.sameFind (s : State) (src k : Nat) : Bool :=
  match s.memHit with
  | some (j, t, b) => j == k && t == s.now && ((b == 0) != (src == 0))
  | none => false

/-- An error found in word `k` is noted in MEM_LAST_CE or MEM_LAST_UE, its count and its cause: once where the scrubber and a
port find it in one cycle, and then under the port's name (R477, R478, R500). -/
def State.memFound (src k bit : Nat) (last ecc cause : Fld) (s : State) : State :=
  let word := BitVec.ofNat 32 (2 ^ 31 + src * 2 ^ 28 + (k / 16384) * 2 ^ 24 + bit * 2 ^ 16 + k % 16384)
  if s.sameFind src k then (if src = 0 then s else s.setReg last.base word)
  else { ((s.bump ecc (k / 16384)).setReg last.base word).put cause 1 with memHit := some (k, s.now, src) }

/-- A live statistic whose word was lost restarts at 0 (R478): an energy with both its words. -/
def State.statRestart (k : Nat) (s : State) : State :=
  match liveReg k with
  | none => s
  | some a =>
    let o := k - liveKey 0
    let s := s.setReg a 0
    if o < 36 then
      let m := (o - 4) / 2
      { (s.setReg (F.MEAS_METERk_E_LO.addr m) 0).setReg (F.MEAS_METERk_E_HI.addr m) 0 with
        meter := tset s.meter m { tget s.meter m with acc := 0 } }
    else if 140 ≤ o ∧ o < 284 ∧ (o - 140) % 6 = 1 then
      { s with chan := tset s.chan ((o - 140) / 6) { tget s.chan ((o - 140) / 6) with charge := 0 } }
    else s

/-- A read of SRAM through a port (R477, R478): a single-bit error counts, loads MEM_LAST_CE and is due for write-back;
an uncorrectable one counts, loads MEM_LAST_UE and makes its record. `src` is the code of MEM_LAST_CE.SRC. -/
def State.sramRead (s : State) (src k : Nat) : Word × EccFind × State :=
  let r := s.eccRead k
  let region := k / 16384
  let again := s.sameFind src k
  match r.2 with
  | .clean => (r.1, .clean, s)
  | .corrected b =>
    let s1 := s.memFound src k b F.MEM_LAST_CE F.MEM_ECC_CE F.MEM_CAUSE_CE
    let s2 := { s1 with writeBack := if s1.writeBack.contains k then s1.writeBack else s1.writeBack ++ [k] }
    (r.1, .corrected b, if again then s2 else s2.raise 12 1 region)
  | .uncorrectable =>
    let s1 := s.memFound src k 0 F.MEM_LAST_UE F.MEM_ECC_UE F.MEM_CAUSE_UE
    let s2 := if again then s1 else if region < 8 then s1.raise 12 2 region else s1.raise 12 3 region
    if region == 10 || region == 11 then (0, .uncorrectable, (s2.sramWrite k 0).statRestart k)
    else (r.1, .uncorrectable, s2)

/-- The device's own read of the words from `lo` up to `hi`, in ascending order, where it uses them (R477, R478). Only a word that a
raw write left can show an error. -/
def State.ownRead (src lo hi : Nat) (s : State) : State :=
  if s.sramRaw.isEmpty then s
  else
    (sortBy (fun a b => decide (a ≤ b)) ((s.sramRaw.map (fun e => e.1)).filter (fun k => decide (lo ≤ k ∧ k < hi)))).foldl
      (fun s k => (s.sramRead src k).2.2) s

/-- A read of a live statistic reads its word. -/
def State.liveRead (src a : Nat) (s : State) : State :=
  if s.sramRaw.isEmpty then s
  else match bankRegs.find? (fun w => w.2 == a) with
    | some w => s.ownRead src (liveKey w.1) (liveKey (w.1 + 1))
    | none => s

/-- May party `p` write word `k`: no party of higher rank has written it in this cycle (R452, R471, R500)? -/
def State.portMay (s : State) (p : Party) (k : Nat) : Bool :=
  !s.portLog.any (fun e => e.1 == k && e.2.1 == s.now && decide (e.2.2 < p.code))

/-- A word is written by a party through a port: of the parties that write it in one cycle the one of higher rank stands. -/
def State.portWrite (p : Party) (k : Nat) (w : Word) (s : State) : State :=
  if s.portMay p k then
    { s.sramWrite k w with portLog := (k, s.now, p.code) :: s.portLog.filter (fun e => e.2.1 == s.now) }
  else s

/-! ### Objects of the caliber -/

/-- Byte `b` of rail `n`'s RAIL_GRAPH record (R46). -/
def State.railByte (s : State) (n b : Nat) : Nat := ((tget s.railGraph n).getD b 0).toNat

/-- Little-endian 16-bit field of a rail record. -/
def State.railU16 (s : State) (n b : Nat) : Nat := s.railByte n b + 256 * s.railByte n (b + 1)

/-- KIND of a rail (R46): 0 unused, 1 loop, 2 pair, 3 channel. -/
def State.railKind (s : State) (n : Nat) : Nat := s.railByte n 0

/-- TARGET of a rail. -/
def State.railTarget (s : State) (n : Nat) : Nat := s.railByte n 1

/-- Is rail `n` used? -/
def State.railUsed (s : State) (n : Nat) : Bool := s.railKind n != 0

/-- The rails of the device in ascending number. -/
def State.usedRails (s : State) : List Nat := (List.range 64).filter s.railUsed

/-- Is some rail's target channel `c`? -/
def State.railTargetsChan (s : State) (c : Nat) : Bool :=
  (List.range 64).any (fun n => s.railKind n == 3 && s.railTarget n == c)

/-- CELL_MAP byte (R44). -/
def State.cell (s : State) (b : Nat) : Nat := (s.cellMap.getD b 0).toNat

end Sys2Proof.Machine
end

