-- ==== Sys2Proof/Machine/Escapement.lean ====
section
/-! DEFINITION. Strike slots, their arming and cancelling, strike IDs and the step of the tick count (chapter 3). The
launch itself and the beat latch stand in Strike.lean, above the register fabric. -/

namespace Sys2Proof.Machine

/-- ESC_STAT.SYNC codes. -/
def syncUnsynced : Nat := 0
def syncCoarse : Nat := 1
def syncSynced : Nat := 2
def syncHoldover : Nat := 3
def syncManager : Nat := 4

/-- ESC_STAT.SYNC. -/
def State.sync (s : State) : Nat := s.get F.ESC_STAT_SYNC

/-- ESC_STAT.SYNC takes a value; in holdover it goes on reading holdover, and takes the value at its end (R76). -/
def State.setSync (v : Nat) (s : State) : State :=
  if s.on F.SYS_CLK_STAT_HOLDOVER then { s with syncBefore := v } else s.put F.ESC_STAT_SYNC v

/-- What SYNC reads out of holdover. -/
def State.syncUnder (s : State) : Nat := if s.on F.SYS_CLK_STAT_HOLDOVER then s.syncBefore else s.sync

/-- The arming state of slot `n`. -/
def State.slot (s : State) (n : Nat) : StrikeSlot := tget s.slots n

/-- Replace the arming state of slot `n`. -/
def State.setSlot (s : State) (n : Nat) (k : StrikeSlot) : State := { s with slots := tset s.slots n k }

/-- Append a command to the manager's queue, in its group of R154. -/
def State.queueCmd (s : State) (grp : Nat) (bytes : List Byte) (p : CmdFor := .none) : State :=
  { s with link := { s.link with queue := s.link.queue ++ [⟨grp, bytes, p⟩] } }

/-- A command body of 40 bytes, reserved bytes 0. -/
def body40 (b : List Byte) : List Byte := slice b 0 40

/-! ### Strike-table entries (R80) -/

/-- The eight words of the entry of slot `n`. -/
def State.entryWords (s : State) (n : Nat) : List Word :=
  (List.range 8).map (fun i => s.sramPeek (sramKey 9 (8 * n + i)))

/-- The 32 bytes of the entry of slot `n`. -/
def State.entryBytes (s : State) (n : Nat) : List Byte := bytesOf (s.entryWords n)

/-- The entry's VALID bit. -/
def entryValid (b : List Byte) : Bool := byteAt b 0 % 2 == 1

/-- The entry's SCOPE: 0 local, 1 hierarchy. -/
def entryScope (b : List Byte) : Nat := byteAt b 0 / 2 % 4

/-- NACT, DEF_LEAD, FIRST_DEV, LAST_DEV, TFLAGS of an entry. -/
def entryNact (b : List Byte) : Nat := byteAt b 1
def entryLead (b : List Byte) : Nat := leAt b 2 2
def entryFirst (b : List Byte) : Nat := byteAt b 28
def entryLast (b : List Byte) : Nat := byteAt b 29
def entryTflags (b : List Byte) : Nat := byteAt b 30

/-- One action of a strike entry (R80). -/
structure Action where
  addr : Nat
  lsb : Nat
  width : Nat
  value : Nat
deriving DecidableEq, Repr

/-- Action `j` of an entry. -/
def entryAction (b : List Byte) (j : Nat) : Action :=
  ⟨leAt b (4 + 8 * j) 2, byteAt b (6 + 8 * j), byteAt b (7 + 8 * j), leAt b (8 + 8 * j) 4⟩

/-- The actions of an entry, in order. -/
def entryActions (b : List Byte) : List Action := (List.range (min 3 (entryNact b))).map (entryAction b)

/-- The blocks a strike action may name: LOOP, PH, CHAN, SEQ, MEAS, MON, THM, PWRP and PE. -/
def strikeBlocks : List Nat := [5, 6, 7, 8, 9, 10, 11, 14, 17]

/-- The record of point `p`: PKIND, INDEX, ACCESS (R51); PKIND 0 where the point has none, or its word is uncorrectable
(R478). -/
def State.pointRec (s : State) (p : Nat) : Nat × Nat × Nat :=
  let r := s.eccRead (sramKey 9 (2048 + p))
  if r.2 = .uncorrectable then (0, 0, 0)
  else
    let w := r.1.toNat
    (w % 256, w / 256 % 256, w / 65536 % 256)

/-- The device reads the records of `n` points from `p` on (R477). -/
def State.readPoints (p n : Nat) (s : State) : State := s.ownRead 3 (sramKey 9 (2048 + p)) (sramKey 9 (2048 + min 2048 (p + n)))

/-- The strike unit reads the entry of a slot and the points it names, for an arming or a cancel (R477). -/
def State.readEntry (slot : Nat) (s : State) : State :=
  if s.sramRaw.isEmpty then s
  else
    let s := s.ownRead 3 (sramKey 9 (8 * slot)) (sramKey 9 (8 * slot + 8))
    (entryActions (s.entryBytes slot)).foldl (fun s a =>
      if 0x9000 ≤ a.addr ∧ a.addr < 0x9800 then s.readPoints (a.addr - 0x9000) 1 else s) s

/-- May a strike action name this address and these bits (R80)? Bits of RWS fields are not covered by RW or RWL. -/
def State.actionTargetOk (s : State) (a : Action) : Bool :=
  let m : Word := BitVec.ofNat 32 ((2 ^ a.width - 1) * 2 ^ a.lsb)
  match regDef a.addr with
  | some d => strikeBlocks.contains (blockOf a.addr) && ((d.rw &&& ~~~ d.soft) &&& m == m)
  | none =>
    decide (0x9000 ≤ a.addr ∧ a.addr < 0x9800) &&
      ((s.pointRec (a.addr - 0x9000)).1 != 0) && bitOf (BitVec.ofNat 32 (s.pointRec (a.addr - 0x9000)).2.2) 2

/-- An action within R80. -/
def State.actionOk (s : State) (a : Action) : Bool :=
  decide (a.lsb ≤ 31) && decide (1 ≤ a.width ∧ a.width ≤ 32) && decide (a.lsb + a.width ≤ 32) &&
  decide (a.value < 2 ^ a.width) && s.actionTargetOk a

/-- The ranges and encodings of R80 on this device's role; the target of an action is checked by `tgt`. -/
def entryOkWith (manager : Bool) (tgt : Action → Bool) (b : List Byte) : Bool :=
  let hier := entryScope b == 1
  let mh := hier && manager
  let nact := entryNact b
  decide (byteAt b 0 < 8) && decide (entryScope b ≤ 1) &&
  (decide (1 ≤ nact ∧ nact ≤ 3) || (nact == 0 && mh && entryTflags b % 2 == 0)) &&
  (if !hier then decide (200 ≤ entryLead b)
   else if manager then decide (12000 ≤ entryLead b) else entryLead b == 0) &&
  (entryActions b).all tgt &&
  ((List.range 24).all (fun i => i < 8 * nact || byteAt b (4 + i) == 0)) &&
  (if mh then decide (1 ≤ entryFirst b) && decide (entryFirst b ≤ entryLast b) && decide (entryLast b ≤ 63) &&
      decide (entryTflags b ≤ 1)
   else entryFirst b == 0 && entryLast b == 0 && entryTflags b == 0) &&
  byteAt b 31 == 0

/-- An entry within R80 as the arming checks it (R83). -/
def State.entryOk (s : State) (b : List Byte) : Bool := entryOkWith s.isManager s.actionOk b

/-! ### Strike IDs (R91) -/

/-- Is the ID open: held by an armed slot or by a commit? -/
def State.idOpen (s : State) (id : Nat) : Bool :=
  (s.slots.toList.any (fun k => k.armed && k.id == id)) || s.openIds.contains id

/-- Is the ID quarantined at this tick? -/
def State.idQuarantined (s : State) (id : Nat) : Bool :=
  s.quarantine.any (fun e => e.1 == id && decide (s.tick < e.2 + 16000))

/-- How often a number has been taken: number 0's ID 0x0000 counts as passed, so its first taking is generation 1. -/
def takenDefault (k : Nat) : Word := if k = 0 then 1 else 0

/-- The ID the next taking of a number would give. -/
def State.idOf (s : State) (num : Nat) : Nat :=
  ((SMap.get takenDefault s.strikeTaken num).toNat % 4) * 16384 + num

/-- The ID under which a number was last taken; 0 where it never was. -/
def State.lastIdOf (s : State) (num : Nat) : Nat :=
  let n := (SMap.get takenDefault s.strikeTaken num).toNat
  if n = 0 then 0 else (n - 1) % 4 * 16384 + num

/-- Is the ID open or quarantined? -/
def State.idBusy (s : State) (id : Nat) : Bool := id != 0 && (s.idOpen id || s.idQuarantined id)

/-- Try numbers from `num` on, at most `fuel` of them. A number is passed over while the ID of its last taking is open or
quarantined, while the ID of its next taking is, and where that would be 0x0000 (R91). -/
def State.findId (s : State) (num : Nat) : Nat → Option Nat
  | 0 => none
  | fuel + 1 =>
    let id := s.idOf num
    if id = 0 ∨ s.idBusy (s.lastIdOf num) ∨ s.idBusy id then State.findId s ((num + 1) % 16384) fuel else some num

/-- Count a taking of a number. -/
def State.countTaken (num : Nat) (s : State) : State :=
  { s with strikeTaken := SMap.set takenDefault s.strikeTaken num (SMap.get takenDefault s.strikeTaken num + 1) }

/-- The manager takes a strike ID (R91). Number 0 under generation 0 is the ID 0x0000: it is passed over and its
generation moves on. -/
def State.takeId (s : State) : Nat × State :=
  match s.findId s.strikeNext 16384 with
  | none => (0, s)
  | some num =>
    let id := s.idOf num
    let passed := decide (num < s.strikeNext) || s.strikeNext == 0
    let s0 := if s.idOf 0 = 0 ∧ passed then s.countTaken 0 else s
    (id, { s0.countTaken num with
      strikeNext := (num + 1) % 16384, cancelSent := s.cancelSent.filter (fun c => c != id) })

/-- An ID closes and is quarantined from this tick (R91). -/
def State.closeId (id : Nat) (s : State) : State :=
  if id = 0 then s
  else { s with quarantine := s.quarantine ++ [(id, s.tick)], openIds := s.openIds.filter (fun i => i != id) }

/-- A slot is disarmed and its ID closes (R90, R92, R94). -/
def State.closeSlot (n : Nat) (s : State) : State :=
  let k := s.slot n
  let s := s.closeId k.id
  s.setSlot n { armed := false, launch := 0, id := 0, targets := 0, ownRun := true,
                lastId := if k.id = 0 then k.lastId else k.id,
                lastClose := if k.id = 0 then k.lastClose else some s.tick }

/-- Entries whose 16,000 ticks have passed leave the quarantine (R91). -/
def State.endQuarantine (s : State) : State :=
  { s with quarantine := s.quarantine.filter (fun e => decide (s.tick < e.2 + 16000)) }

/-- Tick at which the earliest quarantine ends. -/
def State.quarantineDue (s : State) : Option Nat :=
  s.quarantine.foldl (fun m e => match m with
    | none => some (e.2 + 16000)
    | some t => some (min t (e.2 + 16000))) none

/-! ### Arming and cancelling -/

/-- ESC_ARM_RES.RESULT codes (R88). -/
def armAccepted : Nat := 0
def armLate : Nat := 1
def armBusy : Nat := 2
def armInvalid : Nat := 3
def armNosync : Nat := 4
def armScope : Nat := 5
def armNotArmed : Nat := 6
def armStale : Nat := 7

/-- SYNC allows arming: synced or manager. -/
def State.syncOk (s : State) : Bool := s.sync == syncSynced || s.sync == syncManager

/-- First cause of refusal of an arming or cancel, in the order of R88; 0 for none. -/
def armResult (stale invalid scope nosync state late : Bool) (stateCode : Nat) : Nat :=
  if stale then armStale else if invalid then armInvalid else if scope then armScope
  else if nosync then armNosync else if state then stateCode else if late then armLate else armAccepted

/-- Smallest lead of R87 and R90, in ticks. -/
def State.minLead (s : State) (hier : Bool) : Int := if hier && s.isManager then 12000 else 200

/-- Workers a hierarchy arming targets by the slot's range (R89). -/
def rangeMask (first last : Nat) : Nat :=
  (List.range 64).foldl (fun m i => if first ≤ i ∧ i ≤ last ∧ i ≠ 0 then m + 2 ^ i else m) 0

/-- Body of an ARM or CANCEL (R95). -/
def strikeBody (op slot id launch targets : Nat) : List Byte :=
  body40 (leBytes op 1 ++ leBytes slot 1 ++ leBytes id 2 ++ leBytes launch 8 ++ leBytes targets 8)

/-- A hierarchy arming the manager has accepted: an ID is taken, the slot armed, one ARM command queued (R89). -/
def State.armHier (slot launch targets : Nat) (s : State) : Nat × State :=
  let b := s.entryBytes slot
  let r := s.takeId
  let id := r.1
  let s1 := r.2.setSlot slot { s.slot slot with
    armed := true, launch := launch, id := id, targets := targets, ownRun := entryTflags b % 2 == 1 }
  (id, s1.queueCmd 2 (strikeBody 1 slot id launch targets))

/-- A local arming that is accepted. -/
def State.armLocal (slot launch : Nat) (s : State) : State :=
  s.setSlot slot { s.slot slot with armed := true, launch := launch, id := 0, targets := 0, ownRun := true }

/-- Launch tick of a register arming (R86): relative, grant tick plus the value; absolute, the tick within 2³¹ of the
grant whose low 32 bits are the value. -/
def State.launchTick (s : State) (rel : Bool) (v : Nat) : Int :=
  if rel then (s.tick : Int) + v else (s.tick : Int) + toS 32 (v + 2 ^ 32 - s.tick % 2 ^ 32)

/-- Store a result in the party's ESC_ARM_RES. -/
def State.putArmRes (s : State) (p : Party) (id result slot : Nat) : State :=
  s.setReg ((F.ESC_ARM_RES.bk p.code).addr 0) (BitVec.ofNat 32 (id * 65536 + result * 4096 + slot))

/-- SCOPE of a register arming or cancel (R88). -/
def State.scopeBad (s : State) (b : List Byte) (hier : Bool) : Bool :=
  let hs := entryScope b == 1
  (hs && !s.isManager) || (hier && (!s.isManager || !hs)) || (!hier && hs)

/-- ESC_ARM_CMD, OP absolute or relative (R84–R89). -/
def State.armCmd (p : Party) (rel hier useMask : Bool) (slot : Nat) (s : State) : State :=
  let s := s.readEntry slot
  let b := s.entryBytes slot
  let t := s.launchTick rel (s.get (F.ESC_ARM_TICK_VALUE.bk p.code))
  let r := armResult false (!entryValid b || !s.entryOk b) (s.scopeBad b hier) (!s.syncOk) (s.slot slot).armed
    (decide (t - s.tick < s.minLead hier)) armBusy
  if r ≠ armAccepted then s.putArmRes p 0 r slot
  else if !hier then (s.armLocal slot t.toNat).putArmRes p 0 armAccepted slot
  else
    let mask := s.get (F.ESC_ARM_MASK_LO.bk p.code) + 2 ^ 32 * s.get (F.ESC_ARM_MASK_HI.bk p.code)
    let tg := if useMask then mask / 2 * 2 else rangeMask (entryFirst b) (entryLast b)
    let a := s.armHier slot t.toNat tg
    a.2.putArmRes p a.1 armAccepted slot

/-- ESC_ARM_CMD, OP cancel (R90). -/
def State.cancelCmd (p : Party) (hier : Bool) (slot : Nat) (s : State) : State :=
  let s := s.readEntry slot
  let b := s.entryBytes slot
  let k := s.slot slot
  let r := armResult false (!entryValid b || !s.entryOk b) (s.scopeBad b hier) (!s.syncOk) (!k.armed)
    (decide ((k.launch : Int) - s.tick < s.minLead hier)) armNotArmed
  if r ≠ armAccepted then s.putArmRes p 0 r slot
  else
    let s1 := if k.id = 0 then s
      else { s.queueCmd 2 (strikeBody 2 slot k.id k.launch k.targets) with cancelSent := s.cancelSent ++ [k.id] }
    (s1.closeSlot slot).putArmRes p 0 armAccepted slot

/-- DATA0 of LINK event 13 (R356). -/
def refusalData (slot result : Nat) : Word := BitVec.ofNat 32 (result * 4096 + slot)

/-- A fault reaction arms slot `slot` at the reaction tick plus DEF_LEAD (R84); a refusal raises LINK/L1 (R88). -/
def State.armFault (slot : Nat) (s : State) : State :=
  let s := s.readEntry slot
  let b := s.entryBytes slot
  let hs := entryScope b == 1
  let t := s.tick + entryLead b
  let r := armResult false (!entryValid b || !s.entryOk b) (hs && !s.isManager) (!s.syncOk) (s.slot slot).armed
    (decide ((entryLead b : Int) < s.minLead hs)) armBusy
  if r ≠ armAccepted then s.raise 11 13 0 (refusalData slot r)
  else if hs then (s.armHier slot t (rangeMask (entryFirst b) (entryLast b))).2
  else s.armLocal slot t

/-! ### Strike commands received over the link (R84, R85, R90, R91, R95) -/

/-- Fields of a strike command body. -/
def cmdSlot (b : List Byte) : Nat := byteAt b 1
def cmdId (b : List Byte) : Nat := leAt b 2 2
def cmdTick (b : List Byte) : Nat := leAt b 4 8
def cmdTargets (b : List Byte) : Nat := leAt b 12 8
def cmdNum (b : List Byte) : Nat := leAt b 20 4

/-- A refusal that is not STALE raises LINK/L1 and is reported to the manager; 8 reports are held (R88, R174). -/
def State.refuseLink (slot result id : Nat) (s : State) : State :=
  let s := s.raise 11 13 0 (refusalData slot result)
  if 8 ≤ s.link.reports.length then s
  else { s with link := { s.link with reports := s.link.reports ++ [(slot, result, id)] } }

/-- ARM received by a worker it addresses. -/
def State.armLink (b : List Byte) (s : State) : State :=
  let slot := cmdSlot b
  let id := cmdId b
  let s := s.readEntry slot
  let e := s.entryBytes slot
  let r := armResult (s.idQuarantined id || s.idOpen id) (!entryValid e || !s.entryOk e) (entryScope e != 1)
    (!s.syncOk) (s.slot slot).armed (decide ((cmdTick b : Int) - s.tick < 200)) armBusy
  if r = armStale then s.bump F.ESC_CNT_STALE_ID
  else if r ≠ armAccepted then s.refuseLink slot r id
  else s.setSlot slot { s.slot slot with armed := true, launch := cmdTick b, id := id, targets := 0, ownRun := true }

/-- CANCEL received by a worker it addresses. -/
def State.cancelLink (b : List Byte) (s : State) : State :=
  let slot := cmdSlot b
  let id := cmdId b
  let s := s.readEntry slot
  let e := s.entryBytes slot
  let k := s.slot slot
  let r := armResult (s.idQuarantined id || !(k.armed && k.id == id)) (!entryValid e || !s.entryOk e)
    (entryScope e != 1) (!s.syncOk) (!k.armed) (decide ((k.launch : Int) - s.tick < 200)) armNotArmed
  if r = armStale then s.bump F.ESC_CNT_STALE_ID
  else if r ≠ armAccepted then s.refuseLink slot r id
  else s.closeSlot slot

/-- `n` boundaries were missed: the next bank is merged, and its latch counts them (R100, R101). -/
def State.beatMissed (n : Nat) (s : State) : State :=
  { s with beat := { s.beat with merged := true, missed := s.beat.missed + n } }

/-- BEAT received by a worker (R101): taken only while synced; less than 200 ticks ahead it is refused as LATE; one that
is not taken counts as missed, and so do the boundaries between the number expected and the one carried. A repeat (R136)
of a command already judged changes nothing. -/
def State.beatLink (b : List Byte) (s : State) : State :=
  let x := s.beat
  let n := cmdNum b
  let run := s.on F.ESC_BEAT_STAT_RUN
  if x.next = some (cmdTick b) ∨ (run ∧ s.get F.ESC_BEAT_NUM = n) ∨ (x.merged ∧ x.nextNum = (n + 1) % 2 ^ 32) then s
  else
    let gap := (n + 2 ^ 32 - x.nextNum) % 2 ^ 32
    let lost := if run ∧ x.next = none ∧ gap < 2 ^ 31 then gap else 0
    let s := { s with beat := { s.beat with seen := some (n, cmdTick b) } }
    if s.sync ≠ syncSynced ∨ cmdTick b < s.tick + 200 then
      let s := s.beatMissed (lost + 1)
      { s with beat := { s.beat with nextNum := (n + 1) % 2 ^ 32 } }
    else
      let s := if lost = 0 then s else s.beatMissed lost
      { s with beat := { s.beat with prior := x.seen, next := some (cmdTick b), nextNum := n } }

/-! ### The tick count -/

/-- The expected value becomes the count (R74): `e`, in 1/32 tick, is the count less that value. Where it is no whole number of
ticks R74 gives the whole count no rounding: the count is lowered by the floor of e / 32 (DESIGN CHOICE, log entry 53). -/
def stepTarget (tick : Nat) (e : Int) : Nat := ((tick : Int) - e / 32).toNat

/-- The count of a worker whose step is due is set (R74); the launches and the boundary a forward step passes are taken
by the caller (R75). -/
def State.stepCount (s : State) : State :=
  match s.stepDue with
  | none => s
  | some e =>
    let t := stepTarget s.tick e
    let s := { s with tick := t, stepDue := none, errRun := 0 }
    let s := ((s.put F.ESC_STAT_STEPPED 1).putB F.ESC_STAT_STEP_DIR (decide (0 < e))).bump F.ESC_CNT_STEP
    s.raiseReg 11 11 0 F.ESC_STAT

/-- e of a swing is judged (R74): within 2 ticks the PLL phase moves one step of 1/32 tick toward zero error, and the whole
tick count does not show it; above, it is counted towards a step; `e` in 1/32 tick. -/
def State.judgeError (e : Int) (s : State) : State :=
  let s := s.putS F.ESC_ERR_ERR (clampS 16 e)
  if e.natAbs ≤ 64 then { s with errRun := 0, pllPhase := s.pllPhase - e.sign }
  else if s.errRun + 1 ≥ 3 then { s with errRun := 0, stepDue := some e }
  else { s with errRun := s.errRun + 1 }

/-- A read of ESC_TICK_LO latches the high bits into the reader's ESC_TICK_HI (R102). -/
def State.readTick (p : Party) (s : State) : Word × State :=
  (BitVec.ofNat 32 s.tick, s.setReg ((F.ESC_TICK_HI.bk p.code).addr 0) (BitVec.ofNat 32 (s.tick / 2 ^ 32)))

/-- ESC_CNT_CLR.CLR (R102). -/
def State.escCntClr (s : State) : State := s.setReg F.ESC_CNT.base 0

/-- Entry to rest disarms every armed slot (R94). -/
def State.restDisarm (s : State) : State :=
  let n := ((List.range 256).filter (fun i => (s.slot i).armed)).length
  let s := (List.range 256).foldl (fun s i => if (s.slot i).armed then s.closeSlot i else s) s
  s.bump F.ESC_CNT_REST_DISARM 0 n

end Sys2Proof.Machine
end

