-- ==== Sys2Proof/Machine/LineCode.lean ====
section
/-! DEFINITION. The 8b/10b line code of the link (R105): code groups with running disparity. The spec names IEEE 802.3, Clause 36, for the code and prints no table of it: the
sub-block tables here are that clause's (PRESUMED, log entry 48). A group is written with its first transmitted bit highest. -/

namespace Sys2Proof.Machine

/-- Ones among the low `n` bits. -/
def onesIn (n w : Nat) : Nat := (List.range n).foldl (fun c i => c + b2n (w.testBit i)) 0

/-- Disparity after a sub-block of `n` bits: it flips where ones and zeros are not as many. -/
def nextRd (n w : Nat) (rd : Bool) : Bool := if 2 * onesIn n w = n then rd else !rd

/-- The 6-bit sub-blocks of D0 to D31 for negative disparity. -/
def sixTable : List Nat :=
  [0b100111, 0b011101, 0b101101, 0b110001, 0b110101, 0b101001, 0b011001, 0b111000,
   0b111001, 0b100101, 0b010101, 0b110100, 0b001101, 0b101100, 0b011100, 0b010111,
   0b011011, 0b100011, 0b010011, 0b110010, 0b001011, 0b101010, 0b011010, 0b111010,
   0b110011, 0b100110, 0b010110, 0b110110, 0b001110, 0b101110, 0b011110, 0b101011]

/-- The 4-bit sub-blocks of D.0 to D.7 for negative disparity. -/
def fourTable : List Nat := [0b1011, 0b1001, 0b0101, 0b1100, 0b1101, 0b1010, 0b0110, 0b1110]

/-- A sub-block at a disparity: the complement at positive, where it is unbalanced or its two forms differ. -/
def atRd (n : Nat) (pair : Bool) (w : Nat) (rd : Bool) : Nat :=
  if rd && (pair || 2 * onesIn n w != n) then 2 ^ n - 1 - w else w

/-- The code group of a data byte, and the disparity after it. -/
def dataGroup (b : Nat) (rd : Bool) : BitVec 10 × Bool :=
  let x := b % 32
  let y := b / 32 % 8
  let six := atRd 6 (x == 7) (sixTable.getD x 0) rd
  let r := nextRd 6 six rd
  let alt := y == 7 && (if r then [11, 13, 14].contains x else [17, 18, 20].contains x)
  let four := atRd 4 (y == 3) (if alt then 0b0111 else fourTable.getD y 0) r
  (BitVec.ofNat 10 (six * 16 + four), nextRd 4 four r)

/-- The control code groups of R105 for negative disparity, by their octet. -/
def controlTable : List (Nat × Nat) :=
  [(0x1C, 0b0011110100), (0x3C, 0b0011111001), (0x5C, 0b0011110101), (0xBC, 0b0011111010),
   (0xFB, 0b1101101000), (0xFD, 0b1011101000)]

/-- The code group of a control octet, and the disparity after it: at positive disparity the complement. -/
def controlGroup (b : Nat) (rd : Bool) : BitVec 10 × Bool :=
  let g := ((controlTable.find? (fun e => e.1 == b)).map (fun e => e.2)).getD 0
  (BitVec.ofNat 10 (if rd then 1023 - g else g), nextRd 10 g rd)

/-- The groups of data bytes in turn. -/
def dataGroups : List Byte → Bool → List (BitVec 10)
  | [], _ => []
  | b :: l, rd => (dataGroup b.toNat rd).1 :: dataGroups l (dataGroup b.toNat rd).2

/-- The groups of a frame, a TRAIN set or an ordered set: its first byte is a control octet. -/
def lineGroups (l : List Byte) (rd : Bool) : List (BitVec 10) :=
  match l with
  | [] => []
  | b :: r => (controlGroup b.toNat rd).1 :: dataGroups r (controlGroup b.toNat rd).2

/-- Running disparity after a frame, a TRAIN set or an ordered set that begins at `rd`. -/
def lineRd (l : List Byte) (rd : Bool) : Bool :=
  match l with
  | [] => rd
  | b :: r => r.foldl (fun rd b => (dataGroup b.toNat rd).2) (controlGroup b.toNat rd).2

end Sys2Proof.Machine
end

