-- ==== Sys2Proof/Machine/Link.lean ====
section
/-! DEFINITION. The link unit (chapter 4): ports and their training, upstream and heal, the phantom switches, and a
worker's part in down and up frames. Octets of control code groups stand for them in a frame: K28.1 0x3C, K27.7 0xFB,
K29.7 0xFD. -/

namespace Sys2Proof.Machine

/-- A port beside its registers. -/
def State.port (s : State) (p : Nat) : PortSt := tget s.link.port p

/-- Replace a port. -/
def State.setPort (s : State) (p : Nat) (x : PortSt) : State :=
  { s with link := { s.link with port := tset s.link.port p x } }

/-- LINK_PORTx_STAT.STATE codes. -/
def portDownSt : Nat := 0
def portLocking : Nat := 1
def portTraining : Nat := 2
def portUpSt : Nat := 3

/-- STATE of a port. -/
def State.portState (s : State) (p : Nat) : Nat := s.get F.LINK_PORT_STAT_STATE p

/-- Is a port up? -/
def State.portUp (s : State) (p : Nat) : Bool := s.portState p == portUpSt

/-- Does the link unit run? -/
def State.linkOn (s : State) : Bool := s.phase != .inReset && s.phase != .resting

/-- PORTx_EN. -/
def State.portEn (s : State) (p : Nat) : Bool := bitOf (s.reg F.LINK_CTRL.base) p

/-- The upstream port of a worker (R112). -/
def State.upstream (s : State) : Option Nat :=
  if s.on F.LINK_PORT_STAT_UPSTREAM 0 then some 0
  else if s.on F.LINK_PORT_STAT_UPSTREAM 1 then some 1 else none

/-- May frames and TRAIN sets leave by a port (R106, R118, R144)? Those of training have a test of their own. -/
def State.portSends (s : State) (p : Nat) : Bool := s.linkOn && s.portUp p && s.portEn p

/-- May frames be repeated on a port? On one that is up, and after a wake on one that holds stored values from the moment its
receiver locks (R114, R142). -/
def State.portRepeats (s : State) (p : Nat) : Bool :=
  s.linkOn && s.portEn p && (s.portUp p || ((s.port p).warm && s.portState p != portDownSt))

/-- The other port. -/
def otherPort (p : Nat) : Nat := 1 - p

/-- The downstream port of a worker. -/
def State.downstream (s : State) : Option Nat := s.upstream.map otherPort

/-- Device number: 0 on a manager and on a worker without one. -/
def State.devNo (s : State) : Nat := s.get F.HIER_STAT_DEV

/-- The worker holds a number (R145). -/
def State.hasNumber (s : State) : Bool := s.get F.HIER_STAT_DEV_SRC == 1 || s.get F.HIER_STAT_DEV_SRC == 2

/-- END of each port (R113): the downstream port that is down or on which no /I2/ stands. -/
def State.markEnds (s : State) : State :=
  let e := fun (p : Nat) => !s.isManager && s.downstream == some p && (!s.portUp p || !s.on F.LINK_PORT_STAT_NB_ADOPT p)
  (s.putB F.LINK_PORT_STAT_END (e 0) 0).putB F.LINK_PORT_STAT_END (e 1) 1

/-- Is the worker the end of its branch? -/
def State.isEnd (s : State) : Bool := match s.downstream with
  | some d => s.on F.LINK_PORT_STAT_END d
  | none => false

/-- PATH_VIA of a port in 1/32 tick, none where it is not known. -/
def State.pathVia (s : State) (p : Nat) : Option Nat :=
  if s.on F.LINK_PATH_VALID p then some (s.get F.LINK_PATH_PATH_INT p * 32 + s.get F.LINK_PATH_PATH_FRAC p) else none

/-- ESC_OFFSET shows PATH_VIA of the upstream port (R117). -/
def State.showOffset (s : State) : State :=
  match s.upstream with
  | none => s
  | some p => match s.pathVia p with
    | none => s
    | some v => (s.put F.ESC_OFFSET_PATH_INT (v / 32)).put F.ESC_OFFSET_PATH_FRAC (v % 32)

/-- Path delay of this device, in 1/32 tick. -/
def State.pathDelay (s : State) : Nat := s.get F.ESC_OFFSET_PATH_INT * 32 + s.get F.ESC_OFFSET_PATH_FRAC

/-! ### Phantom switches (R107–R109): 0 port A, 1 port B, 2 pass -/

/-- LIM and OFF bits of a switch. -/
def limFld : Nat → Fld
  | 0 => F.LINK_PH_STAT_LIM_A
  | 1 => F.LINK_PH_STAT_LIM_B
  | _ => F.LINK_PH_STAT_PASS_LIM

def offFld : Nat → Fld
  | 0 => F.LINK_PH_STAT_OFF_A
  | 1 => F.LINK_PH_STAT_OFF_B
  | _ => F.LINK_PH_STAT_PASS_OFF

/-- Does the control ask the injector of port `p` to conduct? -/
def State.injectAsked (s : State) (p : Nat) : Bool :=
  if s.on F.SYS_RST_STAT_RDEF then false
  else if s.isManager then bitOf (s.reg F.LINK_PH_CTRL.base) p
  else s.on F.LINK_PH_CTRL_REINJ && s.on F.SYS_DOM_STAT_VIN_OK && s.downstream == some p

/-- The switch is not held open by a trip. -/
def State.switchFree (s : State) (w : Nat) : Bool :=
  (tget s.link.sw w).reclose.isNone && !s.on (offFld w)

/-- Does the injector of port `p` conduct? -/
def State.injects (s : State) (p : Nat) : Bool := s.injectAsked p && s.switchFree p

/-- Does a worker's pass switch conduct? It is open while the worker re-injects (R109). -/
def State.passConducts (s : State) : Bool :=
  !s.isManager && !s.on F.SYS_RST_STAT_RDEF && !s.on F.LINK_PH_CTRL_PASS_DIS && s.switchFree 2 && !s.injects 0 && !s.injects 1

/-- Does a switch conduct? -/
def State.switchConducts (s : State) (w : Nat) : Bool := if w == 2 then s.passConducts else s.injects w

/-- ON_A and ON_B show what conducts. -/
def State.showPhantom (s : State) : State :=
  (s.putB F.LINK_PH_STAT_ON_A (s.switchConducts 0)).putB F.LINK_PH_STAT_ON_B (s.switchConducts 1)

/-- The disparity that a port held is not known any more: sets that turn it leave there. -/
def State.rdLost (p : Nat) (s : State) : State := s.setPort p { s.port p with rdKept := false }

/-- Change of the upstream port to `p`; the re-injected port follows it (R109). -/
def State.setUpstream (p : Nat) (s : State) : State :=
  let s := s.rdLost p
  let s := (s.put F.LINK_PORT_STAT_UPSTREAM 0 (otherPort p)).put F.LINK_PORT_STAT_UPSTREAM 1 p
  s.showOffset.markEnds.showPhantom

/-! ### Upstream and heal -/

/-- The heal (R138): the other port becomes the upstream; unless the worker was the end that a /HL/ reached, it sends
/HL/ there for 200 ticks. -/
def State.heal (from' : Nat) (send : Bool) (s : State) : State :=
  let p := otherPort from'
  let s := s.setUpstream p
  let s := if send then s.setPort p { s.port p with healEnd := some (s.now + 200) } else s
  let s := { s with link := { s.link with healed := true } }
  (s.bump F.LINK_CNT1_HEAL).raise 11 2 0

/-- The port of an event of the link unit's timeline. -/
def LineEvent.onPort (p : Nat) : LineEvent → Bool
  | .ownWord q _ => q == p
  | .ownSlot q _ _ => q == p
  | .ownMap q _ => q == p
  | .word q _ _ _ _ => q == p
  | .slot q _ _ _ _ => q == p
  | .map q _ _ _ => q == p
  | .last q _ => q == p

/-- What still had to come of the frames that pass on a port is lost: fields of an up frame, and on a worker's upstream port the
rest of a down frame (R115, R125). -/
def State.lineCut (p : Nat) (s : State) : State :=
  let l := { s.link with lineDue := s.link.lineDue.filter (fun e => !e.2.onPort p) }
  { s with link := if !s.isManager && s.upstream == some p then { l with header := none, passing := none } else l }

/-- On the manager the workers whose words came by a port have asked for no slot in an up frame that is cut there (R129). -/
def State.requestsCut (p : Nat) (s : State) : State :=
  if s.isManager then
    { s with link := { s.link with
      wkr := s.link.wkr.map (fun (x : WorkerSt) => if x.lastPort = p then { x with req := false } else x) } }
  else s

/-- Receiver of port `p` goes down (R106, R138); `ld` says that two /LD/ sets did it, else no valid code group has come
for 100 ticks. What a passing up frame still had to bring or take on the port is lost. -/
def State.portGoesDown (p : Nat) (ld : Bool) (s : State) : State :=
  let wasUp := s.portUp p
  let wasReceiving := s.portState p != portDownSt
  let s := (((s.put F.LINK_PORT_STAT_STATE portDownSt p).put F.LINK_PORT_STAT_NB_ADOPT 0 p).putB
    F.LINK_PORT_STAT_LD_RX ld p)
  let s := s.setPort p { s.port p with
    cs := [], rxT := none, lastI2 := none, healEnd := none, rdKept := false
    lastSignal := if ld then s.now else s.now - 100 }
  let s := (s.lineCut p).requestsCut p
  let s := if wasUp then s.raiseReg 11 1 p F.LINK_PORT_STAT p else s
  let s := s.markEnds
  if !s.isManager && s.upstream == some p && wasReceiving then s.heal p true else s

/-- /HL/ on the upstream port (R138): an end adopts the open segment, any other worker heals in turn. -/
def State.healReceive (p : Nat) (s : State) : State :=
  if s.isManager || s.upstream != some p then s else s.heal p (!s.isEnd)

/-- The receivers begin to listen: until valid signal comes, none has come since now (R118). -/
def State.portsListen (s : State) : State :=
  (s.setPort 0 { s.port 0 with lastSignal := s.now }).setPort 1 { s.port 1 with lastSignal := s.now }

/-- Code groups that were invalid or broke disparity (R106). -/
def State.codeErrors (p n : Nat) (s : State) : State :=
  s.bump (if p = 0 then F.LINK_CNT0_CODE_ERR_A else F.LINK_CNT0_CODE_ERR_B) 0 n

/-- A woken worker that locked to the start-up oscillator moves to the clock of its upstream port once the receiver there
locks (R20, R431). -/
def State.clockReturns (p : Nat) (s : State) : State :=
  if !s.isManager && s.link.coldDone && s.upstream == some p && s.on F.SYS_CLK_STAT_PLL_LOCK && !s.refFallback &&
      s.get F.SYS_CLK_STAT_REF_SRC == 3 then s.put F.SYS_CLK_STAT_REF_SRC (1 + p) else s

/-- A port with valid code groups locks, to train (R118). A port on which another manager was found stays down (R120). -/
def State.portTrainStart (p : Nat) (s : State) : State :=
  if s.portState p != portDownSt || !s.portEn p || (s.port p).secondMgr || s.on F.SYS_RST_STAT_RDEF then s
  else ((s.put F.LINK_PORT_STAT_STATE portLocking p).setPort p
    { s.port p with cs := [], rxT := none, lastSignal := s.now, sentAt := none, sentSwing := none }).clockReturns p

/-- Another manager on port `p` (R5, R120): the port is left down, whatever it was doing. -/
def State.secondManager (p : Nat) (s : State) : State :=
  if (s.port p).secondMgr then s
  else
    let s := s.portGoesDown p false
    (s.setPort p { s.port p with secondMgr := true }).raise 11 6 p

/-- The measurement counter of a port at a cycle of the count, `fine` 1/32 ticks after its start: 32 bits of 1/32 tick
(R116). Its origin and the pin reference points, which the content of VENDOR_TRIM calibrates, are not given. -/
def portCount (p cycle fine : Nat) : Nat := (32 * cycle + fine + (Config.pinRef p).toNat) % 2 ^ 32

/-- Three bytes of a path delay in the format of ESC_OFFSET; 0x1FFFFF none. -/
def pathBytes : Option Nat → List Byte
  | none => leBytes 0x1FFFFF 3
  | some v => leBytes (v % 0x1FFFFF) 3

/-- The TRAIN set a port sends at count `tTx` of its measurement counter (R116). -/
def State.trainSet (s : State) (p tTx : Nat) : List Byte :=
  let x := s.port p
  let o := otherPort p
  let mgr := s.isManager
  let kind := b2n (!mgr) + 2 * b2n x.warm
  let dev := if mgr then 0 else if s.hasNumber then s.devNo else 0xFF
  let hops := if mgr then 0 else s.get F.LINK_PORT_STAT_HOPS_VIA o
  let echo := match x.rxT with
    | none => leBytes 0 8
    | some (t, r) => leBytes t 4 ++ leBytes (tTx + 2 ^ 32 - r % 2 ^ 32) 4
  let body := leBytes kind 1 ++ leBytes dev 1 ++ leBytes hops 1 ++ leBytes tTx 4 ++ echo ++
    pathBytes (if mgr then some 0 else s.pathVia o)
  leBytes 0x3C 1 ++ body ++ leBytes (crc8 body) 1

/-- Bytes of the frame or TRAIN set that left last by a port. -/
def PortSt.lastSent (x : PortSt) : List Byte := if x.sentAt.getD 0 < x.frameAt.getD 0 then x.frame else x.sent

/-- The running disparity with which a frame or a TRAIN set begins. /I1/ leaves the disparity as it was, so that the set before
fixes it on a port that has sent nothing else since; the number of other sets is given by no rule, and it is a free bit after
them (R105). -/
def State.rdStart (s : State) (p : Nat) : Bool :=
  let x := s.port p
  if x.rdKept && s.upstream != some p then lineRd x.lastSent x.rd else Config.freeBit s.free

/-- A TRAIN set leaves by port `p` now. -/
def State.trainOut (p : Nat) (s : State) : State :=
  (s.setPort p { s.port p with
    sent := s.trainSet p (portCount p s.now 0), sentAt := some s.now, rd := s.rdStart p
    rdKept := s.upstream != some p }).draw

/-- Mean of delays; the rounding of the last place is free. -/
def State.meanDelay (s : State) (l : List Int) : Int × State :=
  if l.isEmpty then (0, s)
  else
    let n : Int := (l.length : Nat)
    let t := l.foldl (· + ·) 0
    if t % n = 0 then (t / n, s) else (t / n + (b2n (Config.freeBit s.free) : Nat), s.draw)

/-- PATH_VIA and HOPS_VIA from what the neighbour gave and C (R117). -/
def State.showPath (p : Nat) (s : State) : State :=
  let x := s.port p
  let f : Int := if s.on F.LINK_PORT_STAT_NB_ROLE p then 768 else 0
  let s := match x.pathThru with
    | none => s.setReg (F.LINK_PATH.addr p) 0
    | some t =>
      let v := ((t : Int) + f + x.c).toNat % 2 ^ 21
      ((s.put F.LINK_PATH_VALID 1 p).put F.LINK_PATH_PATH_INT (v / 32) p).put F.LINK_PATH_PATH_FRAC (v % 32) p
  let s := s.put F.LINK_PORT_STAT_HOPS_VIA (match x.hopsThru with
    | none => 0xFF
    | some h => min (h + 1) 0xFF) p
  if s.upstream == some p then s.showOffset else s

/-- A port comes up (R118). -/
def State.portComesUp (p : Nat) (s : State) : State :=
  let s := (s.put F.LINK_PORT_STAT_STATE portUpSt p).setPort p { s.port p with upOnce := true, warm := false }
  s.markEnds

/-- A port whose stored values do not hold trains cold (R142). Where it is the stored upstream port the worker is cold with
it and chooses anew (R118; DEDUCED, log entry 48). -/
def State.trainsCold (p : Nat) (s : State) : State :=
  let s := s.setPort p { s.port p with warm := false }
  if !s.isManager && s.upstream == some p then
    { s with link := { s.link with warmWake := false, coldDone := false } }
  else s

/-- A TRAIN set whose first byte arrived `fine` 1/32 ticks into the present cycle (R117–R120, R142); `bad` of its code
groups were in error, and `idle` in the idle before it (R106). -/
def State.trainReceive (p : Nat) (b : List Byte) (fine bad idle : Nat) (s : State) : State :=
  let s := s.codeErrors p (bad + idle)
  if s.portState p == portDownSt then s
  else if bad ≠ 0 ∨ crc8 (slice b 1 18) ≠ byteAt b 19 then s.bump F.LINK_CNT0_HCRC_ERR
  else
    let t4 := portCount p s.now fine
    let kind := byteAt b 1
    if s.isManager && kind % 2 == 0 then s.secondManager p
    else
      let dev := byteAt b 2
      let hops := byteAt b 3
      let path := leAt b 16 3 % 2 ^ 21
      let x := s.port p
      let hopsThru := if hops = 0xFF then none else some hops
      let pathThru := if path = 0x1FFFFF then none else some path
      let same := s.get F.LINK_PORT_STAT_NB_DEV p == dev && x.hopsThru == hopsThru
      let holds := x.warm && same
      let s := if x.warm && !same then s.trainsCold p else s
      let s := (s.put F.LINK_PORT_STAT_NB_DEV dev p).put F.LINK_PORT_STAT_NB_ROLE (kind % 2) p
      let s := s.put F.LINK_PORT_STAT_LD_RX 0 p
      let t1 := leAt b 8 4
      let hold := leAt b 12 4
      let d := toS 32 (t4 + 2 ^ 33 - t1 - hold)
      let r : Option Int × State :=
        if t1 = 0 ∧ hold = 0 then (none, s)
        else if d % 2 = 0 then (some (d / 2), s)
        else (some (d / 2 + (b2n (Config.freeBit s.free) : Nat)), s.draw)
      let s := r.2
      let cs := match r.1 with
        | none => x.cs
        | some c => (c :: x.cs).take 16
      let s := s.setPort p { s.port p with
        rxT := some (leAt b 4 4, t4), pathThru := pathThru, hopsThru := hopsThru, cs := cs, lastSignal := s.now
        warm := x.warm && same }
      if s.portUp p then
        if r.1.isSome && 4 ≤ cs.length then
          let m := s.meanDelay (cs.take 4)
          (m.2.setPort p { m.2.port p with c := m.1 }).showPath p
        else s.showPath p
      else if holds then (s.showPath p).portComesUp p
      else
        let s := s.put F.LINK_PORT_STAT_STATE portTraining p
        let hi := cs.foldl max (cs.headD 0)
        let lo := cs.foldl min (cs.headD 0)
        if cs.length = 16 ∧ hi - lo ≤ 4 then
          let m := s.meanDelay cs
          ((m.2.setPort p { m.2.port p with c := m.1 }).showPath p).portComesUp p
        else s

/-- The upstream port by R112: fewer hops, then the shorter path, then port A. -/
def State.bestPort (s : State) : Nat :=
  let h := fun p => s.get F.LINK_PORT_STAT_HOPS_VIA p
  let v := fun p => (s.pathVia p).getD (2 ^ 21)
  if h 0 < h 1 then 0 else if h 1 < h 0 then 1 else if v 0 ≤ v 1 then 0 else 1

/-- Tick of the cycle count at which a cold worker may choose its upstream with one port up (R118). -/
def State.selectDue (s : State) : Option Nat :=
  if s.portUp 0 && s.portUp 1 then some s.now
  else if s.portUp 0 then some ((s.port 1).lastSignal + 10000)
  else if s.portUp 1 then some ((s.port 0).lastSignal + 10000) else none

/-- May the worker choose? Only while it is cold: after that the upstream changes by a heal or a retrain alone (R112,
R140). -/
def State.mayChoose (s : State) : Bool := !s.isManager && !s.link.coldDone

/-- A cold worker chooses its upstream port and switches its PLL to it (R112, R118), unless the start-up oscillator serves
until the next reset (R21). -/
def State.upstreamSelect (s : State) : State :=
  let p := if s.portUp 0 && s.portUp 1 then s.bestPort else if s.portUp 0 then 0 else 1
  let s := { s with link := { s.link with coldDone := true, healed := false } }.setUpstream p
  if s.refFallback then s else s.put F.SYS_CLK_STAT_REF_SRC (1 + p)

/-- /I2/ received on port `p` (R113): the sender takes its upstream from this segment. -/
def State.i2Received (p : Nat) (s : State) : State :=
  if !s.portUp p then s
  else ((s.put F.LINK_PORT_STAT_NB_ADOPT 1 p).setPort p { s.port p with lastI2 := some s.now, lastSignal := s.now }).markEnds

/-- No /I2/ on the downstream port for 1,000 ticks (R113). NB_ADOPT falls with it, and on any other port when that goes down
(DESIGN CHOICE, log entry 54). -/
def State.branchEnd (s : State) : State :=
  match s.downstream with
  | none => s
  | some d => (s.put F.LINK_PORT_STAT_NB_ADOPT 0 d).markEnds

/-- LINK_CTRL.RETRAIN_x or a RETRAIN command (R140, R144). -/
def State.retrain (p : Nat) (s : State) : State :=
  let s := s.portGoesDown p false
  let s := s.setPort p { s.port p with secondMgr := false }
  { s with link := { s.link with coldDone := false } }

/-- LINK_CNT_CLR.CLR (R144). -/
def State.linkCntClr (s : State) : State :=
  ((s.setReg F.LINK_CNT0.base 0).setReg F.LINK_CNT1.base 0).setReg F.LINK_LATE_CNT.base 0

/-! ### Trips of the phantom switches (R108) -/

/-- Replace what a switch holds. -/
def State.setSwitch (s : State) (w : Nat) (x : SwitchSt) : State :=
  { s with link := { s.link with sw := tset s.link.sw w x } }

/-- A switch at its limit for 1 ms opens; the third trip in a row leaves it open (R108). A trip is in a row with the one
before when the switch has not conducted for more than 1 ms since it closed again. -/
def State.phantomTrip (w : Nat) (s : State) : State :=
  if !s.switchConducts w then s
  else
    let x := tget s.link.sw w
    let n := if x.trips = 0 ∨ s.now > x.closedAt + 100000 then 1 else x.trips + 1
    let s := s.put (limFld w) 1
    let s := if n ≥ 3 then (s.put (offFld w) 1).setSwitch w { x with trips := n, reclose := none }
             else s.setSwitch w { x with trips := n, reclose := some (s.now + 10000000) }
    let s := s.showPhantom
    let s := s.raiseReg 11 7 w F.LINK_PH_STAT
    if n ≥ 3 then s.raiseReg 11 8 w F.LINK_PH_STAT else s

/-- A tripped switch closes again after 100 ms. -/
def State.phantomReclose (w : Nat) (s : State) : State :=
  let x := tget s.link.sw w
  (s.setSwitch w { x with reclose := none, closedAt := s.now }).showPhantom

/-- Clearing an OFF bit lets the switch close again, and its trips are counted anew. -/
def State.phantomCleared (w : Nat) (s : State) : State :=
  if s.on (offFld w) then s.showPhantom
  else if 3 ≤ (tget s.link.sw w).trips then (s.setSwitch w { trips := 0, closedAt := s.now }).showPhantom else s.showPhantom

/-- LINK_TAG_STAT shows the open transactions and the number taken next (R144). -/
def State.showTags (s : State) : State :=
  let l := s.link
  ((s.put F.LINK_TAG_STAT_OPEN l.txns.length).put F.LINK_TAG_STAT_NEXT l.tagNext).put F.LINK_TAG_STAT_GEN
    (l.tagTaken.getD l.tagNext 0)

/-! ### A worker's down frame (R115, R122) -/

/-- Number of the swing a tick lies in (R78). -/
def swingOf (t : Nat) : Nat := t / 4000

/-- The current swing. -/
def State.swing (s : State) : Nat := swingOf s.tick

/-- Bytes of a down frame go out of the downstream port, each 24 ticks after it arrived on the upstream port (R114): its
header, of which byte 13 has just arrived, or what follows the header. -/
def State.downForward (head rest : List Byte) (s : State) : State :=
  match s.downstream with
  | none => s
  | some d =>
    if !s.portRepeats d then s
    else if rest.isEmpty then
      (s.setPort d { s.port d with
        frame := head, frameAt := some (s.now - 116), rd := s.rdStart d, rdKept := false }).draw
    else s.setPort d { s.port d with frame := head ++ rest, rdKept := true }

/-- The 14 header bytes of a down frame on port `p`, its first byte received at `arr` of the worker's count in 1/32
tick; `bad` of its code groups were in error. A worker forwards every down frame of its upstream port, taken or not. What was
still to come of a frame before it was lost. -/
def State.downHeader (p : Nat) (b : List Byte) (arr bad : Nat) (s : State) : State :=
  let s := s.codeErrors p bad
  if s.isManager then s.secondManager p
  else if s.upstream != some p || !s.portRepeats p then s
  else
  let s := { s with link := { s.link with passing := some b, header := none } }.downForward b []
  if bad ≠ 0 ∨ crc8 (slice b 1 12) ≠ byteAt b 13 then s.bump F.LINK_CNT0_HCRC_ERR
  else if byteAt b 1 / 16 ≠ 1 then s
  else
    let t := leAt b 2 8
    let k := swingOf t
    let un := s.syncUnder == syncUnsynced
    if s.link.taken == some k || (!un && decide (t ≠ 4000 * s.swing)) then s
    else
      let e : Int := (arr : Int) - 32 * t - s.pathDelay
      let s := if un then s else s.judgeError e
      { s with link := { s.link with
          taken := some k, header := some (slice b 0 14), shift := e, everTaken := true, missed := 0
          grants := [byteAt b 10, byteAt b 11, byteAt b 12], grantSwing := k } }

/-- A taken frame is accepted: the count is set, or SYNC moves on (R118, R142), once the PLL is locked. A worker on the start-up
oscillator stays where it is (log entry 46). -/
def State.syncStep (s : State) : State :=
  if s.refFallback || !s.on F.SYS_CLK_STAT_PLL_LOCK then s
  else if s.syncUnder == syncUnsynced then
    let t := stepTarget s.tick s.link.shift
    let s' := { s with
      tick := t, ticking := true, link := { s.link with warmWake := false }
      beat := { s.beat with start := if s.beat.firstBank then t else s.beat.start } }
    s'.setSync (if s.link.warmWake then syncSynced else syncCoarse)
  else if s.syncUnder == syncCoarse then
    { s.setSync syncSynced with beat := { s.beat with start := if s.beat.firstBank then s.tick else s.beat.start } }
  else s

/-- Was the down frame of swing `k` accepted? The worker remembers those of the latest swings. -/
def LinkSt.wasAccepted (l : LinkSt) (k : Nat) : Bool := l.accepted == some k || l.acceptedLog.contains k

/-- A swing ends in which a worker took or accepted no down frame (R137, R144). `k` is that swing. A taken frame whose
last byte is still to come is judged by it. The run of swings with
|e| above 64 goes on over it: the rules do not say whether such a swing breaks it (DESIGN CHOICE, log entry 46). -/
def State.swingWithout (k : Nat) (s : State) : State :=
  if !s.link.everTaken then s
  else
    let open' := s.link.taken == some k && s.link.header.isSome
    let s := if s.link.wasAccepted k || open' then s else s.bump F.LINK_LATE_CNT_DLOST
    if s.link.taken == some k then s
    else
      let m := s.link.missed + 1
      let s := { s with link := { s.link with missed := m } }
      if m = 5 then s.raise 11 5 0 else s

/-- A worker that took no down frame in 5 swings in a row (R137); it may enter rest by its own ENTER, whatever SYNC still reads
(R433; DEDUCED against R428, log entry 55). -/
def State.outOfContact (s : State) : Bool := s.link.everTaken && decide (5 ≤ s.link.missed)

/-! ### A worker's up frame (R125–R128, R134, R174) -/

/-- ERR# asserted (R370): while RST_N is low, from power-on (CAUSE 0, or 4 for an off-cycle) until the fault collector starts, and
while a record at L1 to L4 stands. -/
def State.errLow (s : State) : Bool :=
  s.phase == .inReset ||
    (!s.collector && (s.get F.SYS_RST_STAT_CAUSE == 0 || s.get F.SYS_RST_STAT_CAUSE == 4)) || s.on F.FLT_STAT_ERR

/-- IRQ# asserted: an enabled group has a cause (R376). -/
def State.irqAsserted (s : State) : Bool := (s.reg F.IRQ_SUMMARY.base &&& s.reg F.IRQ_EN.base) != 0

/-- PDOWN: a port down after having been up, or the branch healed (R126). -/
def State.pdown (s : State) : Bool :=
  ((s.port 0).upOnce && !s.portUp 0) || ((s.port 1).upOnce && !s.portUp 1) || s.link.healed

/-- The 16-bit status word with its check. -/
def withCheck (w : Nat) : Nat := w / 32 * 32 + crc5 w

/-- Does a status word pass its check? -/
def wordValid (w : Nat) : Bool := crc5 w == w % 32

/-- Replace bytes from offset `o` on. -/
def splice (b : List Byte) (o : Nat) (x : List Byte) : List Byte := b.take o ++ x ++ b.drop (o + x.length)

/-- A long slot of 64 bytes with its check (R128). -/
def longSlot (owner kind tag : Nat) (payload : List Byte) : List Byte :=
  let b := leBytes owner 1 ++ leBytes kind 1 ++ leBytes tag 1 ++ leBytes payload.length 1 ++ slice payload 0 58
  b ++ leBytes (crc16 b) 2

/-- Offsets of worker `d`'s status word, of long slot `i` and of worker `d`'s map byte in an up frame (R125). -/
def wordOffset (d : Nat) : Nat := 8 + 2 * (d - 1)
def slotOffset (i : Nat) : Nat := 134 + 64 * i
def mapOffset (d : Nat) : Nat := 326 + d / 8

/-- The long slots of up frame `k` granted to this worker (R121). -/
def State.ownSlots (s : State) (k : Nat) : List Nat :=
  if s.link.grantSwing = k then (List.range 3).filter (fun i => s.link.grants.getD i 0 == s.devNo) else []

/-- May a reply held ride in up frame `k` (R134)? -/
def Reply.inTime (r : Reply) (k : Nat) : Bool := decide (k ≤ r.swing + 4)

/-- What a slot whose first byte passes at tick `t` of up frame `k` takes: a reply received at least 1,000 ticks before, else
a refusal report (R134, R174). -/
def LinkSt.slotTakes (l : LinkSt) (k t : Nat) : LinkSt :=
  match l.replies.find? (fun r => r.inTime k && decide (r.received + 1000 ≤ t)) with
  | some r => { l with replies := l.replies.filter (fun q => q.tag != r.tag) }
  | none => { l with reports := l.reports.drop 1 }

/-- The slot itself. -/
def LinkSt.slotBytes (l : LinkSt) (dev k t : Nat) : List Byte :=
  match l.replies.find? (fun r => r.inTime k && decide (r.received + 1000 ≤ t)) with
  | some r => longSlot dev 1 r.tag r.payload
  | none => match l.reports with
    | (slot, res, id) :: _ => longSlot dev 2 0 (leBytes slot 1 ++ leBytes res 1 ++ leBytes id 2)
    | [] => longSlot dev 0 0 []

/-- REQ of the word of up frame `k` that leaves by port `p`: a reply or a report is held that no slot of this frame will
take (R134, R174). -/
def State.asksSlot (s : State) (p k : Nat) : Bool :=
  let d := s.devNo
  let due := s.link.lineDue.filterMap (fun e => match e.2 with
    | .ownSlot q n _ => if q = p ∧ n = k then some (s.tick + (e.1 - s.now)) else none
    | _ => none)
  let l := due.foldl (fun l t => l.slotTakes k t) s.link
  decide (0 < d) && (l.replies.any (fun r => r.inTime k) || !l.reports.isEmpty)

/-- Status word of up frame `k` on port `p`, latched now (R126). -/
def State.statusWord (s : State) (p k : Nat) : Nat :=
  let l := s.link
  let ans := ((l.answers.find? (fun a => a.1 + 1 == k)).map (fun a => a.2)).getD 0
  let dlost := k == 0 || !l.wasAccepted (k - 1)
  let req := s.asksSlot p k
  withCheck (b2n l.alarmWord * 2 ^ 15 + b2n s.errLow * 2 ^ 14 + b2n s.irqAsserted * 2 ^ 13 + b2n req * 2 ^ 12 +
    ans % 4 * 2 ^ 10 + b2n dlost * 2 ^ 9 + b2n (s.on F.SYS_DOM_STAT_LINK_HELD) * 2 ^ 8 + b2n s.pdown * 2 ^ 7 +
    b2n (s.sync == syncSynced) * 2 ^ 6 + b2n (!l.alt) * 2 ^ 5)

/-- Replace bytes of the frame that leaves by port `p`. -/
def State.frameSplice (p o : Nat) (x : List Byte) (s : State) : State :=
  s.setPort p { s.port p with frame := splice (s.port p).frame o x }

/-- The first byte of this worker's status word enters its transmitter: the word is latched, or a word that stands there
already shows a duplicate (R126, R149). -/
def State.ownWord (p k : Nat) (s : State) : State :=
  if !s.hasNumber || s.link.dupStop then s
  else
    let d := s.devNo
    let o := wordOffset d
    if wordValid (leAt (s.port p).frame o 2) then
      ({ s.put F.HIER_STAT_DUP 1 with link := { s.link with dupStop := true } }).raise 11 19 d
        ((s.put F.HIER_STAT_DUP 1).reg (F.HIER_STAT.addr 0)) (some d)
    else
      let s := s.frameSplice p o (leBytes (s.statusWord p k) 2)
      { s with link := { s.link with alt := !s.link.alt, alarmWord := false } }

/-- The first byte of a long slot granted to this worker enters its transmitter (R128, R134). -/
def State.ownSlot (p k i : Nat) (s : State) : State :=
  if !s.hasNumber || s.link.dupStop then s
  else
    let t := s.frameSplice p (slotOffset i) (s.link.slotBytes s.devNo k s.tick)
    { t with link := t.link.slotTakes k s.tick }

/-- This worker's map byte enters its transmitter: its bit is set where an alarm is still to be shown (R127). With that its
part in the frame is over: replies that had until this frame are dropped (R134). -/
def State.ownMap (p k : Nat) (s : State) : State :=
  let s := if !s.hasNumber || s.link.dupStop || !s.link.alarmMap then s
    else
      let o := mapOffset s.devNo
      let s := s.frameSplice p o (leBytes (byteAt (s.port p).frame o ||| 2 ^ (s.devNo % 8)) 1)
      { s with link := { s.link with alarmMap := false } }
  { s with link := { s.link with replies := s.link.replies.filter (fun r => decide (k < r.swing + 4)) } }

/-- Up frame `k` leaves by port `u` from cycle `t` on: the worker's own fields enter it as their bytes pass (R125–R128). The
slots are those of the grants it knows when the frame begins. -/
def State.upLeaves (u k t : Nat) (b : List Byte) (s : State) : State :=
  let d := s.devNo
  let own := [(t + 10 * wordOffset d, LineEvent.ownWord u k)] ++
    (s.ownSlots k).map (fun i => (t + 10 * slotOffset i, LineEvent.ownSlot u k i)) ++
    [(t + 10 * mapOffset d, LineEvent.ownMap u k)]
  let s := (s.setPort u { s.port u with frame := b, frameAt := some t, rd := s.rdStart u, rdKept := false }).draw
  if s.hasNumber then { s with link := { s.link with lineDue := s.link.lineDue ++ own } } else s

/-- UHDR bit 0: the branch hangs on manager port B. A board that joins like ports (R146) has the upstream port of the same
letter. -/
def State.branchBit (s : State) : Bool := s.upstream == some 1

/-- The branch end starts up frame `k` (R125): every word and slot empty, the grants those of the taken down frame of this
swing, as long as it has not failed its CCRC. -/
def State.upStart (s : State) : State :=
  match s.upstream with
  | none => s
  | some u =>
    let k := s.swing
    let s := { s with link := { s.link with upSent := some k } }
    let l := s.link
    let g := if l.taken == some k && (l.header.isSome || l.wasAccepted k) then l.grants else [0, 0, 0]
    let h := leBytes (0x20 + b2n (s.branchBit)) 1 ++ leBytes k 2 ++ g.flatMap (fun x => leBytes x 1)
    let b := leBytes 0xFD 1 ++ h ++ leBytes (crc8 h) 1 ++ List.replicate 126 (0 : Byte) ++
      g.flatMap (fun x => longSlot x 0 0 []) ++ List.replicate 8 (0 : Byte)
    if s.portRepeats u then s.upLeaves u k s.now b else s

/-- Tick at which a branch end starts its next up frame: offset 2,200 of the swing (R125). -/
def State.upDue (s : State) : Nat :=
  let k := s.swing
  if s.tick ≤ 4000 * k + 2200 ∧ s.link.upSent ≠ some k then 4000 * k + 2200 else 4000 * (k + 1) + 2200

/-- Does this worker answer down frames with up frames? -/
def State.sendsUp (s : State) : Bool := !s.isManager && s.ticking && s.sync != syncUnsynced && s.isEnd

/-- An up frame whose first byte arrives on the downstream port now: it leaves by the upstream port 24 ticks later (R114).
`bad` lists the bytes that came with a code error; a header that has one or fails its CRC-8 counts, and the bytes go on as they
came (R106; log entry 48). -/
def State.upForward (b : List Byte) (bad : List Nat) (s : State) : State :=
  let s := match s.downstream with
    | none => s
    | some d => s.codeErrors d bad.length
  let s := if bad.any (fun i => decide (i < 8)) || crc8 (slice b 1 6) != byteAt b 7 then s.bump F.LINK_CNT0_HCRC_ERR else s
  match s.upstream with
  | none => s
  | some u =>
    let k := s.swing - (s.swing + 2 ^ 16 - leAt b 2 2) % 2 ^ 16
    if s.portRepeats u then s.upLeaves u k (s.now + 24) b else s

/-- Is the reply of a tag still held? The up frame of swing k + 4 has left every worker by offset 7,534 of that swing. -/
def State.replyHeld (s : State) (tag : Nat) : Bool :=
  s.link.replies.any (fun r => r.tag == tag && decide (s.tick < 4000 * (r.swing + 4) + 7534))

/-- The swing of the down frame whose commands are acted on. -/
def State.frameSwing (s : State) : Nat := s.link.accepted.getD s.swing

/-- A reply to a request received at tick `t` is held until a granted slot takes it (R134). -/
def State.holdReply (t tag : Nat) (payload : List Byte) (s : State) : State :=
  { s with link := { s.link with
    replies := s.link.replies.filter (fun r => r.tag != tag) ++ [⟨tag, s.frameSwing, t, payload⟩] } }

/-- The answer to an ANS command of the accepted frame (R135). -/
def State.setAnswer (a : Nat) (s : State) : State :=
  { s with link := { s.link with
    answers := ((s.frameSwing, a) :: s.link.answers.filter (fun x => x.1 != s.frameSwing)).take 4 } }

/-! ### What a port sends -/

/-- TRAIN may start on a port that is up (R119): in a swing whose number is a multiple of 256 and that has had none, from 20
ticks after the last byte of a frame on (one whose end is still to come may have 336 bytes), and so that it ends 100 ticks before the next frame is due on that pair. A worker
expects the down frame it forwards at its path delay and 24 ticks, an up frame at offset 2,200 at the earliest. -/
def State.trainFits (s : State) (p : Nat) : Bool :=
  let k := s.swing
  let x := s.port p
  let passes := !s.isManager && s.downstream == some p && s.link.passing.isSome
  let after := match x.frameAt with
    | none => true
    | some t => decide (t + 10 * (if passes then 336 else x.frame.length) + 20 ≤ s.now)
  let o := if s.isManager then 0 else if s.upstream == some p then 2200 else s.pathDelay / 32 + 24
  let next := if s.tick ≤ 4000 * k + o then 4000 * k + o else 4000 * (k + 1) + o
  s.ticking && s.sync != syncUnsynced && k % 256 == 0 && x.sentSwing != some k && after && decide (s.tick + 300 ≤ next)

/-- Cycle from which a port in training sends its next TRAIN: 400 ticks after the one before (R118). -/
def State.trainDue (s : State) (p : Nat) : Nat := ((s.port p).sentAt.map (fun t => t + 400)).getD s.now

/-- A port sends TRAIN: at its 400 ticks in training, where it fits when up (R118, R119). -/
def State.trainSend (p : Nat) (s : State) : State :=
  let st := s.portState p
  if st == portDownSt || !s.portEn p then s
  else if st == portUpSt then
    if s.trainFits p then
      let s := s.trainOut p
      s.setPort p { s.port p with sentSwing := some s.swing }
    else s
  else if s.now < s.trainDue p then s
  else (s.put F.LINK_PORT_STAT_STATE portTraining p).trainOut p

/-- What stands on a port's transmit pair (R105). -/
inductive LineOut where
  | off | burst | ld | idle1 | idle2 | heal | train | frame
deriving DecidableEq, Repr

/-- Do `n` bytes whose first left in cycle `t` still leave? -/
def State.leaving (s : State) (t : Option Nat) (n : Nat) : Bool :=
  (t.map (fun t => decide (t ≤ s.now ∧ s.now < t + 10 * n))).getD false

/-- What a port transmits now: the wake burst (R141), /LD/ while its receiver is down (R106, R120, R427), /HL/ in a heal
(R138), a frame, a TRAIN set, and else /I2/ on the upstream port and /I1/ on any other (R112). -/
def State.lineOut (s : State) (p : Nat) : LineOut :=
  let x := s.port p
  if !s.linkOn then .off
  else if s.leaving s.link.burst 40 then .burst
  else if s.on F.SYS_RST_STAT_RDEF then .ld
  else if !s.portEn p then .off
  else if s.portState p == portDownSt then .ld
  else if (x.healEnd.map (fun t => decide (s.now < t))).getD false then .heal
  else if s.portRepeats p && s.leaving x.frameAt x.frame.length then .frame
  else if s.leaving x.sentAt x.sent.length then .train
  else if s.upstream == some p then .idle2
  else .idle1

/-- The ordered set of what a port sends beside frames, TRAIN sets and the wake burst (R105). -/
def orderedSet : LineOut → List Byte
  | .idle1 => [0xBC, 0x50]
  | .idle2 => [0xBC, 0xC5]
  | .ld => [0x5C, 0xB5]
  | .heal => [0x1C, 0x00]
  | _ => []

/-- The code groups that stand on a port's transmit pair: of the whole frame or TRAIN set that leaves, of the ordered set
that is repeated at the disparity `rd` it begins with, or of D21.5 in a wake burst, which is balanced. -/
def State.portGroups (s : State) (p : Nat) (rd : Bool) : List (BitVec 10) :=
  match s.lineOut p with
  | .off => []
  | .burst => dataGroups [0xB5] false
  | .frame => lineGroups (s.port p).frame (s.port p).rd
  | .train => lineGroups (s.port p).sent (s.port p).rd
  | o => lineGroups (orderedSet o) rd

end Sys2Proof.Machine
end

