-- ==== Sys2Proof/Machine/Channel.lean ====
section
/-! DEFINITION. Distribution channels (chapter 8): states, inrush, breaker, trips and retries, damaged transistors,
redundant pairs. Every operation here is on State; the meanings of the rows call them. -/

namespace Sys2Proof.Machine

/-- What channel `n` holds beside its registers. -/
def State.ch (s : State) (n : Nat) : ChanSt := tget s.chan n

/-- Replace what channel `n` holds. -/
def State.setCh (s : State) (n : Nat) (c : ChanSt) : State := { s with chan := tset s.chan n c }

/-- CHn_STAT.STATE codes of R246. -/
def chUnused : Nat := 0
def chOff : Nat := 1
def chRamp : Nat := 2
def chEnhance : Nat := 3
def chOn : Nat := 4
def chCooling : Nat := 5
def chLatched : Nat := 6
def chStandby : Nat := 7
def chBlocked : Nat := 8

/-- State of channel `n`. -/
def State.chState (s : State) (n : Nat) : Nat := s.get F.CHn_STAT_STATE n

/-- Is channel site `n` used (R44)? -/
def State.chUsed (s : State) (n : Nat) : Bool := s.cell (24 + n) % 4 == 1 || s.cell (24 + n) % 4 == 2

/-- Is site `n` a back-to-back pair (R44, R242)? -/
def State.chBackToBack (s : State) (n : Nat) : Bool := s.cell (24 + n) % 4 == 2

/-- Is the bus of channel `n` the 48 V bus (R44, R242)? -/
def State.chBus48 (s : State) (n : Nat) : Bool := (s.cell (24 + n)).testBit 2

/-- Words CFG to PAIR2 of channel `n`, the ones that a sample tick puts in force (R248). -/
def State.chWords (s : State) (n : Nat) : List Word := (List.range 7).map (fun k => s.reg (0x3002 + 0x40 * n + k))

/-- A field of CFG to PAIR2 as in force since the last sample tick or the acceptance of the image (R248); before any image, in
which every site is unused, the register. -/
def State.chEff (s : State) (n : Nat) (f : Fld) : Nat :=
  match (s.ch n).eff[f.base - 0x3002]? with
  | some w => bitsOf w f.lo f.width
  | none => s.get f n

/-- Pair member (R264): EN 1, in force from a sample tick on like every field but ON and PMODE (R248). -/
def State.member (s : State) (n : Nat) : Bool := s.chEff n F.CHn_PAIR_EN != 0

/-- States in which the channel conducts (R258, R259). -/
def chConducts (st : Nat) : Bool := st == 2 || st == 3 || st == 4

/-- States in which the accumulator moves (R254). -/
def chCounts (st : Nat) : Bool := st == 2 || st == 3 || st == 4 || st == 8

/-- PG falls to 0 (R251). -/
def State.pgDrop (n : Nat) (s : State) : State :=
  (s.put F.CHn_STAT_PG 0 n).setCh n { s.ch n with pgSince := none, pgHigh := none }

/-- The state of channel `n` at the start of this cycle: what a trip or a block of this cycle left does not hide the other
causes that meet in it (R260, R271). -/
def State.chStateWas (s : State) (n : Nat) : Nat := if (s.ch n).was.1 = s.now ∧ s.now ≠ 0 then (s.ch n).was.2 else s.chState n

/-- A trip or a block changes the state in this cycle. -/
def State.chLeave (n : Nat) (s : State) : State := s.setCh n { s.ch n with was := (s.now, s.chStateWas n) }

/-- Does OUTn sink 20 mA: in the discharge allowance of a channel outside a pair whose DSCH is 1 (R263)? -/
def State.chSinks (s : State) (n : Nat) : Bool :=
  s.chEff n F.CHn_CFG_DSCH != 0 && !s.member n && match (s.ch n).allowEnd with
    | some e => decide (s.now < e)
    | none => false

/-- Is the member in active mode, or rescued, or still in it until the break that a write of PMODE 0 schedules (R264–R267)? -/
def State.chActive (s : State) (n : Nat) : Bool :=
  s.on F.CHn_PAIR_PMODE n || (s.ch n).rescue || (s.ch n).breakAt.isSome ||
    s.due.any (fun d => match d with | .chanPmode k false _ => k == n | _ => false)

/-- The gate goes off by the mode given; the discharge allowance of 500,000 ticks begins when the channel drove its gate
(R244, R263). -/
def State.gateOff (n : Nat) (m : GateMode) (s : State) : State :=
  let c := s.ch n
  let driven := chCounts (s.chState n)
  s.setCh n { c with
    gate := m
    allowEnd := if driven then some (s.now + 500000) else c.allowEnd
    dmgSince := if driven then none else c.dmgSince }

/-- Entry to Off (R246): RETRY_CNT 0, D 0, a scheduled break cancelled, no rescue. `m` is the gate's pull-down. -/
def State.chEnterOff (n : Nat) (m : GateMode) (s : State) : State :=
  let s := s.gateOff n m
  let s := ((s.put F.CHn_STAT_STATE chOff n).put F.CHn_STAT_RETRY_CNT 0 n).put F.CHn_STAT_BRK_PEND 0 n
  (s.setCh n { s.ch n with acc := 0, breakAt := none, rescue := false, stbyRetry := false, target := none, offAt := s.now }).put
    F.CHn_TEMP2_BACC 0 n

/-- Entry to Standby (R246, R267): normal pull-down, the break is over. -/
def State.chEnterStandby (n : Nat) (s : State) : State :=
  let s := s.gateOff n .normalDown
  let s := (s.put F.CHn_STAT_STATE chStandby n).put F.CHn_STAT_BRK_PEND 0 n
  s.setCh n { s.ch n with breakAt := none, rescue := false, stbyRetry := false, target := none, dmgSince := none }

/-- Entry to Ramp (R249): the target starts at the first sample. -/
def State.chEnterRamp (n : Nat) (s : State) : State :=
  let c := s.ch n
  (s.put F.CHn_STAT_STATE chRamp n).setCh n
    { c with
      gate := .ramp, target := none, rampStart := s.now, vbusStart := c.vbus, pgSince := none, dmgSince := none
      rampModel := some ((1000 * (c.vbus - c.vout).toNat) / max 1 (s.chEff n F.CHn_INRUSH_SR)) }

/-- Entry to Enhance with the mode given (R244, R249). -/
def State.chEnterEnhance (n : Nat) (m : GateMode) (s : State) : State :=
  (s.put F.CHn_STAT_STATE chEnhance n).setCh n
    { s.ch n with gate := m, enhStart := s.now, target := none, pgSince := none, dmgSince := none }

/-- A member closes: by fast close into Enhance if V_out ≥ 0.1 V × STBY_FLOOR, through Ramp otherwise (R264, R266). A close without Ramp has no ramp model. -/
def State.memberClose (n : Nat) (vout : Int) (s : State) : State :=
  if vout ≥ 100 * (s.chEff n F.CHn_PAIR2_STBY_FLOOR : Int) then
    (s.setCh n { s.ch n with rampModel := none }).chEnterEnhance n .fastClose
  else s.chEnterRamp n

/-- Entry to Blocked (R265): fast pull-down, BLOCKS counts, PG stays as R251 gives for a block. -/
def State.chEnterBlocked (n : Nat) (s : State) : State :=
  let s := (s.chLeave n).gateOff n .fastDown
  let s := (s.put F.CHn_STAT_STATE chBlocked n).bump ((F.CHn_STATS_V).off 5) n
  s.setCh n { s.ch n with pgBlk := s.on F.CHn_STAT_PG n }

/-- Rank of a cause code of CHn_STAT.CAUSE in the order of R260; code 0, no trip, comes last. -/
def causeRank (c : Nat) : Nat := if c = 0 then 6 else c

/-- A cause meets the trip that another made in this cycle: CAUSE takes the first in the order of R260, the record of a
latch with it, and a fast short starts its pull-down. A block of this cycle does not stand against a trip (R271). -/
def State.chCauseMeets (n cause : Nat) (s : State) : State :=
  if causeRank (s.get F.CHn_STAT_CAUSE n) ≤ causeRank cause then s
  else
    let s := s.put F.CHn_STAT_CAUSE cause n
    let s := if cause = 1 then s.setCh n { s.ch n with gate := .fastDown } else s
    { s with events := s.events.map (fun (e : Event) =>
        if e.source = sourceOf 3 2 n ∧ !e.ready then { e with data0 := s.reg (F.CHn_STAT.addr n) } else e) }

/-- Did the channel trip in this cycle? -/
def State.chTripped (s : State) (n : Nat) : Bool :=
  decide ((s.ch n).was.1 = s.now ∧ s.now ≠ 0) && (s.chState n == chCooling || s.chState n == chLatched)

/-- A trip with a cause code of CHn_STAT.CAUSE (R260): gate off, TRIP and TRIPS, then Cooling or Latched. Entry to
Latched makes DIST/L2 (R262). -/
def State.chTripNew (n cause : Nat) (s : State) : State :=
  let s := if s.chState n = chBlocked ∧ s.chStateWas n ≠ chBlocked then
      s.put ((F.CHn_STATS_V).off 5) (s.get ((F.CHn_STATS_V).off 5) n - 1) n else s
  let s := (s.chLeave n).gateOff n (if cause == 1 then .fastDown else .normalDown)
  let s := ((s.put F.CHn_STAT_TRIP 1 n).put F.CHn_STAT_CAUSE cause n).bump ((F.CHn_STATS_V).off 2) n
  let s := (s.setCh n { s.ch n with acc := 0, tripAt := s.now, target := none }).put F.CHn_TEMP2_BACC 0 n
  if s.get F.CHn_STAT_RETRY_CNT n < s.chEff n F.CHn_RETRY_RETRY_N then s.put F.CHn_STAT_STATE chCooling n
  else
    let s := ((s.put F.CHn_STAT_STATE chLatched n).put F.CHn_STAT_BRK_PEND 0 n)
    let s := s.setCh n { s.ch n with breakAt := none, rescue := false, stbyRetry := false, offAt := s.now }
    s.raiseReg 3 2 n F.CHn_STAT n

/-- One sample, update or comparator finds a cause: one trip in a cycle (R260, R271). -/
def State.chTrip (n cause : Nat) (s : State) : State :=
  if s.chTripped n then s.chCauseMeets n cause else s.chTripNew n cause

/-- The effect of ON having been written 1 or 0 (R246, R264, R271). -/
def State.chOnEffect (n : Nat) (v : Bool) (s : State) : State :=
  let st := s.chState n
  if v then
    if st == chOff && s.chUsed n then
      if s.member n then
        if s.on F.CHn_PAIR_PMODE n then s.memberClose n (s.ch n).vout else s.chEnterStandby n
      else s.chEnterRamp n
    else s
  else if st == chUnused || st == chOff || st == chLatched then s
  else s.chEnterOff n (if (s.ch n).gate == .fastDown then .fastDown else .normalDown)

/-- The effect of PMODE having been written (R266, R267). `grant` is the tick of the write's grant. -/
def State.chPmodeEffect (n : Nat) (v : Bool) (grant : Nat) (s : State) : State :=
  if !s.member n then s
  else
    let st := s.chState n
    if v then
      let s := (s.put F.CHn_STAT_BRK_PEND 0 n).setCh n { s.ch n with breakAt := none, rescue := false, stbyRetry := false }
      if st == chStandby then s.memberClose n (s.ch n).vout else s
    else if st == chRamp || st == chEnhance || st == chOn || st == chBlocked || st == chCooling then
      let s := s.setCh n { s.ch n with rescue := false }
      if s.on F.CHn_STAT_BRK_PEND n then s
      else (s.put F.CHn_STAT_BRK_PEND 1 n).setCh n
        { s.ch n with breakAt := some (grant + 1000 * s.chEff n F.CHn_PAIR_BRK_DLY) }
    else s

/-- Apply a write that was granted in the cycle before (R248). -/
def State.applyDue (s : State) : DueWrite → State
  | .chanOn n v => if s.get F.CHn_CTRL_ON n == b2n v then s.chOnEffect n v else s
  | .chanPmode n v g => s.chPmodeEffect n v g

/-- Store ON, its effect falling in the next cycle. -/
def State.writeChOn (n : Nat) (v : Bool) (s : State) : State :=
  let s := s.putB F.CHn_CTRL_ON v n
  { s with due := s.due ++ [.chanOn n v] }

/-- Store PMODE, its effect falling in the next cycle. -/
def State.writePmode (n : Nat) (v : Bool) (s : State) : State :=
  let s := s.putB F.CHn_PAIR_PMODE v n
  { s with due := s.due ++ [.chanPmode n v s.now] }

/-- An image is accepted: the values of a used channel that stand then are in force (R248; that a value of the image's presets
does not wait for a sample is DEDUCED, log entry 35), and ON 1 leads to Ramp in the next cycle (R246). -/
def State.chAccept (n : Nat) (s : State) : State :=
  let s := s.setCh n { s.ch n with eff := s.chWords n }
  if s.chUsed n && s.on F.CHn_CTRL_ON n then { s with due := s.due ++ [.chanOn n true] } else s

/-! ### The breaker curve (R252–R254) -/

/-- CUR of a curve word, in mA. -/
def curveCur (w : Word) : Nat := 100 * bitsOf w 16 16

/-- The time of a curve point in units of 10 µs: M × 2^E (R252). -/
def curveTime (w : Word) : Nat := bitsOf w 0 12 * 2 ^ bitsOf w 12 4

/-- Word `k` of the channel's curve. -/
def State.curveWord (s : State) (n k : Nat) : Word := s.reg (((F.CHn_CURVE).off k).addr n)

/-- The fractional bits of a logarithm, most significant first, of a mantissa in [1, 2) with 31 fractional bits. -/
def log2Bits : Nat → Nat → Nat → Nat
  | 0, _, a => a
  | k + 1, m, a =>
    let q := m * m / 2 ^ 31
    if q < 2 ^ 32 then log2Bits k q (2 * a) else log2Bits k (q / 2) (2 * a + 1)

/-- log2 of a positive number with 24 fractional bits. -/
def log2Fix (n : Nat) : Nat := log2Bits 24 (n * 2 ^ 31 / 2 ^ Nat.log2 n) (Nat.log2 n)

/-- The greatest `t` from `lo` to `hi` whose logarithm is at most `l`, by halving. -/
def exp2Within : Nat → Nat → Nat → Nat → Nat
  | 0, lo, _, _ => lo
  | k + 1, lo, hi, l =>
    let m := (lo + hi + 1) / 2
    if log2Fix m ≤ l then exp2Within k m hi l else exp2Within k lo (m - 1) l

/-- t(I) between two curve points, in 1/4,096 of 10 µs: linear in log2 t against log2 I (R254). -/
def curveInterp (i : Nat) (a b : Word) : Nat :=
  let ta := 4096 * curveTime a
  let tb := 4096 * curveTime b
  let x := log2Fix i - log2Fix (curveCur a)
  let dx := log2Fix (curveCur b) - log2Fix (curveCur a)
  exp2Within 48 tb ta (log2Fix ta - (log2Fix ta - log2Fix tb) * x / max 1 dx)

/-- Trip time t(I) in 1/4,096 of 10 µs, for |I| in mA from CUR of point 0 on (R254). At a point's current, and above
point 11, it is that point's time. Between two points the interpolation is held within ±1 % of the exact value and no
nearer: there it is a free value of that width, between the times of the two points. -/
def State.tripTime (s : State) (n i : Nat) : Nat :=
  let go := (List.range 11).find? (fun k => i < curveCur (s.curveWord n (k + 1)))
  match go with
  | none => 4096 * curveTime (s.curveWord n 11)
  | some k =>
    let a := s.curveWord n k; let b := s.curveWord n (k + 1)
    if i = curveCur a ∨ curveTime a = curveTime b then 4096 * curveTime a
    else
      let t := curveInterp i a b
      let lo := max (4096 * curveTime b) (t - t / 100)
      let hi := min (4096 * curveTime a) (t + t / 100)
      lo + (Config.curveTime i a b + (t - lo)) % (hi - lo + 1)

/-- One unit in the last place, or none: the rounding a rule leaves open. -/
def State.ulp (s : State) : Nat := b2n (Config.freeBit s.free)

/-- D after one sample (R254). R254 holds D with 32 fractional bits and trips a constant current at sample
ceil(t(I) / 10 µs), within the ±1 % of t(I), up to t = 1,341.8 s, where one increment is 32 units of 2^-32: no rounding of the
single increment keeps that, so D carries 32 bits more and its increments are rounded up there (DEDUCED, log entry 35). The
rounding of the decay at 2^-32 is free. -/
def State.accMove (s : State) (n : Nat) (i : Nat) : Nat :=
  let d := (s.ch n).acc
  if curveCur (s.curveWord n 0) ≤ i ∧ 0 < curveCur (s.curveWord n 0) then
    let t := max 1 (s.tripTime n i)
    d + (2 ^ 76 + t - 1) / t
  else if d = 0 then 0
  else d - 2 ^ 32 * (2 ^ 32 / (10000 * max 1 (s.chEff n F.CHn_CFG_DECAY_T)) + s.ulp)

/-- A word of a node's or a curve's parameters is about to change in this cycle: what stood before it is kept. -/
def State.keepParam (a : Nat) (s : State) : State :=
  let p := s.parOld
  if p.1 ≠ s.now then { s with parOld := (s.now, [(a, s.reg a)], s.curveFlags) }
  else if p.2.1.any (fun x => x.1 == a) then s
  else { s with parOld := (p.1, p.2.1 ++ [(a, s.reg a)], p.2.2) }

/-- The parameters of the models and curves as they stood before this cycle: an update or a sample in the tick of a strike or
commit that changes them still uses these (R254, R353). -/
def State.paramsBefore (s : State) : State :=
  let p := s.parOld
  if p.1 = s.now ∧ !p.2.1.isEmpty then { p.2.1.foldl (fun (t : State) x => t.setReg x.1 x.2) s with curveFlags := p.2.2 }
  else s

/-- The parameters that this cycle changed stand again as in `new`. -/
def State.paramsOf (s new : State) : State :=
  let p := new.parOld
  if p.1 = new.now ∧ !p.2.1.isEmpty then
    { p.2.1.foldl (fun (t : State) x => t.setReg x.1 (new.reg x.1)) s with curveFlags := new.curveFlags }
  else s

/-! ### The sample (R243) -/

/-- A sample as the converters give it: the shunt's code has 13 bits over ±80 mV, and the bus selects 0 V to 24 V or 0 V to
64 V for ISPn, ISNn and OUTn, so that V_DS stays between the ends of that range (R242, R243). A value beyond the end of its
range converts to that end (DEDUCED, log entry 35). -/
def State.chConvert (s : State) (n : Nat) (x : ChanSample) : ChanSample :=
  let top : Int := if s.chBus48 n then 64000 else 24000
  { shunt := clampI (-4096) 4095 x.shunt, vbus := clampI 0 top x.vbus, vout := clampI 0 top x.vout
    vgs := x.vgs, vds := clampI (-top) top x.vds }

/-- I in mA: shunt code × 80 mV / 4,096 over RSH µΩ (R243). -/
def State.chCurrent (s : State) (n : Nat) (code : Int) : Int :=
  roundDiv (code * 625000) (32 * (max 1 (s.chEff n F.CHn_CFG_RSH) : Nat))

/-- The readings and statistics a sample updates (R243, R274). -/
def State.chMeasure (n : Nat) (x : ChanSample) (i : Int) (s : State) : State :=
  let c := s.ch n
  let ia := i.natAbs
  let s := (s.putS F.CHn_MEAS_I (clampS 16 (roundDiv i 100)) n).put F.CHn_MEAS_VGS (satU 8 (roundDiv x.vgs 100)) n
  let s := (s.put F.CHn_VOLT_VBUS (satU 16 (roundDiv x.vbus 10)) n).put F.CHn_VOLT_VOUT (satU 16 (roundDiv x.vout 10)) n
  let s := s.put F.CHn_STATS_V (max (s.get F.CHn_STATS_V n) (satU 32 (roundDiv (ia : Int) 100))) n
  let charge := c.charge + ia
  let s := s.put ((F.CHn_STATS_V).off 1) (min (charge / 1000000) (2 ^ 32 - 1)) n
  let keepN := c.samples.length - 10
  s.setCh n { s.ch n with
    vbus := x.vbus, vout := x.vout, vgs := x.vgs, charge := charge
    samples := (c.samples.drop keepN) ++
      [if chConducts (s.chState n) then (s.tick, i, x.vds, s.chState n == chOn) else (s.tick, 0, 0, false)] }

/-- Has a start failed at this sample (R250)? -/
def State.startFails (s : State) (n : Nat) : Bool :=
  let c := s.ch n
  let st := s.chStateWas n
  let tstart := 100000 * s.chEff n F.CHn_INRUSH_TSTART
  let slope := max 1 (s.chEff n F.CHn_INRUSH_SR)
  if st == chRamp then
    (decide (c.rampStart + tstart ≤ s.now) && decide (10 * c.vout ≤ c.vbus)) ||
    decide (c.rampStart + (2 * c.vbusStart.toNat * 1000) / slope + tstart ≤ s.now)
  else if st == chEnhance then
    (c.rampModel.isSome && decide (c.rampStart + tstart ≤ s.now) && decide (10 * c.vout ≤ c.vbus)) ||
    (decide (c.enhStart + 200000 ≤ s.now) && decide (c.vgs < 100 * (s.chEff n F.CHn_PG_VGS_FULL : Int)))
  else false

/-- The ramp target moves one sample: 0.1 V/ms × SR is SR mV per 10 µs; at the current limit it is held at the present
V_out (R249). When it reaches V_bus the channel enters Enhance. -/
def State.rampMove (n : Nat) (i : Int) (s : State) : State :=
  let c := s.ch n
  let lim : Int := 250 * (s.chEff n F.CHn_LIMIT_ILIM_SS : Int)
  let t : Int := match c.target with
    | none => c.vout
    | some t => if (i.natAbs : Int) ≥ lim then c.vout else t + (s.chEff n F.CHn_INRUSH_SR : Int)
  if t ≥ c.vbus then (s.setCh n { c with target := some t }).chEnterEnhance n .enhance
  else s.setCh n { c with target := some t }

/-- Power-good at this sample (R251), and RETRY_CNT's return to 0 (R261). -/
def State.pgMove (n : Nat) (vds : Int) (s : State) : State :=
  let c := s.ch n
  let st := s.chState n
  let vdsPg : Int := 10 * (s.chEff n F.CHn_PG_VDS_PG : Int)
  let full : Int := 100 * (s.chEff n F.CHn_PG_VGS_FULL : Int)
  let ok := if st == chOn then decide (c.vgs ≥ full) && decide (vds ≤ vdsPg)
            else if st == chBlocked then c.pgBlk && (decide (c.vgs ≥ full) || decide (c.vout ≥ c.vbus - vdsPg))
            else false
  if !ok then s.pgDrop n
  else
    let since := c.pgSince.getD s.now
    let pg := decide (since + 10000 ≤ s.now)
    let high := if pg then some (c.pgHigh.getD s.now) else none
    let s := (s.putB F.CHn_STAT_PG pg n).setCh n { c with pgSince := some since, pgHigh := high }
    match high with
    | some h => if h + 10000000 * s.chEff n F.CHn_RETRY_RETRY_CLR ≤ s.now then s.put F.CHn_STAT_RETRY_CNT 0 n else s
    | none => s

/-- FLAGS of the channel's CURVES record (R47): bit 0 wire model, bit 1 FET model. -/
def State.curveFlag (s : State) (n b : Nat) : Bool := bitOf (BitVec.ofNat 32 (s.curveFlags.getD n 0)) b

/-- May a cooling channel retry at this sample (R261)? -/
def State.retryDue (s : State) (n : Nat) : Bool :=
  let c := s.ch n
  let hys : Int := (s.chEff n F.CHn_RETRY_RETRY_HYS : Int)
  let trip : Int := (bitsOf (s.reg (((F.CHn_WIRE).off 5).addr n)) 24 8 : Nat)
  let tjTrip : Int := (bitsOf (s.reg (((F.CHn_FET).off 3).addr n)) 24 8 : Nat)
  decide (c.tripAt + 1000000 * s.chEff n F.CHn_RETRY_RETRY_DLY ≤ s.now) &&
  (!s.curveFlag n 0 || decide (tget s.nodeT (56 + n) ≤ 65536 * (trip - hys))) &&
  (!s.curveFlag n 1 || decide (tget s.nodeT (32 + n) ≤ 65536 * (tjTrip - hys)))

/-- A retry (R261, R271). -/
def State.chRetry (n : Nat) (s : State) : State :=
  if (s.ch n).stbyRetry then
    ((s.bump F.CHn_STAT_RETRY_CNT n).bump ((F.CHn_STATS_V).off 3) n).chEnterStandby n
  else
    let s := (s.bump F.CHn_STAT_RETRY_CNT n).bump ((F.CHn_STATS_V).off 3) n
    if s.member n then s.memberClose n (s.ch n).vout else s.chEnterRamp n

/-- The check for a damaged pass transistor (R263). -/
def State.damageMove (n : Nat) (i : Int) (s : State) : State :=
  let c := s.ch n
  let st := s.chState n
  let off := st == chOff || st == chCooling || st == chLatched
  let after := match c.allowEnd with
    | none => false
    | some e => decide (e ≤ s.now)
  let bad :=
    if s.member n then st == chStandby && decide ((i.natAbs : Int) > 100 * (s.chEff n F.CHn_PAIR_IREV : Int))
    else off && after && decide (c.vout > max 1000 (8 * c.vbus / 100))
  if !bad then s.setCh n { c with dmgSince := none }
  else
    let since := c.dmgSince.getD s.now
    let s := s.setCh n { c with dmgSince := some since }
    if since + 50000 ≤ s.now ∧ s.get F.CHn_STAT_FET_DMG n = 0 then
      let s := s.put F.CHn_STAT_FET_DMG 1 n
      s.raiseReg 4 1 n F.CHn_STAT n
    else s

/-- The pull-down of a gate that is off: in Off and Blocked the fast one gives way to the normal one at the next sample
(R246; the moment is the model's, DESIGN CHOICE, log entry 35). -/
def State.gateSettle (n : Nat) (s : State) : State :=
  let st := s.chState n
  if (s.ch n).gate == .fastDown && (st == chOff || st == chBlocked) then s.setCh n { s.ch n with gate := .normalDown } else s

/-- The state moves of a sample that trips nothing: the ramp, the end of Enhance, the end of a block and the retry. A
channel whose ON has been written 0 does not retry (R271). -/
def State.sampleMove (n : Nat) (x : ChanSample) (i : Int) (s : State) : State :=
  let st := s.chState n
  if st == chRamp then s.rampMove n i
  else if st == chEnhance then
    if x.vgs ≥ 100 * (s.chEff n F.CHn_PG_VGS_FULL : Int) then
      (s.put F.CHn_STAT_STATE chOn n).setCh n { s.ch n with gate := .hold }
    else s
  else if st == chBlocked then
    if x.vbus - x.vout > 10 * (s.chEff n F.CHn_PAIR_VFWD_ON : Int) then
      (s.setCh n { s.ch n with rampModel := none }).chEnterEnhance n .fastClose else s
  else if st == chCooling then (if s.retryDue n && s.on F.CHn_CTRL_ON n then s.chRetry n else s)
  else s

/-- One sample of channel `n` (R243): writes to the channel's fields take effect (R248), the readings follow, then the
start budget, the breaker curve, the ramp, the block, the retry, power-good and the transistor check. One sample makes
at most one trip, in the order of R260; a channel that trips at a sample is not in On at it, and PG falls there (R251). -/
def State.channelSample (n : Nat) (x : ChanSample) (s : State) : State :=
  if !s.chUsed n then s
  else
    let s := s.setCh n { s.ch n with
      eff := s.chWords n, lastSample := some s.tick }
    let s := s.gateSettle n
    let x := s.chConvert n x
    let i := s.chCurrent n x.shunt
    let s := s.chMeasure n x i
    let st := s.chState n
    let s := if chCounts st then
        let d := s.paramsBefore.accMove n i.natAbs
        ((s.setCh n { s.ch n with acc := d }).draw).put F.CHn_TEMP2_BACC (min (d / 2 ^ 48) 0xFFFF) n
      else s
    let s := if s.startFails n then s.chTrip n 2
      else if chCounts st && decide ((s.ch n).acc ≥ 2 ^ 64) then s.chTrip n 5
      else s.sampleMove n x i
    (s.pgMove n x.vds).damageMove n i

/-- A shunt voltage (in µV) above 0.25 A × ISC × RSH in a state that conducts trips by the fast pull-down (R259). -/
def State.channelFastShort (n : Nat) (shuntMicrovolt : Int) (s : State) : State :=
  let thr := s.chEff n F.CHn_LIMIT_ISC * s.chEff n F.CHn_CFG_RSH
  if chConducts (s.chStateWas n) ∧ 4 * shuntMicrovolt.natAbs > thr then s.chTrip n 1 else s

/-- A shunt voltage (in µV) whose current ISPn − ISNn over RSH lies below −0.1 A × IREV blocks a member in active mode, or a
rescued one, in Enhance or On: the comparator acts on the shunt voltage directly (R243, R265). -/
def State.reverseBlock (n : Nat) (shuntMicrovolt : Int) (s : State) : State :=
  let st := s.chState n
  let thr : Int := s.chEff n F.CHn_PAIR_IREV * s.chEff n F.CHn_CFG_RSH
  if s.member n ∧ s.chActive n ∧ (st = chEnhance ∨ st = chOn) ∧ 10 * shuntMicrovolt < -thr then s.chEnterBlocked n
  else s

/-- V_out (in mV) below 0.1 V × STBY_UV for `held` ticks, of which the filter asks 200, closes a member in Standby (R266).
Where ON is written 0 in this cycle there is no rescue (R271). -/
def State.standbyRescue (n : Nat) (vout : Int) (held : Nat) (s : State) : State :=
  if s.member n ∧ 200 ≤ held ∧ s.on F.CHn_CTRL_ON n ∧ s.chState n = chStandby ∧ vout < 100 * (s.chEff n F.CHn_PAIR2_STBY_UV : Int) then
    let s := s.memberClose n vout
    let s := (s.put F.CHn_STAT_RESCUED 1 n).setCh n { s.ch n with rescue := true }
    s.raiseReg 3 1 n F.CHn_STAT n
  else s

/-- The scheduled break (R267, R271). -/
def State.pairBreak (n : Nat) (s : State) : State :=
  let st := s.chState n
  if st == chCooling then
    (s.put F.CHn_STAT_BRK_PEND 0 n).setCh n { s.ch n with breakAt := none, stbyRetry := true }
  else if st == chRamp || st == chEnhance || st == chOn || st == chBlocked then s.chEnterStandby n
  else (s.put F.CHn_STAT_BRK_PEND 0 n).setCh n { s.ch n with breakAt := none }

/-- A reaction's or shed's write of ON 0 to a channel: its effect is in this cycle, on the wired path (R18). -/
def State.reactChOff (n : Nat) (s : State) : State := (s.put F.CHn_CTRL_ON 0 n).chOnEffect n false

end Sys2Proof.Machine
end

