-- ==== Sys2Proof/Machine/Time.lean ====
section
/-! DEFINITION. The passing of fabric cycles (R19, R72): one tick each while the tick count runs. -/

namespace Sys2Proof.Machine

/-- `d` fabric cycles pass, `d` at least 1. In the first of them the writes of R248 take effect and events of the cycle
before are due with the fault collector. The count is 64 bits wide (R72). -/
def State.cycles (d : Nat) (s : State) : State :=
  let s1 := { s with
    now := s.now + d
    tick := if s.ticking then (s.tick + d) % 2 ^ 64 else s.tick
    events := s.events.map (fun e => { e with ready := true })
    occupied := []
    due := [] }
  s.due.foldl State.applyDue s1

/-- Cycles from now to a time of the cycle count, none where it has passed. -/
def State.untilNow (s : State) (t : Nat) : Nat := t - s.now

/-- Cycles from now to a value of the tick count. -/
def State.untilTick (s : State) (t : Nat) : Nat := if s.ticking then t - s.tick else 0

/-- The earlier of two times that may be absent. -/
def earlier : Option Nat → Option Nat → Option Nat
  | none, b => b
  | a, none => a
  | some a, some b => some (min a b)

/-- The earliest of a list of times. -/
def earliest (l : List (Option Nat)) : Option Nat := l.foldl earlier none

end Sys2Proof.Machine
end

