-- ==== Sys2Proof/Machine/Engine.lean ====
section
/-! DEFINITION. Policy engines (chapter 17): encodings, runs, restart with outputs held, and every instruction that does
not reach the register fabric. An instruction's command stands for the engine executing it: it acts when the engine runs
and the word at its PC is that instruction. -/

namespace Sys2Proof.Machine

/-! ### Encodings (R455, R456) -/

abbrev XReg := Fin 16

def encR (op : Nat) (rd a b : XReg) : Word :=
  BitVec.ofNat 32 (op * 2 ^ 26 + rd.val * 2 ^ 22 + a.val * 2 ^ 18 + b.val * 2 ^ 14)
def encI (op : Nat) (rd a : XReg) (imm : BitVec 18) : Word :=
  BitVec.ofNat 32 (op * 2 ^ 26 + rd.val * 2 ^ 22 + a.val * 2 ^ 18 + imm.toNat)
def encJ (op : Nat) (rd : XReg) (off : BitVec 22) : Word := BitVec.ofNat 32 (op * 2 ^ 26 + rd.val * 2 ^ 22 + off.toNat)
def encU (op : Nat) (rd : XReg) (imm : BitVec 16) : Word := BitVec.ofNat 32 (op * 2 ^ 26 + rd.val * 2 ^ 22 + imm.toNat)
def encSys (func : Nat) (rd a : XReg) : Word :=
  BitVec.ofNat 32 (0x18 * 2 ^ 26 + rd.val * 2 ^ 22 + a.val * 2 ^ 18 + func * 2 ^ 14)

/-- OP codes of format R; of I, S, B and J without a zero field. -/
def opsR : List Nat := [0x01, 0x02, 0x03, 0x04, 0x05, 0x06, 0x07, 0x08, 0x09, 0x0A, 0x0B, 0x0C, 0x10, 0x11, 0x12, 0x13,
  0x14, 0x15, 0x16, 0x17]
def opsFull : List Nat := [0x20, 0x21, 0x22, 0x23, 0x27, 0x30, 0x31, 0x34, 0x35, 0x38, 0x39, 0x3A, 0x3B, 0x3C, 0x3D, 0x3E,
  0x3F]

/-- Is a word an instruction of R456 with every field marked 0 at 0? The register fields of format SYS are not so marked,
also where a FUNC does not use them (R455; DEDUCED, log entry 40). -/
def legalWord (w : Word) : Bool :=
  let op := bitsOf w 26 6
  if opsR.contains op then bitsOf w 0 14 == 0
  else if opsFull.contains op then true
  else if op == 0x24 || op == 0x25 || op == 0x26 then bitsOf w 5 13 == 0
  else if op == 0x28 then bitsOf w 16 6 == 0
  else if op == 0x18 then
    bitsOf w 0 14 == 0 && decide (bitsOf w 14 4 ≤ 6)
  else false

/-- An instruction word with the register fields that its FUNC does not use at 0. -/
def usedBits (w : Word) : Word :=
  if bitsOf w 26 6 = 0x18 then
    let f := bitsOf w 14 4
    if f ≤ 1 then w &&& 0xFC03FFFF else if f ≤ 5 then w &&& 0xFFC3FFFF else w &&& 0xFC3FFFFF
  else w

/-! ### State -/

/-- STATE codes of PEn_STAT. -/
def peNone : Nat := 0
def peStopped : Nat := 1
def peIdle : Nat := 2
def peRunning : Nat := 3
def peRestarting : Nat := 4
def peHeld : Nat := 5
def peCodeErr : Nat := 6

/-- An engine beside its registers. -/
def State.pe (s : State) (n : Nat) : EngSt := tget s.eng n

/-- Replace an engine. -/
def State.setPe (s : State) (n : Nat) (e : EngSt) : State := { s with eng := tset s.eng n e }

/-- STATE of an engine. -/
def State.peState (s : State) (n : Nat) : Nat := s.get F.PEn_STAT_STATE n

/-- Register x of an engine; x0 reads 0 (R451). -/
def State.xreg (s : State) (n : Nat) (r : XReg) : Word := if r = 0 then 0 else (s.pe n).x.toArray.getD r.val 0

/-- Write register x of an engine; writes to x0 are discarded (R457). -/
def State.setXreg (s : State) (n : Nat) (r : XReg) (v : Word) : State :=
  if r = 0 then s
  else
    let e := s.pe n
    s.setPe n { e with x := tset e.x r.val v }

/-- PC of an engine. -/
def State.pc (s : State) (n : Nat) : Nat := s.get F.PEn_STAT_PC n

/-- A fabric access of engine `n` that still waits is withdrawn (R464). -/
def State.withdrawAccess (n : Nat) (s : State) : State :=
  { s with waiting := s.waiting.filter (fun a => !(a.party.code == 4 + n && a.ra.isNone)) }

/-- The run in progress is abandoned and the engine takes state `st`. -/
def State.peStop (n st : Nat) (s : State) : State :=
  let s := (((s.withdrawAccess n).put F.PEn_STAT_STATE st n).put F.PEn_STAT_INIT 0 n).put F.PEn_PEND_PEND 0 n
  s.setPe n { s.pe n with stopReq := false, failAt := none, checked := false, nextAt := none }

/-- PEn_LAST takes the cause, and the run's slot and PC (R464). -/
def State.peLast (n cause : Nat) (s : State) : State :=
  (((s.put F.PEn_LAST_CAUSE cause n).put F.PEn_LAST_INIT (s.get F.PEn_STAT_INIT n) n).put F.PEn_LAST_SLOT
    (s.get F.PEn_STAT_SLOT n) n).put F.PEn_LAST_PC (s.pc n) n

/-- The device keeps engine `n` from running: an L4 record, or link-held entry for PE2–PE7 (R465). -/
def State.peBarred (s : State) (n : Nat) : Bool :=
  s.on F.FLT_STAT_HALT || (decide (2 ≤ n) && s.on F.SYS_DOM_STAT_LINK_HELD)

/-- The engine restarts at tick F, this one (R464). A barred engine stays stopped and starts when the bar ends. -/
def State.peRestart (n cause : Nat) (s : State) : State :=
  let s := s.peLast n cause
  let s := s.peStop n peRestarting
  if s.peBarred n then (s.put F.PEn_STAT_STATE peStopped n).setPe n { s.pe n with halted := true }
  else s.setPe n { s.pe n with failAt := some s.now, checked := false, afterRestart := true }

/-- The init run begins (R459, R460). -/
def State.peInit (n : Nat) (s : State) : State :=
  let e := s.pe n
  let s := (((s.put F.PEn_STAT_STATE peRunning n).put F.PEn_STAT_INIT 1 n).put F.PEn_STAT_SLOT 0 n).put F.PEn_STAT_PC 0 n
  let s := s.bump ((F.PEn_STATS_V).off 1) n
  let s := if e.afterRestart then s.setReg F.PE_CAUSE.base (s.reg F.PE_CAUSE.base ||| BitVec.ofNat 32 (2 ^ n)) else s
  s.setPe n { e with
    x := Vector.replicate 16 0, evt := 8, runStart := 2 * s.now, cycles := 0, ahead := 0, nextAt := none, overDone := false
    failAt := none, checked := false, afterRestart := false, halted := false, stopReq := false }

/-- An engine starts without a restart: the program of an accepted image (R53, R459). One that a record holds stays held, and
starts with GO after it (R465). -/
def State.peStart (n : Nat) (s : State) : State :=
  let s := s.peStop n (if s.held (.eng n) then peHeld else peStopped)
  if s.held (.eng n) then s
  else if s.peBarred n then s.setPe n { s.pe n with halted := true }
  else (s.setPe n { s.pe n with afterRestart := false }).peInit n

/-- A record holds the engine (R465), also one that an L4 record or link-held entry has stopped: only GO starts it again. A code
error outlasts it: it ends only with a new program. -/
def State.peHold (n : Nat) (s : State) : State :=
  if s.peState n == peNone || s.peState n == peCodeErr then s
  else
    let s := s.peStop n peHeld
    s.setPe n { s.pe n with halted := false }

/-- The record that held the engine is cleared: it stays stopped (R361, R465). -/
def State.peRelease (n : Nat) (s : State) : State :=
  if s.peState n == peHeld then s.put F.PEn_STAT_STATE peStopped n else s

/-- An L4 record or link-held entry stops the engine (R360, R465). -/
def State.peHalt (n : Nat) (s : State) : State :=
  let st := s.peState n
  if st == peIdle || st == peRunning || st == peRestarting then
    (s.peStop n peStopped).setPe n { (s.peStop n peStopped).pe n with halted := true }
  else s

/-- The bar of an engine has ended: it starts as after a restart, with the check of its memory and the 50 µs before its
init run (R25, R360, R465; DEDUCED, log entry 40). -/
def State.peUnhalt (n : Nat) (s : State) : State :=
  if (s.pe n).halted && !s.peBarred n && s.peState n == peStopped then
    (s.put F.PEn_STAT_STATE peRestarting n).setPe n
      { s.pe n with halted := false, failAt := some s.now, checked := false, afterRestart := true }
  else s

/-! ### Runs (R459–R463) -/

/-- Does the engine run at half rate (R351)? -/
def State.peSlow (s : State) (n : Nat) : Bool := decide (2 ≤ n) && s.on F.THM_STAT_ENG_SLOW

/-- PEn_STAT.SLOW of every engine follows. -/
def State.showSlow (s : State) : State :=
  (List.range 8).foldl (fun s n => s.putB F.PEn_STAT_SLOW (s.peSlow n) n) s

/-- Lowest pending slot of an engine. -/
def State.peNext (s : State) (n : Nat) : Option Nat :=
  (List.range 8).find? (fun h => (s.get F.PEn_PEND_PEND n).testBit h)

/-- An idle engine begins the run of its lowest pending slot (R461): the instruction at ENTRY executes 2 CLK_ENG cycles
later. Where the event was pending as a HALT ended in this fabric cycle, these count from the end of the HALT. -/
def State.runStart (n : Nat) (s : State) : State :=
  if s.peState n != peIdle || s.peBarred n then s
  else match s.peNext n with
    | none => s
    | some h =>
      let e := s.pe n
      let s := s.put F.PEn_PEND_PEND (s.get F.PEn_PEND_PEND n - 2 ^ h) n
      let s := (((s.put F.PEn_STAT_STATE peRunning n).put F.PEn_STAT_INIT 0 n).put F.PEn_STAT_SLOT h n).put F.PEn_STAT_PC
        (s.get ((F.PEn_HCFG_ENTRY).off (2 * h)) n) n
      let s := s.bump ((F.PEn_STATS_V).off 1) n
      let d := (e.data.toArray.getD h 0).toNat
      let from' := match e.nextAt with
        | some c => if (c + 1) / 2 = s.now then c else 2 * s.now
        | none => 2 * s.now
      s.setPe n { e with
        evt := BitVec.ofNat 32 (d * 65536 + h), runStart := from' + 2, cycles := 0, ahead := 0, nextAt := none, overDone := false }

/-- Number of ones below bit 8. -/
def ones8 (v : Nat) : Nat := ((List.range 8).filter (fun i => v.testBit i)).length

/-- HALT ends the run; a STOP written during it stops the engine, its pending events discarded and counted (R471). -/
def State.runEnd (n : Nat) (s : State) : State :=
  let s := s.put F.PEn_STAT_INIT 0 n
  if (s.pe n).stopReq then
    ((s.bump ((F.PEn_STATS_V).off 4) n (ones8 (s.get F.PEn_PEND_PEND n))).peStop n peStopped)
  else
    let e := s.pe n
    (s.put F.PEn_STAT_STATE peIdle n).setPe n { e with
      nextAt := if s.get F.PEn_PEND_PEND n = 0 then none else some (e.runStart + e.cycles) }

/-- A run overruns its budget (R462). -/
def State.overrun (n : Nat) (s : State) : State :=
  let s := (s.setReg F.PE_CAUSE.base (s.reg F.PE_CAUSE.base ||| BitVec.ofNat 32 (2 ^ (8 + n)))).bump
    ((F.PEn_STATS_V).off 3) n
  (s.setPe n { s.pe n with overDone := true }).raise 14 2 n

/-- BUDGET of the run in progress; 0 for the init run. -/
def State.runBudget (s : State) (n : Nat) : Nat :=
  if s.on F.PEn_STAT_INIT n then 0 else s.get ((F.PEn_HLIM_BUDGET).off (2 * s.get F.PEn_STAT_SLOT n)) n

/-- Cycles at which the watchdog expires (R463). -/
def State.runLimit (s : State) (n : Nat) : Nat := 64 * s.get F.PEn_WD_LIMIT n

/-- Elapsed CLK_ENG cycles are added to the run; a budget reached on the way overruns, but not where the last of the cycles
is HALT's (R462). -/
def State.addCycles (n k : Nat) (s : State) (halts : Bool := false) : State :=
  let e := s.pe n
  let c := e.cycles + k
  let s := (s.setPe n { e with cycles := c }).bump (F.PEn_STATS_V) n k
  if s.runBudget n ≠ 0 ∧ !e.overDone ∧ s.runBudget n + b2n halts ≤ c then s.overrun n else s

/-- The cycles of an instruction of `k` are added to the run: those that an overrun on the way has counted already are not
added again. -/
def State.engCount (n k : Nat) (s : State) (halts : Bool := false) : State :=
  let e := s.pe n
  (s.setPe n { e with ahead := e.ahead - k }).addCycles n (k - e.ahead) halts

/-- A run that goes on until it has lasted `k` cycles, within the instruction under way. -/
def State.runTo (n k : Nat) (s : State) : State :=
  let e := s.pe n
  (s.setPe n { e with ahead := e.ahead + (k - e.cycles) }).addCycles n (k - e.cycles)

/-- Does the run in progress still have its budget before it (R462)? -/
def State.budgetAhead (s : State) (n : Nat) : Bool :=
  s.peState n == peRunning && s.runBudget n != 0 && !(s.pe n).overDone

/-- The watchdog expires (R463). -/
def State.watchdog (n : Nat) (s : State) : State := (s.raise 14 1 n).peRestart n 1

/-- An instruction or access fault (R458). -/
def State.peFault (n cause : Nat) (s : State) : State :=
  if cause = 6 then (s.peLast n 6).peStop n peCodeErr
  else (s.raise 14 3 n).peRestart n cause

/-- CLK_ENG cycles that `k` cycles of an instruction take: twice as many at half rate. -/
def State.engCycles (s : State) (n k : Nat) : Nat := if s.peSlow n then 2 * k else k

/-- Fabric cycle in which the engine stands after its elapsed cycles. -/
def State.engNow (s : State) (n : Nat) : Nat := ((s.pe n).runStart + (s.pe n).cycles + 1) / 2

/-- `k` cycles pass for the engine and `g` takes effect, unless its watchdog expires on the way, which the cycle of a HALT
does not let it do (R463). -/
def State.spend (n k : Nat) (g : State → State) (s : State) (halts : Bool := false) : State :=
  if s.runLimit n + b2n halts ≤ (s.pe n).cycles + (k - (s.pe n).ahead) then
    (s.addCycles n (s.runLimit n - (s.pe n).cycles)).watchdog n
  else g (s.engCount n k halts)

/-- What an instruction does to its engine's state: the cycles of its own it takes, its effect, the cycles it waits, and
whether it is HALT; or the fault it takes. Half rate doubles the engine's own cycles and not those of a wait (R351, R471;
DEDUCED, log entry 40). -/
inductive EngDo where
  | done (cycles : Nat) (f : State → State) (wait : Nat := 0) (halts : Bool := false)
  | fault (cause : Nat)

/-- The next PC. -/
def State.pcNext (n : Nat) (s : State) : State := s.put F.PEn_STAT_PC (s.pc n + 1) n

/-- Engine `n` executes the instruction word `w`: fetch under R458, then the instruction's own effect. An engine that does
not run, or whose PC holds another legal instruction, does nothing. -/
def State.execEng (n : Nat) (w : Word) (f : State → EngDo) (s : State) : State :=
  if s.peState n != peRunning || s.peBarred n then s
  else if (s.pe n).codeLen / 4 ≤ s.pc n then s.peFault n 3
  else
    let r := s.sramRead 1 (sramKey n (s.pc n))
    let s := r.2.2
    if r.2.1 == .uncorrectable then s.peFault n 6
    else if !legalWord r.1 then s.peFault n 2
    else if usedBits r.1 ≠ w then s
    else match f s with
      | .fault c => s.peFault n c
      | .done k g wait halts => s.spend n (s.engCycles n k + wait) g halts

/-- An instruction that writes `rd` and goes on. -/
def wr (n : Nat) (rd : XReg) (cycles : Nat) (v : Word) : EngDo := .done cycles (fun s => (s.setXreg n rd v).pcNext n)

/-- A three-register instruction. -/
def State.opR (n op : Nat) (rd a b : XReg) (cycles : Nat) (f : Word → Word → Word) (s : State) : State :=
  s.execEng n (encR op rd a b) (fun s => wr n rd cycles (f (s.xreg n a) (s.xreg n b)))

/-- An immediate instruction. -/
def State.opI (n op : Nat) (rd a : XReg) (imm : BitVec 18) (f : Word → Word) (s : State) : State :=
  s.execEng n (encI op rd a imm) (fun s => wr n rd 1 (f (s.xreg n a)))

/-- Quotient and remainder of R457. -/
def divS (a b : Word) : Word := if b = 0 then BitVec.allOnes 32 else BitVec.sdiv a b
def remS (a b : Word) : Word := if b = 0 then a else BitVec.srem a b
def divU (a b : Word) : Word := if b = 0 then BitVec.allOnes 32 else a / b
def remU (a b : Word) : Word := if b = 0 then a else a % b

/-- High halves of products, and MULQ. -/
def mulHS (a b : Word) : Word := BitVec.ofInt 32 ((a.toInt * b.toInt) / 2 ^ 32)
def mulHU (a b : Word) : Word := BitVec.ofNat 32 ((a.toNat * b.toNat) / 2 ^ 32)
def mulQ (a b : Word) : Word := BitVec.ofInt 32 ((a.toInt * b.toInt) / 65536)

/-- 1 or 0. -/
def boolWord (b : Bool) : Word := if b then 1 else 0

/-- A jump to `t`: outside 0 to 4,095 it is a fetch out of range (R458). -/
def jumpTo (n : Nat) (t : Int) (cycles : Nat) (f : State → State) : EngDo :=
  if 0 ≤ t ∧ t ≤ 4095 then .done cycles (fun s => (f s).put F.PEn_STAT_PC t.toNat n) else .fault 3

/-- A branch. -/
def State.opB (n op : Nat) (a b : XReg) (off : BitVec 18) (c : Word → Word → Bool) (s : State) : State :=
  s.execEng n (encI op a b off) (fun s =>
    if c (s.xreg n a) (s.xreg n b) then jumpTo n ((s.pc n : Int) + off.toInt) 2 id
    else .done 1 (State.pcNext n))

/-- JAL and JALR. -/
def State.opJal (n : Nat) (rd : XReg) (off : BitVec 22) (s : State) : State :=
  s.execEng n (encJ 0x3E rd off) (fun s =>
    let ret := BitVec.ofNat 32 (s.pc n + 1)
    jumpTo n ((s.pc n : Int) + off.toInt) 2 (fun s => s.setXreg n rd ret))
def State.opJalr (n : Nat) (rd a : XReg) (imm : BitVec 18) (s : State) : State :=
  s.execEng n (encI 0x3F rd a imm) (fun s =>
    let ret := BitVec.ofNat 32 (s.pc n + 1)
    jumpTo n (s.xreg n a + imm.signExtend 32).toNat 2 (fun s => s.setXreg n rd ret))

/-- An instruction of format SYS. -/
def State.opSys (n func : Nat) (rd a : XReg) (f : State → EngDo) (s : State) : State :=
  s.execEng n (encSys func rd a) f

/-- Cycles until the engine's port-A slot (R452). -/
def State.portWait (s : State) (n : Nat) : Nat :=
  let c := (s.pe n).runStart + ((s.pe n).cycles - (s.pe n).ahead) - 2 * s.pllLockAt
  (n + 8 - c % 8) % 8

/-- Data byte address, none where it faults (R453). -/
def dataAddr (base : Word) (imm : BitVec 18) : Option Nat :=
  let a := (base + imm.signExtend 32).toNat
  if a % 4 = 0 ∧ a < 65536 then some a else none

/-- First byte of the stage area (R53). -/
def stageBase : Nat := 40960

/-- LDW (R453, R458). -/
def State.opLdw (n : Nat) (rd a : XReg) (imm : BitVec 18) (s : State) : State :=
  s.execEng n (encI 0x30 rd a imm) (fun s =>
    match dataAddr (s.xreg n a) imm with
    | none => .fault 4
    | some d =>
      let w := s.portWait n
      if stageBase ≤ d then .done 2 (fun s => (s.setXreg n rd 0).pcNext n) w
      else .done 2 (fun s =>
        let r := s.sramRead 1 (sramKey 8 (d / 4))
        if r.2.1 == .uncorrectable then r.2.2.peFault n 5 else (r.2.2.setXreg n rd r.1).pcNext n) w)

/-- STW (R453). A write in the stage area is ignored, with a Notice that names the data word. -/
def State.opStw (n : Nat) (b a : XReg) (imm : BitVec 18) (s : State) : State :=
  s.execEng n (encI 0x31 b a imm) (fun s =>
    match dataAddr (s.xreg n a) imm with
    | none => .fault 4
    | some d =>
      let w := s.portWait n
      let v := s.xreg n b
      if stageBase ≤ d then
        .done 2 (fun s => (s.raise 14 0 (4 + n) (BitVec.ofNat 32 (d / 4 * 65536 + 4 + n))).pcNext n) w
      else .done 2 (fun s => (s.portWrite (.pe (Fin.ofNat 8 n)) (sramKey 8 (d / 4)) v).pcNext n) w)

/-- WAITT: waits until (tick count − rs1), signed, is at least 0. Ticks to wait from where the instruction began; none while the
count stands. -/
def State.waitTicks (s : State) (n : Nat) (a : XReg) : Option Nat :=
  let d := toS 32 (s.tick - (s.pe n).ahead / 2 + 2 ^ 32 - (s.xreg n a).toNat)
  if 0 ≤ d then some 0 else if s.ticking then some (-d).toNat else none
/-- WAITT that waits `d` ticks, two cycles each. -/
def State.opWaitt (n : Nat) (a : XReg) (d : Nat) (s : State) : State :=
  s.opSys n 6 0 a (fun _ => .done 1 (State.pcNext n) (2 * d))

/-! ### Restart (R464) -/

/-- The check of the instruction memory ends: every word is read once, an uncorrectable one leads to code error. Only a
word that a raw write left can show an error. -/
def State.restartCheck (n : Nat) (s : State) : State :=
  if s.peState n != peRestarting || (s.pe n).checked then s
  else
    let keys := sortBy (fun a b => decide (a ≤ b)) ((s.sramRaw.map (fun e => e.1)).filter (fun k => k / 16384 == n))
    let r := keys.foldl (fun (a : Bool × State) k =>
      let x := a.2.sramRead 4 k
      (a.1 || x.2.1 == .uncorrectable, x.2.2)) (false, s)
    if r.1 then r.2.peStop n peCodeErr
    else (r.2.put F.PEn_STAT_PC 0 n).setPe n { r.2.pe n with x := Vector.replicate 16 0, checked := true }

/-- F + 5,000: the init run begins. -/
def State.initRun (n : Nat) (s : State) : State :=
  let s := s.restartCheck n
  if s.peState n == peRestarting then s.peInit n else s

/-- PEn_CTRL.RESTART (R464, R465, R471). It starts a stopped engine as well; one without a program, held, in code error or
restarting ignores it (DEDUCED, log entry 40). -/
def State.peRestartCmd (n : Nat) (s : State) : State :=
  let st := s.peState n
  if st == peStopped || st == peIdle || st == peRunning then s.peRestart n 0 else s

/-- PEn_CTRL.GO (R471, R472): a stopped engine starts as a restart without a record. One that an L4 record or link-held
operation keeps stopped, one without a program, and one restarting ignore it without a Notice (DEDUCED, log entry 40). -/
def State.peGo (n : Nat) (p : Party) (s : State) : State :=
  let st := s.peState n
  if st == peStopped then (if (s.pe n).halted && s.peBarred n then s else s.peRestart n 0)
  else if st == peNone || st == peRestarting then s
  else s.notice p (F.PEn_CTRL.addr n)

/-- PEn_CTRL.STOP (R471, R472). An engine that neither idles nor runs ignores it (DEDUCED, log entry 40). -/
def State.peStopCmd (n : Nat) (s : State) : State :=
  let st := s.peState n
  if st == peIdle then (s.bump ((F.PEn_STATS_V).off 4) n (ones8 (s.get F.PEn_PEND_PEND n))).peStop n peStopped
  else if st == peRunning then s.setPe n { s.pe n with stopReq := true }
  else s

/-- A program is replaced: by a parcel the engine restarts (R70, R465), unless a record holds it. -/
def State.peReplaced (n : Nat) (s : State) : State :=
  if s.held (.eng n) then (if s.peState n == peNone then s else s.put F.PEn_STAT_STATE peHeld n) else s.peRestart n 0

/-- A mailbox is written (R460). -/
def State.mboxWrite (n k : Nat) (v : Word) (s : State) : State :=
  (s.put ((F.PEn_MBOX_DATA).off k) v.toNat n).triggerMbox n k (v.toNat % 65536)

/-- A periodic slot registers its event at a multiple of its period, under the values the slot has at the end of the tick's
cycle (R460, R471). -/
def State.periodicEvent (n h : Nat) (s : State) : State :=
  let e := s.pe n
  let p := 1000 * s.get ((F.PEn_HLIM_PERIOD).off (2 * h)) n
  if s.get ((F.PEn_HCFG_TRIG).off (2 * h)) n ≠ 2 ∨ p = 0 ∨ s.tick % p ≠ 0 then s
  else (s.setPe n { e with perAt := (h, s.tick) :: e.perAt.filter (fun q => q.1 != h) }).slotEvent n h 0

/-- A step of the tick count from `t` on has passed periodic ticks, the new value among them: one event for each slot,
however many of its ticks lie in the step (R471). -/
def State.periodicPassed (t : Nat) (s : State) : State :=
  (List.range 64).foldl (fun s i =>
    let n := i / 8; let h := i % 8
    let p := 1000 * s.get ((F.PEn_HLIM_PERIOD).off (2 * h)) n
    if s.get ((F.PEn_HCFG_TRIG).off (2 * h)) n = 2 ∧ p ≠ 0 ∧ t / p < s.tick / p then
      let e := s.pe n
      (s.setPe n { e with perAt := (h, s.tick) :: e.perAt.filter (fun q => q.1 != h) }).slotEvent n h 0
    else s) s

/-- Tick at which a periodic slot is next due; none where it has no period. -/
def State.periodicDue (s : State) (n h : Nat) : Option Nat :=
  let p := 1000 * s.get ((F.PEn_HLIM_PERIOD).off (2 * h)) n
  if s.get ((F.PEn_HCFG_TRIG).off (2 * h)) n ≠ 2 ∨ p = 0 then none
  else if s.tick % p = 0 ∧ !(s.pe n).perAt.contains (h, s.tick) then some s.tick
  else some ((s.tick / p + 1) * p)

end Sys2Proof.Machine
end

