-- ==== Sys2Proof/Machine/Loop.lean ====
section
/-! DEFINITION. Conversion loops (chapters 6 and 7): carrier, active set, compensator, hints, brake, overload, phase
faults, throttle, sense fallback, start and stop. -/

namespace Sys2Proof.Machine

/-- A loop beside its registers. -/
def State.lp (s : State) (n : Nat) : LoopSt := tget s.loop n

/-- Replace a loop. -/
def State.setLp (s : State) (n : Nat) (x : LoopSt) : State := { s with loop := tset s.loop n x }

/-- A phase cell beside its registers. -/
def State.phs (s : State) (p : Nat) : PhaseSt := tget s.phCell p

/-- Replace a phase cell. -/
def State.setPhs (s : State) (p : Nat) (x : PhaseSt) : State := { s with phCell := tset s.phCell p x }

/-! ### LOOP_MAP (R45) -/

def State.loopRec (s : State) (n : Nat) : List Byte := s.loopMap.getD n []
def State.loopUsed (s : State) (n : Nat) : Bool := byteAt (s.loopRec n) 0 == 1
def State.loopNph (s : State) (n : Nat) : Nat := byteAt (s.loopRec n) 1
def State.loopHint (s : State) (n : Nat) : Nat := byteAt (s.loopRec n) 2
def State.loopClock (s : State) (n : Nat) : Nat := byteAt (s.loopRec n) 3
def State.loopDivider (s : State) (n : Nat) : Nat := leAt (s.loopRec n) 8 2

/-- The phases of a loop, ascending. -/
def State.loopPhases (s : State) (n : Nat) : List Nat :=
  (List.range 24).filter (fun p => (leAt (s.loopRec n) 4 4).testBit p)

/-- The loop that owns phase `p`. -/
def State.loopOfPhase (s : State) (p : Nat) : Option Nat :=
  (List.range 8).find? (fun n => s.loopUsed n && (leAt (s.loopRec n) 4 4).testBit p)

/-- The loop runs: it has a carrier. -/
def State.loopOn (s : State) (n : Nat) : Bool := (s.lp n).bnd.isSome

/-- A loop field in force (R201): since the last boundary while the loop runs, the register while it is off. -/
def State.lf (s : State) (n : Nat) (f : Fld) : Nat :=
  if s.loopOn n then
    match (s.lp n).eff[f.base - 0x2000]? with
    | some w => bitsOf w f.lo f.width
    | none => s.get f n
  else s.get f n

/-- A signed loop field in force. -/
def State.lfS (s : State) (n : Nat) (f : Fld) : Int := toS f.width (s.lf n f)

/-- The loop's words +0x00 to +0x1E. -/
def State.loopWords (s : State) (n : Nat) : List Word := (List.range 0x1F).map (fun k => s.reg (0x2000 + 0x100 * n + k))

/-- Before a write to a word of the loop or its phases in this cycle: keep what stood at the end of the cycle before, for
a boundary in the same cycle does not take the write (R201). -/
def State.loopTouch (n : Nat) (s : State) : State :=
  if (s.lp n).wAt == some s.now then s
  else
    let s := s.setLp n { s.lp n with wAt := some s.now, shadow := s.loopWords n }
    (s.loopPhases n).foldl (fun s p => s.setPhs p { s.phs p with shadow := s.reg (F.PHn_CTRL.addr p) }) s

/-- The writes granted before this cycle take effect (R201). -/
def State.loopApply (n : Nat) (s : State) : State :=
  let fresh := (s.lp n).wAt == some s.now
  let s := s.setLp n { s.lp n with eff := if fresh then (s.lp n).shadow else s.loopWords n }
  (s.loopPhases n).foldl (fun s p =>
    s.setPhs p { s.phs p with eff := if fresh then (s.phs p).shadow else s.reg (F.PHn_CTRL.addr p) }) s

/-- PHn_CTRL in force. -/
def State.phCtrl (s : State) (n p : Nat) : Word := if s.loopOn n then (s.phs p).eff else s.reg (F.PHn_CTRL.addr p)

/-- PHn_STAT.STATE codes (R180). -/
def phUnused : Nat := 0
def phIdle : Nat := 1
def phActive : Nat := 2
def phShed : Nat := 3
def phDisabled : Nat := 4
def phDropped : Nat := 5

/-- STATE of a phase. -/
def State.phState (s : State) (p : Nat) : Nat := s.get F.PHn_STAT_STATE p

/-- Store a phase's state. -/
def State.setPhState (s : State) (p st : Nat) : State := s.put F.PHn_STAT_STATE st p

/-- Corrected current in mA: the reading saturates at −20.0 A and 82.3 A, then takes the trims (R177). -/
def State.phCurrent (s : State) (n p : Nat) (raw : Int) : Int :=
  let c := s.phCtrl n p
  let r := clampI (-20000) 82300 raw
  roundDiv ((r - 50 * toS 8 (bitsOf c 0 8)) * (1024 + toS 8 (bitsOf c 8 8))) 1024

/-- A free last place of the `k`-th rounding of this command that no rule states; 0 where the quotient is exact. -/
def State.fdiv (s : State) (k : Nat) (a b : Int) : Int :=
  if b = 0 then 0 else if a % b = 0 then a / b else a / b + (b2n (Config.freeBit (s.free + k)) : Nat)

/-- The voltage of a VREF and a MARGIN in 3.125 nV, with the resolution of 1/16 of 0.2 mV (R195). -/
def State.vSet (s : State) (vref margin : Int) : Int := 4000 * s.fdiv 0 (vref * 16 * (1000 + margin)) 1000

/-! ### Throttle (R230) -/

/-- SRC and THROTTLEn# follow the sources; the release comes THR_HOLD µs after the last went inactive. -/
def State.throttle (n : Nat) (s : State) : State :=
  let l := s.lp n
  let src := b2n l.clampSrc * 16 + b2n (s.on F.LOOPn_TSTAT_OVL n) * 8 + b2n l.phcap.isSome * 4 + b2n l.therm * 2 +
    s.lf n F.LOOPn_THR_SW
  let s := s.put F.LOOPn_TSTAT_SRC src n
  if src ≠ 0 then (s.put F.LOOPn_TSTAT_THR 1 n).setLp n { l with relAt := none }
  else if s.on F.LOOPn_TSTAT_THR n ∧ l.relAt.isNone then
    s.setLp n { l with relAt := some (s.now + 100 * s.lf n F.LOOPn_THR_THR_HOLD) }
  else s

/-- THROTTLEn# is released (R230). -/
def State.throttleRelease (n : Nat) (s : State) : State :=
  (s.put F.LOOPn_TSTAT_THR 0 n).setLp n { s.lp n with relAt := none }

/-! ### The overload budget (R223) -/

/-- A bin closes: B moves by its mean current less OVL_I, the trip and its end are judged. -/
def State.binClose (n : Nat) (s : State) : State :=
  let l := s.lp n
  let ovlI := s.lf n F.LOOPn_OVLD_OVL_I
  let s := s.setLp n { l with binNo := s.tick / 16000, binSum := 0, binCnt := 0, binDue := false }
  if ovlI = 0 then s
  else
    let mean : Int := if l.binCnt = 0 then 0 else s.fdiv 40 l.binSum (l.binCnt : Nat)
    let b := ((l.b : Int) + mean - 10 * ovlI).toNat
    let s := (s.setLp n { s.lp n with b := b }).put F.LOOPn_OVLD_B_B b n
    let trip := decide (b ≥ 10 * (s.lf n F.LOOPn_OVLD_OVL_PK - ovlI) * s.lf n F.LOOPn_OVLD_T_NBIN)
    if b = 0 then (s.put F.LOOPn_TSTAT_OVL 0 n).throttle n
    else if trip ∧ s.get F.LOOPn_TSTAT_OVL n = 0 then
      ((s.put F.LOOPn_TSTAT_OVL 1 n).throttle n).raiseReg 0 3 n F.LOOPn_TSTAT n
    else s

/-! ### Off, start and stop -/

/-- A phase goes to mid-Z and none of its on-times goes on (R180, R219, R227). -/
def State.phaseMidZ (p : Nat) (s : State) : State := s.setPhs p { s.phs p with starts := [], on := none, zero := none, skipFrom := none }

/-- Every phase of the loop goes to mid-Z and the loop has no carrier; dropped phases stay dropped. An overload bin that has
ended while the loop ran is closed first (R223). -/
def State.loopOff (n : Nat) (s : State) : State :=
  let s := if (s.lp n).binDue then s.binClose n else s
  let s := (s.loopPhases n).foldl (fun s p =>
    let s := s.phaseMidZ p
    let s := s.setPhs p { s.phs p with onEnd := none }
    if s.phState p == phDropped || s.phState p == phUnused then s else s.setPhState p phIdle) s
  let s := ((((s.put F.LOOPn_STAT_EN 0 n).put F.LOOPn_STAT_SS_DONE 0 n).put F.LOOPn_STAT_PG 0 n).put
    F.LOOPn_STAT_NACT 0 n).put F.LOOPn_ACTIVE 0 n
  let s := (((s.put F.LOOPn_STAT_ALIGNED 0 n).put F.LOOPn_STAT_CLAMP_HI 0 n).put F.LOOPn_STAT_CLAMP_LO 0 n)
  let s := (s.put F.LOOPn_TSTAT_BRAKING 0 n).put F.LOOPn_TSTAT_HSTATE 0 n
  let l := s.lp n
  let s := s.setLp n { l with
    bnd := none, withdraw := false, discharge := none, fA := 0, nHint := 0, withdrawn := false, hPend := 0, hRel := false
    clampRun := 0, clampSrc := false, openRun := 0, divRun := 0, localRun := 0, skip := false
    activePrev := 0, nactPrev := 0, trunc := false }
  (s.loopPhases n).foldl (fun s p => (s.put F.PHn_FLT_PLA_CNT 0 p).put F.PHn_FLT_IMB_CNT 0 p) (s.throttle n)

/-- The loop is stopped by its own protection, whose record has this SOURCE: its rail has failed (R222, R227, R229, R234,
R349). -/
def State.loopStop (n src : Nat) (s : State) : State :=
  let s := s.loopOff n
  s.setLp n { s.lp n with stopped := some src }

/-- Does a node at level 3 name the loop in its ACT: its action lasts while the node stays there (R349)? -/
def State.loopShut (s : State) (n : Nat) : Bool :=
  (List.range 128).any (fun k => s.get F.THM_NODEn_T_LEVEL k == 3 && s.get F.THM_NODEn_ACT_LOOP k == n)

/-- Is a phase of the loop dropped with CAUSE stage line? -/
def State.stageDropped (s : State) (n : Nat) : Bool :=
  (s.loopPhases n).any (fun p => s.phState p == phDropped && s.get F.PHn_FLT_CAUSE p == 4)

/-- Does the loop take an enable (R24, R222, R229, R349)? -/
def State.loopTakesEnable (s : State) (n : Nat) : Bool :=
  s.loopUsed n && !s.on F.LOOPn_TSTAT_SC n && !s.on F.LOOPn_TSTAT_STG n &&
  !(s.on F.LOOPn_TSTAT_STGLINE n && !s.stageDropped n) && !s.on F.SYS_DOM_STAT_LINK_HELD && !s.loopShut n

/-- Is the PHASE record that dropped phase `p` of loop `n` still in the table (R228)? -/
def State.dropStands (s : State) (n p : Nat) : Bool :=
  if s.get F.PHn_FLT_CAUSE p == 4 then s.recordOf (sourceOf 1 3 n)
  else s.recordOf (sourceOf 1 1 p) || s.recordOf (sourceOf 1 2 p)

/-- ESC_STAT.SYNC gives a target to an escapement-locked carrier (R187). -/
def State.escTarget (s : State) : Bool := s.get F.ESC_STAT_SYNC == 2 || s.get F.ESC_STAT_SYNC == 4

/-- Fine time of the tick count for a fine time of the cycle count. -/
def State.fineTick (s : State) (t : Nat) : Int := (t : Int) + 32 * ((s.tick : Int) - s.now)

/-- Wrap a difference into [−P/2, P/2). -/
def wrapHalf (x p : Int) : Int := if p = 0 then 0 else (x + p / 2) % p - p / 2

/-- φ and PERIOD_t at a boundary at fine time `t`, where a target exists (R184, R185). -/
def State.phaseError (s : State) (n t : Nat) : Option (Int × Int) :=
  let per : Int := s.lf n F.LOOPn_FSW_PERIOD
  let ofs : Int := s.lf n F.LOOPn_ALIGN_OFS
  match s.loopClock n with
  | 1 =>
    if (s.lp n).locked then
      match s.syncIn.last with
      | some e => some (wrapHalf ((t : Int) - e - ofs) s.syncIn.interval, s.syncIn.interval)
      | none => none
    else none
  | 2 => if s.escTarget then some (wrapHalf (s.fineTick t - ofs) per, per) else none
  | _ => none

/-- The sequencer enables the loop (R198); V_0 is taken at the first boundary. -/
def State.loopEnable (n : Nat) (s : State) : State :=
  if s.loopOn n || !s.loopTakesEnable n then s
  else
    let s := (s.loopPhases n).foldl (fun s p =>
      let s := if s.phState p == phDropped && !s.dropStands n p then
        (s.setPhState p phIdle).put F.PHn_FLT_CAUSE 0 p else s
      (s.phaseMidZ p).setPhs p { (s.phaseMidZ p).phs p with eff := s.reg (F.PHn_CTRL.addr p), onEnd := none }) s
    let s := (((s.put F.LOOPn_STAT_EN 1 n).put F.LOOPn_STAT_SS_DONE 0 n).put F.LOOPn_TSTAT_LOCAL 0 n)
    let t0 := 32 * s.now
    let per := s.get F.LOOPn_FSW_PERIOD n
    let first := if s.loopClock n = 2 ∧ s.escTarget then
        let r := (s.fineTick t0 - (s.get F.LOOPn_ALIGN_OFS n : Int)) % (max per 1 : Nat)
        t0 + (if r = 0 then 0 else per - r.toNat)
      else t0
    let l := s.lp n
    s.setLp n { l with
      bnd := some first, per := per, eff := s.loopWords n, stopped := none, withdraw := false, discharge := none
      int := 0, y1 := 0, y2 := 0, ePrev := 0, clampHi := false, clampLo := false, vSense := none
      goal0 := s.vSet (s.get F.LOOPn_TARGET_VREF n) (s.getS F.LOOPn_TARGET_MARGIN n), slew0 := s.get F.LOOPn_SS_SLEW n
      nShed := s.loopNph n, shedRun := 0, nactPrev := 0, activePrev := 0, edges := 0, locked := false, lost := false
      offs := [], openRun := 0, divRun := 0, localRun := 0, fA := 0, nHint := 0, useLocal := false }

/-- The rail withdraws the loop (R200). -/
def State.loopWithdraw (n : Nat) (dis : Bool) (s : State) : State :=
  if !s.loopOn n then s.put F.LOOPn_STAT_EN 0 n
  else
    let s := (s.put F.LOOPn_STAT_EN 0 n).put F.LOOPn_TSTAT_HSTATE 0 n
    let l := s.lp n
    s.setLp n { l with
      withdraw := !dis, discharge := if dis then some s.now else none
      fA := 0, nHint := 0, withdrawn := false, hPend := 0, hRel := false }

/-! ### SYNC_IN (R186) -/

/-- CLK_STATE of a loop (R205). -/
def State.clkState (s : State) (n : Nat) : Nat :=
  let l := s.lp n
  match s.loopClock n with
  | 1 => if l.locked then 1 else if l.lost then 3 else 2
  | 2 => if s.escTarget then 4 else 5
  | _ => 0

/-- A locked loop loses SYNC_IN. -/
def State.syncLoss (n : Nat) (s : State) : State :=
  let l := s.lp n
  let s := s.setLp n { l with locked := false, edges := 0, lost := l.locked || l.lost }
  if l.locked then
    let s := ((s.put F.LOOPn_STAT_SYNC_LOST 1 n).put F.LOOPn_STAT_CLK_STATE 3 n).bump ((F.LOOPn_STATS_V).off 7) n
    s.raiseReg 0 1 n F.LOOPn_STAT n
  else s

/-- The loops whose CLOCK is SYNC_IN. -/
def State.syncLoops (s : State) : List Nat := (List.range 8).filter (fun n => s.loopUsed n && s.loopClock n == 1)

/-- SYNC_OUT is high at fine time `t` (R188): for half a period, rounded down, from each boundary of the loop that CELL_MAP byte
162 names. -/
def State.syncOut (s : State) (t : Nat) : Bool :=
  let n := s.cell 162
  decide (n < 8) && match (s.lp n).bnd with
    | none => false
    | some b => (s.lp n).vSense.isSome && decide (b - (s.lp n).per ≤ t ∧ t < b - (s.lp n).per + (s.lp n).per / 2)

/-- A rising edge of SYNC_IN at fine time `t`. -/
def State.syncEdge (t : Nat) (s : State) : State :=
  let d := match s.syncIn.last with
    | some e => t - e
    | none => 0
  let first := s.syncIn.last.isNone
  let s := { s with syncIn := { last := some t, interval := if first then 0 else d } }
  if first then s
  else
    s.syncLoops.foldl (fun s n =>
      let per := s.lf n F.LOOPn_FSW_PERIOD
      if 1600 ≤ d ∧ d ≤ 16000 ∧ 8 * per ≤ 10 * d ∧ 10 * d ≤ 12 * per then
        let l := s.lp n
        let k := l.edges + 1
        let lock := l.locked || (4 ≤ k && s.loopOn n)
        let s := s.setLp n { l with edges := k, locked := lock, lost := l.lost && !lock }
        s.put F.LOOPn_STAT_CLK_STATE (s.clkState n) n
      else s.syncLoss n) s

/-! ### Phase faults (R224–R229) -/

/-- Phases of a loop that are neither dropped nor disabled (R181 step 2). -/
def State.availPhases (s : State) (n : Nat) : List Nat :=
  (s.loopPhases n).filter (fun p => s.phState p != phDropped && bitsOf (s.phCtrl n p) 16 1 == 0)

/-- A phase is dropped with a cause of PHn_FLT (R227). -/
def State.phaseDrop (n p cause : Nat) (iLoop : Int) (s : State) : State :=
  let s := ((s.phaseMidZ p).setPhState p phDropped).put F.PHn_FLT_CAUSE cause p
  let av := (s.availPhases n).length
  let s := s.put F.LOOPn_TSTAT_NAVAIL av n
  let cap : Int := (av : Int) * ((s.lp n).ceil - 200)
  let s := if cap < iLoop then s.setLp n { s.lp n with phcap := some cap } else s
  let ev := if av < s.lf n F.LOOPn_PHFLT_CAP_FLOOR ∨ av = 0 then 2 else 1
  let s := s.raiseReg 1 ev p F.PHn_FLT p
  if av = 0 then s.loopStop n (sourceOf 1 2 p) else s

/-- One check of a phase: its count, and whether it has failed (R224). -/
def State.phaseCount (s : State) (f : Fld) (p lim : Nat) (hit : Bool) : Bool × State :=
  let c := if hit then s.get f p + 1 else 0
  (hit && decide (lim ≤ c), s.put f (min c 15) p)

/-- The imbalance check: the one phase that meets the condition, if any (R225). -/
def imbalanced (iph : List (Nat × Int)) (iLoop : Int) (nact imbMin imbI : Nat) : Option Nat :=
  if nact < 3 ∨ iLoop < (nact : Int) * (20 * imbMin : Nat) then none
  else
    let dev := iph.map (fun q => (q.1, (q.2 * ((nact : Int) - 1) - (iLoop - q.2)).natAbs))
    let m := dev.foldl (fun m q => max m q.2) 0
    match dev.filter (fun q => q.2 == m) with
    | [q] => if m > 5 * imbI * (nact - 1) then some q.1 else none
    | _ => none

/-- Blanking time in fine units: 20 ns and 10 ns for each step of BLANK (R189). -/
def State.blankTime (s : State) (n : Nat) : Nat := 64 + 32 * s.lf n F.LOOPn_PWM_BLANK

/-- Does the on-time's rise lie outside [ΔI_e/2, 2 ΔI_e] (R226)? -/
def State.riseBad (s : State) (n : Nat) (iS iE : Int) (tOn : Nat) : Bool :=
  let blank := s.blankTime n
  if tOn < blank + 128 then false
  else
    let div : Int := s.loopDivider n
    -- V_IN − V_out in units of 1/(320 × 4,096) µV, V_tgt in 3.125 nV
    let diff : Int := (s.lf n F.LOOPn_PHFLT2_VIN_NOM : Int) * 100000 * 320 * 4096 - (s.lp n).vTgt * div
    let num : Int := diff * ((tOn - blank : Nat) : Int) * 5
    let den : Int := 16000 * 320 * 4096 * (max 1 (s.lf n F.LOOPn_PHFLT2_L_PH) : Nat)
    let d := iE - iS
    decide (2 * d * den < num) || decide (d * den > 2 * num)

/-- The checks at the end of a cycle (R224–R227). `iph` lists the phases active for the whole cycle. -/
def State.phaseChecks (n : Nat) (iph : List (Nat × Int)) (iLoop : Int) (s : State) : State :=
  let l := s.lp n
  if !s.on F.LOOPn_STAT_SS_DONE n || l.nactChanged || l.braked then s
  else
    let imb := imbalanced iph iLoop iph.length (s.lf n F.LOOPn_PHFLT_IMB_MIN) (s.lf n F.LOOPn_PHFLT_IMB_I)
    let peakOther := fun (p : Nat) => iph.any (fun q => q.1 != p && match (s.phs q.1).onEnd with
      | some (0, _, _, _, _) => true
      | _ => false)
    iph.foldl (fun s' q =>
      let p := q.1
      let r1 := if 3 ≤ iph.length && decide (iLoop ≥ (iph.length : Int) * (20 * s.lf n F.LOOPn_PHFLT_IMB_MIN : Nat))
        then s'.phaseCount F.PHn_FLT_IMB_CNT p (s.lf n F.LOOPn_PHFLT_IMB_N) (imb == some p) else (false, s')
      let rise := match (s.phs p).onEnd with
        | some (_, a, b, t, _) => s.riseBad n a b t
        | none => false
      let maxOn := match (s.phs p).onEnd with
        | some (2, _, _, _, d) => decide (d < l.ceil) && peakOther p
        | _ => false
      let r2 := r1.2.phaseCount F.PHn_FLT_PLA_CNT p (s.lf n F.LOOPn_PHFLT_PLA_N) (rise || maxOn)
      if r1.1 then r2.2.phaseDrop n p 1 iLoop
      else if r2.1 then r2.2.phaseDrop n p (if rise then 2 else 3) iLoop
      else r2.2) s

/-- What ends an on-time at `t` fine units from its start with corrected current `i` in mA and demand `d` (R189): the peak
comparator, with the slope added, or IPK_LIM, without it; where both stand, the peak (DESIGN CHOICE, log entry 50). Neither
acts during the blanking time, which is the least an on-time lasts (DEDUCED for IPK_LIM, log entry 50). -/
def State.trips (s : State) (n t d : Nat) (i : Int) : Option OnEnd :=
  if t < s.blankTime n then none
  else if 320 * i + (s.lf n F.LOOPn_PWM_SLOPE : Int) * t ≥ 32000 * ((d : Int) - 200) then some .peak
  else if i ≥ 100 * ((s.lf n F.LOOPn_OCP_IPK_LIM : Int) - 200) then some .limit
  else none

/-- End of an on-time of at most `mx` fine units, from the current as the comparator sees it: times from its start with
corrected currents in mA, in order of time. How it ends, its length, and the current then (R189). -/
def State.onTimeOf (s : State) (n mx d : Nat) (xs : List (Nat × Int)) : OnEnd × Nat × Int :=
  let before := xs.filter (fun x => decide (x.1 < mx))
  match before.find? (fun x => (s.trips n x.1 d x.2).isSome) with
  | some x => ((s.trips n x.1 d x.2).getD .peak, x.1, x.2)
  | none => (.maximum, mx, ((xs.find? (fun x => decide (mx ≤ x.1))).map (fun x => x.2)).getD ((before.getLast?.map (fun x => x.2)).getD 0))

/-- Code of the peak DAC for demand `d` of phase `p`: the raw current whose corrected value is the demanded one (R177). Its last
place is free where the division does not come out even. -/
def State.peakDac (s : State) (n p d : Nat) : Nat :=
  let c := s.phCtrl n p
  let ofs := toS 8 (bitsOf c 0 8)
  let gain := 1024 + toS 8 (bitsOf c 8 8)
  (clampI 0 1023 (200 + s.fdiv 0 (((d : Int) - 200) * 2048 + ofs * gain) (2 * gain))).toNat

/-- The on-time that is due of phase `p`, and its loop. -/
def State.onTimeDue (s : State) (p : Nat) : Option (Nat × Nat × Nat × Nat) :=
  match s.loopOfPhase p, (s.phs p).starts with
  | some n, x :: _ => if s.loopOn n && s.phState p == phActive then some (n, x) else none
  | _, _ => none

/-- The phase's current after its on-time has begun: corrected. -/
def State.phaseWave (s : State) (n p : Nat) (xs : List (Nat × Int)) : List (Nat × Int) :=
  xs.map (fun x => (x.1, s.phCurrent n p x.2))

/-- Fine time at which the on-time that is due ends. -/
def State.onTimeEndAt (s : State) (p : Nat) (xs : List (Nat × Int)) : Option Nat :=
  (s.onTimeDue p).map (fun x => x.2.1 + (s.onTimeOf x.1 x.2.2.1 x.2.2.2 (s.phaseWave x.1 p xs)).2.1)

/-- The end of an on-time (R189, R190, R221). `xs` is the phase's current over its on-time and off-time: times in fine units
from its start with raw currents in mA. -/
def State.onTimeEnd (p : Nat) (xs : List (Nat × Int)) (s : State) : State :=
  match s.onTimeDue p with
  | none => s
  | some (n, t0, mx, d) =>
    let w := s.phaseWave n p xs
    let r := s.onTimeOf n mx d w
    let iS := ((w.find? (fun x => decide (s.blankTime n ≤ x.1))).map (fun x => x.2)).getD r.2.2
    let fell := (w.find? (fun x => decide (r.2.1 < x.1 ∧ x.2 ≤ 0))).map (fun x => t0 + x.1)
    let code := match r.1 with
      | .peak => 0
      | .limit => 1
      | .maximum => 2
    let ipk := s.peakDac n p d
    let s := s.setPhs p { s.phs p with
      onEnd := some (code, iS, r.2.2, r.2.1, d), skipFrom := none, starts := (s.phs p).starts.drop 1
      on := some (t0, t0 + r.2.1), zero := fell }
    let s := (s.put F.PHn_STAT_IPK ipk p).draw
    match r.1 with
    | .limit => s.setLp n { s.lp n with trunc := true }
    | _ => s

/-- The levels of a PWM pin (R176). -/
inductive PwmLevel where
  | low | midZ | high
deriving DecidableEq, Repr

/-- Does the loop act as with DCM_EN 1? So it does before SS_DONE, and not while it discharges (R190, R200). -/
def State.dcm (s : State) (n : Nat) : Bool :=
  (s.lp n).discharge.isNone && (s.lf n F.LOOPn_CTRL_DCM_EN == 1 || !s.on F.LOOPn_STAT_SS_DONE n)

/-- The next start of phase `p` of a running loop: of an on-time that is scheduled, or, for the first active phase, the
boundary at which its next one is due whatever that boundary then decides (R183; DEDUCED, log entry 50). -/
def State.nextStart (s : State) (n p : Nat) : Option Nat :=
  match (s.phs p).starts.head? with
  | some e => some e.1
  | none => if ((s.loopPhases n).find? (fun q => s.phState q == phActive)) == some p then (s.lp n).bnd else none

/-- PWMp at fine time `t` (R176, R179, R180, R189–R191, R200, R219): mid-Z unless the phase is active in a running loop that
does not brake; high during an on-time; mid-Z for DT_FALL after it and for DT_RISE before the next; else low, or mid-Z with
DCM once the current has fallen to 0 A or a start has been skipped. Before SS_DONE no low-side switch turns on, but in a
discharge: of the two rules that speak of that time, R198 goes further than the DCM of R190 (DEDUCED, log entry 50). -/
def State.pwm (s : State) (p t : Nat) : PwmLevel :=
  match s.loopOfPhase p with
  | none => .midZ
  | some n =>
    let x := s.phs p
    let next := x.starts.head?
    if !s.loopOn n || s.phState p != phActive || s.on F.LOOPn_TSTAT_BRAKING n then .midZ
    else if (next.map (fun e => decide (e.1 ≤ t ∧ t < e.1 + e.2.1))).getD false then .high
    else match x.on with
      | none => .midZ
      | some (_, b) =>
        if t < b then .high
        else if t < b + s.lf n F.LOOPn_PWM_DT_FALL then .midZ
        else if ((s.nextStart n p).map (fun e => decide (t < e ∧ e ≤ t + s.lf n F.LOOPn_PWM_DT_RISE))).getD false then .midZ
        else if !s.on F.LOOPn_STAT_SS_DONE n && (s.lp n).discharge.isNone then .midZ
        else if s.dcm n && [x.skipFrom, x.zero].any (fun z => (z.map (fun z => decide (z ≤ t))).getD false) then .midZ
        else .low

/-- A phase current above ISC (R222). -/
def State.loopFastShort (n p : Nat) (raw : Int) (s : State) : State :=
  if !s.loopOn n || !(s.loopPhases n).contains p then s
  else if s.phCurrent n p raw ≤ 100 * ((s.lf n F.LOOPn_OCP_ISC : Int) - 200) then s
  else ((s.put F.LOOPn_TSTAT_SC 1 n).loopStop n (sourceOf 0 4 n)).raiseReg 0 4 n F.LOOPn_TSTAT n

/-- A falling edge of STGFLTn# registers (R229). -/
def State.stgFall (n : Nat) (s : State) : State :=
  let s := (s.put F.LOOPn_TSTAT_STG 1 n).loopStop n (sourceOf 1 3 n)
  (s.setLp n { s.lp n with stgAt := some s.now, stgSeen := true }).raiseReg 1 3 n F.LOOPn_TSTAT n

/-- STGFLTn# is low for the `held`-th consecutive tick: STGLINE follows the pin, and the third tick registers the falling edge,
once for each time that the pin is low (R229, R239). -/
def State.stgLow (n held : Nat) (s : State) : State :=
  let s := s.put F.LOOPn_TSTAT_STGLINE 1 n
  if !s.loopUsed n || (s.lp n).stgSeen || decide (held < 3) then s else s.stgFall n

/-- STGFLTn# returns high. -/
def State.stgRise (n : Nat) (s : State) : State :=
  (s.put F.LOOPn_TSTAT_STGLINE 0 n).setLp n { s.lp n with stgSeen := false }

/-- 5,000 ticks after the edge the phases that read 82.3 A are dropped with CAUSE stage line (R229). -/
def State.stageIdentify (n : Nat) (raw : List Int) (s : State) : State :=
  let s := s.setLp n { s.lp n with stgAt := none }
  (s.loopPhases n).foldl (fun s p =>
    if s.phCurrent n p (raw.getD p 0) ≥ 82300 then
      let s := ((s.phaseMidZ p).setPhState p phDropped).put F.PHn_FLT_CAUSE 4 p
      s.put F.LOOPn_TSTAT_NAVAIL (s.availPhases n).length n
    else s) s

/-! ### Hints (R207–R217) -/

/-- HSTATE codes. -/
def hIdle : Nat := 0
def hAdmit : Nat := 1
def hRise : Nat := 2
def hRelWait : Nat := 3
def hRelease : Nat := 4
def hUnwind : Nat := 5

/-- Start of a rise (1) or a release (2): STEP, LEAD, GUARD and FF_ADV are latched at t_h (R208), and the state is entered at
the first boundary after it (R212, R213). F_A of an unwind goes on. Until then an edge meets the state that HSTATE shows. -/
def State.hintStart (n what : Nat) (s : State) : State :=
  s.setLp n { s.lp n with
    hStep := s.lf n F.LOOPn_HINT_STEP, hLead := s.lf n F.LOOPn_HINT_LEAD, hGuard := s.lf n F.LOOPn_HINT_GUARD
    hAdv := s.lf n F.LOOPn_HINT2_FF_ADV, tH := s.now, hPend := what, withdrawn := false }

/-- An edge of HINT pin `k` that registers now (R208, R217). -/
def State.hintEdge (k : Nat) (rising : Bool) (s : State) : State :=
  match (List.range 8).find? (fun n => s.loopUsed n && s.loopHint n == k) with
  | none => s
  | some n =>
    let ign := fun (s : State) => s.bump ((F.LOOPn_TSTATS_V).off 2) n
    let ok := s.lf n F.LOOPn_HINT_EN == 1 && s.on F.LOOPn_STAT_EN n && s.loopOn n && s.on F.LOOPn_STAT_SS_DONE n &&
      !s.on F.LOOPn_TSTAT_SC n && !s.on F.LOOPn_TSTAT_STG n
    let h := s.get F.LOOPn_TSTAT_HSTATE n
    let wd := s.setLp n { s.lp n with withdrawn := true }
    if !ok then ign s
    else if rising then
      if h == hIdle || h == hUnwind then s.hintStart n 1
      else if h == hRelWait || h == hRelease then wd else s
    else if h == hIdle then
      if s.lf n F.LOOPn_HINT_REL_EN == 1 && s.on F.LOOPn_TSTAT_ARRIVED n then s.hintStart n 2 else ign s
    else if h == hAdmit || h == hRise then wd
    else if h == hUnwind then ign s else s

/-- HINTk has stood at a level for `held` consecutive ticks, the present one the last: the third registers an edge, where the
level is new (R207). A pin that no used loop names is not sampled, and none is in rest (R449). -/
def State.hintSample (k : Nat) (high : Bool) (held : Nat) (s : State) : State :=
  let named := (List.range 8).any (fun n => s.loopUsed n && s.loopHint n == k)
  if s.phase == .resting || !named || decide (held < 3) || s.hintPin.getLsbD k == high then s
  else
    let m : BitVec 4 := BitVec.ofNat 4 (2 ^ k)
    State.hintEdge k high { s with hintPin := if high then s.hintPin ||| m else s.hintPin &&& ~~~ m }

/-- N_hint of a rise (R212). ADD_I is in 0.5 A, currents in 0.1 A. -/
def hintCount (iLoop : Int) (step addI nph : Nat) : Nat :=
  let q : Int := iLoop + 10 * step
  let u : Int := 5 * (max 1 addI : Nat)
  min nph ((q + u - 1) / u).toNat

/-- One boundary of an unwind (R215): F_A moves toward 0 unless e forbids it; at 0 the loop is idle. -/
def State.hintUnwind (n : Nat) (e : Int) (first : Bool) (s : State) : State :=
  let l := s.lp n
  let l := if first then { l with nHint := 0, shedRun := 0, withdrawn := false } else l
  let u : Int := s.lf n F.LOOPn_HINT2_UW_STEP
  let fA : Int :=
    if l.fA > 0 then (if e > 0 then l.fA else max 0 (l.fA - u))
    else if l.fA < 0 then (if e < 0 then l.fA else min 0 (l.fA + u)) else 0
  let s := s.setLp n { l with fA := fA, hRel := l.hRel && decide (fA ≠ 0) }
  if fA = 0 then
    ((s.put F.LOOPn_TSTAT_HSTATE hIdle n).put F.LOOPn_TSTAT_ARRIVED 0 n).bump ((F.LOOPn_TSTATS_V).off 1) n
  else s.put F.LOOPn_TSTAT_HSTATE hUnwind n

/-- A step still stepping out the F_A of an unwind that a rise interrupted (R217). -/
def State.hintResidue (n : Nat) (e : Int) (s : State) : State :=
  let l := s.lp n
  let u : Int := s.lf n F.LOOPn_HINT2_UW_STEP
  let fA : Int :=
    if l.fA > 0 then (if e > 0 then l.fA else max 0 (l.fA - u))
    else if l.fA < 0 then (if e < 0 then l.fA else min 0 (l.fA + u)) else 0
  s.setLp n { l with fA := fA }

/-- Step 1 of R212 or R213, at the first boundary after t_h. -/
def State.hintBegin (n : Nat) (iLoop iLoad : Int) (s : State) : State :=
  let l := s.lp n
  let rise := l.hPend == 1
  (s.put F.LOOPn_TSTAT_HSTATE (if rise then hAdmit else hRelWait) n).setLp n { l with
    hPend := 0, iLoad0 := iLoad, hRel := l.hRel || !rise
    nHint := if rise then hintCount iLoop l.hStep (s.lf n F.LOOPn_SHED_ADD_I) (s.loopNph n) else 0 }

/-- The hint state at a boundary at cycle `t` (R212–R215): admit, feed-forward, arrival or unwind. The truth value says
that the hand-over of R214 follows. -/
def State.hintStep (n t : Nat) (iLoop iLoad e : Int) (s : State) : Bool × State :=
  let s := if (s.lp n).hPend != 0 && decide ((s.lp n).tH < t) then s.hintBegin n iLoop iLoad else s
  let h := s.get F.LOOPn_TSTAT_HSTATE n
  let l := s.lp n
  if h == hIdle then (false, s)
  else if h == hUnwind then (false, s.hintUnwind n e false)
  else
    let rise := h == hAdmit || h == hRise
    let lead := 10 * l.hLead
    let win := l.tH + lead + 10 * l.hGuard
    if h == hRise && s.on F.LOOPn_TSTAT_BRAKING n then (false, (s.setLp n { l with fA := 0 }).hintUnwind n e true)
    else if l.withdrawn || s.lf n F.LOOPn_HINT_EN == 0 || decide (win ≤ t) then (false, s.hintUnwind n e true)
    else
      let ff := decide (l.tH + lead ≤ t + 10 * l.hAdv)
      let s := if (h == hAdmit || h == hRelWait) && ff then
          (s.put F.LOOPn_TSTAT_HSTATE (if rise then hRise else hRelease) n).setLp n
            { l with fA := if rise then (l.hStep : Int) else -(l.hStep : Int) }
        else if h == hAdmit then s.hintResidue n e else s
      let l := s.lp n
      let arrived := if rise then decide (2 * (iLoad - l.iLoad0) ≥ 10 * l.hStep)
                     else decide (2 * (l.iLoad0 - iLoad) ≥ 10 * l.hStep)
      (arrived, s)

/-- FF[k] in codes per phase (R211). -/
def feedForward (fA : Int) (nact : Nat) : Int := if nact = 0 then 0 else roundDiv (10 * fA) nact

/-- The hand-over of R214. -/
def State.hintArrive (n nact : Nat) (s : State) : State :=
  let l := s.lp n
  let rise := s.get F.LOOPn_TSTAT_HSTATE n == hAdmit || s.get F.LOOPn_TSTAT_HSTATE n == hRise
  let ff := feedForward l.fA nact * 65536
  let s := s.setLp n { l with
    int := l.int + ff, y1 := l.y1 + ff, y2 := l.y2 + ff, fA := 0, hRel := false
    nShed := max l.nShed l.nHint, nHint := 0, shedRun := 0 }
  ((s.putB F.LOOPn_TSTAT_ARRIVED rise n).put F.LOOPn_TSTAT_HSTATE hIdle n).bump ((F.LOOPn_TSTATS_V).off 0) n

/-! ### Brake (R219, R220) -/

/-- The brake's on-threshold in 0.2 mV, lowered from step 1 of a release until the loop is idle again (R213). -/
def State.brakeOn (s : State) (n : Nat) : Nat :=
  let on := s.lf n F.LOOPn_BRAKE_BRK_ON
  if (s.lp n).hRel then max (s.lf n F.LOOPn_BRAKE_BRK_OFF + 1) (on / 2) else on

/-- O of R232; its rounding is free. -/
def State.localOffset (s : State) (n : Nat) : Int :=
  let o := (s.lp n).offs
  if o.length < 256 then 0 else s.fdiv 7 (o.foldl (· + ·) 0) 256

/-- V_sense in use, in 3.125 nV: remote, or V_local + O from the boundary after LOCAL was set (R233). Both in µV. -/
def State.senseOf (s : State) (n : Nat) (remote local' : Int) : Int :=
  if (s.lp n).useLocal then 320 * local' + s.localOffset n else 320 * remote

/-- The output crosses V_tgt + BRK_ON: every phase goes to mid-Z, an on-time in progress ends and none starts (R219); `v` is the remote sense voltage and `vl` the local one, in µV. -/
def State.brakeEngage (n : Nat) (v vl : Int) (s : State) : State :=
  let l := s.lp n
  if !s.loopOn n || s.lf n F.LOOPn_BRAKE_EN == 0 || !s.on F.LOOPn_STAT_SS_DONE n || l.discharge.isSome ||
      s.on F.LOOPn_TSTAT_BRAKING n || decide (s.senseOf n v vl < l.vTgt + 64000 * (s.brakeOn n : Int)) then s
  else
    let s := (s.loopPhases n).foldl (fun s p => s.phaseMidZ p) s
    ((s.put F.LOOPn_TSTAT_BRAKING 1 n).bump ((F.LOOPn_TSTATS_V).off 3) n).setLp n { s.lp n with brakeCyc := 0, braked := true }

/-- The brake at a boundary. -/
def State.brakeStep (n : Nat) (v : Int) (s : State) : State :=
  if !s.on F.LOOPn_TSTAT_BRAKING n then s
  else
    let l := s.lp n
    let c := l.brakeCyc + 1
    let s := s.setLp n { l with brakeCyc := c }
    if v < l.vTgt + 64000 * (s.lf n F.LOOPn_BRAKE_BRK_OFF : Int) then s.put F.LOOPn_TSTAT_BRAKING 0 n
    else if c ≥ s.lf n F.LOOPn_BRAKE_BRK_TMAX then
      (s.put F.LOOPn_TSTAT_BRAKING 0 n).raiseReg 0 2 n F.LOOPn_TSTAT n
    else s

/-! ### Overload (R223) -/

/-- A bin end: a running loop closes the bin at its next boundary, once its last cycle has ended (R217). -/
def State.binEnd (n : Nat) (s : State) : State :=
  if s.loopOn n then s.setLp n { s.lp n with binDue := true } else (s.binClose n).draw

/-! ### The boundary -/

/-- V_tgt less its load-line part, and the load-line part, in 3.125 nV with the resolution of 1/16 of 0.2 mV (R195). -/
def State.vTarget (s : State) (n : Nat) (iLoop : Int) : Int × Int :=
  let ll := s.fdiv 1 ((s.lf n F.LOOPn_LL_RLL : Int) * iLoop * 4096) (125 * (max 1 (s.loopDivider n) : Nat))
  (s.vSet (s.lf n F.LOOPn_TARGET_VREF) (s.lfS n F.LOOPn_TARGET_MARGIN), 4000 * ll)

/-- Move toward a goal by at most `d`. -/
def approach (x goal d : Int) : Int := if x < goal then min goal (x + d) else max goal (x - d)

/-- V_ramp and V_tgt at a boundary (R195, R198, R200). -/
def State.rampStep (n : Nat) (iLoop : Int) (first : Bool) (s : State) : State :=
  let l := s.lp n
  let t := s.vTarget n iLoop
  let d : Int := if first then 0 else (s.lf n F.LOOPn_SS_SLEW : Int) * l.per
  let tgt := t.1 - t.2
  if l.discharge.isSome then s.setLp n { l with vTgt := tgt, vRamp := approach l.vRamp 0 d }
  else if s.on F.LOOPn_STAT_SS_DONE n then
    let base := approach l.vBase t.1 d
    s.setLp n { l with vTgt := tgt, vBase := base, vRamp := base - t.2 }
  else
    let r := approach l.vRamp tgt d
    let s := s.setLp n { l with vTgt := tgt, vRamp := r, vBase := t.1 }
    if r = tgt then s.put F.LOOPn_STAT_SS_DONE 1 n else s

/-- Phase shedding (R193). An add or a shed that leaves N_shed as it is, at NPH or at NMIN', joins neither statistic (DESIGN
CHOICE, log entry 50: R193 counts each add and each shed and does not say whether such a one is one). -/
def State.shedCount (n : Nat) (iLoop : Int) (s : State) : State :=
  let l := s.lp n
  if !s.on F.LOOPn_STAT_SS_DONE n then s
  else
    let add : Int := 5 * (s.lf n F.LOOPn_SHED_ADD_I : Int)
    let shed : Int := 5 * (s.lf n F.LOOPn_SHED_SHED_I : Int)
    let nph := s.loopNph n
    if iLoop > add * l.nShed then
      let k := min nph ((iLoop + add - 1) / (max 1 add)).toNat
      let s := s.setLp n { l with nShed := k, shedRun := 0 }
      if k ≠ l.nShed then s.bump ((F.LOOPn_STATS_V).off 5) n else s
    else if shed ≠ 0 ∧ iLoop < shed * ((l.nShed : Int) - 1) then
      let run := l.shedRun + 1
      if run ≥ 16 * s.lf n F.LOOPn_SHED_SHED_T then
        let k := max (min (s.lf n F.LOOPn_SHED_NMIN) nph) (l.nShed - 1)
        let s := s.setLp n { l with nShed := k, shedRun := 0 }
        if k ≠ l.nShed then s.bump ((F.LOOPn_STATS_V).off 6) n else s
      else s.setLp n { l with shedRun := run }
    else s.setLp n { l with shedRun := 0 }

/-- The active set (R181): the lowest-numbered NACT available phases. Where it changes, I, y1 and y2 are scaled (R210); where no
phase is left, the scale has no value and they are free. -/
def State.fixActive (n : Nat) (s : State) : State :=
  let l := s.lp n
  let nph := s.loopNph n
  let av := s.availPhases n
  let req := max (min (s.lf n F.LOOPn_SHED_NMIN) nph) (max l.nShed l.nHint)
  let nact := min req av.length
  let act := av.take nact
  let s := (s.loopPhases n).foldl (fun s p =>
    if s.phState p == phDropped then s
    else if bitsOf (s.phCtrl n p) 16 1 == 1 then s.setPhState p phDisabled
    else if act.contains p then s.setPhState p phActive else s.setPhState p phShed) s
  let mask := act.foldl (fun m p => m + 2 ^ p) 0
  let s := ((s.put F.LOOPn_STAT_NACT nact n).put F.LOOPn_ACTIVE_MASK mask n).put F.LOOPn_TSTAT_NAVAIL av.length n
  let ch := l.nactPrev != nact
  let k : Int := l.nactPrev
  let sc := fun (i : Nat) (x : Int) =>
    if !ch then x else if nact = 0 then (Config.freeWord (s.free + i)).toInt else s.fdiv i (x * k) nact
  s.setLp n { s.lp n with
    int := sc 2 l.int, y1 := sc 3 l.y1, y2 := sc 4 l.y2, nactChanged := ch, nactPrev := nact, activePrev := mask }

/-- Start of on-time of active phase `i` within the cycle (R183). -/
def phaseStart (i p nact : Nat) : Nat := i * p / nact

/-- Where an edge at fine time `t` of a cycle is placed: the count of the 400 MHz counter and the interpolation step (R6, R183). -/
def edgePlace (t : Nat) : Nat × Nat := (t / 8, t % 8)

/-- The on-times of the cycle that begins at fine time `t` (R183, R189, R190, R197): of each active phase, its start, its greatest
length, and the demand in force, the new one from 640 fine units after the boundary on, before that `dOld`. An on-time of the
cycle before that has not ended yet goes on. With the brake engaged, or where the on-time is skipped, none starts, and the first
start that a phase skips is kept; a phase that is not active goes to mid-Z. The greatest length (DMAX / 256) × P is taken in
whole fine units, rounded down (DESIGN CHOICE, log entry 50: R189 gives no rounding). -/
def State.schedule (n t dOld : Nat) (s : State) : State :=
  let l := s.lp n
  let act := (s.loopPhases n).filter (fun p => s.phState p == phActive)
  let d := s.get F.LOOPn_DEMAND_D n
  let mx := s.lf n F.LOOPn_FSW_DMAX * l.per / 256
  let none' := l.skip || s.on F.LOOPn_TSTAT_BRAKING n
  (s.loopPhases n).foldl (fun s p =>
    if !act.contains p then s.phaseMidZ p
    else
      let x := s.phs p
      let o := phaseStart (act.idxOf p) l.per act.length
      let going := x.starts.filter (fun e => decide (t < e.1 + e.2.1))
      s.setPhs p { x with
        starts := if none' then going else going ++ [(t + o, mx, if 640 ≤ o then d else dOld)]
        skipFrom := if l.skip then some (x.skipFrom.getD (t + o)) else x.skipFrom }) s

/-- Overload ceiling (R223). -/
def State.ovlCeil (s : State) (n nact : Nat) : Nat :=
  if s.on F.LOOPn_TSTAT_OVL n then 200 + 10 * s.lf n F.LOOPn_OVLD_OVL_I / max 1 nact else 1023

/-- The thermal ceiling in force at a boundary: a change of the update in tick U applies from the first boundary after U
(R349). -/
def State.thermCeil (s : State) (n : Nat) : Nat :=
  if s.thermalAt = some s.tick then (s.lp n).thmPrev else s.get F.THM_LOOPn_CEIL_CEIL n

/-- The compensator and the demand (R196, R197, R211); `e` is the error of this boundary. -/
def State.compensate (n nact : Nat) (e : Int) (s : State) : State :=
  let l := s.lp n
  let p : Int := (s.lf n F.LOOPn_KPKI_KP : Int) * e * 64
  let hold := s.on F.LOOPn_TSTAT_BRAKING n || (l.clampHi && decide (e > 0)) || (l.clampLo && decide (e < 0))
  let i := if hold then l.int else l.int + (s.lf n F.LOOPn_KPKI_KI : Int) * e
  let d : Int := (s.lf n F.LOOPn_KD_KD : Int) * (e - l.ePrev) * 256
  let a := fun (c : Nat) => if c = 0 then 65536 else (c : Int)
  let y1 := l.y1 + s.fdiv 5 (a (s.lf n F.LOOPn_POLES_A1) * (p + i + d - l.y1)) 65536
  let y2 := l.y2 + s.fdiv 6 (a (s.lf n F.LOOPn_POLES_A2) * (y1 - l.y2)) 65536
  let raw := 200 + roundDiv y2 65536 + (if l.fA = 0 then 0 else feedForward l.fA nact)
  let c := min (s.lf n F.LOOPn_CLAMP_IMAX_PH) (min (s.thermCeil n) (s.ovlCeil n nact))
  let lo := s.lf n F.LOOPn_CLAMP_IMIN_PH
  let dk := min c (max (lo : Int) raw).toNat
  let s := ((s.put F.LOOPn_DEMAND_D dk n).putB F.LOOPn_STAT_CLAMP_HI (dk == c) n).putB F.LOOPn_STAT_CLAMP_LO (dk == lo) n
  s.setLp n { l with
    int := i, y1 := y1, y2 := y2, ePrev := e, clampHi := decide (raw > c), clampLo := decide (raw < lo), ceil := c
    skip := s.lf n F.LOOPn_CTRL_SKIP_EN == 1 && decide (raw < lo) && l.discharge.isNone }

/-- The CLAMP and PHCAP sources of R230 at a boundary. -/
def State.throttleStep (n : Nat) (iLoop : Int) (s : State) : State :=
  let l := s.lp n
  let hi := s.on F.LOOPn_STAT_CLAMP_HI n
  let run := if hi then l.clampRun + 1 else 0
  let cap := match l.phcap with
    | some c => if 10 * iLoop ≤ 9 * c then none else some c
    | none => none
  (s.setLp n { l with
    clampRun := min run 255, phcap := cap
    clampSrc := hi && (l.clampSrc || decide (s.lf n F.LOOPn_THR_THR_N ≤ run)) }).throttle n

/-- Sense supervision at a boundary (R232–R234). -/
def State.senseStep (n : Nat) (x : LoopSample) (s : State) : State :=
  let l := s.lp n
  let lim := s.lf n F.LOOPn_SENSE_SNS_N
  let ss := s.on F.LOOPn_STAT_SS_DONE n
  let loc := s.lf n F.LOOPn_SENSE_LOCAL_EN == 1
  if s.on F.LOOPn_TSTAT_LOCAL n then
    let run := if x.vlocal < 0 ∨ x.vlocal > 1700000 then l.localRun + 1 else 0
    let s := s.setLp n { l with localRun := run }
    if run ≥ lim ∧ 0 < run then (s.loopStop n (sourceOf 2 2 n)).raiseReg 2 2 n F.LOOPn_TSTAT n else s
  else
    let o := s.localOffset n
    let opn := if x.senp > 1700000 ∨ x.senn > 300000 then l.openRun + 1 else 0
    let dif : Int := 320 * (x.vsense - x.vlocal) - o
    let dv := if ss && loc && decide ((dif.natAbs : Int) > 64000 * (s.lf n F.LOOPn_SENSE_SNS_DEV : Int)) then l.divRun + 1 else 0
    let offs := if s.on F.LOOPn_STAT_PG n then (320 * (x.vsense - x.vlocal) :: l.offs).take 256 else l.offs
    let s := s.setLp n { l with openRun := opn, divRun := dv, offs := offs }
    if (opn ≥ lim ∧ 0 < opn) ∨ (dv ≥ lim ∧ 0 < dv) then
      if ss && loc then (s.put F.LOOPn_TSTAT_LOCAL 1 n).raiseReg 2 1 n F.LOOPn_TSTAT n
      else (s.loopStop n (sourceOf 2 2 n)).raiseReg 2 2 n F.LOOPn_TSTAT n
    else s

/-- A carrier cycle of a phase joins the sums of the thermal interval it ends in (R340, R341). -/
def PhaseSt.joinSums (x : PhaseSt) (tick sq ab act : Nat) : PhaseSt :=
  let i := tick / 10000
  let y : PhaseSt := if x.sumOf = i then x else
    { x with sumOf := i, sums := (0, 0, 0, 0), sumsPrev := if x.sumOf + 1 = i then x.sums else (0, 0, 0, 0) }
  { y with sums := (y.sums.1 + sq, y.sums.2.1 + ab, y.sums.2.2.1 + 1, y.sums.2.2.2 + act) }

/-- The sums of the interval [U − 10,000, U). -/
def PhaseSt.sumsBefore (x : PhaseSt) (u : Nat) : Nat × Nat × Nat × Nat :=
  if x.sumOf + 1 = u / 10000 then x.sums else if x.sumOf = u / 10000 then x.sumsPrev else (0, 0, 0, 0)

/-- The cycle that has just ended: I_ph, I_loop, statistics, thermal and meter sums (R178, R204, R325, R341). -/
def State.cycleEnd (n : Nat) (x : LoopSample) (s : State) : Int × List (Nat × Int) × State :=
  let l := s.lp n
  let cur := (s.loopPhases n).map (fun p => (p, roundDiv (s.phCurrent n p (x.iph.getD p 0)) 100))
  let act := cur.filter (fun q => l.activePrev.testBit q.1)
  let iLoop := cur.foldl (fun a q => a + q.2) 0
  let s := cur.foldl (fun s q =>
    let p := q.1
    let s := s.put F.PHn_STAT_IPH (clampI 0 1023 (200 + q.2)).toNat p
    let i := if l.activePrev.testBit p then q.2.natAbs else 0
    s.setPhs p ((s.phs p).joinSums s.tick (i * i) i (b2n (l.activePrev.testBit p)))) s
  let s := s.put F.LOOPn_STAT_ILOOP (ofS 16 (clampS 16 iLoop)) n
  let im := toS 32 (s.get F.LOOPn_STATS_V n)
  let s := s.put F.LOOPn_STATS_V (ofS 32 (max im iLoop)) n
  let s := (s.bump ((F.LOOPn_STATS_V).off 3) n l.nactPrev).bump ((F.LOOPn_STATS_V).off 4) n
  let s := if l.trunc then s.bump ((F.LOOPn_TSTATS_V).off 4) n else s
  let s := s.setLp n { s.lp n with
    trunc := false
    binSum := l.binSum + iLoop, binCnt := l.binCnt + 1 }
  let s := { s with meter := s.meter.map (fun m => if m.loop == some n then { m with iSum := m.iSum + iLoop, iCnt := m.iCnt + 1 } else m) }
  (iLoop, act, s)

/-- The carrier moves on: the length of the period that starts here (R185, R187). -/
def State.carrierNext (n t : Nat) (s : State) : State :=
  let l := s.lp n
  let per : Int := s.lf n F.LOOPn_FSW_PERIOD
  let g := per / 100
  let r := match s.phaseError n t with
    | some (phi, pt) => (pt - clampI (-g) g phi, decide (phi.natAbs ≤ 1))
    | none => ((l.per : Int) + clampI (-g) g (per - l.per), false)
  let s := (s.putB F.LOOPn_STAT_ALIGNED r.2 n).put F.LOOPn_STAT_CLK_STATE (s.clkState n) n
  s.setLp n { s.lp n with per := r.1.toNat, bnd := some (t + r.1.toNat) }

/-- Has the discharge of a withdrawn loop ended (R200)? `v` in 3.125 nV. -/
def State.dischargeOver (s : State) (n : Nat) (v : Int) : Bool :=
  match (s.lp n).discharge with
  | none => false
  | some t => decide (50 * v < 64000 * (s.lf n F.LOOPn_TARGET_VREF : Int)) || decide (t + 1000000 ≤ s.now)

/-- A carrier boundary of loop `n` (R217). -/
def State.carrierBoundary (n : Nat) (x : LoopSample) (s : State) : State :=
  match (s.lp n).bnd with
  | none => s
  | some t =>
    let first := (s.lp n).vSense.isNone
    let c := if first then (0, [], s) else s.cycleEnd n x
    let iLoop := c.1
    let s := c.2.2
    let s := if first then s else s.phaseChecks n c.2.1 iLoop
    if !s.loopOn n then s.draw
    else if (s.lp n).withdraw then (s.loopOff n).draw
    else
      let s := s.loopApply n
      let s := s.setLp n { s.lp n with useLocal := s.on F.LOOPn_TSTAT_LOCAL n }
      let v := s.senseOf n x.vsense x.vlocal
      let s := if first then s.setLp n { s.lp n with vRamp := v, v0 := v } else s
      let vPrev := ((s.lp n).vSense).getD v
      let per := max 1 (s.lf n F.LOOPn_FSW_PERIOD)
      let cap := s.fdiv 8 ((s.lf n F.LOOPn_HINT2_COUT : Int) * s.loopDivider n * (v - vPrev) * 32)
        (409600 * 320 * (per : Int))
      let iLoad := iLoop - cap
      let s := s.setLp n { s.lp n with vSense := some v, iLoad := iLoad }
      if s.dischargeOver n v then (s.loopOff n).draw
      else
        let s := s.rampStep n iLoop first
        let e := clampI (-512) 511 (roundDiv ((s.lp n).vRamp - v) 64000)
        let s := (s.put F.LOOPn_VSENSE_VSENSE (clampI 0 8191 (roundDiv v 64000)).toNat n).put F.LOOPn_VSENSE_ERR
          (ofS 16 e) n
        let h := s.hintStep n s.now iLoop iLoad e
        let s := h.2
        let s := if (s.lp n).binDue || decide ((s.lp n).binNo < s.tick / 16000) then s.binClose n else s
        let s := s.shedCount n iLoop
        let s := s.fixActive n
        let nact := (s.lp n).nactPrev
        let s := if h.1 then s.hintArrive n nact else s
        let s := s.brakeStep n v
        let dOld := s.get F.LOOPn_DEMAND_D n
        let s := s.compensate n nact e
        let ss := s.on F.LOOPn_STAT_SS_DONE n
        let pg := ss && decide (((v - (s.lp n).vTgt).natAbs : Int) < 64000 * (s.lf n F.LOOPn_SS_PG_WIN : Int))
        let s := s.putB F.LOOPn_STAT_PG pg n
        let vs := s.get F.LOOPn_VSENSE_VSENSE n
        let s := if ss then
            let seen := (s.lp n).vSeen
            let lo := s.get ((F.LOOPn_STATS_V).off 1) n
            let hi := s.get ((F.LOOPn_STATS_V).off 2) n
            ((s.put ((F.LOOPn_STATS_V).off 1) (if seen then min lo vs else vs) n).put ((F.LOOPn_STATS_V).off 2)
              (max hi vs) n).setLp n { s.lp n with vSeen := true }
          else s
        let s := s.throttleStep n iLoop
        let s := s.senseStep n x
        if !s.loopOn n then s.draw
        else
          let s := s.carrierNext n t
          let s := s.schedule n t dOld
          let s := (s.loopPhases n).foldl (fun s p => s.setPhs p { s.phs p with onEnd := none }) s
          (s.setLp n { s.lp n with braked := s.on F.LOOPn_TSTAT_BRAKING n }).draw

/-- 10 ms after withdrawal a discharging loop puts its phases at mid-Z (R200). -/
def State.dischargeTimeout (n : Nat) (s : State) : State :=
  if (s.lp n).discharge.isSome then s.loopOff n else s

end Sys2Proof.Machine
end

