-- ==== Sys2Proof/Machine/Meas.lean ====
section
/-! DEFINITION. Measurement and window monitors (chapter 10): conversions, scans, urgent requests, windows, the
reference check, energy meters, monitor cells and their self-test. -/

namespace Sys2Proof.Machine

/-! ### Entries (R49, R316) -/

/-- The entry word of entry `e` of modulator `m`. -/
def State.entWord (s : State) (m e : Nat) : Nat := s.get ((F.MEASm_ENT).off e) m

/-- SOURCE, FLAGS and METER of an entry word. -/
def entSource (w : Nat) : Nat := w % 256
def entFlags (w : Nat) : Nat := w / 256 % 256
def entMeter (w : Nat) : Nat := w / 65536 % 256

/-- Kinds of source that the meter table tells apart (R325). -/
def srcDiff (q : Nat) : Bool := decide (q < 0x10)
def srcCurrent (q : Nat) : Bool := decide (0x20 ≤ q ∧ q ≤ 0x4F)
def srcLoop (q : Nat) : Bool := decide (0x50 ≤ q ∧ q ≤ 0x57)

/-- Full scale of a source in µV; for the reference check in 10^-6, for a die sensor in 10^-6 °C (R316). -/
def State.fullScale (s : State) (q : Nat) : Nat :=
  if q < 0x10 then
    match s.cell (144 + q) / 2 % 4 with
    | 0 => 4000000
    | 1 => 1000000
    | _ => 250000
  else if q = 0x10 then 15625
  else if q = 0x11 then 80000000
  else if q = 0x12 ∨ q = 0x14 ∨ q = 0x15 ∨ q = 0x17 then 16000000
  else if q = 0x13 ∨ q = 0x16 then 4000000
  else if q < 0x20 then 2048000000
  else if q < 0x38 then 80000
  else if q < 0x50 then 1000000
  else if q < 0x58 then 2000000
  else 4000000

/-- Length of a conversion in ticks (R314). -/
def convTicks (rate : Nat) : Nat := 100000000 / max 1 rate

/-! ### Energy meters (R325–R327) -/

/-- The entries that name a meter. -/
inductive MeterIn where
  | off
  | single (e loop : Nat)
  | pair (v i : Nat)
  | bad
deriving DecidableEq, Repr

/-- The row of R325 that the entries naming a meter match; `ents` lists number 32 × m + e and SOURCE. -/
def meterInputs (ents : List (Nat × Nat)) : MeterIn :=
  match ents with
  | [] => .off
  | [(e, q)] => if srcLoop q then .single e (q - 0x50) else .bad
  | [(a, qa), (b, qb)] =>
    if srcCurrent qa && srcCurrent qb then .bad
    else if srcCurrent qa then .pair b a
    else if srcCurrent qb then .pair a b
    else if srcDiff qa && srcDiff qb then .pair (min a b) (max a b)
    else if srcDiff qa then .pair b a
    else if srcDiff qb then .pair a b
    else .bad
  | _ => .bad

/-- The used entries whose METER byte is `k`, by the word of each of the 128 entries. -/
def meterEnts (word : Nat → Nat) (k : Nat) : List (Nat × Nat) :=
  ((List.range 128).filter (fun i => entSource (word i) != 0xFF && entMeter (word i) == k)).map
    (fun i => (i, entSource (word i)))

/-- The entry words in force. -/
def State.entAt (s : State) (i : Nat) : Nat := s.entWord (i / 32) (i % 32)

/-- The inputs of meter `k`. -/
def State.meterIn (s : State) (k : Nat) : MeterIn := meterInputs (meterEnts s.entAt k)

/-- A meter beside its registers. -/
def State.mtr (s : State) (k : Nat) : MeterSt := tget s.meter k

/-- Replace a meter. -/
def State.setMtr (s : State) (k : Nat) (x : MeterSt) : State := { s with meter := tset s.meter k x }

/-- NOSCALE: a meter that needs SHUNT while SHUNT is 0. -/
def State.noScale (s : State) (k : Nat) : Bool :=
  match s.meterIn k with
  | .pair _ i => srcDiff (entSource (s.entAt i)) && s.get F.MEAS_METERk_CFG_SHUNT k == 0
  | _ => false

/-- STAT of a meter follows its entries and SHUNT. -/
def State.showMeter (k : Nat) (s : State) : State :=
  let s := s.putB F.MEAS_METERk_STAT_NOSCALE (s.noScale k) k
  match s.meterIn k with
  | .single e l =>
    (((s.put F.MEAS_METERk_STAT_LOOPMODE 1 k).put F.MEAS_METERk_STAT_I_ENT 0x7F k).put F.MEAS_METERk_STAT_V_ENT e k).setMtr
      k { s.mtr k with loop := some l }
  | .pair v i =>
    (((s.put F.MEAS_METERk_STAT_LOOPMODE 0 k).put F.MEAS_METERk_STAT_I_ENT i k).put F.MEAS_METERk_STAT_V_ENT v k).setMtr
      k { s.mtr k with loop := none }
  | _ =>
    (((s.put F.MEAS_METERk_STAT_LOOPMODE 0 k).put F.MEAS_METERk_STAT_I_ENT 0x7F k).put F.MEAS_METERk_STAT_V_ENT 0x7F k).setMtr
      k { s.mtr k with loop := none }

/-- An interruption of a meter (R326). -/
def State.meterInterrupt (k : Nat) (s : State) : State :=
  match s.meterIn k with
  | .off => s
  | _ => (s.put F.MEAS_METERk_STAT_GAP 1 k).setMtr k { s.mtr k with since := none }

/-- The meters that an entry feeds are interrupted. -/
def State.entryInterrupt (m e : Nat) (s : State) : State :=
  let w := s.entWord m e
  if entSource w ≠ 0xFF ∧ entMeter w < 16 then s.meterInterrupt (entMeter w) else s

/-- E shows the accumulator in µJ; its last place is free. -/
def State.showEnergy (k : Nat) (s : State) : State :=
  let e := ofS 64 (s.fdiv 0 (s.mtr k).acc (2 ^ 20))
  ((s.put F.MEAS_METERk_E_LO_E (e % 2 ^ 32) k).put F.MEAS_METERk_E_HI_E (e / 2 ^ 32) k).draw

/-- V × I × dt is added, dt in ticks; the last place of 2^-20 µJ is free. -/
def State.meterAdd (k dt : Nat) (s : State) : State :=
  let x := s.mtr k
  if s.noScale k || dt == 0 then s
  else
    let d := s.fdiv 1 (x.v * x.iNum * dt) (max 1 x.iDen * 2 ^ 15 * 100000000 : Nat)
    (s.setMtr k { x with acc := x.acc + d }).showEnergy k

/-- Voltage of an entry's result in 2^-35 µV, with VSCALE on a differential input and DIVIDER on a loop (R325). -/
def State.meterVolt (s : State) (k q : Nat) (c : Int) : Int :=
  let scale : Nat := if srcDiff q then s.get F.MEAS_METERk_CFG_VSCALE k
    else if srcLoop q then s.loopDivider (q - 0x50) else 4096
  -- a loop's sense voltage takes its divider only where it is the meter's single entry
  let scale := if srcLoop q && (s.mtr k).loop.isNone then 4096 else scale
  c * (s.fullScale q : Int) * scale

/-- Trims of a phase (R177): offset in 50 mA, gain. -/
def State.phTrims (s : State) (p : Nat) : Int × Int :=
  let c := match s.loopOfPhase p with
    | some n => s.phCtrl n p
    | none => s.reg (F.PHn_CTRL.addr p)
  (toS 8 (bitsOf c 0 8), toS 8 (bitsOf c 8 8))

/-- Current of an entry's result as a fraction of A (R325). -/
def State.meterCurrent (s : State) (k q : Nat) (c : Int) : Int × Nat :=
  if q < 0x10 then (c * (s.fullScale q : Int), 2 ^ 23 * max 1 (s.get F.MEAS_METERk_CFG_SHUNT k))
  else if q < 0x38 then (c * 80000, 2 ^ 23 * max 1 (s.chEff (q - 0x20) F.CHn_CFG_RSH))
  else
    let t := s.phTrims (q - 0x38)
    ((c * 200000 - 50 * t.1 * 2 ^ 23) * (1024 + t.2), 2 ^ 23 * 1024 * 1000)

/-- Mean I_loop since the previous result as a fraction of A; where no carrier cycle has ended it is free. -/
def State.meterLoop (s : State) (k : Nat) : Int × Nat :=
  let x := s.mtr k
  if x.iCnt = 0 then (toS 16 (Config.freeWord s.free).toNat, 10) else (x.iSum, 10 * x.iCnt)

/-- A meter takes the result `c` of its current entry, or of its single entry, whose window is `w` ticks long (R326). -/
def State.meterTake (k w vEnt : Nat) (s : State) : State :=
  let x := s.mtr k
  if bitOf (s.reg (F.MEASm_VALID.addr (vEnt / 32))) (vEnt % 32) then
    let dt := match x.since with
      | some t => s.tick - t
      | none => min w s.tick
    let s := s.meterAdd k dt
    s.setMtr k { s.mtr k with since := some s.tick }
  else s.meterInterrupt k

/-- The result `c` of entry `i` reaches the meter that it names. -/
def State.meterResult (i w : Nat) (c : Int) (s : State) : State :=
  let word := s.entAt i
  let k := entMeter word
  let q := entSource word
  if 16 ≤ k then s
  else match s.meterIn k with
    | .single _ _ =>
      let r := s.meterLoop k
      let s := (s.setMtr k { s.mtr k with v := s.meterVolt k q c, iNum := r.1, iDen := r.2, iSum := 0, iCnt := 0 }).draw
      s.meterTake k w i
    | .pair v j =>
      if i = v then s.setMtr k { s.mtr k with v := s.meterVolt k q c }
      else if i = j then
        let r := s.meterCurrent k q c
        (s.setMtr k { s.mtr k with iNum := r.1, iDen := r.2 }).meterTake k w v
      else s
    | _ => s

/-- A beat boundary: each meter adds what has passed since t_p (R327). -/
def State.meterBeat (s : State) : State :=
  (List.range 16).foldl (fun s k =>
    match (s.mtr k).since with
    | none => s
    | some t =>
      let s := s.meterAdd k (s.tick - t)
      s.setMtr k { s.mtr k with since := some s.tick }) s

/-! ### Modulators (R314–R321) -/

/-- A modulator beside its registers. -/
def State.md (s : State) (m : Nat) : ModSt := tget s.modl m

/-- Replace a modulator. -/
def State.setMd (s : State) (m : Nat) (x : ModSt) : State := { s with modl := tset s.modl m x }

/-- MASK. -/
def State.measMask (s : State) (m : Nat) : Nat := s.get F.MEASm_MASK m

/-- The enabled entries, ascending. -/
def enabledOf (mask : Nat) : List Nat := (List.range 32).filter (fun e => mask.testBit e)

/-- The entry after `e` in the scan: the lowest enabled one above it, else the lowest. -/
def nextEntry (mask e : Nat) : Option Nat :=
  match (enabledOf mask).find? (fun x => decide (e < x)) with
  | some x => some x
  | none => (enabledOf mask).head?

/-- A conversion of entry `e` begins `d` cycles on. -/
def State.convStart (m e d : Nat) (s : State) : State :=
  ((s.put F.MEASm_STAT_RUN 1 m).put F.MEASm_STAT_CUR e m).setMd m
    { s.md m with start := s.now + d, rate := s.get F.MEASm_CFG_RATE m }

/-- The scan goes on from its place (R318, R320, R336), or the modulator idles. -/
def State.scanGo (m d : Nat) (s : State) : State :=
  let x := s.md m
  let mask := s.measMask m
  let e := match x.pos with
    | none => (enabledOf mask).head?
    | some p => if x.again && mask.testBit p then some p else nextEntry mask p
  let s := s.setMd m { x with again := false }
  match e with
  | some e => s.convStart m e d
  | none => s.put F.MEASm_STAT_RUN 0 m

/-- MASK has changed from `old` (R318, R319). -/
def State.maskChanged (m old : Nat) (s : State) : State :=
  let new := s.measMask m
  let s := (List.range 32).foldl (fun s e => if old.testBit e && !new.testBit e then s.entryInterrupt m e else s) s
  if old = 0 ∧ new ≠ 0 ∧ !s.on F.MEASm_STAT_RUN m ∧ !(s.md m).stopped then
    (s.setMd m { s.md m with pos := none, again := false }).scanGo m 1
  else s

/-- A request for an urgent conversion of entry `e` (R320, R321). -/
def State.urgent (m e : Nat) (s : State) : State :=
  let x := s.md m
  if x.stopped || s.on F.MEASm_STAT_URG_PEND m then s.put F.MEASm_STAT_URG_BUSY 1 m
  else
    let s := s.put F.MEASm_STAT_URG_PEND 1 m
    if !s.on F.MEASm_STAT_RUN m then (s.setMd m { x with urgRun := true, pos := none }).convStart m e 1
    else if (enabledOf (s.measMask m)).length ≤ s.get F.MEASm_CFG_URG_SPLIT m then s.setMd m { x with urgPend := some e }
    else (s.setMd m { x with urgRun := true, pos := some (s.get F.MEASm_STAT_CUR m), again := true }).convStart m e 1

/-- The window of entry `e` takes a result (R322). -/
def State.windowMove (m e : Nat) (v : Int) (s : State) : State :=
  let fl := entFlags (s.entWord m e)
  if fl % 2 = 0 then s
  else
    let out := decide (v < s.getS ((F.MEASm_WLO_LO).off e) m) || decide (s.getS ((F.MEASm_WHI_HI).off e) m < v)
    let was := bitOf (s.reg (F.MEASm_WSTATE.addr m)) e
    let setBit := fun (f : Fld) (b : Nat) (s : State) => s.setReg (f.addr m) (withBits (s.reg (f.addr m)) e 1 b)
    if out && !was then
      (setBit F.MEASm_WSTATE 1 (setBit F.MEASm_WOUT 1 s)).bump
        ((if e % 2 = 0 then F.MEASm_WCNT_CNT_LO else F.MEASm_WCNT_CNT_HI).off (e / 2)) m
    else if !out && was then
      let s := setBit F.MEASm_WSTATE 0 s
      if fl / 2 % 2 = 1 then setBit F.MEASm_WRET 1 s else s
    else s

/-- The reference check (R324). -/
def State.refCheck (v : Int) (s : State) : State :=
  if v.natAbs * 15625 > s.get F.MEAS_REFCHK_REF_TOL * 10 * 8388608 then
    let s1 := s.put F.MEAS_REFCHK_REF_ERR 1
    if s1.refBad then s1 else { s1 with refBad := true }.raiseReg 7 1 0 F.MEAS_REFCHK
  else { s with refBad := false }

/-- Sensor of a measurement source (R344). -/
def sensorOf (q : Nat) : Option Nat :=
  if 0x18 ≤ q ∧ q ≤ 0x1F then some (q - 0x18) else if 0x58 ≤ q ∧ q ≤ 0x5B then some (q - 0x58 + 8) else none

/-- The lowest entry 32 × m + e of a source. -/
def State.entryOf (s : State) (q : Nat) : Option Nat := (List.range 128).find? (fun i => entSource (s.entAt i) == q)

/-- A conversion ends with code `code` before it is held to 24 bits (R314–R326, R460). -/
def State.conversionEnd (m : Nat) (code : Int) (s : State) : State :=
  if !s.on F.MEASm_STAT_RUN m then s
  else
    let x := s.md m
    let e := s.get F.MEASm_STAT_CUR m
    let i := 32 * m + e
    let w := s.entWord m e
    let v := clampS 24 code
    let s := if v ≠ code then s.put F.MEASm_STAT_OVR 1 m else s
    let s := s.put ((F.MEASm_RES_RESULT).off e) (ofS 32 v) m
    let s := s.setReg (F.MEASm_VALID.addr m) (withBits (s.reg (F.MEASm_VALID.addr m)) e 1 1)
    let s := s.put F.MEASm_TSTAMP_TICK s.tick m
    let s := s.windowMove m e v
    let s := if entSource w = 0x10 then s.refCheck v else s
    let s := s.meterResult i (convTicks x.rate) v
    let s := match sensorOf (entSource w) with
      | some q =>
        if s.entryOf (entSource w) = some i then
          let y := tget s.sens q
          { s with sens := tset s.sens q { y with result := y.result ++ [(s.tick, v)] } }
        else s
      | none => s
    let s := s.trigger 7 i (ofS 24 v / 256)
    if x.urgRun then
      let s := (s.put F.MEASm_STAT_URG_PEND 0 m).put F.MEASm_STAT_URG_DONE 1 m
      (s.setMd m { s.md m with urgRun := false }).scanGo m 0
    else
      let last := (nextEntry (s.measMask m) e).all (fun n => decide (n ≤ e))
      let s := if last && s.measMask m != 0 then s.bump F.MEASm_STAT_SCANS m else s
      let s := s.setMd m { s.md m with pos := some e, again := false }
      match x.urgPend with
      | some u => (s.setMd m { s.md m with urgPend := none, urgRun := true }).convStart m u 0
      | none => s.scanGo m 0

/-- A pending urgent request is dropped. -/
def State.urgentDrop (m : Nat) (s : State) : State :=
  let s := if s.on F.MEASm_STAT_URG_PEND m then (s.put F.MEASm_STAT_URG_PEND 0 m).put F.MEASm_STAT_URG_BUSY 1 m else s
  s.setMd m { s.md m with urgPend := none, urgRun := false, again := false }

/-- A modulator stops: link-held entry or rest (R317, R326, R336). -/
def State.measStop (m : Nat) (s : State) : State :=
  let s := ((s.urgentDrop m).put F.MEASm_STAT_RUN 0 m).setReg (F.MEASm_VALID.addr m) 0
  let s := (List.range 32).foldl (fun s e => s.entryInterrupt m e) s
  s.setMd m { s.md m with stopped := true, pos := none }

/-- The modulators 2 and 3 of a link-held worker stand, from its release or soft reset on (R24). -/
def State.measHeld (s : State) : State := if s.on F.SYS_DOM_STAT_LINK_HELD then (s.measStop 2).measStop 3 else s

/-- A stopped modulator resumes at its lowest enabled entry. -/
def State.measResume (m : Nat) (s : State) : State :=
  if !(s.md m).stopped then s
  else (s.setMd m { s.md m with stopped := false, pos := none, again := false }).scanGo m 0

/-- SCAN_PLAN records are placed (R317, R319, R322, R336): 136 bytes for each modulator. -/
def State.placeScan (recs : List (List Byte)) (accept : Bool) (s : State) : State :=
  let s := (List.range 4).foldl (fun s m =>
    let r := recs.getD m []
    let s := (s.urgentDrop m).put F.MEASm_STAT_RUN 0 m
    let s := (List.range 32).foldl (fun s e =>
      let w := leAt r (8 + 4 * e) 4
      if s.entWord m e = w ∧ !accept then s
      else
        let s := if accept then s else s.entryInterrupt m e
        let clr := fun (f : Fld) (s : State) => s.setReg (f.addr m) (withBits (s.reg (f.addr m)) e 1 0)
        let s := (clr F.MEASm_VALID (clr F.MEASm_WSTATE s)).put ((F.MEASm_ENT_WORD).off e) w m
        if accept then s else s.entryInterrupt m e) s
    let old := s.measMask m
    let s := (s.put F.MEASm_MASK (leAt r 0 4) m).put F.MEASm_CFG_RATE (leAt r 4 2) m
    let s := (List.range 32).foldl (fun s e =>
      if old.testBit e && !(s.measMask m).testBit e && !accept then s.entryInterrupt m e else s) s
    let s := s.setMd m { s.md m with pos := none, again := false }
    if (s.md m).stopped then s else s.scanGo m 1) s
  (List.range 16).foldl (fun s k =>
    let s := if accept then s.setMtr k { s.mtr k with since := none } else s
    s.showMeter k) s

/-! ### Window monitor cells (R329–R333) -/

/-- STATE of a rail is Good. -/
def State.railGoodState (s : State) (r : Nat) : Bool := s.get F.SEQ_RAILn_STAT_STATE r == 6

/-- A cell beside its registers. -/
def State.mc (s : State) (n : Nat) : MonSt := tget s.mon n

/-- Replace a cell. -/
def State.setMc (s : State) (n : Nat) (x : MonSt) : State := { s with mon := tset s.mon n x }

/-- Is a cell used (R332)? -/
def State.monUsed (s : State) (n : Nat) : Bool := s.get F.MONn_ROUTE_INPUT n != 0xFF

/-- One DAC code of a cell in nV (R329). -/
def State.monLsb (s : State) (n : Nat) : Int :=
  if s.cell (80 + s.get F.MONn_ROUTE_INPUT n) / 2 % 2 = 1 then 6250000 else 1562500

/-- The raw comparator outputs with the input at `v` nV (R329). -/
def State.monRaw (s : State) (n : Nat) (v : Int) : Bool × Bool :=
  let l := s.monLsb n
  let uth : Int := s.get F.MONn_TH_UV_TH n
  let oth : Int := s.get F.MONn_TH_OV_TH n
  (if s.on F.MONn_STAT_UV_RAW n then !decide (v > (uth + s.get F.MONn_CFG_UV_HYS n) * l) else decide (v < uth * l),
   if s.on F.MONn_STAT_OV_RAW n then !decide (v < (oth - s.get F.MONn_CFG_OV_HYS n) * l) else decide (v > oth * l))

/-- Number of samples of a filter length code (R331). -/
def filterLen (c : Nat) : Nat := [1, 3, 5, 7, 9, 15].getD c 1

/-- The level that holds the majority of the last `n` samples. -/
def majority (n : Nat) (h : List Bool) : Bool := decide (n < 2 * ((h.take n).filter id).length)

/-- A 0-to-1 change of filtered UV (false) or OV (true) (R333). -/
def State.monRise (n : Nat) (ov : Bool) (s : State) : State :=
  let rail := s.get F.MONn_ROUTE_RAIL n
  let s := if (s.get F.MONn_ROUTE_FAULTS n).testBit (b2n ov) && (rail == 0xFF || s.railGoodState rail)
    then s.raiseReg 6 (1 + b2n ov) n F.MONn_STAT n else s
  if ov then (if s.on F.MONn_CFG_IRQ_OV n then s.setMaskBit F.MON_OVC n true else s)
  else if s.on F.MONn_CFG_IRQ_UV n then s.setMaskBit F.MON_UVC n true else s

/-- Store the live levels. -/
def State.monLevels (n : Nat) (u o : Bool) (s : State) : State :=
  (((s.putB F.MONn_STAT_UV u n).putB F.MONn_STAT_OV o n).setMaskBit F.MON_UV n u).setMaskBit F.MON_OV n o

/-- The first change of a level in a sweep is recorded with the DAC code (R334). -/
def State.sweepSee (n : Nat) (u o : Bool) (s : State) : State :=
  match s.sweep with
  | none => s
  | some w =>
    if w.cell ≠ n then s
    else
      let s := if u != w.uv && !s.on F.MON_TEST_STAT_UV_SEEN then
        (s.put F.MON_TEST_STAT_UV_SEEN 1).put F.MON_TEST_STAT_UV_AT w.code else s
      if o != w.ov && !s.on F.MON_TEST_STAT_OV_SEEN then
        (s.put F.MON_TEST_STAT_OV_SEEN 1).put F.MON_TEST_STAT_OV_AT w.code else s

/-- Store the raw outputs. -/
def State.monRaws (n : Nat) (r : Bool × Bool) (s : State) : State :=
  (s.putB F.MONn_STAT_UV_RAW r.1 n).putB F.MONn_STAT_OV_RAW r.2 n

/-- One sample of a cell with these raw outputs (R331–R334). -/
def State.monTake (n : Nat) (r : Bool × Bool) (s : State) : State :=
  if !s.monUsed n then s
  else
    let s := s.monRaws n r
    if s.on F.MONn_STAT_SETTLE n then s
    else
      let x := { s.mc n with sampleAt := some s.tick }
      let hu := (r.1 :: x.histU).take 15
      let ho := (r.2 :: x.histO).take 15
      let len := filterLen (s.get F.MONn_CFG_FILT_N n)
      let u := majority len hu
      let o := majority len ho
      let wu := s.on F.MONn_STAT_UV n
      let wo := s.on F.MONn_STAT_OV n
      let s := ((s.setMc n { x with histU := hu, histO := ho }).monLevels n u o).sweepSee n u o
      let s := if u && !wu then s.monRise n false else s
      if o && !wo then s.monRise n true else s

/-- One sample of a cell with its comparators seeing `v` nV (R331–R334). -/
def State.monSample (n : Nat) (v : Int) (s : State) : State := s.monTake n (s.monRaw n v)

/-- Tick of a cell's next sample: a multiple of 2^FILT_K (R331). -/
def State.monSampleDue (s : State) (n : Nat) : Nat :=
  let p := 2 ^ s.get F.MONn_CFG_FILT_K n
  if s.tick % p = 0 ∧ (s.mc n).sampleAt ≠ some s.tick then s.tick else (s.tick / p + 1) * p

/-- Response time of a mode in ticks (R330): LOW, STD, FAST. -/
def monResponse : Nat → Nat
  | 0 => 2000
  | 2 => 4
  | _ => 80

/-- The mode a cell works in: its MODE, STD for FAST on a link-held worker, LOW in rest (R24, R330). -/
def State.monMode (s : State) (n : Nat) : Nat :=
  let m := s.get F.MONn_CFG_MODE n
  if s.phase == .resting then 0
  else if m == 2 && s.on F.SYS_DOM_STAT_LINK_HELD then 1 else m

/-- A cell restarts: UV 1 and OV 0 for the response time of its mode (R332). -/
def State.monRestart (n : Nat) (befU befO : Bool) (s : State) : State :=
  if !s.monUsed n then
    ((s.put F.MONn_STAT_SETTLE 0 n).put F.MONn_STAT_MODE_ACT (s.monMode n) n).monLevels n false false
  else
    let m := s.monMode n
    let s := ((s.put F.MONn_STAT_MODE_ACT m n).put F.MONn_STAT_SETTLE 1 n).monLevels n true false
    s.setMc n { s.mc n with
      settleEnd := some (s.now + monResponse m), befU := befU, befO := befO
      using' := (s.reg (F.MONn_CFG.addr n)).toNat % 4096 }

/-- A cell whose mode in use has changed restarts; MODE, FILT_N and FILT_K are now those in use. -/
def State.monModeMove (n : Nat) (s : State) : State :=
  if !s.monUsed n then s
  else
    let s := s.setMc n { s.mc n with using' := (s.reg (F.MONn_CFG.addr n)).toNat % 4096 }
    if s.monMode n = s.get F.MONn_STAT_MODE_ACT n then s
    else
      let held := s.on F.MONn_STAT_SETTLE n
      let x := s.mc n
      s.monRestart n (if held then x.befU else s.on F.MONn_STAT_UV n) (if held then x.befO else s.on F.MONn_STAT_OV n)

/-- The raw outputs of a cell whose input is on the test DAC: its comparators see a code from the whole response time of their mode
after the DAC's move to it on, and until the first the pin as they last did (R330, R334; R330 bounds the response from above
only, DESIGN CHOICE, log entry 56). -/
def State.sweepRaw (s : State) (w : SweepSt) : Bool × Bool :=
  match w.moves.find? (fun m => decide (m.1 + monResponse (s.monMode w.cell) ≤ s.now)) with
  | some m => s.monRaw w.cell ((m.2 : Int) * s.monLsb w.cell)
  | none => (s.on F.MONn_STAT_UV_RAW w.cell, s.on F.MONn_STAT_OV_RAW w.cell)

/-- One sample of the cell under test (R334). -/
def State.sweepSample (s : State) : State :=
  match s.sweep with
  | none => s
  | some w => s.monTake w.cell (s.sweepRaw w)

/-- The raw outputs of cell `n` with its pin at `v` nV, or with its input on the test DAC. -/
def State.cellRaw (s : State) (n : Nat) (v : Int) : Bool × Bool :=
  match s.sweep with
  | some w => if w.cell = n then s.sweepRaw w else s.monRaw n v
  | none => s.monRaw n v

/-- The hold of a cell ends with its comparators seeing `v` nV (R332). The refill after a sweep sets DONE (R334). -/
def State.monSettleEnd (n : Nat) (v : Int) (s : State) : State :=
  if !s.on F.MONn_STAT_SETTLE n then s
  else
    let r := s.cellRaw n v
    let x := s.mc n
    let s := (s.monRaws n r).put F.MONn_STAT_SETTLE 0 n
    let s := s.setMc n { x with
      histU := List.replicate 15 r.1, histO := List.replicate 15 r.2, settleEnd := none, doneDue := false }
    let s := if x.doneDue then s.put F.MON_TEST_STAT_DONE 1 else s
    let s := (s.monLevels n r.1 r.2).sweepSee n r.1 r.2
    let s := if r.1 && !x.befU then s.monRise n false else s
    if r.2 && !x.befO then s.monRise n true else s

/-! ### Self-test sweep (R334, R335) -/

/-- A sweep is abandoned without DONE. -/
def State.sweepAbandon (s : State) : State :=
  match s.sweep with
  | none => s
  | some w => { (s.put F.MONn_STAT_TEST 0 w.cell).put F.MON_TEST_STAT_BUSY 0 with sweep := none }

/-- MON_TEST.GO: a sweep of cell CELL starts or is refused. -/
def State.sweepGo (s : State) : State :=
  let n := s.get F.MON_TEST_CELL
  let rail := s.get F.MONn_ROUTE_RAIL n
  let st := s.get F.SEQ_RAILn_STAT_STATE rail
  if s.sweep.isSome || !s.monUsed n || (rail != 0xFF && !(st == 0 || st == 1 || st == 12)) then
    s.put F.MON_TEST_STAT_REFUSED 1
  else
    let s := ((s.put F.MON_TEST_STAT_BUSY 1).put F.MON_TEST_STAT_UV_SEEN 0).put F.MON_TEST_STAT_OV_SEEN 0
    let s := s.put F.MONn_STAT_TEST 1 n
    let c := s.get F.MON_TEST_START
    { s with sweep := some {
        cell := n, code := c, due := s.now + 1000 * max 1 (s.get F.MON_TEST_DW_DWELL)
        uv := s.on F.MONn_STAT_UV n, ov := s.on F.MONn_STAT_OV n, moves := [(s.now, c)] } }

/-- The test DAC moves one code toward END, or the sweep ends: the input returns to its pin, and DONE follows the refill. -/
def State.sweepStep (s : State) : State :=
  match s.sweep with
  | none => s
  | some w =>
    let fin := s.get F.MON_TEST_END
    if w.code = fin then
      let u := s.on F.MONn_STAT_UV w.cell
      let o := s.on F.MONn_STAT_OV w.cell
      let s := { (s.put F.MONn_STAT_TEST 0 w.cell).put F.MON_TEST_STAT_BUSY 0 with sweep := none }
      let s := s.monRestart w.cell u o
      s.setMc w.cell { s.mc w.cell with doneDue := true }
    else
      let c := if w.code < fin then w.code + 1 else w.code - 1
      { s with sweep := some { w with
          code := c, due := s.now + 1000 * max 1 (s.get F.MON_TEST_DW_DWELL), moves := (s.now, c) :: w.moves.take 3 } }

/-- MON_ROUTE records of 8 bytes are placed (R332, R336, R338); `old` are the records before. -/
def State.placeMon (old recs : List (List Byte)) (accept : Bool) (s : State) : State :=
  (List.range 64).foldl (fun s n =>
    let r := recs.getD n []
    let cfg := byteAt r 1 % 4 + (byteAt r 1 / 4 % 8) * 16 + (byteAt r 2 % 16) * 256
    let held := s.on F.MONn_STAT_SETTLE n
    let x := s.mc n
    let bu := !accept && (if held then x.befU else s.on F.MONn_STAT_UV n)
    let bo := !accept && (if held then x.befO else s.on F.MONn_STAT_OV n)
    let moved := accept || old.getD n [] != r || x.using' != cfg
    let s := ((s.put F.MONn_CFG_MODE (byteAt r 1) n).put F.MONn_CFG_FILT_N (byteAt r 1 / 4) n).put F.MONn_CFG_FILT_K
      (byteAt r 2) n
    let s := ((s.put F.MONn_ROUTE_INPUT (byteAt r 0) n).put F.MONn_ROUTE_RAIL (byteAt r 3) n).put F.MONn_ROUTE_FAULTS
      (byteAt r 4) n
    if !moved then s
    else
      let s := match s.sweep with
        | some w => if w.cell = n then s.sweepAbandon else s
        | none => s
      s.monRestart n bu bo) s

end Sys2Proof.Machine
end

