-- ==== Sys2Proof/Machine/Thermal.lean ====
section
/-! DEFINITION. The thermal model (chapter 11): nodes, sensors, levels and their actions. Temperatures are in 1/65,536 K
of °C (R343). -/

namespace Sys2Proof.Machine

/-- A fraction. -/
structure Frac where
  num : Int
  den : Nat
deriving DecidableEq, Repr, Inhabited

/-- Arithmetic of fractions; a denominator of 0 counts as 1. -/
def Frac.add (a b : Frac) : Frac :=
  if a.den = b.den then ⟨a.num + b.num, a.den⟩ else ⟨a.num * b.den + b.num * a.den, a.den * b.den⟩
def Frac.mul (a b : Frac) : Frac := ⟨a.num * b.num, a.den * b.den⟩
def Frac.neg (a : Frac) : Frac := ⟨-a.num, a.den⟩
def Frac.over (a : Frac) (n : Nat) : Frac := ⟨a.num, a.den * max 1 n⟩
def Frac.int (a : Int) : Frac := ⟨a, 1⟩
def Frac.sum (l : List Frac) : Frac := l.foldl Frac.add (.int 0)

/-- A result within 0.001 K of `x`, both in 1/65,536 K: the `k`-th free value of this command among those (R343). -/
def State.near (s : State) (k : Nat) (x : Frac) : Int :=
  let d : Int := max 1 x.den
  let lo := -((65536 * d - 1000 * x.num) / (1000 * d))
  let hi := (1000 * x.num + 65536 * d) / (1000 * d)
  lo + (((Config.freeWord (s.free + k)).toNat : Int) + (roundDiv x.num d - lo)) % max 1 (hi - lo + 1)

/-- Several free values have been drawn. -/
def State.drawn (n : Nat) (s : State) : State := { s with free := s.free + n }

/-- Temperature of a node. -/
def State.temp (s : State) (n : Nat) : Int := tget s.nodeT n

/-- Store a node's temperature. -/
def State.setTemp (n : Nat) (t : Int) (s : State) : State := { s with nodeT := tset s.nodeT n t }

/-! ### Nodes (R339) -/

/-- Node families by number. -/
def nodeDie (n : Nat) : Bool := decide (n < 8)
def nodeStage (n : Nat) : Bool := decide (8 ≤ n ∧ n < 32)
def nodeFet (n : Nat) : Bool := decide (32 ≤ n ∧ n < 56)
def nodeWire1 (n : Nat) : Bool := decide (56 ≤ n ∧ n < 80)
def nodeWire2 (n : Nat) : Bool := decide (80 ≤ n ∧ n < 104)
def nodeBoard (n : Nat) : Bool := decide (104 ≤ n ∧ n < 128)

/-- The channel of a FET or wire node. -/
def nodeChan (n : Nat) : Nat := (n - 32) % 24

/-- A CURVES record exists: its first point has CUR of at least 1 A. -/
def State.hasCurve (s : State) (c : Nat) : Bool := s.curveWord c 0 != 0

/-- WIRE and FET words of a channel. -/
def State.wireWord (s : State) (c k : Nat) : Word := s.reg (((F.CHn_WIRE).off k).addr c)
def State.fetWord (s : State) (c k : Nat) : Word := s.reg (((F.CHn_FET).off k).addr c)

/-- Is a node used? -/
def State.nodeUsed (s : State) (n : Nat) : Bool :=
  if nodeDie n then true
  else if nodeStage n then
    s.cell (n - 8) == 1 && match s.loopOfPhase (n - 8) with
      | some m => s.get F.THM_LOOPn_STG_P0 m != 0
      | none => false
  else if nodeFet n then s.hasCurve (nodeChan n) && s.curveFlag (nodeChan n) 1
  else if n < 104 then s.hasCurve (nodeChan n) && s.curveFlag (nodeChan n) 0
  else s.get F.THM_NODEn_P0_RTH n != 0 && s.get F.THM_NODEn_P0_CTH n != 0

/-- The fixed value of a node's own parameters, °C. -/
def State.nodeFixed (s : State) (n : Nat) : Int :=
  if nodeFet n || nodeWire1 n || nodeWire2 n then
    if s.hasCurve (nodeChan n) then toS 8 (bitsOf (s.wireWord (nodeChan n) 5) 0 8) else 25
  else s.getS F.THM_NODEn_P1_TFIX n

/-- The node that a node's parameters name as its reference. -/
def State.nodeRef (s : State) (n : Nat) : Option Nat :=
  let r :=
    if nodeFet n then
      if s.hasCurve (nodeChan n) then bitsOf (s.fetWord (nodeChan n) 3) 8 8 else 0xFF
    else if nodeWire1 n || nodeWire2 n then
      if s.hasCurve (nodeChan n) then bitsOf (s.wireWord (nodeChan n) 5) 8 8 else 0xFF
    else s.get F.THM_NODEn_P1_REF n
  if r < 128 then some r else none

/-- The chain of references from node `n` on: to a used node, to a fixed value, or, where it would return, to the fixed
value of the node where it began. -/
def State.chainFrom (s : State) (start : Nat) : Nat → List Nat → Nat → Int
  | 0, _, _ => 65536 * s.nodeFixed start
  | fuel + 1, seen, n =>
    match s.nodeRef n with
    | none => 65536 * s.nodeFixed n
    | some r =>
      if s.nodeUsed r then s.temp r
      else if seen.contains r then 65536 * s.nodeFixed start
      else State.chainFrom s start fuel (r :: seen) r

/-- What an unused node reads. -/
def State.chainValue (s : State) (n : Nat) : Int := s.chainFrom n 128 [n] n

/-- T_ref of a node, from the values of the previous update. -/
def State.tRef (s : State) (n : Nat) : Int :=
  match s.nodeRef n with
  | none => 65536 * s.nodeFixed n
  | some r => s.temp r

/-! ### Powers (R255, R256, R341), in W -/

/-- Power of the stage of phase `p`, over the carrier cycles of the interval: one in which it was not active contributes 0, P0
included (R341; DEDUCED, log entry 29). -/
def State.stagePower (s : State) (p : Nat) : Frac :=
  let x := s.phs p
  match s.loopOfPhase p with
  | none => .int 0
  | some m =>
    let t := x.sumsBefore s.tick
    let c := max 1 t.2.2.1
    let sq : Frac := ⟨(t.1 * s.get F.THM_LOOPn_STG_RST m : Nat), 100000000 * c⟩
    let ab : Frac := ⟨(t.2.1 * s.get F.THM_LOOPn_STG_KI m : Nat), 10000 * c⟩
    (sq.add ab).add ⟨(t.2.2.2 * s.get F.THM_LOOPn_STG_P0 m : Nat), 100 * c⟩

/-- Power of a die or stage node. -/
def State.ownPower (s : State) (pdev n : Nat) : Frac :=
  if nodeDie n then ⟨(pdev * s.get F.THM_NODEn_P1_SHARE n : Nat), 256000⟩ else s.stagePower (n - 8)

/-- Power of a die, stage or board node; `pdev` in mW. -/
def State.nodePower (s : State) (pdev n : Nat) : Frac :=
  if nodeBoard n then
    Frac.sum (((List.range 32).filter (fun i => s.nodeUsed i && s.nodeRef i == some n)).map (s.ownPower pdev))
  else s.ownPower pdev n

/-- T of a die, stage or board node after Δt = 100 µs (R341). RTH is in 0.01 K/W, CTH in 10 mJ/K. -/
def State.nodeStep (s : State) (pdev n : Nat) : Frac :=
  let rth := s.get F.THM_NODEn_P0_RTH n
  let cth := s.get F.THM_NODEn_P0_CTH n
  let t := s.temp n
  if rth = 0 ∨ cth = 0 then .int t
  else
    let up := ((s.nodePower pdev n).mul (.int 65536)).over (100 * cth)
    let down : Frac := ⟨t - s.tRef n, rth * cth⟩
    ((Frac.int t).add up).add down.neg

/-- The samples of the update interval [U − 10,000, U) of channel `c` at the update in tick U (R255, R340). -/
def State.chInterval (s : State) (c : Nat) : List (Nat × Int × Int × Bool) :=
  (s.ch c).samples.filter (fun x => decide (s.tick ≤ x.1 + 10000 ∧ x.1 < s.tick))

/-- Mean of squares of a channel's samples in A². -/
def meanSq (l : List (Nat × Int × Int × Bool)) : Frac :=
  ⟨l.foldl (fun a x => a + x.2.1 * x.2.1) 0, 1000000 * max 1 l.length⟩

/-- T1 and T2 of a channel (R255). R20 in µΩ/m, α in 2·10^-5 /K, C in mJ/(K·m), R in mK·m/W. -/
def State.wireStep (s : State) (c : Nat) : Frac × Frac :=
  let w := s.wireWord c
  let r20 := bitsOf (w 0) 8 24
  let al := bitsOf (w 0) 0 8
  let c1 := (w 1).toNat; let r12 := (w 2).toNat; let c2 := (w 3).toNat; let r2a := (w 4).toNat
  let t1 := s.temp (56 + c); let t2 := s.temp (80 + c)
  let ta := s.tRef (80 + c)
  let k : Frac := ⟨50000 * 65536 + (al : Int) * (t1 - 20 * 65536), 50000 * 65536⟩
  let p := (((meanSq (s.chInterval c)).mul (.int r20)).over 1000000).mul k
  -- 65,536 × 100 µs / (C1 mJ)
  let a1 := ((p.mul (.int 65536)).over (10 * c1))
  let f12 : Frac := ⟨(t1 - t2) * 1000, r12⟩
  let f2a : Frac := ⟨(t2 - ta) * 1000, r2a⟩
  let n1 := ((Frac.int t1).add a1).add ((f12.over (10 * c1)).neg)
  let n2 := (Frac.int t2).add (((f12.add f2a.neg)).over (10 * c2))
  (n1, n2)

/-- T_j of a channel (R256). RDS25 in µΩ, TC in 0.01 %/K, RTH in mK/W, CTH in mJ/K. -/
def State.fetStep (s : State) (c : Nat) : Frac :=
  let w := s.fetWord c
  let rds := (w 0).toNat; let rth := (w 1).toNat; let cth := (w 2).toNat
  let tc := bitsOf (w 3) 0 8
  let t := s.temp (32 + c)
  let k : Frac := ⟨10000 * 65536 + (tc : Int) * (t - 25 * 65536), 10000 * 65536⟩
  let l := s.chInterval c
  let on := l.filter (fun x => x.2.2.2)
  let off := l.filter (fun x => !x.2.2.2)
  let pon := ((Frac.mk (on.foldl (fun a x => a + x.2.1 * x.2.1) 0 * rds) (10 ^ 12)).mul k)
  let poff : Frac := ⟨off.foldl (fun a x => a + ((x.2.1 * x.2.2.1).natAbs : Int)) 0, 1000000⟩
  let p := (pon.add poff).over (max 1 l.length)
  let a := (p.mul (.int 65536)).over (10 * cth)
  let d : Frac := ⟨(t - s.tRef (32 + c)) * 1000, rth⟩
  ((Frac.int t).add a).add ((d.over (10 * cth)).neg)

/-- The new temperature of node `n` from the values of the previous update; an unused node's stands. -/
def State.nodeNext (s : State) (pdev n : Nat) : Int :=
  if !s.nodeUsed n then s.temp n
  else if nodeFet n then s.near n (s.fetStep (nodeChan n))
  else if nodeWire1 n then s.near n (s.wireStep (nodeChan n)).1
  else if nodeWire2 n then s.near n (s.wireStep (nodeChan n)).2
  else s.near n (s.nodeStep pdev n)

/-- Every used node from the values of the previous update, then what the unused nodes read (step 2 of R340). -/
def State.nodesStep (pdev : Nat) (s : State) : State :=
  let b1 := (List.range 128).foldl (fun (t : State) n => t.setTemp n (s.nodeNext pdev n)) s
  ((List.range 128).foldl (fun (t : State) n => if s.nodeUsed n then t else t.setTemp n (b1.chainValue n)) b1).drawn 128

/-! ### Sensors (R344–R347) -/

/-- ln of a fraction of positive numbers in 2^-48, by its power of 2 and the series of artanh. -/
def lnFix (num den : Nat) : Int :=
  if num = 0 ∨ den = 0 then 0
  else
    let k : Int := (Nat.log2 num : Int) - Nat.log2 den
    let n := if 0 ≤ k then num else num * 2 ^ k.natAbs
    let d := if 0 ≤ k then den * 2 ^ k.natAbs else den
    let one : Int := 2 ^ 48
    let z : Int := ((n : Int) - d) * one / ((n : Int) + d)
    let z2 := z * z / one
    let r := (List.range 30).foldl (fun (a : Int × Int) i => (a.1 + a.2 / (2 * i + 1 : Nat), a.2 * z2 / one)) (0, z)
    k * 195103586505167 + 2 * r.1

/-- Temperature in 1/65,536 °C of an NTC whose R / R25 is `num / den`, with constant `b` in K; none where the formula has
no value (R344). -/
def ntcFrac (num den b : Nat) : Option Frac :=
  let d := 100 * (b : Int) * 2 ^ 48 + 29815 * lnFix num den
  if num = 0 ∨ den = 0 ∨ d ≤ 0 then none
  else some ((Frac.mk (29815 * b * 2 ^ 48 * 65536) d.toNat).add ⟨-(27315 * 65536), 100⟩)

/-- Temperature of an NTC from its result's code, none where the formula has no value (R344). -/
def State.ntcTemp (s : State) (k : Nat) (c : Int) : Option Frac :=
  let den := 20971520 - 4 * c
  if c ≤ 0 ∨ den ≤ 0 then none
  else ntcFrac (4000 * c).toNat (den.toNat * max 1 (s.get F.THM_NTCk_CFG_R25 k)) (max 1 (s.get F.THM_NTCk_CFG_B k))

/-- The node a sensor corrects: die diode k its spot, an NTC the node of its MAP. -/
def State.sensNode (s : State) (k : Nat) : Option Nat :=
  if k < 8 then some k
  else
    let n := s.get F.THM_NTCk_MAP_NODE (k - 8)
    if n < 128 then some n else none

/-- Measurement source of a sensor. -/
def sensSource (k : Nat) : Nat := if k < 8 then 0x18 + k else 0x58 + (k - 8)

/-- ABSENT of every sensor (R344). -/
def State.showSensors (s : State) : State :=
  (List.range 12).foldl (fun s k => s.putB F.THM_SENSk_ABSENT (s.entryOf (sensSource k)).isNone k) s

/-- A sensor is ignored (R346). -/
def State.sensBad (k cause : Nat) (s : State) : State :=
  let s := (s.put F.THM_SENSk_BAD 1 k).put F.THM_SENSk_CAUSE cause k
  { s with sens := tset s.sens k { tget s.sens k with run := none } }.raiseReg 8 4 k F.THM_SENSk k

/-- One result of sensor `k`: tick and code (R344–R347). -/
def State.sensResult (k : Nat) (r : Nat × Int) (s : State) : State :=
  let c := r.2
  let x := tget s.sens k
  let out := if k < 8 then decide (c < -50 * 4096) || decide (c > 175 * 4096)
    else decide (80 * c < 8388608) || decide (400 * c > 245 * 8388608)
  let ts : Int := if k < 8 then 16 * c else match s.ntcTemp (k - 8) c with
    | some f => s.near 0 f
    | none => toS 24 (Config.freeWord s.free).toNat
  let s := (s.putS F.THM_SENSk_TS (clampS 16 (s.fdiv 1 (10 * ts) 65536)) k).drawn 4
  if s.on F.THM_SENSk_BAD k then s
  else if out then s.sensBad k 0
  else
    match s.sensNode k with
    | none => { s with sens := tset s.sens k { x with fresh := false } }
    | some n =>
      if !s.nodeUsed n then s
      else if x.fresh then
        let s := (s.setTemp n ts).put F.THM_SENSk_DISAGREE 0 k
        { s with sens := tset s.sens k { x with fresh := false, run := none } }
      else
        let d := ts - s.temp n
        if d.natAbs ≤ 20 * 65536 then
          let s := { s.put F.THM_SENSk_DISAGREE 0 k with sens := tset s.sens k { x with run := none } }
          let g : Frac := ⟨256 * s.temp n + (s.get F.THM_SENSk_GAIN k : Int) * d, 256⟩
          ((s.setTemp n (if s.get F.THM_SENSk_GAIN k = 0 then s.temp n else s.near 2 g))).drawn 4
        else
          let s := s.put F.THM_SENSk_DISAGREE 1 k
          match x.run with
          | none => { s with sens := tset s.sens k { x with run := some r.1 } }
          | some t => if r.1 > t + 10000000 then s.sensBad k 1 else s

/-- Every sensor result of the interval [U − 10,000, U), in ascending sensor number (R340); one of tick U waits for the next
update. -/
def State.sensorsStep (s : State) : State :=
  (List.range 12).foldl (fun s k =>
    let l := (tget s.sens k).result
    let s := (l.filter (fun r => decide (r.1 < s.tick))).foldl (fun s r => s.sensResult k r) s
    { s with sens := tset s.sens k { tget s.sens k with result := l.filter (fun r => decide (s.tick ≤ r.1)) } }) s.showSensors

/-! ### Levels and actions (R348–R351) -/

/-- A threshold code of a node, in 1/65,536 K; none where it is off. -/
def State.threshold (s : State) (n lvl : Nat) : Option Int :=
  let c := s.get (if lvl = 1 then F.THM_NODEn_TH_WARN else if lvl = 2 then F.THM_NODEn_TH_THROT else F.THM_NODEn_TH_SHUT) n
  if c = 0xFF then none else some (65536 * ((c : Int) - 50))

/-- LEVEL of a node. -/
def State.nodeLevel (s : State) (n : Nat) : Nat := s.get F.THM_NODEn_T_LEVEL n

/-- The new level of a used node (R348). -/
def State.newLevel (s : State) (n : Nat) : Nat :=
  let t := s.temp n
  let hys : Int := 65536 * (s.get F.THM_NODEn_TH_HYS n : Int)
  let reach := fun (d : Int) (l : Nat) => match s.threshold n l with
    | some x => decide (x - d ≤ t)
    | none => false
  let top := fun (f : Nat → Bool) => if f 3 then 3 else if f 2 then 2 else if f 1 then 1 else 0
  max (top (reach 0)) (top (fun l => decide (l ≤ s.nodeLevel n) && reach hys l))

/-- A temperature in 0.1 °C; its last place is free. -/
def State.tenths (s : State) (k : Nat) (t : Int) : Int := clampS 16 (s.fdiv k (10 * t) 65536)

/-- A group is shed as a reaction of the record of a SOURCE: each of its channels goes to Off, ON held at 0 until that record is
cleared; none holds it where the record has been (R269, R350, R361). -/
def State.shedGroup (g : Nat) (src : Option Nat) (s : State) : State :=
  (List.range 24).foldl (fun s c =>
    if s.chUsed c && s.chEff c F.CHn_CFG_SHED_GRP == g then
      match src with
      | some q => (s.reactChOff c).holdFor q (.chan c)
      | none => s.reactChOff c
    else s) s

/-- Lowest group that a node sheds, less nothing: 8 − SHED_D (R350). -/
def State.shedLast (s : State) (n : Nat) : Nat := 8 - min 8 (s.get F.THM_NODEn_ACT_SHED_D n)

/-- A node goes on to shed its next lower group, or has shed them all. -/
def State.shedNext (x : ShedSt) (s : State) : State :=
  let s := s.shedGroup x.next (if x.cleared then none else some x.source)
  let rest := s.sheds.filter (fun y => y.node != x.node)
  if x.next ≤ s.shedLast x.node then { s with sheds := rest }
  else { s with sheds := rest ++ [{ x with
    next := x.next - 1, due := s.now + 1000000 * max 1 (s.get F.THM_CTRL_SHED_STEP) }] }

/-- Entry of node `n` to level `lvl` from `old` below it: the record of the level, and the actions of every level passed
(R349). -/
def State.levelRise (n old lvl : Nat) (s : State) : State :=
  let s := s.setReg (F.THM_UPC.addr (n / 32)) (withBits (s.reg (F.THM_UPC.addr (n / 32))) (n % 32) 1 1)
  let s := s.raiseReg 8 lvl n F.THM_NODEn_T n
  let src := sourceOf 8 lvl n
  let s := if old < 2 ∧ 2 ≤ lvl ∧ s.get F.THM_NODEn_ACT_SHED_D n > 0 then
      s.shedNext { node := n, next := 7, due := s.now, source := src } else s
  let m := s.get F.THM_NODEn_ACT_LOOP n
  if lvl = 3 ∧ m < 8 then s.loopStop m src else s

/-- The nodes at level 2 or above whose ACT names loop `m`. -/
def State.hotNodes (s : State) (m : Nat) : List Nat :=
  (List.range 128).filter (fun n => decide (2 ≤ s.nodeLevel n) && s.get F.THM_NODEn_ACT_LOOP n == m)

/-- The thermal ceilings and the THERM source of the throttles. -/
def State.thermLoops (s : State) : State :=
  (List.range 8).foldl (fun s m =>
    let hot := s.hotNodes m
    let s := s.setLp m { s.lp m with thmPrev := s.get F.THM_LOOPn_CEIL_CEIL m }
    let s := s.put F.THM_LOOPn_CEIL_CEIL (hot.foldl (fun a n => min a (s.get F.THM_NODEn_ACT_CEIL n)) 1023) m
    let thr := hot.any (fun n => s.on F.THM_NODEn_ACT_THR n)
    (s.setLp m { s.lp m with therm := thr }).throttle m) s

/-- The level maps and counts (R354). -/
def State.showLevels (s : State) : State :=
  let cnt := fun (s : State) (l : Nat) => ((List.range 128).filter (fun n => decide (l ≤ s.nodeLevel n))).length
  let map := fun (l : Nat) (f : Fld) (s : State) => (List.range 4).foldl (fun s j =>
    s.put (f.off j) ((List.range 32).foldl (fun a b => if l ≤ s.nodeLevel (32 * j + b) then a + 2 ^ b else a) 0)) s
  let s := map 1 F.THM_LVLW (map 2 F.THM_LVLT (map 3 F.THM_LVLS s))
  let s := ((s.put F.THM_STAT_NWARN (cnt s 1)).put F.THM_STAT_NTHR (cnt s 2)).put F.THM_STAT_NSHUT (cnt s 3)
  s.putB F.THM_STAT_ENG_SLOW ((List.range 8).any (fun n => decide (2 ≤ s.nodeLevel n)))

/-- The registers that show temperatures. -/
def State.showTemps (s : State) : State :=
  let f := s
  let s := (List.range 128).foldl (fun s n => (s.putS F.THM_NODEn_T_T (f.tenths n (s.temp n)) n).putB
    F.THM_NODEn_T_USED (s.nodeUsed n) n) s
  let s := (List.range 24).foldl (fun s c =>
    let w1 := f.tenths (56 + c) (s.temp (56 + c))
    let s := (s.putS F.CHn_TEMP_TW1 w1 c).putS F.CHn_TEMP_TW2 (f.tenths (80 + c) (s.temp (80 + c))) c
    let s := s.putS F.CHn_TEMP2_TFET (f.tenths (32 + c) (s.temp (32 + c))) c
    s.put ((F.CHn_STATS_V).off 4) (ofS 32 (max (toS 32 (s.get ((F.CHn_STATS_V).off 4) c)) w1)) c) s
  s.drawn 128

/-- Channel trips of the models (R258, R260): FET before wire, one trip an update. -/
def State.modelTrips (s : State) : State :=
  let b := s
  (List.range 24).foldl (fun s c =>
    if !chConducts (s.chStateWas c) then s
    else if b.nodeUsed (32 + c) && decide (s.temp (32 + c) ≥ 65536 * (bitsOf (b.fetWord c 3) 24 8 : Int)) then s.chTrip c 3
    else if b.nodeUsed (56 + c) && decide (s.temp (56 + c) ≥ 65536 * (bitsOf (b.wireWord c 5) 24 8 : Int)) then s.chTrip c 4
    else s) s

/-- The 100 µs update with the parameters as they stand (R340); `pdev` is the device's own input power over the interval in
mW. -/
def State.thermalStep (pdev : Nat) (s : State) : State :=
  let pd := min pdev 0xFFFF
  let s := (s.nodesStep pd).put F.THM_PDEV_P_DEV pd
  let s := s.sensorsStep
  let old : List Nat := (List.range 128).map (fun n => s.nodeLevel n)
  let s := (List.range 128).foldl (fun s n => s.put F.THM_NODEn_T_LEVEL (if s.nodeUsed n then s.newLevel n else 0) n) s
  let s := s.showTemps.modelTrips
  let s := (List.range 128).foldl (fun s n =>
    let l := s.nodeLevel n
    let o := old.getD n 0
    if o < l then s.levelRise n o l else s) s
  let s := { s with sheds := s.sheds.filter (fun x => decide (2 ≤ s.nodeLevel x.node)) }
  let s := s.thermLoops.showLevels
  (List.range 128).foldl (fun s n =>
    s.putS F.THM_XMAXn_TMAX (max (s.getS F.THM_XMAXn_TMAX n) (s.getS F.THM_NODEn_T_T n)) n) s

/-- The update uses the parameters as they stood before this tick; new ones apply from the next (R353). -/
def State.thermalUpdate (pdev : Nat) (s : State) : State := (s.paramsBefore.thermalStep pdev).paramsOf s

/-! ### Start (R257, R347) -/

/-- The temperature a node starts at: board nodes TFIX, die and stage nodes their reference, FET and wire nodes their
T_a. -/
def State.startTemp (s : State) : Nat → Nat → Int
  | 0, n => 65536 * s.nodeFixed n
  | fuel + 1, n =>
    if nodeBoard n && s.nodeUsed n then 65536 * s.nodeFixed n
    else
      let r := if nodeFet n && s.hasCurve (nodeChan n) then s.nodeRef (80 + nodeChan n) else s.nodeRef n
      match r with
      | none => 65536 * s.nodeFixed n
      | some r => if r = n then 65536 * s.nodeFixed n else State.startTemp s fuel r

/-- Image acceptance: after power-on or hard reset every node takes its start; otherwise it keeps its value. -/
def State.nodesStart (s : State) : State :=
  if s.nodeKept then s.showSensors.showTemps
  else
    let s1 := (List.range 128).foldl (fun t n => t.setTemp n (s.startTemp 128 n)) s
    { s1.showSensors.showTemps with nodeKept := true }

end Sys2Proof.Machine
end

