-- ==== Sys2Proof/Machine/Power.lean ====
section
/-! DEFINITION. The reserve pack and the power path (chapter 13): source judgement, path states, pack presence and the
charger. Times are fabric cycles, voltages mV, currents mA. -/

namespace Sys2Proof.Machine

/-! ### Codes (R381, R390) -/

def ppSource : Nat := 0
def ppHandover : Nat := 1
def ppReserve : Nat := 2
def ppHandback : Nat := 3
def ppShip : Nat := 4
def ppOff : Nat := 5

def chgIdle : Nat := 0
def chgQualify : Nat := 1
def chgPre : Nat := 2
def chgFast : Nat := 3
def chgTop : Nat := 4
def chgDone : Nat := 5
def chgFault : Nat := 6

/-- PWRP_STAT.PATH. -/
def State.path (s : State) : Nat := s.get F.PWRP_STAT_PATH

/-- PWRP_STAT.CHG. -/
def State.chg (s : State) : Nat := s.get F.PWRP_STAT_CHG

/-- NCELL. -/
def State.ncell (s : State) : Int := s.get F.PWRP_CFG_NCELL

/-- The last sample; every reading 0 before the first. -/
def State.ppX (s : State) : PathSample := s.pp.x.getD default

/-- Pack temperature in 1/65,536 °C, none where the pin gives none (R344, R400). -/
def State.packTemp (s : State) (x : PathSample) : Option Frac :=
  if x.pth ≤ 0 ∨ 2500000 ≤ x.pth then none
  else ntcFrac (1000 * x.pth).toNat ((2500000 - x.pth).toNat * max 1 (s.get F.PWRP_PTH_R25)) (max 1 (s.get F.PWRP_PTH_B))

/-- Is a temperature at least, or above, a number of °C? -/
def atLeastC (t : Frac) (c : Int) : Bool := decide (c * 65536 * t.den ≤ t.num)
def aboveC (t : Frac) (c : Int) : Bool := decide (c * 65536 * t.den < t.num)

/-- Is the pack's temperature within two limits in °C? -/
def State.packIn (s : State) (x : PathSample) (lo hi : Int) : Bool :=
  match s.packTemp x with
  | none => false
  | some t => atLeastC t lo && !aboveC t hi

/-- May the charger work: the device runs, and it is neither resting nor link-held (R397, R424)? -/
def State.chgMay (s : State) : Bool := s.phase == .running && !s.on F.SYS_DOM_STAT_LINK_HELD

/-! ### Availability and switches (R382, R386) -/

/-- Is the reserve available (R386)? -/
def State.reserveOk (s : State) : Bool :=
  let x := s.ppX
  let p := s.path
  s.pp.fitted && s.pp.x.isSome && !s.on F.PWRP_STAT_BAT_MISSING && !s.on F.PWRP_STAT_SHORTED &&
  !s.on F.PWRP_STAT_DEPLETED && p != ppShip && p != ppOff &&
  (p == ppHandover || p == ppReserve || p == ppHandback ||
    (decide (x.vbat ≥ s.ncell * (10 * s.get F.PWRP_VCELL_VAVAIL : Nat)) && s.packIn x (-20) 60))

/-- The charger's state timer stops or runs on: it holds while the source switch is at its limit (R382). -/
def State.chgHold (hold : Bool) (s : State) : State :=
  let p := s.pp
  match p.since with
  | some t => if hold then { s with pp := { p with acc := p.acc + (s.now - t), since := none, secHeld := true } } else s
  | none => if hold then s else { s with pp := { p with since := some s.now } }

/-- Does the time of charger state `c` hold: the source switch is at its limit in Source (R382)? -/
def State.chgHolds (s : State) (c : Nat) : Bool :=
  s.path == ppSource && s.pp.src == .limit && (c == chgPre || c == chgFast || c == chgTop)

/-- AVAIL, the Diode or Off of the battery switch in Source, and the Limit of the source switch follow the readings
(R381, R382, R386). -/
def State.showAvail (s : State) : State :=
  let av := s.reserveOk
  let s := s.putB F.PWRP_STAT_AVAIL av
  if !s.pp.fitted then s
  else if s.path != ppSource then s.chgHold false
  else
    let lim := 250 * s.get F.PWRP_SW_ILIM_SRC
    let at' := av && lim != 0 && decide (s.ppX.isrc ≥ lim)
    let src := if s.pp.src == .on && at' then .limit else if s.pp.src == .limit && !at' then .on else s.pp.src
    let s := { s with pp := { s.pp with bat := if av then .diode else .off, src := src } }
    s.chgHold (s.chgHolds s.chg)

/-- A sample: the readings of PWRP_MEAS0–2 (R400). A pack temperature the pin does not give shows a free value. -/
def State.ppSample (x : PathSample) (s : State) : State :=
  let s := { s with pp := { s.pp with x := some x } }
  let s := (s.put F.PWRP_MEAS0_VBAT (satU 16 x.vbat)).putS F.PWRP_MEAS0_IBAT (clampS 16 x.ibat)
  let s := (s.put F.PWRP_MEAS1_VSRC (satU 16 (x.vsrc / 10))).putS F.PWRP_MEAS1_ISRC (clampS 16 (x.isrc / 10))
  let s := s.put F.PWRP_MEAS2_VSYS (satU 16 (x.vsys / 10))
  let s := match s.packTemp x with
    | some t => s.putS F.PWRP_MEAS2_TPACK (clampS 16 (10 * t.num / (65536 * t.den)))
    | none => (s.put F.PWRP_MEAS2_TPACK (Config.freeWord s.free).toNat).draw
  (s.putB F.PWRP_STAT_HEADROOM (decide (x.chgin ≥ x.vbat + 2000))).showAvail

/-! ### The charger (R390–R394) -/

/-- Time in the charger's present state. -/
def State.chgTime (s : State) : Nat :=
  s.pp.acc + match s.pp.since with
    | some t => s.now - t
    | none => 0

/-- The charger enters a state whose time already stands at `kept`, and counts on unless it holds (R382). -/
def State.chgEnter (c kept : Nat) (s : State) : State :=
  let s := s.put F.PWRP_STAT_CHG c
  { s with pp := { s.pp with acc := kept, since := if s.chgHolds c then none else some s.now } }

/-- The current in mA that the charger is set to in its state: IPRE, IFAST in 10 mA or 20 mA, ITOP, or the 50 mA of a probe (R387,
R390, R394). -/
def State.chgSet (s : State) : Nat :=
  let c := s.chg
  if s.pp.probe.isSome then 50
  else if c = chgPre then 10 * s.get F.PWRP_CFG_IPRE
  else if c = chgFast then (if s.on F.PWRP_CHG2_IFAST_HI then 20 else 10) * s.get F.PWRP_CFG_IFAST
  else if c = chgTop then 10 * s.get F.PWRP_CFG_ITOP
  else 0

/-- The current in mA that the charger drives, within the accuracy of R394: what it is set to, or, while the source switch is at its
limit, what it has lowered that to, which no rule states and is free from 0 up (R382). -/
def State.chgCurrent (s : State) : Nat :=
  if s.chgHolds s.chg then (Config.freeWord s.free).toNat % (s.chgSet + 1) else s.chgSet

/-- The charger enters Idle; what it kept is gone. -/
def State.chgToIdle (s : State) : State :=
  let s := if s.chg == chgIdle then s else s.chgEnter chgIdle 0
  { s with pp := { s.pp with kept := none, chgGo := false, second := none, vpk := none, temps := [] } }

/-- The charger enters Qualify; with `keep`, Precharge and Fast keep their time (R391). -/
def State.chgToQualify (keep : Bool) (s : State) : State :=
  let c := s.chg
  let k := if keep && (c == chgPre || c == chgFast) then some (c, s.chgTime) else none
  let s := s.chgEnter chgQualify 0
  { s with pp := { s.pp with kept := k, second := none, secHeld := true } }

/-- The charger enters Done: a completed cycle (R394). -/
def State.chgToDone (s : State) : State :=
  let s := ((s.chgEnter chgDone 0).put F.PWRP_CAUSE_CHG_DONE 1).bump F.PWRP_CNT_CYCLES
  { s with pp := { s.pp with kept := none, second := none, vpk := none, temps := [] } }

/-- The charger enters Fast, anew or where it stood (R391, R392). DEPLETED clears (R385). -/
def State.chgToFast (kept : Option Nat) (s : State) : State :=
  let s := (s.chgEnter chgFast (kept.getD 0)).put F.PWRP_STAT_DEPLETED 0
  let p := s.pp
  let s := { s with pp := { p with
    kept := none, second := some (s.now + 100000000), secHeld := false, vpk := none
    temps := if kept.isSome then p.temps else [] } }
  s.showAvail

/-- The charger enters Fault (R393). -/
def State.chgToFault (s : State) : State :=
  let s := ((s.chgEnter chgFault 0).put F.PWRP_CAUSE_CHG_FAULT 1).raise 9 5 0
  { s with pp := { s.pp with kept := none, second := none } }

/-- The Qualify conditions (R391). -/
def State.chgOk (s : State) : Bool :=
  let x := s.ppX
  s.packIn x ((s.get F.PWRP_TLIM_TCHG_LO : Int) - 50) ((s.get F.PWRP_TLIM_TCHG_HI : Int) - 50) &&
  decide (x.chgin ≥ x.vbat + 2000) && !s.held .chg && s.path == ppSource && !s.on F.PWRP_STAT_SUPPL

/-- Qualify passes where its conditions hold (R390, R391). -/
def State.chgPass (s : State) : State :=
  if !(s.chg == chgQualify && s.chgOk) then s
  else
    let v := s.ppX.vbat
    let go := s.pp.chgGo
    let s := { s with pp := { s.pp with chgGo := false } }
    match s.pp.kept with
    | some (c, t) =>
      let s := { s with pp := { s.pp with kept := none } }
      if c == chgPre then s.chgEnter chgPre t else s.chgToFast (some t)
    | none =>
      if v < s.ncell * (10 * s.get F.PWRP_VCELL_VPRE : Nat) then s.chgEnter chgPre 0
      else if v < s.ncell * (10 * s.get F.PWRP_VCELL_VRECHG : Nat) || go then s.chgToFast none
      else s.chgToDone

/-- Is the pack above TMAX in a charging state (R393)? -/
def State.chgHot (x : PathSample) (s : State) : Bool :=
  (s.chg == chgPre || s.chg == chgFast || s.chg == chgTop) &&
  match s.packTemp x with
  | some t => aboveC t ((s.get F.PWRP_TLIM_TMAX : Int) - 50)
  | none => false

/-- The moves of the charger that its conditions make: to Idle, from Idle to Qualify, from a charging state to Fault or back to
Qualify, and out of Qualify (R390, R391, R393). -/
def State.chgEval (s : State) : State :=
  let c := s.chg
  if !s.pp.fitted then s
  else if !(s.chgMay && s.on F.PWRP_CTRL_CHG_EN && s.path == ppSource && !s.on F.PWRP_STAT_BAT_MISSING &&
      !s.on F.PWRP_STAT_SHORTED) then s.chgToIdle
  else if s.pp.probe.isSome then s
  else if c == chgIdle then
    let s := s.chgToQualify false
    s.chgPass
  else if s.chgHot s.ppX then s.chgToFault
  else if (c == chgPre || c == chgFast || c == chgTop) && !s.chgOk then s.chgToQualify true
  else s.chgPass

/-- A sample followed by an action and by what the charger makes of it. -/
def State.ppStep (x : PathSample) (f : State → State) (s : State) : State :=
  if !s.pp.fitted then s
  else (State.showAvail (f (s.ppSample x))).chgEval

/-- V_cell reaches VPRE in Precharge (R390). -/
def State.prechargeEnd (x : PathSample) (s : State) : State :=
  s.ppStep x (fun s =>
    if s.chg == chgPre && decide (x.vbat ≥ s.ncell * (10 * s.get F.PWRP_VCELL_VPRE : Nat)) then s.chgToFast none else s)

/-- One minute. -/
def minuteTicks : Nat := 6000000000

/-- Cycle at which a state time of the charger reaches `t`, none while it does not count. -/
def State.chgReaches (s : State) (t : Nat) : Option Nat := s.pp.since.map (fun b => b + (t - s.pp.acc))

/-- Cycle at which the charge timer of Precharge or Fast runs out (R393). -/
def State.chgTimerDue (s : State) : Option Nat :=
  if s.chg == chgPre then s.chgReaches (minuteTicks * s.get F.PWRP_CHG2_TPRE_MAX + 1)
  else if s.chg == chgFast then s.chgReaches (minuteTicks * s.get F.PWRP_CHG2_TFAST_MAX + 1)
  else none

/-- A charge timer or TMAX ends the charge (R393). -/
def State.chargerFault (x : PathSample) (s : State) : State :=
  s.ppStep x (fun s =>
    let timer := match s.chgTimerDue with
      | some t => decide (t ≤ s.now)
      | none => false
    if timer || s.chgHot x then s.chgToFault else s)

/-- Cycle at which Top-off ends. -/
def State.topoffDue (s : State) : Option Nat :=
  if s.chg == chgTop then s.chgReaches (minuteTicks * s.get F.PWRP_CHG2_TTOP) else none

/-- TTOP elapses (R390). -/
def State.topoffEnd (x : PathSample) (s : State) : State :=
  s.ppStep x (fun s => match s.topoffDue with
    | some t => if t ≤ s.now then s.chgToDone else s
    | none => s)

/-- V_cell has been below VRECHG for `held` cycles: after 1 min in Done the charger returns to Qualify (R390). -/
def State.rechargeStart (x : PathSample) (held : Nat) (s : State) : State :=
  s.ppStep x (fun s =>
    if decide (minuteTicks ≤ held) && s.chg == chgDone && decide (x.vbat < s.ncell * (10 * s.get F.PWRP_VCELL_VRECHG : Nat)) &&
      decide (minuteTicks ≤ s.chgTime) then s.chgToQualify false else s)

/-- Fast ends (R390). -/
def State.fastEnd (s : State) : State :=
  if s.get F.PWRP_CHG2_TTOP = 0 then
    { s.chgToDone with pp := { s.chgToDone.pp with
        doneAt := some (s.now, s.reg F.PWRP_CAUSE.base, s.reg F.PWRP_CNT_CYCLES.base) } }
  else
    let s := s.chgEnter chgTop 0
    { s with pp := { s.pp with second := none, vpk := none, temps := [] } }

/-- The end of a second of Fast with the averages of V_BAT (mV) and of the pack temperature (mK) over it (R392). -/
def State.chargeSecond (vavg tavg : Int) (s : State) : State :=
  match s.pp.second with
  | none => s
  | some e =>
    if s.chg != chgFast || decide (s.now < e) then s
    else
      let p := s.pp
      let vpk := if p.secHeld then vavg else max (p.vpk.getD vavg) vavg
      let old := p.temps.find? (fun q => q.1 + 6000000000 == e)
      let s := { s with pp := { p with
        second := some (e + 100000000), secHeld := p.since.isNone, vpk := some vpk
        temps := ((e, tavg) :: p.temps).take 61 } }
      let armed := decide (minuteTicks * s.get F.PWRP_EOC_THOLD ≤ s.chgTime)
      let dv := s.get F.PWRP_EOC_DV
      let dt := s.get F.PWRP_EOC_DTDT
      let byV := dv != 0 && decide (vpk - vavg ≥ s.ncell * (dv : Int))
      let byT := dt != 0 && match old with
        | some q => decide (tavg - q.2 ≥ 100 * (dt : Int))
        | none => false
      if armed && (byV || byT) then s.fastEnd else s

/-- The conditions of Qualify come to hold or stop holding (R391). -/
def State.chargeCondition (x : PathSample) (s : State) : State := s.ppStep x id

/-! ### Pack presence (R387–R389) -/

/-- Is a pack that is not charging suspected missing (R387)? -/
def State.packSuspect (s : State) (x : PathSample) : Bool :=
  decide (x.vbat < s.ncell * 500) || decide (x.pth > 2450000)

/-- Is the charger charging? -/
def State.charging (s : State) : Bool := s.chg == chgPre || s.chg == chgFast || s.chg == chgTop

/-- May a probe run (R389, R395, R397)? Only in Source: in every other state of the path the charger is off (R381). -/
def State.probeMay (s : State) : Bool :=
  s.pp.fitted && s.chgMay && s.path == ppSource && !s.held .chg && !s.on F.PWRP_STAT_SHORTED && !s.charging && s.pp.probe.isNone

/-- A probe begins. -/
def State.probeBegin (s : State) : State :=
  let s := if s.chg == chgFault then s else s.chgToIdle
  { s with pp := { s.pp with probe := some s.now, lastProbe := some s.now, probeNow := false } }

/-- Cycle at which the probe of a missing pack is repeated (R387). -/
def State.probeDue (s : State) : Option Nat :=
  if s.on F.PWRP_STAT_BAT_MISSING && s.pp.probe.isNone then s.pp.lastProbe.map (fun t => t + 1000000000) else none

/-- A missing pack, or one suspected for 100 ms (`held` cycles), is probed (R387). -/
def State.probeStart (x : PathSample) (held : Nat) (s : State) : State :=
  s.ppStep x (fun s =>
    let due := match s.probeDue with
      | some t => decide (t ≤ s.now)
      | none => decide (10000000 ≤ held) && s.packSuspect x && !s.on F.PWRP_STAT_BAT_MISSING
    if s.probeMay && (due || s.pp.probeNow) then s.probeBegin else s)

/-- The pack becomes missing (R387, R388). -/
def State.packMissing (s : State) : State :=
  let was := s.on F.PWRP_STAT_BAT_MISSING
  let s := (s.chgToIdle.put F.PWRP_STAT_BAT_MISSING 1).put F.PWRP_STAT_AVAIL 0
  if was then s else (s.put F.PWRP_CAUSE_MISSING 1).raise 9 3 0

/-- The pack is shorted (R389): its record holds the charger at whatever level it stands (R399). -/
def State.packShort (s : State) : State :=
  let s := ((s.chgToIdle.put F.PWRP_STAT_SHORTED 1).put F.PWRP_STAT_AVAIL 0).put F.PWRP_CAUSE_SHORT 1
  ({ s with pp := { s.pp with bat := .off } }.raise 9 4 0).holdFor (sourceOf 9 4 0) .chg

/-- The probe ends and judges (R387): shorted before missing (R398). -/
def State.probeEnd (x : PathSample) (s : State) : State :=
  match s.pp.probe with
  | none => s
  | some b =>
    if s.now < b + 10000000 then s
    else s.ppStep x (fun s =>
      let s := { s with pp := { s.pp with probe := none } }
      if x.vbat < s.ncell * 200 ∧ x.ibat ≥ 40 then s.packShort
      else if x.vbat ≥ s.ncell * 1600 ∨ x.pth > 2450000 then s.packMissing
      else
        ((s.put F.PWRP_STAT_BAT_MISSING 0).put F.PWRP_CAUSE_PRESENT 1).chgToQualify false)

/-- A −ΔV end of this tick that led to Done does not stand against the removal of the pack: nothing was completed (R398). -/
def State.doneUndone (s : State) : State :=
  match s.pp.doneAt with
  | some (t, cause, cnt) => if t = s.now then (s.setReg F.PWRP_CAUSE.base cause).setReg F.PWRP_CNT_CYCLES.base cnt else s
  | none => s

/-- Did Fast end in Done in this very cycle? -/
def State.doneNow (s : State) : Bool :=
  s.chg == chgDone && match s.pp.doneAt with
    | some d => d.1 == s.now
    | none => false

/-- A charging comparator has seen its condition for `held` cycles: V_BAT above NCELL × 1.80 V for 2 µs, or PTH above 2.45 V
for 10 µs, and the pack is removed (R388). The next probe is 10 s after it. -/
def State.packRemoved (x : PathSample) (held : Nat) (s : State) : State :=
  s.ppStep x (fun s =>
    if (s.charging || s.doneNow) && ((decide (x.vbat > s.ncell * 1800) && decide (200 ≤ held)) ||
        (decide (x.pth > 2450000) && decide (1000 ≤ held))) then
      let s := s.doneUndone.packMissing
      { s with pp := { s.pp with lastProbe := some s.now } }
    else s)

/-- V_BAT has been below NCELL × 0.20 V for `held` cycles: 1 s of it in Precharge is a short (R389). -/
def State.packShorted (x : PathSample) (held : Nat) (s : State) : State :=
  s.ppStep x (fun s =>
    if decide (100000000 ≤ held) && s.chg == chgPre && decide (x.vbat < s.ncell * 200) && decide (100000000 ≤ s.chgTime) then s.packShort else s)

/-- The record of a shorted pack is cleared: SHORTED clears and the charger probes at once (R389), or when it next may. -/
def State.shortCleared (s : State) : State :=
  if !s.on F.PWRP_STAT_SHORTED then s
  else
    let s := (s.put F.PWRP_STAT_SHORTED 0).showAvail
    if s.probeMay then s.probeBegin else { s with pp := { s.pp with probeNow := true } }

/-- The record of a charger fault is cleared (R390). -/
def State.chgFaultCleared (s : State) : State :=
  if s.chg == chgFault then (s.chgToQualify false).chgEval else s

/-- The charger goes to Idle: rest, the link-held state, Ship or a reset (R390, R395, R397, R424). A probe under way ends without a
judgement (R398). -/
def State.chgOff (s : State) : State := { s with pp := { s.pp with probe := none } }.chgToIdle

/-- A reaction holds the charge cell off (R357, R360, R379): Precharge, Fast and Top-off return to Qualify, where the hold keeps
the charger with the time of its state (R391, R398). -/
def State.chgHeld (s : State) : State :=
  let s := { s with pp := { s.pp with probe := none } }
  if s.charging then s.chgToQualify true else s

/-! ### The path (R380–R386, R395, R396) -/

/-- The path enters a state. -/
def State.ppGo (p : Nat) (s : State) : State := s.put F.PWRP_STAT_PATH p

/-- A wake source registers in rest; it wakes the device where its WAKE bit is 1 (R430, R432). -/
def State.wakeBy (bit : Nat) (s : State) : State :=
  if bitOf (s.reg F.SYS_REST_CTRL.base) bit then
    { s with wakePend := if s.wakePend.testBit bit then s.wakePend else s.wakePend + 2 ^ bit }
  else s

/-- Hand-over begins (R383). -/
def State.handOver (s : State) : State :=
  let s := ((s.ppGo ppHandover).chgToIdle.put F.PWRP_STAT_SUPPL 0).bump F.PWRP_CNT_HANDOVERS
  let s := { s with pp := { s.pp with src := .off, bat := .on, probe := none } }
  (s.raise 9 2 0).wakeBy 4

/-- V_SRC has been below SRC_UV for `held` cycles: after 200 ticks the source is lost (R380, R383, R384). -/
def State.sourceLost (x : PathSample) (held : Nat) (s : State) : State :=
  s.ppStep x (fun s =>
    if !(decide (200 ≤ held) && decide (x.vsrc < 100 * (s.get F.PWRP_SW_SRC_UV : Nat)) && s.on F.PWRP_STAT_SRC_GOOD) then s
    else
      let s := s.put F.PWRP_STAT_SRC_GOOD 0
      let s := { s with pp := { s.pp with goodSince := none } }
      let p := s.path
      if p == ppSource then
        if s.on F.PWRP_STAT_AVAIL then s.handOver else { s with pp := { s.pp with src := .off } }
      else if p == ppShip then { s with pp := { s.pp with src := .off } }
      else if p == ppHandback then
        let s := s.ppGo ppReserve
        { s with pp := { s.pp with src := .off, bat := .on } }
      else s)

/-- V_SRC reaches SRC_UV + SRC_HYS (R380). -/
def State.sourceGood (x : PathSample) (s : State) : State :=
  s.ppStep x (fun s =>
    if x.vsrc < 100 * ((s.get F.PWRP_SW_SRC_UV : Nat) + (s.get F.PWRP_SW_SRC_HYS : Nat)) then s
    else
      let s := s.put F.PWRP_STAT_SRC_GOOD 1
      let p := s.pp
      let ramp := (s.path == ppSource || s.path == ppShip) && p.src == .off
      { s with pp := { p with goodSince := some (p.goodSince.getD s.now), src := if ramp then .ramp else p.src } })

/-- The battery gate reaches VGS_FULL (R383). -/
def State.handoverComplete (x : PathSample) (s : State) : State :=
  s.ppStep x (fun s =>
    if s.path == ppHandover then
      let s := s.ppGo ppReserve
      { s with pp := { s.pp with handDone := s.now } }
    else s)

/-- First cycle at which the source is qualified in Reserve (R384). -/
def State.qualifiedDue (s : State) : Option Nat :=
  if s.path == ppReserve && s.on F.PWRP_STAT_SRC_GOOD then
    s.pp.goodSince.map (fun g => max g s.pp.handDone + 5000000)
  else none

/-- The source is qualified: Hand-back (R384). -/
def State.sourceQualified (x : PathSample) (s : State) : State :=
  s.ppStep x (fun s => match s.qualifiedDue with
    | some q =>
      if q ≤ s.now then
        let s := s.ppGo ppHandback
        { s with pp := { s.pp with src := .ramp, bat := .diode, backAt := some s.now } }
      else s
    | none => s)

/-- The source gate reaches VGS_FULL: Hand-back ends in Source (R384); in Source and Ship the ramp ends. -/
def State.handbackComplete (x : PathSample) (s : State) : State :=
  s.ppStep x (fun s =>
    if s.pp.src != .ramp then s
    else
      let s := { s with pp := { s.pp with src := .on } }
      if s.path == ppHandback then ((s.ppGo ppSource).put F.PWRP_CAUSE_HANDBACK 1) else s)

/-- I_SRC below −0.5 A blocks the source switch (R378). -/
def State.sourceBlock (x : PathSample) (s : State) : State :=
  s.ppStep x (fun s =>
    if decide (x.isrc < -500) && (s.pp.src == .on || s.pp.src == .limit || s.pp.src == .ramp) then
      { s with pp := { s.pp with src := .blocked } }
    else s)

/-- V_SRC above V_SYS + 50 mV: the source switch leaves Blocked for Ramp (R378). -/
def State.sourceUnblock (x : PathSample) (s : State) : State :=
  s.ppStep x (fun s =>
    if decide (x.vsrc > x.vsys + 50) && s.pp.src == .blocked then { s with pp := { s.pp with src := .ramp } } else s)

/-- V_BAT has been below NCELL × VCUT for `held` cycles: after 10 ms the pack is depleted in Reserve (R385), in the tick in which
the source is qualified too (R398). -/
def State.deplete (x : PathSample) (held : Nat) (s : State) : State :=
  s.ppStep x (fun s =>
    if decide (1000000 ≤ held) && (s.path == ppReserve || (s.path == ppHandback && s.pp.backAt == some s.now)) && decide (x.vbat < s.ncell * (10 * s.get F.PWRP_VCELL_VCUT : Nat)) then
      let s := (((s.ppGo ppSource).put F.PWRP_STAT_DEPLETED 1).put F.PWRP_CAUSE_DEPLETE 1).put F.PWRP_STAT_AVAIL 0
      { s with pp := { s.pp with bat := .off, src := if s.on F.PWRP_STAT_SRC_GOOD then .ramp else .off } }
    else s)

/-- I_BAT has been below −0.1 A for `held` cycles: after 1 ms in Source the path is supplementing (R382). -/
def State.supplementStart (x : PathSample) (held : Nat) (s : State) : State :=
  s.ppStep x (fun s =>
    if decide (100000 ≤ held) && s.path == ppSource && decide (x.ibat < -100) && !s.on F.PWRP_STAT_SUPPL then
      ((s.put F.PWRP_STAT_SUPPL 1).put F.PWRP_CAUSE_SUPPL 1).raise 9 6 0
    else s)

/-- I_BAT has been at or above −0.1 A for `held` cycles: after 1 ms supplementing ends (R382). -/
def State.supplementStop (x : PathSample) (held : Nat) (s : State) : State :=
  s.ppStep x (fun s => if decide (100000 ≤ held) && decide (x.ibat ≥ -100) then s.put F.PWRP_STAT_SUPPL 0 else s)

/-- Ship ends (R395). -/
def State.shipExit (s : State) : State :=
  if s.pp.fitted && s.path == ppShip then (((s.ppGo ppSource).put F.PWRP_CAUSE_SHIP_EXIT 1).showAvail).chgEval else s

/-- A write of PWRP_CTRL.SHIP by a party (R395). -/
def State.shipCmd (p : Party) (s : State) : State :=
  let st := s.path
  if !s.pp.fitted then s
  else if st == ppSource then
    let s := ((s.ppGo ppShip).chgOff.put F.PWRP_STAT_SUPPL 0).put F.PWRP_STAT_AVAIL 0
    { s with pp := { s.pp with bat := .off, src := if s.pp.src == .limit then .on else s.pp.src } }
  else if st == ppHandover || st == ppReserve || st == ppHandback then s.notice p F.PWRP_CTRL.base
  else s

/-- CHG_GO (R390): from Qualify into Fast, or restart from Done. -/
def State.chgGoCmd (s : State) : State :=
  if s.chg == chgDone || s.chg == chgQualify then
    let s := if s.chg == chgDone then s.chgToQualify false else s
    { s with pp := { s.pp with chgGo := true } }.chgEval
  else s

/-- A granted write of PWRP_CTRL whose CHG_EN is stored already. -/
def State.ppCtrl (p : Party) (w : Word) (s : State) : State :=
  let s := s.chgEval
  let s := if bitOf w 31 then s.shipCmd p else s
  let s := if bitOf w 30 then s.shipExit else s
  if bitOf w 29 then s.chgGoCmd else s

/-- A granted write of PWRP_CFG: the charger returns to Qualify with its timers restarted (R390, R398). -/
def State.ppCfg (s : State) : State :=
  let c := s.chg
  if s.charging || c == chgQualify || c == chgDone then (s.chgToQualify false).showAvail.chgEval else s.showAvail

/-- Did a low of SHIP# that is `held` ms long now begin after the last off-cycle? SHIP# is ignored during one, and a button still
held at its end starts nothing further (R396). -/
def State.shipCounts (s : State) (held : Nat) : Bool := s.path != ppOff && decide (s.pp.offEnd + 100000 * held ≤ s.now ∨ s.pp.offEnd = 0)

/-- SHIP# is released after `held` ms: a press of at least 100 ms and less than 8 s ends Ship (R395). A low registers after
20 ms, and wakes a resting device (R396, R430). -/
def State.shipPress (held : Nat) (s : State) : State :=
  if !s.pp.fitted || !s.shipCounts held || decide (held < 20) then s
  else (if 100 ≤ held ∧ held < 8000 then s.shipExit else s).wakeBy 5

/-- SHIP# has been held low for 8 s (R396): the path's part. -/
def State.offCycleStart (s : State) : State :=
  let s := (s.chgToIdle.ppGo ppOff).put F.PWRP_STAT_SUPPL 0
  let s := s.put F.PWRP_STAT_AVAIL 0
  { s with pp := { s.pp with src := .off, bat := .off, probe := none, offEnd := s.now + 200000000 } }

/-- The off-cycle ends (R396): the battery switch enters Diode, the source switch ramps if the source is good. -/
def State.offCycleEnd (s : State) : State :=
  if s.path != ppOff then s
  else
    let s := s.ppGo ppSource
    { s with pp := { s.pp with bat := .diode, src := if s.on F.PWRP_STAT_SRC_GOOD then .ramp else .off } }.showAvail

/-- The power path is fitted or not, as CELL_MAP byte 163 gives (R44). The cell's switches, source judgement and state stand
through a reload, in which only the charger is off (R379, R381); a path never fitted before starts in Source. -/
def State.ppFit (on : Bool) (s : State) : State :=
  if on == s.pp.fitted then s
  else if on then { s with pp := { s.pp with fitted := true } }.showAvail.chgEval
  else { s.chgOff with pp := { s.chgOff.pp with fitted := false } }

/-- What follows from a changed word of the PWRP block: PWRP_CFG restarts the charger; availability, limit and conditions are judged
anew (R382, R386, R390, R391). -/
def State.pwrpStored (a : Nat) (s : State) : State :=
  if a = F.PWRP_CFG.base then s.ppCfg
  else if F.PWRP_CFG.base < a ∧ a ≤ F.PWRP_PTH.base then s.showAvail.chgEval else s

end Sys2Proof.Machine
end

