-- ==== Sys2Proof/Machine/Keep.lean ====
section
/-! DEFINITION. The keep domain (chapter 14): calendar, commits, alarm, keep memory, switch-over and keep reset. -/

namespace Sys2Proof.Machine

/-! ### The calendar (R409, R410) -/

/-- Days before year 2000 + `y`, counted from 2000-01-01. -/
def daysBefore (y : Nat) : Nat := 365 * y + (y + 3) / 4 - (y + 99) / 100 + (y + 399) / 400

/-- Is year 2000 + `y` a leap year? -/
def leapYear (y : Nat) : Bool := (y % 4 == 0 && y % 100 != 0) || y % 400 == 0

/-- Length of month `m` (1 to 12) of year 2000 + `y`. -/
def monthLen (y m : Nat) : Nat :=
  if m = 2 then (if leapYear y then 29 else 28)
  else if m = 4 ∨ m = 6 ∨ m = 9 ∨ m = 11 then 30 else 31

/-- Days before month `m` of year 2000 + `y`. -/
def monthBefore (y m : Nat) : Nat := ((List.range (m - 1)).map (fun i => monthLen y (i + 1))).sum

/-- Seconds of the 400 years. -/
def calSpan : Nat := 146097 * 86400

/-- A date and time of the calendar. -/
structure CalTime where
  year : Nat
  month : Nat
  day : Nat
  hour : Nat
  min : Nat
  sec : Nat
deriving DecidableEq, Repr

/-- Seconds from 2000-01-01 00:00:00. -/
def CalTime.seconds (c : CalTime) : Nat :=
  (daysBefore c.year + monthBefore c.year c.month + (c.day - 1)) * 86400 + 3600 * c.hour + 60 * c.min + c.sec

/-- Month and day of a day of the year. -/
def monthDay (y d : Nat) : Nat × Nat :=
  let m := ((List.range 12).find? (fun i => d < monthBefore y (i + 2))).getD 11 + 1
  (m, d - monthBefore y m + 1)

/-- The date and time of a number of seconds. -/
def calOf (t : Nat) : CalTime :=
  let days := t / 86400
  let r := t % 86400
  let y0 := min 399 (days / 365)
  let y := if days < daysBefore y0 then y0 - 1 else y0
  let md := monthDay y (days - daysBefore y)
  ⟨y, md.1, md.2, r / 3600, r / 60 % 60, r % 60⟩

/-- Weekday of a number of seconds: 0 Sunday to 6 Saturday; day 0 is a Saturday. -/
def weekday (t : Nat) : Nat := (t / 86400 + 6) % 7

/-- The checks of R411. -/
def calOk (c : CalTime) : Bool :=
  decide (c.year ≤ 399) && decide (1 ≤ c.month ∧ c.month ≤ 12) && decide (1 ≤ c.day ∧ c.day ≤ monthLen c.year c.month) &&
  decide (c.hour ≤ 23) && decide (c.min ≤ 59) && decide (c.sec ≤ 59)

/-- The date and time of a pair of words in the layout of R421. -/
def calWords (d t : Word) : CalTime :=
  ⟨bitsOf d 16 9, bitsOf d 8 4, bitsOf d 0 5, bitsOf t 12 5, bitsOf t 6 6, bitsOf t 0 6⟩

/-- The calendar in seconds. -/
def State.calSec (s : State) : Nat := (calWords (s.reg F.KEEP_DATE.base) (s.reg F.KEEP_TIME.base)).seconds

/-- KEEP_ALARM in seconds. -/
def State.alarmSec (s : State) : Nat := (calWords (s.reg F.KEEP_ALARM_DATE.base) (s.reg F.KEEP_ALARM_TIME.base)).seconds

/-- Date word and time word, without SUBSEC, of a number of seconds. -/
def calDateWord (t : Nat) : Word :=
  let c := calOf t
  BitVec.ofNat 32 (c.year * 65536 + weekday t * 4096 + c.month * 256 + c.day)
def calTimeWord (t sub : Nat) : Word :=
  let c := calOf t
  BitVec.ofNat 32 (sub * 131072 + c.hour * 4096 + c.min * 64 + c.sec)

/-- The calendar is put to a second and a sub-second count; a change of the second to the alarm's sets ALARM (R417). -/
def State.calPut (t sub : Nat) (s : State) : State :=
  let old := s.calSec
  let s := (s.setReg F.KEEP_DATE.base (calDateWord t)).setReg F.KEEP_TIME.base (calTimeWord t sub)
  if t ≠ old ∧ t = s.alarmSec ∧ s.on F.KEEP_CFG_ALARM_EN = true ∧ s.on F.KEEP_STAT_TIME_VALID = true then
    (s.put F.KEEP_STAT_ALARM 1).wakeBy 3
  else s

/-- The calendar moves by a number of seconds, wrapping (R410). -/
def State.calAdd (d : Nat) (sub : Nat) (s : State) : State :=
  let t := s.calSec + d
  let s := if calSpan ≤ t then s.put F.KEEP_STAT_YEAR_WRAP 1 else s
  s.calPut (t % calSpan) sub

/-! ### Keep edges (R406, R408) -/

/-- Sub-second count. -/
def State.subsec (s : State) : Nat := s.get F.KEEP_TIME_SUBSEC

/-- TRIM periods are added to the sub-second count (R408). Below 0 the addition borrows from the second, and the second so
entered again can be the alarm's (DEDUCED); before the calendar's first second there is nothing to borrow from and the
count stays 0 (DESIGN CHOICE). -/
def State.trimAdd (s : State) : State :=
  let z : Int := (s.subsec : Int) + s.getS F.KEEP_CFG_TRIM
  if z < 0 then
    if s.calSec = 0 then s.put F.KEEP_TIME_SUBSEC 0 else s.calPut (s.calSec - 1) (z + 32768).toNat
  else if z < 32768 then s.put F.KEEP_TIME_SUBSEC z.toNat
  else s.calAdd 1 (z.toNat - 32768)

/-- `k` keep periods pass, none of which but the last carries the second or completes a multiple of 2^20. -/
def State.keepRun (k : Nat) (s : State) : State :=
  let sub := s.subsec + k
  let p := s.keep.periods + k
  let s := { s with keep := { s.keep with periods := p % 2 ^ 20 } }
  let s := if sub < 32768 then s.put F.KEEP_TIME_SUBSEC sub else s.calAdd 1 (sub - 32768)
  if p % 2 ^ 20 = 0 ∧ 0 < k then s.trimAdd else s

/-- Does the calendar count: the crystal runs and no keep reset stands? -/
def State.keepCounts (s : State) : Bool := s.on F.KEEP_STAT_XTAL_OK && !s.keep.inReset

/-- Periods to the next second, and to the next multiple of 2^20. -/
def State.toSecond (s : State) : Nat := 32768 - s.subsec
def State.toMultiple (s : State) : Nat := 2 ^ 20 - s.keep.periods % 2 ^ 20

/-- Keep periods pass until the second has changed by a carry, trimming on the way (R408, R409). -/
def State.calendarSecond (s : State) : State :=
  if !s.keepCounts then s
  else if s.toMultiple < s.toSecond then
    let sec := s.calSec
    let s := s.keepRun s.toMultiple
    if s.calSec = sec then s.keepRun s.toSecond else s
  else s.keepRun s.toSecond

/-- Keep periods pass until the next multiple of 2^20 is complete: at most `fuel` seconds lie before it. -/
def State.trimRun : Nat → State → State
  | 0, s => s
  | fuel + 1, s =>
    if s.toMultiple ≤ s.toSecond then s.keepRun s.toMultiple else State.trimRun fuel (s.keepRun s.toSecond)

/-- TRIM is added at the next multiple of 2^20 periods, 32 s after the one before (R408). -/
def State.trimNext (s : State) : State := if s.keepCounts then s.trimRun 40 else s

/-! ### Commits (R411–R416) -/

/-- The result of a party's last keep command. -/
def State.keepRes (p result : Nat) (s : State) : State := s.put (F.KEEP_CMD_RES_RESULT.bk p) result

/-- A date or summer-time change is rejected (R411, R412, R419). -/
def State.keepReject (p : Nat) (flag : Fld) (s : State) : State :=
  ((s.put flag 1).keepRes p 3).raise 10 3 0

/-- A commit is applied whole (R411–R413, R416, R417). -/
def State.keepApply (c : KeepCommit) (s : State) : State :=
  match c with
  | .setTime p d t =>
    let c := calWords d t
    if !calOk c then s.keepReject p F.KEEP_STAT_DATE_REJECT
    else
      let s := (s.put F.KEEP_STAT_TIME_VALID 1).put F.KEEP_STAT_DST (bitsOf d 31 1)
      (s.calPut c.seconds 0).keepRes p 2
  | .hourAdd p =>
    if s.on F.KEEP_STAT_TIME_VALID && !s.on F.KEEP_STAT_DST then
      ((s.put F.KEEP_STAT_DST 1).calAdd 3600 s.subsec).keepRes p 2
    else s.keepReject p F.KEEP_STAT_DST_REJECT
  | .hourSub p =>
    if s.on F.KEEP_STAT_TIME_VALID && s.on F.KEEP_STAT_DST && decide (3600 ≤ s.calSec) then
      ((s.put F.KEEP_STAT_DST 0).calPut (s.calSec - 3600) s.subsec).keepRes p 2
    else s.keepReject p F.KEEP_STAT_DST_REJECT
  | .mem p lo hi data =>
    let m := lo.toNat + 2 ^ 32 * hi.toNat
    let s := (List.range 16).foldl (fun s j =>
      let a := F.KEEP_MEM.addr j
      let w := (List.range 4).foldl (fun w b =>
        if m.testBit (4 * j + b) then withBits w (8 * b) 8 (bitsOf (data.getD j 0) (8 * b) 8) else w) (s.reg a)
      s.setReg a w) s
    (s.put F.KEEP_STAT_MEM_VALID 1).keepRes p 2
  | .alarm p d t =>
    let c := calWords d t
    if !calOk c then s.keepReject p F.KEEP_STAT_DATE_REJECT
    else ((s.setReg F.KEEP_ALARM_DATE.base (calDateWord c.seconds)).setReg F.KEEP_ALARM_TIME.base
      (calTimeWord c.seconds 0)).keepRes p 2
  | .cfg w => s.setReg F.KEEP_CFG.base (w &&& 0xF00000FF)
  | .clear w => s.setReg F.KEEP_STAT.base (s.reg F.KEEP_STAT.base &&& ~~~ (w &&& 0x1FC))
  | .byte b v =>
    let a := F.KEEP_MEM.addr (b / 4)
    (s.setReg a (withBits (s.reg a) (8 * (b % 4)) 8 v)).put F.KEEP_STAT_MEM_VALID 1
  | .trim t => s.put F.KEEP_CFG_TRIM t

/-- KEEP_STAT.QUEUE (R413). -/
def State.showQueue (s : State) : State := s.put F.KEEP_STAT_QUEUE s.keep.queue.length

/-- A commit that was marked before the queue was lost is applied (R414). After a reset of the main domain it reports to no
party: KEEP_CMD_RES has returned to its reset value since (R421; DEDUCED). Entry to rest keeps the registers (R424), and the
result then is reported as ever. -/
def State.keepApplyHeld (c : KeepCommit) (s : State) : State :=
  if s.keep.heldSilent then
    (List.range 14).foldl (fun t p => t.setReg (F.KEEP_CMD_RES.bk p).base (s.reg (F.KEEP_CMD_RES.bk p).base)) (s.keepApply c)
  else s.keepApply c

/-- A keep edge, of the crystal or, while it is stopped, of the RC oscillator (R406): the calendar counts and is trimmed
first, then the commit at the head is applied (R413, R414, R420). -/
def State.keepEdge (s : State) : State :=
  if s.keep.inReset then s
  else
    let s := if s.keepCounts then s.keepRun 1 else s
    match s.keep.held with
    | some c => { s with keep := { s.keep with held := none } }.keepApplyHeld c
    | none => match s.keep.queue with
      | [] => s
      | c :: q => ({ s with keep := { s.keep with queue := q } }.showQueue).keepApply c

/-- A commit is queued; none where the queue is full (R413). -/
def State.keepQueue (c : KeepCommit) (s : State) : Option State :=
  if 8 ≤ s.keep.queue.length then none
  else some ({ s with keep := { s.keep with queue := s.keep.queue ++ [c] } }.showQueue)

/-- The main domain resets or rests: the queue is lost. Whether the head had been marked in the holding register is
free; a marked commit is still applied (R414). -/
def State.keepLose (s : State) : State :=
  let kept := match s.keep.held with
    | some c => some c
    | none => if Config.freeBit s.free then s.keep.queue.head? else none
  ({ s with keep := { s.keep with queue := [], held := kept } }.showQueue).draw

/-- KEEP_CMD (R411–R417): a party's command takes its own copies at grant. Reserved operations are refused before. -/
def State.keepCmd (p : Party) (op : Nat) (s : State) : State :=
  let k := p.code
  let date := s.reg (F.KEEP_SET_DATE.bk k).base
  let time := s.reg (F.KEEP_SET_TIME.bk k).base
  let c : KeepCommit :=
    if op = 1 then .setTime k date time
    else if op = 2 then .hourAdd k
    else if op = 3 then .hourSub k
    else if op = 4 then .mem k (s.reg ((F.KEEP_MEM_MASK.bk k).addr 0)) (s.reg ((F.KEEP_MEM_MASK.bk k).addr 1))
      ((List.range 16).map (fun j => s.reg ((F.KEEP_MEMW.bk k).addr j)))
    else .alarm k date time
  let s := s.put (F.KEEP_CMD_RES_OP.bk k) op
  match s.keepQueue c with
  | none => s.keepRes k 4
  | some s => s.keepRes k 1

/-- A write of KEEP_CFG, or of 1 to a W1C bit of KEEP_STAT (R413). -/
def State.keepWrite (p : Party) (c : KeepCommit) (s : State) : State :=
  match s.keepQueue c with
  | none => s.keepRes p.code 4
  | some s => s

/-- A write of a keep-memory point (R413, R151); `a` is the point-window word. -/
def State.keepByte (p : Party) (a b v : Nat) (s : State) : State :=
  match s.keepQueue (.byte b v) with
  | none => s.notice p a
  | some s => s

/-! ### The keep clock against the escapement (R407, R408) -/

/-- Is the keep clock measured? -/
def State.keepMeasured (s : State) : Bool := s.get F.ESC_STAT_SYNC == 2 || s.get F.ESC_STAT_SYNC == 4

/-- A window of 32,768 keep periods ends with its count of ticks; a window that ends while SYNC reads neither synced nor
manager counts for nothing (R407). -/
def State.keepWindow (n : Nat) (s : State) : State :=
  if s.keepMeasured && n != 0 then { s with keep := { s.keep with window := some n } } else s

/-- ERR of a window of `n` ticks, in 0.01 ppm. Its last place is free where no rule gives the rounding: the example of R408, by
which +2,000.04 reads 2,000, leaves a positive error nothing but the lower value below half a place. -/
def State.keepErr (s : State) (n : Nat) : Int :=
  let e := (100000000 - (n : Int)) * 100000000
  if 0 ≤ e ∧ 2 * (e % n) < n then e / n else s.fdiv 0 e n

/-- The beat boundary: ERR takes the error of the last completed window, held at the ends of its 24 bits, and under
TRIM_AUTO the device commits TRIM, computed from the exact error; where the queue is full that commit is lost (DESIGN CHOICE).
The rounding of ERR's last place is free. -/
def State.keepBeat (s : State) : State :=
  if !s.keepMeasured then s
  else
    let s := match s.keep.window with
      | none => s
      | some n => ((s.putS F.KEEP_CAL_ERR (clampS 24 (s.keepErr n))).put
          F.KEEP_CAL_VALID 1).draw
    match s.keep.window with
    | some n =>
      if s.on F.KEEP_CFG_TRIM_AUTO && s.on F.KEEP_CAL_VALID then
        let t := clampI (-127) 127 (-(roundDiv ((100000000 - (n : Int)) * 2 ^ 20) n))
        (s.keepQueue (.trim (ofS 8 t))).getD s
      else s
    | none => s

/-- VALID falls once SYNC has left synced and manager, and a window completed before then serves no later boundary
(R407; DEDUCED). -/
def State.keepUnsync (s : State) : State :=
  if s.keepMeasured then s
  else { s with keep := { s.keep with window := none } }.put F.KEEP_CAL_VALID 0

/-! ### Supply, crystal and reset (R403–R406, R419) -/

/-- Does the main branch charge VCELL through 1.5 kΩ: CELL_CHG is 1 and the main branch is present, as it is while VCC5
stands above its threshold (R401, R402)? -/
def State.cellCharging (s : State) : Bool :=
  s.on F.KEEP_CFG_CELL_CHG && s.on F.SYS_DOM_STAT_VDDA_OK

/-- The cell branch feeds VKEEP, or not any more (R403). -/
def State.onCell (b : Bool) (s : State) : State := (s.putB F.KEEP_STAT_ON_CELL b).putB F.SYS_DOM_STAT_KEEP_ON_CELL b

/-- A switch-over (R403): counted, and the first after a keep reset stamped at once with the calendar as it reads. While a
keep reset stands the live levels follow, and the count and the stamp stay at their reset values (R404; DEDUCED). -/
def State.switchOver (s : State) : State :=
  if s.on F.KEEP_STAT_ON_CELL then s
  else if s.keep.inReset then s.onCell true
  else
    let s := (s.onCell true).bump F.KEEP_SWCNT_COUNT
    if s.on F.KEEP_SWSTAMP_DATE_VALID then s
    else
      let s := s.setReg F.KEEP_SWSTAMP_DATE.base
        (withBits (withBits (s.reg F.KEEP_DATE.base) 31 1 1) 30 1 (s.get F.KEEP_STAT_TIME_VALID))
      let s := s.setReg F.KEEP_SWSTAMP_TIME.base (s.reg F.KEEP_TIME.base)
      (s.put F.KEEP_STAT_SWITCH 1).raise 10 1 0

/-- The main branch takes VKEEP back. -/
def State.mainBack (s : State) : State := s.onCell false

/-- The words of the keep domain: KEEP_STAT to KEEP_TIME, the alarm, the stamp, the count and the memory. -/
def keepWords : List Nat :=
  [0x5801, 0x5802, 0x5803, 0x5808, 0x5809, 0x580B, 0x580C, 0x580D] ++ (List.range 16).map (fun j => 0x5810 + j)

/-- The keep reset detector trips (R404, R405). -/
def State.keepReset (s : State) : State :=
  let s := keepWords.foldl (fun s a => s.setReg a (regReset a)) s
  let live := s.reg F.KEEP_STAT.base &&& 0x1F800000
  let s := s.setReg F.KEEP_STAT.base (live ||| 0x100)
  let s := { s with keep := { s.keep with held := none, periods := 0, inReset := true } }
  s.raise 10 2 0

/-- VKEEP above 1.60 V (R404). -/
def State.keepRelease (s : State) : State := { s with keep := { s.keep with inReset := false } }

/-- No crystal edge for 1 ms (R406). -/
def State.xtalStop (s : State) : State :=
  if !s.on F.KEEP_STAT_XTAL_OK then s
  else
    let s := (s.put F.KEEP_STAT_XTAL_OK 0).put F.SYS_CLK_STAT_KEEP_XTAL_OK 0
    ((s.put F.KEEP_STAT_OSC_STOP 1).put F.KEEP_STAT_TIME_VALID 0).raiseReg 10 4 0 F.SYS_CLK_STAT

/-- The crystal runs again (R406). -/
def State.xtalStart (s : State) : State := (s.put F.KEEP_STAT_XTAL_OK 1).put F.SYS_CLK_STAT_KEEP_XTAL_OK 1

/-- The flags that stand are recorded when the fault collector starts (R419). -/
def State.keepFlags (s : State) : State :=
  let s := if s.on F.KEEP_STAT_SWITCH then s.raise 10 1 0 else s
  let s := if s.on F.KEEP_STAT_KRST then s.raise 10 2 0 else s
  if s.on F.KEEP_STAT_OSC_STOP then s.raiseReg 10 4 0 F.SYS_CLK_STAT else s

/-- PWRON (R418). -/
def State.pwron (s : State) : Bool :=
  !s.keep.inReset && ((s.on F.KEEP_STAT_ALARM && s.on F.KEEP_CFG_ALARM_EN) || s.on F.KEEP_CFG_PWRON_FORCE)

end Sys2Proof.Machine
end

