-- ==== Sys2Proof/Machine/Seq.lean ====
section
/-! DEFINITION. Sequencing and supervision of rails (chapter 9): targets, the rail graph and its levels, rail states,
margin pins, summaries and mirrors. -/

namespace Sys2Proof.Machine

/-! ### Rail states (R283) -/

def rlUnused : Nat := 0
def rlDown : Nat := 1
def rlWait : Nat := 2
def rlDelay : Nat := 3
def rlRamp : Nat := 4
def rlQualify : Nat := 5
def rlGood : Nat := 6
def rlRetry : Nat := 7
def rlLower : Nat := 8
def rlStop : Nat := 9
def rlUnwind : Nat := 10
def rlCut : Nat := 11
def rlFailed : Nat := 12

/-- The enabled states. -/
def rlEnabled (st : Nat) : Bool := decide (4 ≤ st ∧ st ≤ 8)

/-- STATE of a rail. -/
def State.rlState (s : State) (n : Nat) : Nat := s.get F.SEQ_RAILn_STAT_STATE n

/-- A rail beside its registers. -/
def State.rl (s : State) (n : Nat) : RailSt := tget s.rail n

/-- Replace a rail. -/
def State.setRl (s : State) (n : Nat) (x : RailSt) : State := { s with rail := tset s.rail n x }

/-- FLAGS, DELAY, TSTABLE, TDEAD, LEAD, MARGIN pin and LD_DELAY of a rail record (R46), times in ticks. -/
def State.rlFlag (s : State) (n b : Nat) : Bool := (s.railByte n 2).testBit b
def State.rlDelayT (s : State) (n : Nat) : Nat := 1000 * s.railU16 n 20
def State.rlStableT (s : State) (n : Nat) : Nat := 100 * s.railU16 n 22
def State.rlDeadT (s : State) (n : Nat) : Nat := 10000 * s.railU16 n 24
def State.rlLeadT (s : State) (n : Nat) : Nat := 100 * s.railU16 n 26
def State.rlMrg (s : State) (n : Nat) : Nat := s.railByte n 28
def State.rlLdT (s : State) (n : Nat) : Nat := 1000 * s.railU16 n 30

/-- The packed points of a rail's parents. -/
def State.parents (s : State) (n : Nat) : List Nat :=
  (List.range (s.railByte n 3)).map (fun i => leAt (tget s.railGraph n) (4 + 4 * i) 4 % 2 ^ 17)

/-- DEVICE_NO of the loaded image. -/
def State.imageDev (s : State) : Nat := byteAt s.hdr 0x18

/-- Is a parent local (R279)? -/
def State.parentLocal (s : State) (p : Nat) : Bool :=
  p / 2048 == s.get F.HIER_STAT_DEV || (p / 2048 == 0 && s.imageDev == 0xFF)

/-- The rail that a point of this device names. -/
def State.railOfPoint (s : State) (p : Nat) : Option Nat :=
  let r := s.pointRec (p % 2048)
  if r.1 = 1 ∧ r.2.1 < 64 then some r.2.1 else none

/-- A level of point `p` in the mirror entry of device `d`; `lvl` 0 GOOD, 1 DEMAND, 2 UP (R305). -/
def State.mirrorBit (s : State) (d p lvl : Nat) : Bool :=
  if p < 64 then bitOf (s.reg ((F.SEQ_MIR.addr d) + 2 * lvl + p / 32)) (p % 32) else false

/-- Is a mirror entry fresh? -/
def State.mirrorFresh (s : State) (d : Nat) : Bool := !s.maskBit F.SEQ_MIR_STALE d

/-- A level of a parent at the end of the previous tick. -/
def State.parentLevel (s : State) (f : Fld) (lvl p : Nat) : Bool :=
  if s.parentLocal p then match s.railOfPoint p with
    | some r => s.on f r
    | none => false
  else s.mirrorBit (p / 2048) (p % 2048) lvl

/-- A parent is GOOD for a start: a remote one only while its mirror entry is fresh (R285). -/
def State.parentStarts (s : State) (p : Nat) : Bool :=
  s.parentLevel F.SEQ_RAILn_STAT_GOOD 0 p && (s.parentLocal p || s.mirrorFresh (p / 2048))

/-! ### Targets (R276–R278) -/

/-- Is PWRGDk at its good level? -/
def State.pairGood (s : State) (k : Nat) : Bool := s.pwrgd.getLsbD k != (s.cell (48 + k)).testBit 3

/-- The monitor cells routed to a rail. -/
def State.railMons (s : State) (n : Nat) : List Nat :=
  (List.range 64).filter (fun c => s.monUsed c && s.get F.MONn_ROUTE_RAIL c == n)

/-- Power-good of a rail in this tick (R277; for the rail of AVAIL_RAIL also R386). -/
def State.railPg (s : State) (n : Nat) : Bool :=
  let t := s.railTarget n
  let native := match s.railKind n with
    | 1 => s.on F.LOOPn_STAT_PG t
    | 2 => s.pairGood t
    | 3 => s.on F.CHn_STAT_PG t || s.chState t == chStandby
    | _ => false
  native && !(s.pp.fitted && s.get F.PWRP_SW_AVAIL_RAIL == n && !s.on F.PWRP_STAT_AVAIL) &&
    (s.railMons n).all (fun c => !s.on F.MONn_STAT_UV c && !s.on F.MONn_STAT_OV c)

/-- The object a rail's target is for a hold. -/
def State.railObj (s : State) (n : Nat) : HoldObj :=
  match s.railKind n with
  | 1 => .loop (s.railTarget n)
  | 2 => .pair (s.railTarget n)
  | _ => .chan (s.railTarget n)

/-- Is the rail's target unavailable (R278)? -/
def State.railBlocked (s : State) (n : Nat) : Bool :=
  let t := s.railTarget n
  s.held (s.railObj n) ||
  match s.railKind n with
  | 1 => s.on F.LOOPn_TSTAT_SC t || s.on F.LOOPn_TSTAT_STG t
  | 3 => s.chState t == chLatched
  | _ => false

/-- Has the withdrawn target of a rail stopped (R276)? -/
def State.railStopped (s : State) (n : Nat) : Bool :=
  let t := s.railTarget n
  let x := s.rl n
  match s.railKind n with
  | 1 => !s.loopOn t
  | 2 => (!s.pairGood t && (s.railMons n).all (fun c => s.on F.MONn_STAT_UV c)) ||
      decide (x.withdrawn + 100000 * s.get F.SEQ_RAILn_CFG_STOP_T n ≤ s.now)
  | 3 =>
    let c := s.ch t
    let st := s.chState t
    !chConducts st && !(s.waiting.any (fun a => a.party == .seq && a.addr == F.CHn_CTRL.addr t)) &&
      (decide (c.vout ≤ max 1000 (8 * c.vbus / 100)) ||
        (st == chOff && decide (c.offAt + 500000 ≤ s.now)))
  | _ => true

/-- The sequencer queues an access of rank 4 (R278). -/
def State.seqWrite (s : State) (a : Nat) (w : Word) : State :=
  { s with waiting := s.waiting ++ [{ party := .seq, addr := a, word := some w }] }

/-- The sequencer enables a rail's target. -/
def State.targetEnable (n : Nat) (s : State) : State :=
  let t := s.railTarget n
  let s := (s.bump F.SEQ_RAILn_STATS0_STARTS n)
  let x := { s.rl n with enabled := s.now, reacted := none, failOf := [], noDead := false, badSince := none, took := true }
  match s.railKind n with
  | 1 =>
    let s := s.loopEnable t
    s.setRl n { x with took := s.loopOn t }
  | 2 =>
    { s.setRl n x with pwren := s.pwren ||| BitVec.ofNat 32 (2 ^ t) }
  | _ => (s.setRl n x).seqWrite (F.CHn_CTRL.addr t) 1

/-- The sequencer withdraws a rail's target, with active discharge where the rail has it. -/
def State.targetWithdraw (n : Nat) (s : State) : State :=
  let t := s.railTarget n
  let s := s.setRl n { s.rl n with withdrawn := s.now }
  match s.railKind n with
  | 1 => s.loopWithdraw t (s.rlFlag n 1)
  | 2 => { s with pwren := s.pwren &&& ~~~ (BitVec.ofNat 32 (2 ^ t)) }
  | 3 => if s.held (.chan t) then s else s.seqWrite (F.CHn_CTRL.addr t) 0
  | _ => s

/-- A reaction of the record of a SOURCE withdraws a rail's target directly: the rail fails with CAUSE target stopped (R296). -/
def State.railReact (n src : Nat) (s : State) : State :=
  if rlEnabled (s.rlState n) then s.setRl n { s.rl n with reacted := some src } else s

/-! ### The ramp model and the prediction (R276, R291, R292) -/

/-- Ticks of the ramp of a rail under way, none while it has none: of a loop fixed at its enable, from the first boundary
that gives V_0 on; of a pair its RAMP as it stands; of a channel fixed at the start of Ramp (R276). -/
def State.rampTicks (s : State) (n : Nat) : Option Nat :=
  let t := s.railTarget n
  match s.railKind n with
  | 1 =>
    if (s.lp t).vSense.isNone then none
    else
      let d := ((s.lp t).goal0 - (s.lp t).v0).natAbs
      let k := 32 * max 1 (s.lp t).slew0
      some ((d + k - 1) / k)
  | 2 =>
    let r := s.get F.SEQ_RAILn_CFG_RAMP n
    if r = 0 then none else some (1000 * r)
  | _ =>
    if chConducts (s.chState t) then (s.ch t).rampModel else none

/-- Predicted good tick of a local parent (R292), in fabric cycles; none for one not in Good that has no ramp model (R291). -/
def State.predicted (s : State) (r : Nat) : Option Nat :=
  let x := s.rl r
  let st := s.rlState r
  if st = rlGood then some s.now
  else if st = rlQualify then (s.rampTicks r).map (fun _ => x.since + s.rlStableT r)
  else if st = rlRamp then (s.rampTicks r).map (fun m => x.enabled + m + s.rlStableT r)
  else none

/-- First cycle at which rail `n` may start early with its parents as they stand, none if they do not allow it (R291). -/
def State.earlyDue (s : State) (n : Nat) : Option Nat :=
  let ps := s.parents n
  if !s.rlFlag n 0 || s.rlLeadT n == 0 || ps.all s.parentStarts || ps.isEmpty then none
  else if !ps.all (fun p => s.parentLocal p && match s.railOfPoint p with
      | some r => !s.on F.SEQ_RAILn_STAT_EARLY r && (s.predicted r).isSome
      | none => false) then none
  else
    let m := ps.foldl (fun a p => match s.railOfPoint p with
      | some r => max a ((s.predicted r).getD 0)
      | none => a) 0
    some (m + s.rlDelayT n - s.rlLeadT n)

/-! ### The evaluation (R281–R301) -/

/-- A rail changes state. -/
def State.rlGo (n st : Nat) (s : State) : State :=
  let s := (s.put F.SEQ_RAILn_STAT_STATE st n).put F.SEQ_RAILn_TICK_TICK s.tick n
  (s.setRl n { s.rl n with since := s.now }).trigger 8 n st

/-- A bad interval that ends without failure is counted (R287). -/
def State.endBad (n : Nat) (s : State) : State :=
  match (s.rl n).badSince with
  | some _ => (s.bump F.SEQ_RAILn_STATS2_CHATTER n).setRl n { s.rl n with badSince := none }
  | none => s

/-- CAUSE codes of SEQ_RAILn_STAT. -/
def rlDeadline : Nat := 1
def rlLost : Nat := 2
def rlTargetStopped : Nat := 3
def rlWasCut : Nat := 4
def rlUnwound : Nat := 5

/-- The SOURCEs of the records that stand for a failure: the rail's own, or, where its target was stopped, the protection's and
the reaction's (R296). -/
def State.failSources (s : State) (n : Nat) (event : Option Nat) : List Nat :=
  let t := s.railTarget n
  match event with
  | some e => [sourceOf 5 e n]
  | none => (s.rl n).reacted.toList ++ match s.railKind n with
    | 1 => (s.lp t).stopped.toList
    | 3 => if s.chState t == chLatched then [sourceOf 3 2 t] else []
    | _ => []

/-- A rail fails (R296). -/
def State.rlFail (n cause : Nat) (event : Option Nat) (s : State) : State :=
  let s := s.setRl n { s.rl n with failOf := s.failSources n event }
  let s := ((s.targetWithdraw n).put F.SEQ_RAILn_STAT_EARLY 0 n).put F.SEQ_RAILn_STAT_CAUSE cause n
  let s := ((s.setRl n { s.rl n with badSince := none, reacted := none }).bump F.SEQ_RAILn_STATS1_FAILS n).rlGo n rlFailed
  match event with
  | some e => s.raiseReg 5 e n F.SEQ_RAILn_STAT n
  | none => s

/-- A rail starts: its target is enabled and it enters Ramp. -/
def State.rlStart (n : Nat) (early : Bool) (s : State) : State :=
  ((s.targetEnable n).putB F.SEQ_RAILn_STAT_EARLY early n).rlGo n rlRamp

/-- Does the record that stands for a rail's failure still stand (R298)? An event not yet processed counts as its
record. -/
def State.failStands (s : State) (n : Nat) : Bool :=
  (s.rl n).failOf.any (fun q => s.recordOf q || s.events.any (fun e => e.source == q))

/-- Is a rail that names this rail as a parent UP: here, or by the hold map on another device (R299)? -/
def State.childUp (s : State) (n : Nat) : Bool :=
  s.usedRails.any (fun c => s.on F.SEQ_RAILn_STAT_UP c &&
    (s.parents c).any (fun p => s.parentLocal p && s.railOfPoint p == some n)) ||
  (List.range 64).any (fun p => s.railOfPoint p == some n && s.maskBit F.SEQ_HOLD p)

/-- The states a parent of an early rail may be in (R294). -/
def earlyParentOk (st : Nat) : Bool := st == rlRamp || st == rlQualify || st == rlGood || st == rlLower

/-- Is the target of an enabled rail stopped by its own protection or by a fault reaction? -/
def State.targetLost (s : State) (n : Nat) : Bool :=
  let x := s.rl n
  let t := s.railTarget n
  x.reacted.isSome || match s.railKind n with
  | 1 => x.took && (s.lp t).stopped.isSome
  | 3 => s.chState t == chLatched
  | _ => false

/-- The state move of rail `n`; `o` is the state at the end of the previous tick, from which parents and children are
read (R282, R301). `dem` is the rail's own DEMAND of this tick. A rail in Good whose channel cools goes to Retry and does not
fail by its lost power-good (R290; DEDUCED, log entry 36). -/
def State.rlMove (o : State) (n : Nat) (dem : Bool) (s : State) : State :=
  let st := s.rlState n
  let x := s.rl n
  let ps := o.parents n
  let pg := s.railPg n
  let early := s.on F.SEQ_RAILn_STAT_EARLY n
  let cooling := s.railKind n == 3 && s.chState (s.railTarget n) == chCooling
  let goods := ps.all (o.parentLevel F.SEQ_RAILn_STAT_GOOD 0)
  let starts := ps.all o.parentStarts
  -- the bad run of Good and Lower, which begins with a good-to-bad transition (R287)
  let bad := if (st == rlGood || st == rlLower) && !pg && x.pgWas then some (x.badSince.getD s.now) else x.badSince
  let lost := match bad with
    | some b => decide (b + 1000 * s.get F.SEQ_RAILn_CFG_LOSS_T n ≤ s.now)
    | none => false
  let superv := (st == rlGood && !cooling) || (st == rlLower && x.fromGood)
  let s := s.setRl n { x with badSince := bad, pgWas := pg }
  let s := if pg && !(superv && lost) then s.endBad n else s
  let dead := (st == rlRamp || st == rlQualify) && !x.noDead && decide (x.enabled + s.rlDeadT n ≤ s.now)
  let badParent := early && ps.any (fun p => match o.railOfPoint p with
    | some r => !earlyParentOk (o.rlState r)
    | none => true)
  if rlEnabled st && s.targetLost n then s.rlFail n rlTargetStopped none
  else if dead then s.rlFail n rlDeadline (some 1)
  else if superv && lost then s.rlFail n rlLost (some (if st == rlLower then 3 else 2))
  else if rlEnabled st && badParent then
    let s := ((s.endBad n).targetWithdraw n).put F.SEQ_RAILn_STAT_EARLY 0 n
    let s := ((s.put F.SEQ_RAILn_STAT_CAUSE rlUnwound n).put F.SEQ_RAILn_STAT_UNWOUND 1 n).bump F.SEQ_RAILn_STATS0_UNWINDS n
    s.rlGo n rlUnwind
  else if rlEnabled st && !early && !goods then
    let s := (s.endBad n).targetWithdraw n
    let s := ((s.put F.SEQ_RAILn_STAT_CAUSE rlWasCut n).put F.SEQ_RAILn_STAT_CUT 1 n).bump F.SEQ_RAILn_STATS1_CUTS n
    s.rlGo n rlCut
  else if !dem && (st == rlRamp || st == rlQualify || st == rlGood || st == rlRetry) then
    (s.setRl n { s.rl n with fromGood := st == rlGood, freeSince := none }).rlGo n rlLower
  else if !dem && (st == rlWait || st == rlDelay) then s.rlGo n rlDown
  else
    let s := if early && starts then s.put F.SEQ_RAILn_STAT_EARLY 0 n else s
    let blocked := s.railBlocked n
    if st == rlDown then (if dem then s.rlGo n rlWait else s)
    else if st == rlWait then
      if starts then
        if s.rlDelayT n ≠ 0 then s.rlGo n rlDelay
        else if blocked then s else s.rlStart n false
      else match o.earlyDue n with
        | some t => if t ≤ s.now && !blocked then s.rlStart n true else s
        | none => s
    else if st == rlDelay then
      if !starts then s.rlGo n rlWait
      else if decide (x.since + s.rlDelayT n ≤ s.now) && !blocked then s.rlStart n false
      else s
    else if st == rlRamp then
      if cooling then s.rlGo n rlRetry else if pg then s.rlGo n rlQualify else s
    else if st == rlQualify then
      if decide (x.since + s.rlStableT n ≤ s.now) then
        let s := s.setRl n { s.rl n with badSince := if pg then none else some s.now }
        (s.put F.SEQ_RAILn_STATS3_WIND_T (min ((s.now - x.enabled) / 100) (2 ^ 32 - 1)) n).rlGo n rlGood
      else if cooling then s.rlGo n rlRetry
      else if !pg then (s.bump F.SEQ_RAILn_STATS2_CHATTER n).rlGo n rlRamp
      else s
    else if st == rlGood then (if cooling then (s.endBad n).rlGo n rlRetry else s)
    else if st == rlRetry then
      if pg && !cooling then (s.setRl n { s.rl n with noDead := true }).rlGo n rlQualify else s
    else if st == rlLower then
      if o.childUp n then s.setRl n { s.rl n with freeSince := none }
      else
        let f := x.freeSince.getD s.now
        let s := s.setRl n { s.rl n with freeSince := some f }
        if f + s.rlLdT n ≤ s.now then (((s.endBad n).put F.SEQ_RAILn_STAT_EARLY 0 n).targetWithdraw n).rlGo n rlStop else s
    else if st == rlStop then (if s.railStopped n then s.rlGo n rlDown else s)
    else if st == rlUnwind || st == rlCut then
      if s.railStopped n then s.rlGo n (if dem then rlWait else rlDown) else s
    else if st == rlFailed then
      if s.railStopped n && !s.failStands n then s.rlGo n (if dem then rlWait else rlDown) else s
    else s

/-- The levels of rail `n` at the end of the tick (R281). -/
def State.rlLevels (n : Nat) (dem : Bool) (s : State) : State :=
  let st := s.rlState n
  let good := (st == rlGood || (st == rlLower && (s.rl n).fromGood)) && !s.on F.SEQ_RAILn_STAT_EARLY n
  let up := rlEnabled st || st == rlStop || st == rlUnwind || st == rlCut || (st == rlFailed && !s.railStopped n)
  (((s.putB F.SEQ_RAILn_STAT_DEMAND dem n).putB F.SEQ_RAILn_STAT_GOOD good n).putB F.SEQ_RAILn_STAT_UP up n).putB
    F.SEQ_RAILn_STAT_TBLK (s.railBlocked n) n

/-- The distinct remote parents of the device, ascending (R306). -/
def State.remoteParents (s : State) : List Nat :=
  let l := s.usedRails.flatMap (fun n => (s.parents n).filter (fun p => !s.parentLocal p))
  sortBy (fun a b => decide (a ≤ b)) l.eraseDups

/-- SEQ_STAT, SEQ_SUM and SEQ_RPAR follow the rails; a word of SEQ_RPAR is in use when a remote parent has its place (R305,
R306, R312). -/
def State.showSeq (s : State) : State :=
  let us := s.usedRails
  let cnt := fun (f : Nat → Bool) => (us.filter f).length
  let st := fun (n : Nat) => s.rlState n
  let s1 := ((s.put F.SEQ_STAT_NUP (cnt (fun n => s.on F.SEQ_RAILn_STAT_UP n))).put F.SEQ_STAT_NGOOD
    (cnt (fun n => s.on F.SEQ_RAILn_STAT_GOOD n))).put F.SEQ_STAT_NFAIL (cnt (fun n => st n == rlFailed))
  let s1 := (s1.putB F.SEQ_STAT_LETDOWN (us.any (fun n => st n == rlLower || st n == rlStop))).putB F.SEQ_STAT_WINDING
    (us.any (fun n => s.on F.SEQ_RAILn_STAT_DEMAND n && decide (2 ≤ st n ∧ st n ≤ 5)))
  let map := fun (f : Fld) (h : Nat) => (List.range 32).foldl (fun a b => match s.railOfPoint (32 * h + b) with
    | some r => if s.railUsed r && s.on f r then a + 2 ^ b else a
    | none => a) 0
  let s2 := (List.range 2).foldl (fun t h =>
    ((t.put (F.SEQ_SUM_V.off h) (map F.SEQ_RAILn_STAT_GOOD h)).put (F.SEQ_SUM_V.off (2 + h))
      (map F.SEQ_RAILn_STAT_DEMAND h)).put (F.SEQ_SUM_V.off (4 + h)) (map F.SEQ_RAILn_STAT_UP h)) s1
  let rp := s.remoteParents.length
  (List.range 8).foldl (fun t j =>
    let w := s.get (F.SEQ_RPAR_POINT.off j)
    let h := decide (j < rp) && us.any (fun n => s.on F.SEQ_RAILn_STAT_UP n && (s.parents n).contains w)
    t.putB (F.SEQ_RPAR_HOLD.off j) h) s2

/-- A margin pin follows its rail: it carries current only in Good and Lower (R304). -/
def State.mrgFollow (n : Nat) (s : State) : State :=
  if s.railKind n ≠ 2 ∨ 8 ≤ s.rlMrg n then s
  else
    let k := s.rlMrg n
    let x := tget s.mrg k
    let act := s.rlState n == rlGood || s.rlState n == rlLower
    let y := if !act then { x with current := none }
      else match x.current with
        | some _ => x
        | none => { current := some 0, due := s.now + 1000 * max 1 (s.get (F.SEQ_MRG_CFG_RATE.off k)) }
    { s with mrg := tset s.mrg k y }

/-- A rail whose EARLY cleared in this tick, while a parent left the states that R294 allows, keeps EARLY: it unwinds, and EARLY
never clears (R301). -/
def State.earlyKept (o : State) (n : Nat) (s : State) : State :=
  let out := (s.parents n).any (fun p => match s.railOfPoint p with
    | some r => s.parentLocal p && !earlyParentOk (s.rlState r)
    | none => false)
  if o.on F.SEQ_RAILn_STAT_EARLY n && !s.on F.SEQ_RAILn_STAT_EARLY n && rlEnabled (s.rlState n) && out then
    (s.put F.SEQ_RAILn_STAT_EARLY 1 n).rlLevels n (s.on F.SEQ_RAILn_STAT_DEMAND n)
  else s

/-- One tick of the sequencer, `o` holding what parents and children held at the end of the tick before (R282). A rail whose
remote parent has no DEMAND in its mirror entry has none, be that parent let down or no rail at all: the device checks
neither, and both read alike (R280, R281, R305; DEDUCED, log entry 36). -/
def State.seqEvalFrom (o s : State) : State :=
  let s := o.usedRails.foldl (fun s n =>
    let dem := s.on F.SEQ_RAILn_CTRL_ON n && (o.parents n).all (o.parentLevel F.SEQ_RAILn_STAT_DEMAND 1)
    ((State.rlMove o n dem s).rlLevels n dem).mrgFollow n) s
  (o.usedRails.foldl (fun s n => State.earlyKept o n s) s).showSeq

/-- One tick of the sequencer (R282). -/
def State.seqEval (s : State) : State := State.seqEvalFrom s s

/-- The sequencer in the tick of image acceptance: no rail has had demand before it. -/
def State.seqFirst (s : State) : State :=
  State.seqEvalFrom (s.usedRails.foldl (fun t n => t.put F.SEQ_RAILn_STAT_DEMAND 0 n) s) s

/-! ### Times -/

/-- The cycle at which a rail's timer ends, for its state. -/
def State.railDelayDue (s : State) (n : Nat) : Option Nat :=
  if s.rlState n == rlDelay then some ((s.rl n).since + s.rlDelayT n) else none
def State.railEarlyDue (s : State) (n : Nat) : Option Nat :=
  if s.rlState n == rlWait then s.earlyDue n else none
def State.railQualifyDue (s : State) (n : Nat) : Option Nat :=
  if s.rlState n == rlQualify then some ((s.rl n).since + s.rlStableT n) else none
def State.railDeadDue (s : State) (n : Nat) : Option Nat :=
  if (s.rlState n == rlRamp || s.rlState n == rlQualify) && !(s.rl n).noDead then some ((s.rl n).enabled + s.rlDeadT n)
  else none
def State.railLostDue (s : State) (n : Nat) : Option Nat :=
  (s.rl n).badSince.map (fun b => b + 1000 * s.get F.SEQ_RAILn_CFG_LOSS_T n)
def State.railLdDue (s : State) (n : Nat) : Option Nat :=
  if s.rlState n == rlLower then (s.rl n).freeSince.map (fun f => f + s.rlLdT n) else none

/-- The cycle at which a withdrawn target counts as stopped by its time limit (R276). -/
def State.railStopDue (s : State) (n : Nat) : Option Nat :=
  let st := s.rlState n
  if st == rlStop || st == rlUnwind || st == rlCut || st == rlFailed then
    match s.railKind n with
    | 2 => some ((s.rl n).withdrawn + 100000 * s.get F.SEQ_RAILn_CFG_STOP_T n)
    | 3 => some ((s.ch (s.railTarget n)).offAt + 500000)
    | _ => none
  else none

/-! ### Margin, mirrors, start -/

/-- A write that covers a rail's MARGIN forwards it to a loop rail, as a rank-4 access to the MARGIN bits (R303). -/
def State.marginForward (n : Nat) (s : State) : State :=
  if s.railKind n = 1 then
    let f := F.LOOPn_TARGET_MARGIN
    { s with waiting := s.waiting ++ [{
        party := .seq, addr := f.addr (s.railTarget n)
        word := some (BitVec.ofNat 32 (s.get F.SEQ_RAILn_CTRL_MARGIN n * 2 ^ f.lo))
        mask := BitVec.ofNat 32 ((2 ^ f.width - 1) * 2 ^ f.lo) }] }
  else s

/-- The rail that uses margin pin `k`. -/
def State.mrgRail (s : State) (k : Nat) : Option Nat :=
  (List.range 64).find? (fun n => s.railKind n == 2 && s.rlMrg n == k)

/-- One step of a margin pin's current toward its value; the next comes no sooner than 10 µs × RATE after it (R304). -/
def State.marginStep (k : Nat) (s : State) : State :=
  let x := tget s.mrg k
  match x.current, s.mrgRail k with
  | some i, some n =>
    let step : Int := s.get (F.SEQ_MRG_CFG_STEP.off k)
    let m := s.getS F.SEQ_RAILn_CTRL_MARGIN n
    let goal := if s.on (F.SEQ_MRG_CFG_INV.off k) then -(m * step) else m * step
    let due := s.now + 1000 * max 1 (s.get (F.SEQ_MRG_CFG_RATE.off k))
    let y : MrgSt := { current := some (approach i goal step), due := due }
    { s with mrg := tset s.mrg k y }
  | _, _ => s

/-- A mirror entry has been written (R305). -/
def State.mirrorFreshen (d : Nat) (s : State) : State :=
  { s.setMaskBit F.SEQ_MIR_STALE d false with mirAt := tset s.mirAt d (some s.now) }

/-- A mirror entry goes stale. -/
def State.mirrorStale (d : Nat) (s : State) : State :=
  { s.setMaskBit F.SEQ_MIR_STALE d true with mirAt := tset s.mirAt d none }

/-- A PWRGDk level registers (R276). -/
def State.pwrgdEdge (k : Nat) (high : Bool) (s : State) : State :=
  let m : BitVec 32 := BitVec.ofNat 32 (2 ^ k)
  { s with pwrgd := if high then s.pwrgd ||| m else s.pwrgd &&& ~~~ m }

/-- The rails at image acceptance (R281, R283): Down with ON from WIND_AT_START; a rail that has demand at once waits. -/
def State.railsStart (s : State) : State :=
  let s := (List.range 8).foldl (fun s j => s.setReg (F.SEQ_RPAR.off j).base 0) s
  let rp := s.remoteParents
  let s := (List.range 8).foldl (fun s j => match rp[j]? with
    | some p => s.put (F.SEQ_RPAR_POINT.off j) p
    | none => s) s
  let s := (List.range 64).foldl (fun s n =>
    let s := s.setRl n {}
    if !s.railUsed n then s.setReg (F.SEQ_RAILn_STAT.addr n) 0
    else
      let on := s.rlFlag n 2
      let now := on && (s.parents n).isEmpty
      let s := (s.setReg (F.SEQ_RAILn_STAT.addr n) 0).putB F.SEQ_RAILn_CTRL_ON on n
      let s := s.putB F.SEQ_RAILn_STAT_DEMAND now n
      if now then s.rlGo n rlWait else s.put F.SEQ_RAILn_STAT_STATE rlDown n) s
  s.showSeq

/-- Is a rail un-wound (R284)? -/
def State.unwound (s : State) (n : Nat) : Bool :=
  let st := s.rlState n
  st == rlUnused || st == rlDown || (st == rlFailed && s.railStopped n)

/-- Is the device un-wound: every rail? -/
def State.allUnwound (s : State) : Bool := s.usedRails.all s.unwound

end Sys2Proof.Machine
end

