-- ==== Sys2Proof/Machine/Memory.lean ====
section
/-! DEFINITION. Memory integrity, OTP programming and the test port's registers (chapter 18). -/

namespace Sys2Proof.Machine

/-! ### Write-back and remap (R477, R479, R480) -/

/-- Does the remap table name this word? -/
def State.remapped (s : State) (k : Nat) : Bool :=
  (List.range 8).any (fun i => s.on F.MEM_REMAP_VALID i &&
    s.get F.MEM_REMAP_REGION i == k / 16384 && s.get F.MEM_REMAP_WORD i == k % 16384)

/-- A hard fault: the word moves to the spare of the lowest free entry; with none free it stays (R479, R480). The word's
entry in `sram` is what its address reaches, spare or not. -/
def State.hardFault (k : Nat) (w : Word) (s : State) : State :=
  match (List.range 8).find? (fun i => !s.on F.MEM_REMAP_VALID i) with
  | some i =>
    let s := s.sramWrite k w
    let s := s.setReg (F.MEM_REMAP.addr i) (BitVec.ofNat 32 (2 ^ 31 + (k / 16384) * 2 ^ 24 + k % 16384))
    (s.bump F.MEM_STAT_REMAP_USED).put F.MEM_CAUSE_REMAP 1
  | none => (s.put F.MEM_CAUSE_FULL 1).raise 12 4 0

/-- The write-back of the first word due for it, and its verify read; `again`: that read shows an error again. A spare is
never remapped (R479). The verify read belongs to the error that was counted and is not counted again (R477; DEDUCED, log
entry 41). -/
def State.writeBackVerify (again : Bool) (s : State) : State :=
  match s.writeBack with
  | [] => s
  | k :: rest =>
    let w := s.sramPeek k
    if again && !s.remapped k then { s with writeBack := rest }.hardFault k w
    else { s with writeBack := rest }.sramWrite k w

/-! ### Scrubbing (R481–R483) -/

/-- Words of a lap. -/
def lapWords : Nat := 69632

/-- Key of the scrub word at a place of the lap. -/
def scrubKey (p : Nat) : Nat :=
  if p < 32768 then sramKey (p / 4096) (p % 4096)
  else if p < 49152 then sramKey 8 (p - 32768)
  else if p < 57344 then sramKey 9 (p - 49152)
  else if p < 65536 then sramKey 10 (p - 57344)
  else sramKey 11 (p - 65536)

/-- Cycle of the next scrub read: in IDLE the first cycle from the next on in which neither it nor the one before had a port at the
word's bank (R481). `busy` cycles of these have one; which words make a bank the rules do not say, so the command tells
(DESIGN CHOICE, log entry 41), and a port's write of the very word is known. -/
def State.scrubDue (s : State) (busy : Nat) : Nat :=
  if s.get F.MEM_SCRUB_MODE = 0 then s.scrub.last + max 1 (s.get F.MEM_SCRUB_INTERVAL)
  else (s.portLog.filter (fun e => e.1 == scrubKey s.scrub.pos)).foldl (fun m e => max m (e.2.1 + 2)) (s.now + 1 + busy)

/-- A scrub read, and the end of the lap after its last word (R482). -/
def State.scrubRead (s : State) : State :=
  let s := (s.sramRead 0 (scrubKey s.scrub.pos)).2.2
  let c := { s.scrub with last := s.now }
  if c.pos + 1 < lapWords then { s with scrub := { c with pos := c.pos + 1 } }
  else
    let t := s.fdiv 0 ((s.now - c.lapStart : Nat) : Int) 100
    let s := ((s.put F.MEM_LAP_LAP (satU 32 t)).bump F.MEM_STAT_LAPS).put F.MEM_CAUSE_LAP 1
    { s with scrub := { c with pos := 0, lapStart := s.now, starved := false } }.draw

/-- First cycle in which an IDLE lap is starved (R482). -/
def State.starvedDue (s : State) : Option Nat :=
  if s.get F.MEM_SCRUB_MODE = 1 ∧ s.scrub.starved = false then
    some (s.scrub.lapStart + 10000000 * s.get F.MEM_SCRUB_LAP_MAX + 1)
  else none

/-- An IDLE lap exceeds LAP_MAX × 100 ms. -/
def State.lapStarved (s : State) : State :=
  match s.starvedDue with
  | some t =>
    if t ≤ s.now then { s with scrub := { s.scrub with starved := true } }.put F.MEM_CAUSE_STARVED 1 else s
  | none => s

/-- A granted write of MEM_SCRUB (R13, R483): ignored where a field would hold a reserved encoding, and once LOCK is
set. -/
def State.scrubWrite (p : Party) (w : Word) (s : State) : State :=
  if s.on F.MEM_SCRUB_LOCK || decide (1 < bitsOf w 30 2) || bitsOf w 16 8 == 0 || bitsOf w 0 16 == 0 then s.notice p F.MEM_SCRUB.base
  else
    let s := s.setReg F.MEM_SCRUB.base (w &&& 0xE0FFFFFF)
    s.put F.MEM_STAT_MODE_ACT (s.get F.MEM_SCRUB_MODE)

/-- MEM_CNT_CLR (R501). -/
def State.memCntClr (w : Word) (s : State) : State :=
  if bitOf w 0 then (List.range 12).foldl (fun s j => s.setReg (F.MEM_ECC.addr j) 0) s else s

/-! ### Checker test mode (R484) -/

/-- Every rail is un-wound and every used channel is off (R484, R493). -/
def State.allOff (s : State) : Bool :=
  s.allUnwound && (List.range 24).all (fun c => !s.chUsed c || s.chState c == chOff)

/-- Words of a region (R474). -/
def regionWords (r : Nat) : Nat :=
  if r < 8 then 4096 else if r = 8 then 16384 else if r = 9 ∨ r = 10 then 8192 else if r = 11 then 4096 else 0

/-- MEM_CHK_CMD: `write` false READ_RAW, true WRITE_RAW. -/
def State.chkCmd (p : Party) (w : Word) (s : State) : State :=
  let ok := p == .host || p == .test
  if bitsOf w 24 8 ≠ 0xC3 ∨ ok = false ∨ bitsOf w 0 2 = 0 ∨ bitsOf w 0 2 = 3 then
    s.notice p F.MEM_CHK_CMD.base
  else if !s.allOff then s.put F.MEM_CHK_ECC_RESULT 2
  else
    let k := sramKey (s.get F.MEM_CHK_ADDR_REGION) (s.get F.MEM_CHK_ADDR_WORD)
    if bitsOf w 0 2 = 2 then
      let r := s.rawWord k
      ((s.put F.MEM_CHK_DATA_DATA r.1.toNat).put F.MEM_CHK_ECC_ECC r.2.toNat).put F.MEM_CHK_ECC_RESULT 1
    else
      let d := s.reg F.MEM_CHK_DATA.base
      let e := BitVec.ofNat 7 (s.get F.MEM_CHK_ECC_ECC)
      let t := s.portWrite p k d
      let t := if s.portMay p k && e != hsiao d then { t with sramRaw := t.sramRaw ++ [(k, d, e)] } else t
      let t := match liveReg k with
        | some a => if s.portMay p k then t.setReg a (t.eccRead k).1 else t
        | none => t
      t.put F.MEM_CHK_ECC_RESULT 1

/-! ### OTP (R485–R494, R502) -/

/-- Key of an OTP word. -/
def otpKey (r w : Nat) : Nat := 64 * r + w

/-- An OTP word is 0 where nothing is programmed. -/
def otpDefault (_ : Nat) : Word := 0

/-- Shadow word. -/
def State.otpWord (s : State) (r w : Nat) : Word := SMap.get otpDefault s.otpShadow (otpKey r w)

/-- Shadow bytes of a region. -/
def State.otpBytes (s : State) (r : Nat) : List Byte := bytesOf ((List.range 64).map (s.otpWord r))

/-- Is a lock set: either of its two cells is programmed (R486)? `b` 0 write-lock, 16 read-lock. -/
def lockSet (l : BitVec 32) (b r : Nat) : Bool := l.getLsbD (b + 2 * r) || l.getLsbD (b + 2 * r + 1)

/-- The write-lock and read-lock of a region, as its lock cells stand also while sensing runs (R486, R493). -/
def State.wlocked (s : State) (r : Nat) : Bool := lockSet s.otpLocks 0 r
def State.rlocked (s : State) (r : Nat) : Bool := lockSet s.otpLocks 16 r

/-- Number of ones of a word. -/
def ones32 (w : Word) : Nat := ((List.range 32).filter (fun i => w.getLsbD i)).length

/-- Count of counter `k` in the shadow (R491). -/
def State.counter (s : State) (k : Nat) : Nat := ((List.range 8).map (fun i => ones32 (s.otpWord 4 (8 * k + i)))).sum

/-- The lowest bit of counter `k` that is not programmed (R491). -/
def State.counterFree (s : State) (k : Nat) : Option Nat :=
  (List.range 256).find? (fun i => !(s.otpWord 4 (8 * k + i / 32)).getLsbD (i % 32))

/-- OTP_CTRk and the locks follow the shadow and the lock row. -/
def State.showOtp (s : State) : State :=
  let s := (List.range 8).foldl (fun s k => s.put F.OTP_CTR_COUNT (s.counter k) k) s
  let mask (b : Nat) : Nat := (List.range 8).foldl (fun m r => if lockSet s.otpLocks b r then m + 2 ^ r else m) 0
  (s.put F.OTP_STAT_WLOCK (mask 0)).put F.OTP_STAT_RLOCK (mask 16)

/-- The present cells an operation works on: the word, or the lock row. -/
def State.otpCells (s : State) (o : OtpOp) : Word :=
  if o.op = 2 ∨ o.op = 3 then s.otpLocks else SMap.get otpDefault s.otp (otpKey o.region o.word)

/-- Program one of them. -/
def State.otpSet (o : OtpOp) (b : Nat) (s : State) : State :=
  if o.op = 2 ∨ o.op = 3 then { s with otpLocks := withBits s.otpLocks b 1 1 }
  else
    let k := otpKey o.region o.word
    { s with otp := SMap.set otpDefault s.otp k (withBits (SMap.get otpDefault s.otp k) b 1 1) }

/-- The operation ends: the word's shadow is sensed again (R494). -/
def State.otpEnd (o : OtpOp) (result failbit : Nat) (s : State) : State :=
  let k := otpKey o.region o.word
  let s := if o.op = 2 ∨ o.op = 3 then s
    else { s with otpShadow := SMap.set otpDefault s.otpShadow k (SMap.get otpDefault s.otp k) }
  let s := { s with otpOp := none }.showOtp
  let s := ((s.put F.OTP_RES_RESULT result).put F.OTP_RES_FAILBIT failbit).put F.OTP_STAT_BUSY 0
  if result = 2 then s.put F.OTP_CAUSE_PROG_DONE 1 else s.put F.OTP_CAUSE_PROG_FAIL 1

/-- An operation starts; with nothing to program it is done at once. -/
def State.otpBegin (op region word : Nat) (bits : List Nat) (s : State) : State :=
  let o : OtpOp := { op := op, region := region, word := word, bits := bits, target := bits, due := s.now + 2200 }
  let cells := s.otpCells o
  let todo := bits.filter (fun b => !cells.getLsbD b)
  let s := s.setReg F.OTP_RES.base (BitVec.ofNat 32 (2 ^ 28 + op))
  let s := s.put F.OTP_STAT_BUSY 1
  if todo.isEmpty then s.otpEnd o 2 0 else { s with otpOp := some { o with bits := todo } }

/-- OTP_CMD (R493). -/
def State.otpCmd (p : Party) (w : Word) (s : State) : State :=
  let op := bitsOf w 0 4
  let ext := p == .host || p == .test
  let pe := match p with
    | .pe _ => true
    | _ => false
  if bitsOf w 24 8 ≠ 0xA5 ∨ op = 0 ∨ 4 < op ∨ !(ext || (pe && op == 4)) then s.notice p F.OTP_CMD.base
  else if s.otpOp.isSome then s.put F.OTP_RES_RESULT 6
  else
    let region := if op = 4 then 4 else s.get F.OTP_PGM_ADDR_REGION
    let word := s.get F.OTP_PGM_ADDR_WORD
    let stop (r : Nat) : State := s.setReg F.OTP_RES.base (BitVec.ofNat 32 (r * 2 ^ 28 + op))
    if !s.on F.SYS_DOM_STAT_VIN_OK || (op != 4 && !s.allOff) then stop 5
    else if s.wlocked region || (op == 4 && (s.counterFree (word % 8)).isNone) then stop 4
    else if op = 1 then
      s.otpBegin 1 region word ((List.range 32).filter (fun b => (s.reg F.OTP_PGM_DATA.base).getLsbD b))
    else if op = 4 then
      let n := (s.counterFree (word % 8)).getD 0
      s.otpBegin 4 4 (8 * (word % 8) + n / 32) [n % 32]
    else
      let b := (if op = 2 then 0 else 16) + 2 * region
      s.otpBegin op region word [b, b + 1]

/-- A programming pulse ends and the word, or the lock row, reads `seen` at the strict margin (R494). A cell that fails
its fourth verify may sense either way. -/
def State.otpPulse (seen : Word) (s : State) : State :=
  match s.otpOp with
  | none => s
  | some o =>
    let cells := s.otpCells o
    let s := s.put F.OTP_RES_PULSES (min 4095 (s.get F.OTP_RES_PULSES + 1))
    let lock := o.op == 2 || o.op == 3
    let stray := (List.range 32).find? (fun b =>
      seen.getLsbD b && !cells.getLsbD b && !o.target.contains b && (!lock || o.target.any (fun t => t / 2 == b / 2)))
    match o.bits with
    | [] => s.otpEnd o 2 0
    | b :: rest =>
      match stray with
      | some f =>
        let s := if seen.getLsbD b then s.otpSet o b else s
        (s.otpSet o f).otpEnd o 3 f
      | none =>
        if seen.getLsbD b then
          let s := s.otpSet o b
          if rest.isEmpty then s.otpEnd o 2 0
          else { s with otpOp := some { o with bits := rest, tries := 0, due := s.now + 2200 } }
        else if o.tries + 1 < 4 then { s with otpOp := some { o with tries := o.tries + 1, due := s.now + 2200 } }
        else
          let s := if Config.freeBit s.free then s.otpSet o b else s
          (s.draw).otpEnd o 3 b

/-! ### Test access port (R495–R498) -/

/-- Is the port enabled? -/
def State.tapOn (s : State) : Bool := s.on F.TEST_STAT_ENABLED

/-- What Capture-IR loads into the 8-bit instruction register, and TDO shifts out first (R496). -/
def irCapture : Nat := 1

/-- An instruction-register scan: the register captures, which TDO shifts out, and Update-IR selects an instruction: its opcode
shows in TEST_STAT, and PINCTL is 1 under EXTEST, HIGHZ and CLAMP. The controller has left Test-Logic-Reset. -/
def State.tapIr (op : Nat) (s : State) : State :=
  if !s.tapOn then s
  else
    let s := { s with tap := { s.tap with logicReset := false, irOut := some irCapture } }
    (s.put F.TEST_STAT_IR op).putB F.TEST_STAT_PINCTL (op == 0 || op == 2 || op == 3)

/-- Test-Logic-Reset: with TEST_EN sampled low the controller never leaves it, and TDO is high-impedance (R495). -/
def State.tapReset (s : State) : Bool := !s.tapOn || s.tap.logicReset

/-- Bits that the last scan shifted out of TDO, lowest first: none in Test-Logic-Reset, where TDO is high-impedance. -/
def State.tdo (s : State) : Option Nat := if s.tapReset then none else some s.tap.dr

/-- The boundary register takes shifted data (R496). -/
def State.tapBoundary (d : List Bool) (s : State) : State :=
  if s.tapOn then { s with tap := { s.tap with boundary := d } } else s

/-- The data register as captured. -/
def State.tapCapture (d : Nat) (s : State) : State := if s.tapOn then { s with tap := { s.tap with dr := d } } else s

/-- The FABRIC register: STATUS, DATA, address and WRITE (R497). -/
def fabricDr (status data addr write : Nat) : Nat := status * 2 ^ 49 + data * 2 ^ 17 + addr * 2 + write

end Sys2Proof.Machine
end

