-- ==== Sys2Proof/Machine/Faults.lean ====
section
/-! DEFINITION. Fault records, reactions, acknowledging and clearing, ERR# and interrupts (chapter 12). -/

namespace Sys2Proof.Machine

/-! ### Sources (R356) -/

/-- Kinds of object of a source. -/
inductive ObjKind where
  | zero | loop | phase | chan | rail | cell | node | sensor | port | worker | switch | region | lastRegion | engine | source
deriving DecidableEq, Repr

/-- The object codes a kind admits. -/
def ObjKind.has : ObjKind → Nat → Bool
  | .zero, o => o == 0
  | .loop, o => decide (o < 8)
  | .phase, o => decide (o < 24)
  | .chan, o => decide (o < 24)
  | .rail, o => decide (o < 64)
  | .cell, o => decide (o < 64)
  | .node, o => decide (o < 128)
  | .sensor, o => decide (o < 12)
  | .port, o => decide (o < 2)
  | .worker, o => decide (1 ≤ o ∧ o < 64)
  | .switch, o => decide (o < 3)
  | .region, o => decide (o < 12)
  | .lastRegion, o => decide (8 ≤ o ∧ o < 12)
  | .engine, o => decide (o < 8)
  | .source, o => decide (1 ≤ o ∧ o ≤ 5)

/-- The sources of R356: class, event, objects, default level. Event 0 of every class, the Notice, stands apart. -/
def sourceTable : List (Nat × Nat × ObjKind × Nat) := [
  (0, 1, .loop, 0), (0, 2, .loop, 0), (0, 3, .loop, 1), (0, 4, .loop, 2),
  (1, 1, .phase, 1), (1, 2, .phase, 2), (1, 3, .loop, 2),
  (2, 1, .loop, 1), (2, 2, .loop, 2),
  (3, 1, .chan, 1), (3, 2, .chan, 2), (4, 1, .chan, 2),
  (5, 1, .rail, 2), (5, 2, .rail, 2), (5, 3, .rail, 1),
  (6, 1, .cell, 1), (6, 2, .cell, 1), (7, 1, .zero, 2),
  (8, 1, .node, 0), (8, 2, .node, 1), (8, 3, .node, 3), (8, 4, .sensor, 1)] ++ [
  (9, 1, .zero, 1), (9, 2, .zero, 1), (9, 3, .zero, 1), (9, 4, .zero, 2), (9, 5, .zero, 1), (9, 6, .zero, 0),
  (10, 1, .zero, 0), (10, 2, .zero, 1), (10, 3, .zero, 0), (10, 4, .zero, 1),
  (11, 1, .port, 1), (11, 2, .zero, 0), (11, 3, .worker, 1), (11, 4, .worker, 2), (11, 5, .zero, 2), (11, 6, .port, 2),
  (11, 7, .switch, 1), (11, 8, .switch, 2), (11, 9, .zero, 0), (11, 10, .zero, 0), (11, 11, .zero, 1), (11, 12, .zero, 0),
  (11, 13, .zero, 1), (11, 14, .worker, 1), (11, 15, .worker, 2), (11, 16, .zero, 0), (11, 17, .zero, 1), (11, 18, .zero, 3),
  (11, 19, .worker, 2), (11, 20, .zero, 1)] ++ [
  (12, 1, .region, 0), (12, 2, .engine, 1), (12, 3, .lastRegion, 3), (12, 4, .zero, 1),
  (13, 1, .source, 1), (13, 2, .source, 0), (13, 3, .engine, 4), (13, 4, .zero, 0), (13, 5, .zero, 1),
  (14, 1, .engine, 1), (14, 2, .engine, 0), (14, 3, .engine, 1), (15, 1, .zero, 1), (15, 2, .zero, 1), (15, 3, .zero, 0)]

/-- Class, event and object of a SOURCE code. -/
def srcClass (q : Nat) : Nat := q / 4096
def srcEvent (q : Nat) : Nat := q / 128 % 32
def srcObj (q : Nat) : Nat := q % 128

/-- Default level of a source: 0 for a Notice. -/
def srcDefault (q : Nat) : Nat :=
  match sourceTable.find? (fun r => r.1 == srcClass q && r.2.1 == srcEvent q) with
  | some r => r.2.2.2
  | none => 0

/-- Does the table list this SOURCE (R356)? -/
def srcListed (q : Nat) : Bool :=
  sourceTable.any (fun r => r.1 == srcClass q && r.2.1 == srcEvent q && r.2.2.1.has (srcObj q))

/-- Records of a section of the loaded image, by type (R43). -/
def State.secRecs (s : State) (t : Nat) : List (List Byte) := s.sections.getD (t - 1) []

/-- The FAULT_MAP record of a source (R50). -/
def State.mapOf (s : State) (q : Nat) : Option (List Byte) := (s.secRecs 7).find? (fun r => leAt r 0 2 == q)

/-- Level a source is mapped to. -/
def State.mapLevel (s : State) (q : Nat) : Nat :=
  match s.mapOf q with
  | some r => byteAt r 3
  | none => srcDefault q

/-! ### The table and the history (R365–R367) -/

/-- Key of word `j` of table slot `i`, and of history slot `i`. -/
def recKey (i j : Nat) : Nat := sramKey 10 (8 * i + j)
def histKey (i j : Nat) : Nat := sramKey 10 (2048 + 8 * i + j)

/-- Does table slot `i` hold a record? -/
def State.recUsed (s : State) (i : Nat) : Bool := s.recUse.getLsbD i

/-- The eight words of a table slot. -/
def State.recWords (s : State) (i : Nat) : List Word := (List.range 8).map (fun j => s.sramPeek (recKey i j))

/-- Fields of a record's word 0. -/
def State.recSource (s : State) (i : Nat) : Nat := bitsOf (s.sramPeek (recKey i 0)) 16 16
def State.recLevel (s : State) (i : Nat) : Nat := bitsOf (s.sramPeek (recKey i 0)) 13 3
def State.recAck (s : State) (i : Nat) : Bool := bitOf (s.sramPeek (recKey i 0)) 9
def State.recSeq (s : State) (i : Nat) : Nat := bitsOf (s.sramPeek (recKey i 1)) 16 16
def State.recCount (s : State) (i : Nat) : Nat := bitsOf (s.sramPeek (recKey i 1)) 0 16
def State.recFirst (s : State) (i : Nat) : Nat :=
  (s.sramPeek (recKey i 2)).toNat + 2 ^ 32 * (s.sramPeek (recKey i 3)).toNat

/-- The slots in use. -/
def State.recSlots (s : State) : List Nat := (List.range 256).filter s.recUsed

/-- Write a field of a record's word 0. -/
def State.recPut (i lo width v : Nat) (s : State) : State :=
  s.sramWrite (recKey i 0) (withBits (s.sramPeek (recKey i 0)) lo width v)

/-- A record enters the history with its WHY (R367). -/
def State.histAdd (ws : List Word) (why : Nat) (s : State) : State :=
  let h := s.get F.FLT_HIST_HEAD_NEXT
  let w0 := withBits (ws.getD 0 0) 4 2 why
  let s := s.sramWrites (histKey h 0) (w0 :: ws.drop 1)
  if h + 1 < 768 then s.put F.FLT_HIST_HEAD_NEXT (h + 1)
  else ((s.put F.FLT_HIST_HEAD_NEXT 0).bump F.FLT_HIST_HEAD_WRAPS).put F.FLT_NEWC_HWRAP 1

/-- The unit reads its table: a word found in error is corrected, or reads 0 and is rewritten so (R477, R478, R500). -/
def State.tableRead (s : State) : State :=
  s.ownRead 3 (recKey 0 0) (recKey 256 0)

/-- HELD of every record follows what it holds. -/
def State.showHeld (i : Nat) (s : State) : State :=
  if s.recUsed i then s.recPut i 6 1 (b2n (s.holds.any (fun h => h.1 == i))) else s

/-- FLT_STAT follows the table (R375). -/
def State.showFlt (s : State) : State :=
  let l := s.recSlots.map s.recLevel
  let err := l.filter (fun v => decide (1 ≤ v))
  let s := ((s.putB F.FLT_STAT_ERR (!err.isEmpty)).putB F.FLT_STAT_SAFE (l.contains 3)).putB F.FLT_STAT_HALT (l.contains 4)
  let s := ((s.putB F.FLT_STAT_FULL (l.length == 256)).put F.FLT_STAT_MAXLVL (l.foldl max 0)).put F.FLT_STAT_NREC l.length
  (s.put F.FLT_STAT_NERR err.length).showHolds

/-! ### Reactions (R357–R361) -/

/-- An object is held by a slot. -/
def State.holdSlot (i : Nat) (o : HoldObj) (s : State) : State :=
  if s.holds.contains (i, o) then s else { s with holds := s.holds ++ [(i, o)] }

/-- The rails that have a target. -/
def State.railsOf (s : State) (kind t : Nat) : List Nat :=
  s.usedRails.filter (fun n => s.railKind n == kind && s.railTarget n == t)

/-- A target is taken out of service and held (R357, R18, R296). -/
def State.cutLoop (i n : Nat) (s : State) : State :=
  let s := (s.railsOf 1 n).foldl (fun s r => s.railReact r (s.recSource i)) s
  (s.loopOff n).holdSlot i (.loop n)
def State.cutPair (i k : Nat) (s : State) : State :=
  let s := (s.railsOf 2 k).foldl (fun s r => s.railReact r (s.recSource i)) s
  { s with pwren := s.pwren &&& ~~~ (BitVec.ofNat 32 (2 ^ k)) }.holdSlot i (.pair k)
def State.cutChan (i n : Nat) (s : State) : State :=
  let s := (s.railsOf 3 n).foldl (fun s r => s.railReact r (s.recSource i)) s
  (s.reactChOff n).holdSlot i (.chan n)

/-- The target of a rail, as the row of its KIND. -/
def State.cutRailTarget (i r : Nat) (s : State) : State :=
  match s.railKind r with
  | 1 => s.cutLoop i (s.railTarget r)
  | 2 => s.cutPair i (s.railTarget r)
  | 3 => s.cutChan i (s.railTarget r)
  | _ => s

/-- The isolation of L2 (R357). -/
def State.isolate (i q : Nat) (s : State) : State :=
  let c := srcClass q
  let e := srcEvent q
  let o := srcObj q
  if e = 0 then s
  else if c = 0 ∨ c = 2 ∨ (c = 1 ∧ e = 3) then s.cutLoop i o
  else if c = 3 ∨ c = 4 then s.cutChan i o
  else if c = 5 then s.cutRailTarget i o
  else if c = 6 then
    let r := s.get F.MONn_ROUTE_RAIL o
    if r < 64 then s.cutRailTarget i r else s
  else if c = 8 ∧ e ≤ 3 then
    if nodeStage o || nodeBoard o then
      let m := s.get F.THM_NODEn_ACT_LOOP o
      if m < 8 then s.cutLoop i m else s
    else if 32 ≤ o then s.cutChan i (nodeChan o)
    else s
  else if c = 14 ∨ (c = 12 ∧ e = 2) then (s.peHold o).holdSlot i (.eng o)
  else if c = 9 then (s.holdSlot i .chg).chgHeld
  else s

/-- The safe-stop of L3 (R359). -/
def State.safeStop (i : Nat) (s : State) : State :=
  let s := s.usedRails.foldl (fun s n =>
    if s.maskBit F.FLT_SAFE_RAIL n then s else (s.put F.SEQ_RAILn_CTRL_ON 0 n).holdSlot i (.rail n)) s
  (List.range 24).foldl (fun s c =>
    if !s.chUsed c || bitOf (s.reg F.FLT_SAFE_CH.base) c || s.railTargetsChan c then s
    else (s.reactChOff c).holdSlot i (.chan c)) s

/-- Every output of the device off, as at L4 (R360, R424). -/
def State.outputsOff (s : State) : State :=
  let s := (List.range 8).foldl (fun s n => s.loopOff n) s
  let s := (List.range 24).foldl (fun s c => s.reactChOff c) s
  let s := { s with pwren := 0, mrg := s.mrg.map (fun (x : MrgSt) => { x with current := none }) }
  s.chgHeld

/-- The halt of L4 (R360). FLT_STAT.HALT is set first, so that no engine starts. -/
def State.haltAll (i : Nat) (s : State) : State :=
  let s := s.put F.FLT_STAT_HALT 1
  let s := s.usedRails.foldl (fun s n => ((s.railReact n (s.recSource i)).put F.SEQ_RAILn_CTRL_ON 0 n).holdSlot i (.rail n)) s
  let s := s.outputsOff.holdSlot i .chg
  let s := (List.range 24).foldl (fun s c => if s.chUsed c then s.holdSlot i (.chan c) else s) s
  (List.range 8).foldl (fun s n => s.peHalt n) s

/-- The extra reaction of a FAULT_MAP record (R358). -/
def State.extraReaction (q : Nat) (s : State) : State :=
  match s.mapOf q with
  | none => s
  | some r =>
    if byteAt r 4 = 1 then s.shedGroup (byteAt r 5) (some q)
    else if byteAt r 4 = 2 then s.armFault (byteAt r 5)
    else s

/-- The reactions of the levels above `old` up to `lvl`, for the record in slot `i` (R355, R363). -/
def State.react (i q old lvl : Nat) (s : State) : State :=
  let s := if old < 1 ∧ 1 ≤ lvl then s.extraReaction q else s
  let s := if old < 2 ∧ 2 ≤ lvl then s.isolate i q else s
  let s := if old < 3 ∧ 3 ≤ lvl then s.safeStop i else s
  if old < 4 ∧ 4 ≤ lvl then s.haltAll i else s

/-- A latched channel's ON is held by its record at whatever level (R262). -/
def State.latchHold (i q : Nat) (s : State) : State :=
  if srcClass q = 3 ∧ srcEvent q = 2 then s.cutChan i (srcObj q) else s

/-- The same where no record of the table stands for the latch: the hold waits for one (R262, R272, R366; what such a
hold waits for is the model's, DESIGN CHOICE, log entry 51). -/
def State.latchWaits (q : Nat) (s : State) : State :=
  if srcClass q = 3 ∧ srcEvent q = 2 then (s.reactChOff (srcObj q)).holdFor q (.chan (srcObj q)) else s

/-- Holds that waited for the record of a SOURCE are its own now (R350). -/
def State.takeHolds (i q : Nat) (s : State) : State :=
  let mine := s.holdWait.filter (fun h => h.1 == q)
  mine.foldl (fun s h => s.holdSlot i h.2) { s with holdWait := s.holdWait.filter (fun h => h.1 != q) }

/-- A record was made or raised to a level: causes, the status word's alarm, and the handlers that watch its class
(R127, R374, R460). -/
def State.recNotify (q lvl : Nat) (esc : Bool) (s : State) : State :=
  let s := s.setReg F.FLT_NEWC.base (s.reg F.FLT_NEWC.base ||| BitVec.ofNat 32 (2 ^ lvl + if esc then 32 else 0))
  let s := if 1 ≤ lvl then { s with link := { s.link with alarmWord := true, alarmMap := true } } else s
  s.trigger 5 (srcClass q) q

/-! ### Processing an event (R362–R366) -/

/-- Does an event of a class escalate: a record of that class at L1 or above is not acknowledged (R362)? -/
def State.escalates (s : State) (c : Nat) : Bool :=
  s.recSlots.any (fun i => srcClass (s.recSource i) == c && decide (1 ≤ s.recLevel i) && !s.recAck i)

/-- Word 7 of a record. -/
def devWord (d : Option Nat) : Word :=
  match d with
  | some n => BitVec.ofNat 32 (2 ^ 23 + (n % 64) * 65536)
  | none => 0

/-- The record number after `n` (R365). -/
def nextSeq (n : Nat) : Nat := if (n + 1) % 65536 = 0 then 1 else (n + 1) % 65536

/-- The words of a new record. -/
def newRecord (e : Event) (seq lvl base : Nat) (esc : Bool) : List Word :=
  [BitVec.ofNat 32 (e.source * 65536 + lvl * 8192 + base * 1024 + (if esc then 256 else 0)),
   BitVec.ofNat 32 (seq * 65536 + 1),
   BitVec.ofNat 32 e.tick, BitVec.ofNat 32 (e.tick / 2 ^ 32), BitVec.ofNat 32 e.tick, BitVec.ofNat 32 (e.tick / 2 ^ 32),
   e.data0, devWord e.dev]

/-- A new record in slot `i` and its reactions. -/
def State.makeRecord (i : Nat) (e : Event) (lvl base : Nat) (esc : Bool) (s : State) : State :=
  let s := s.sramWrites (recKey i 0) (newRecord e s.seqNext lvl base esc)
  let s := { s with seqNext := nextSeq s.seqNext, recUse := s.recUse ||| BitVec.ofNat 256 (2 ^ i) }
  let s := (s.recNotify e.source lvl esc).takeHolds i e.source
  ((s.latchHold i e.source).react i e.source 0 lvl).showHeld i

/-- An event joins the record in slot `i`: COUNT, LAST and the greater LEVEL (R363, R366). -/
def State.joinRecord (i : Nat) (e : Event) (lvl : Nat) (s : State) : State :=
  let old := s.recLevel i
  let s := s.sramWrite (recKey i 1) (BitVec.ofNat 32 (s.recSeq i * 65536 + min 65535 (s.recCount i + 1)))
  let s := s.sramWrites (recKey i 4) [BitVec.ofNat 32 e.tick, BitVec.ofNat 32 (e.tick / 2 ^ 32)]
  let s := if old < lvl then ((s.recPut i 13 3 lvl).recPut i 8 1 1).recNotify (s.recSource i) lvl true else s
  s.takeHolds i e.source

/-- An event at a full table (R366). An evicted record is not cleared, so what it held stays held (R361): it waits for a
record of its SOURCE (DEDUCED, log entry 51). -/
def State.atFull (e : Event) (lvl base : Nat) (esc : Bool) (s : State) : State :=
  if lvl = 0 then
    let s := s.latchWaits e.source
    let s := (s.bump F.FLT_DROP_L0).histAdd (newRecord e s.seqNext lvl base esc) 2
    { s with seqNext := nextSeq s.seqNext }.recNotify e.source 0 false
  else
    let zeros := s.recSlots.filter (fun i => s.recLevel i == 0)
    match zeros with
    | z :: zs =>
      let i := zs.foldl (fun a b => if s.recFirst b < s.recFirst a then b else a) z
      let s := s.histAdd (s.recWords i) 1
      let q := s.recSource i
      let s := { s with
        holds := s.holds.filter (fun h => h.1 != i)
        holdWait := s.holdWait ++ (s.holds.filter (fun (h : Nat × HoldObj) => h.1 == i)).map (fun (h : Nat × HoldObj) => (q, h.2)) }
      s.makeRecord i e lvl base esc
    | [] =>
      let i := (s.recSlots.find? (fun i => srcClass (s.recSource i) == srcClass e.source)).getD 0
      let s := if s.merged.contains (e.source, i) then s else { s with merged := s.merged ++ [(e.source, i)] }
      let s := ((s.joinRecord i e lvl).recPut i 7 1 1).put F.FLT_NEWC_OVF 1
      ((s.bump F.FLT_DROP_MERGE).latchHold i e.source |>.react i e.source 0 lvl).showHeld i

/-- The collector processes one event (R362–R366). -/
def State.processEvent (e : Event) (s : State) : State :=
  let c := srcClass e.source
  let s := s.bump (if c % 2 = 0 then F.FLT_CNT_CNT_LO else F.FLT_CNT_CNT_HI) (c / 2)
  let base := s.mapLevel e.source
  let esc := decide (1 ≤ base ∧ base ≤ 3) && s.escalates c
  let lvl := if esc then base + 1 else base
  match s.slotOfSource e.source with
  | some i =>
    let old := s.recLevel i
    let s := ((s.joinRecord i e lvl).sramWrite (recKey i 6) e.data0).recPut i 9 1 0
    (s.react i e.source old lvl).showHeld i
  | none =>
    match (List.range 256).find? (fun i => !s.recUsed i) with
    | some i => s.makeRecord i e lvl base esc
    | none => s.atFull e lvl base esc

/-! ### Clearing (R361, R367–R369) -/

/-- What a cleared record's object does once nothing holds it (R246, R262, R361, R389, R390, R465). -/
def State.freeObj (o : HoldObj) (s : State) : State :=
  if s.held o then s
  else match o with
    | .eng n => s.peRelease n
    | .chg => s.chgEval
    | .chan c => if s.chState c = chLatched then s.chEnterOff c .normalDown else s
    | _ => s

/-- What the clear of the record that stands for a SOURCE brings beside its holds (R246, R389, R393). -/
def State.sourceCleared (q : Nat) (s : State) : State :=
  if s.recordOf q then s
  else if srcClass q = 3 ∧ srcEvent q = 2 ∧ s.chState (srcObj q) = chLatched then s.chEnterOff (srcObj q) .normalDown
  else if q = sourceOf 9 4 0 then s.shortCleared
  else if q = sourceOf 9 5 0 then s.chgFaultCleared
  else s

/-- A record leaves the table for the history; its holds end, and those of every SOURCE that had joined it (R361, R366). -/
def State.dropRecord (i why : Nat) (s : State) : State :=
  let qs := s.recSource i :: (s.merged.filter (fun x => x.2 == i)).map (fun x => x.1)
  let mine := (s.holds.filter (fun h => h.1 == i)).map (fun h => h.2)
  let s := (s.histAdd (s.recWords i) why).sramWrites (recKey i 0) (List.replicate 8 0)
  let s := { s with
    recUse := s.recUse &&& ~~~ BitVec.ofNat 256 (2 ^ i)
    merged := s.merged.filter (fun x => x.2 != i)
    holds := s.holds.filter (fun h => h.1 != i)
    sheds := s.sheds.map (fun (x : ShedSt) => if qs.contains x.source then { x with cleared := true } else x) }
  let late := (s.holdWait.filter (fun (h : Nat × HoldObj) => qs.contains h.1)).map (fun (h : Nat × HoldObj) => h.2)
  let s := { s with holdWait := s.holdWait.filter (fun h => !qs.contains h.1) }
  let s := (mine ++ late).foldl (fun s o => s.freeObj o) s
  let s := (qs.foldl (fun s q => s.sourceCleared q) s).showFlt
  if s.on F.FLT_STAT_HALT then s else (List.range 8).foldl (fun s n => s.peUnhalt n) s

/-- Does a THERM record of event 2 or 3 still meet its level, so that nothing clears it (R352)? -/
def State.thermStands (s : State) (q : Nat) : Bool :=
  srcClass q == 8 && (srcEvent q == 2 || srcEvent q == 3) && decide (srcEvent q ≤ s.nodeLevel (srcObj q))

/-- Does the condition of a record still stand, so that CLEAR is refused (R369)? -/
def State.condStands (s : State) (q : Nat) : Bool :=
  let c := srcClass q
  let e := srcEvent q
  let o := srcObj q
  s.thermStands q ||
  (c == 6 && e == 1 && s.on F.MONn_STAT_UV o) || (c == 6 && e == 2 && s.on F.MONn_STAT_OV o) ||
  (c == 1 && e == 3 && s.on F.LOOPn_TSTAT_STGLINE o) || (c == 13 && e == 3 && s.on F.SYS_RST_STAT_RDEF)

/-- Is the party a policy engine? -/
def isEngine : Party → Bool
  | .pe _ => true
  | _ => false

/-- FLT_CMD (R368, R369). Reserved operations are refused before. CLEAR_L0 clears every record at L0 but a THERM record that
R352 keeps. -/
def State.fltCmd (p : Party) (w : Word) (s : State) : State :=
  let s := s.tableRead
  let k := p.code
  let op := bitsOf w 28 4
  let i := bitsOf w 0 8
  let done (r : Nat) (s : State) : State := s.setReg (F.FLT_CMD_RES.bk k).base (BitVec.ofNat 32 (r * 16 + op))
  let seqOk := s.recSeq i == s.get (F.FLT_CMD_ARG_SEQ.bk k)
  if op = 1 then
    if !s.recUsed i then done 1 s
    else if !seqOk then done 2 s
    else done 0 (s.recPut i 9 1 1)
  else if op = 2 then
    if !s.recUsed i then done 1 s
    else if !(seqOk && s.recCount i % 256 == s.get (F.FLT_CMD_ARG_CNT.bk k)) then done 2 s
    else if s.condStands (s.recSource i) then done 3 s
    else if isEngine p && decide (3 ≤ s.recLevel i) then done 4 s
    else done 0 (s.dropRecord i 0)
  else if op = 3 then
    done 0 (s.recSlots.foldl (fun s i =>
      if srcClass (s.recSource i) == bitsOf w 8 4 then s.recPut i 9 1 1 else s) s)
  else
    done 0 (s.recSlots.foldl (fun s i =>
      if s.recLevel i == 0 && !s.thermStands (s.recSource i) then s.dropRecord i 0 else s) s)

/-- A soft reset moves every record to the history, and every hold ends (R371). -/
def State.fltReset (s : State) : State :=
  let s := s.tableRead
  let s := s.recSlots.foldl (fun s i =>
    (s.histAdd (s.recWords i) 3).sramWrites (recKey i 0) (List.replicate 8 0)) s
  { s with recUse := 0, merged := [], holds := [], holdWait := [], events := [], sheds := [] }.showFlt

/-! ### Interrupts (R374, R376) -/

/-- Does any word of the list hold a bit of the mask? -/
def State.anyBit (s : State) (m : Word) (l : List Nat) : Bool := l.any (fun a => s.reg a &&& m != 0)

/-- Copies of a register. -/
def copies (f : Fld) (n : Nat) : List Nat := (List.range n).map f.addr

/-- The cause bits of group `g` (R374). -/
def State.irqGroup (s : State) (g : Nat) : Bool :=
  let all : Word := 0xFFFFFFFF
  if g = 0 then s.anyBit 0xFF [F.FLT_NEWC.base]
  else if g = 1 then s.anyBit all (copies F.LINK_ALARM 2 ++ copies F.HIER_REJOIN 2)
  else if g = 2 then s.anyBit 0x9F [F.LINK_PH_STAT.base]
  else if g = 3 then s.on F.ESC_STAT_STEPPED
  else if g = 4 then s.on F.HIER_STAT_DUP || s.on F.HIER_STAT_NONUM || s.on F.HIER_SREF_VALID
  else if g = 5 then s.on F.SYS_CLK_STAT_XTAL_LOST || s.on F.SYS_CLK_STAT_LREF_LOST || s.on F.SYS_ARB_DROP_VALID
  else if g ≤ 13 then
    let n := g - 6
    s.on F.LOOPn_STAT_SYNC_LOST n || s.on F.LOOPn_TSTAT_SC n || s.on F.LOOPn_TSTAT_STG n
  else if g = 14 then s.reg F.IRQ_SUB_CHAN.base != 0
  else if g = 15 then s.anyBit all (copies F.IRQ_SUB_SEQ 2)
  else if g = 16 then
    (List.range 4).any (fun m => s.on F.MEASm_STAT_URG_DONE m || s.on F.MEASm_STAT_URG_BUSY m || s.on F.MEASm_STAT_OVR m ||
      s.anyBit all [F.MEASm_WOUT.addr m, F.MEASm_WRET.addr m]) ||
    (List.range 16).any (fun k => s.on F.MEAS_METERk_STAT_GAP k) || s.on F.MEAS_REFCHK_REF_ERR
  else if g = 17 then
    s.anyBit all (copies F.MON_UVC 2 ++ copies F.MON_OVC 2) || s.on F.MON_TEST_STAT_DONE || s.on F.MON_TEST_STAT_REFUSED
  else if g = 18 then s.anyBit all (copies F.THM_UPC 4) || (List.range 12).any (fun k => s.on F.THM_SENSk_BAD k)
  else if g = 19 then s.anyBit 0x1FF [F.PWRP_CAUSE.base]
  else if g = 20 then s.anyBit 0x1FC [F.KEEP_STAT.base]
  else if g = 21 then s.anyBit 0x1F [F.HOST_STAT.base]
  else if g = 22 then s.anyBit 0xFFFFFF [F.PE_CAUSE.base]
  else if g = 23 then s.anyBit 0x3F [F.MEM_CAUSE.base]
  else if g = 24 then s.anyBit 3 [F.OTP_CAUSE.base]
  else false

/-- IRQ_SUB_CHAN and IRQ_SUB_SEQ. -/
def State.irqSub (s : State) : State :=
  let ch := (List.range 24).foldl (fun m c =>
    if s.on F.CHn_STAT_TRIP c || s.on F.CHn_STAT_FET_DMG c || s.on F.CHn_STAT_RESCUED c then m + 2 ^ c else m) 0
  let rail (h : Nat) : Nat := (List.range 32).foldl (fun m b =>
    if s.on F.SEQ_RAILn_STAT_UNWOUND (32 * h + b) || s.on F.SEQ_RAILn_STAT_CUT (32 * h + b) then m + 2 ^ b else m) 0
  ((s.put F.IRQ_SUB_CHAN_CH ch).put F.IRQ_SUB_SEQ_RAIL (rail 0) 0).put F.IRQ_SUB_SEQ_RAIL (rail 1) 1

/-- IRQ_SUMMARY follows the causes; a bit that turns from 0 to 1 registers its handler events (R374, R460). -/
def State.irqUpdate (s : State) : State :=
  let s := s.irqSub
  let now : Word := BitVec.ofNat 32 ((List.range 25).foldl (fun m g => if s.irqGroup g then m + 2 ^ g else m) 0)
  let rose := now &&& ~~~ s.irqSeen
  let s := { s.setReg F.IRQ_SUMMARY.base now with irqSeen := now }
  (List.range 25).foldl (fun s g => if bitOf rose g then s.trigger 4 g g else s) s

/-- IRQ# as driven: asserted (low) while an enabled group has a cause. -/
def State.irqLow (s : State) : Bool := s.reg F.IRQ_SUMMARY.base &&& s.reg F.IRQ_EN.base != 0

/-! ### The end of a command -/

/-- Does the fault collector work: it runs, and the device is awake? -/
def State.collects (s : State) : Bool := s.collector && (s.phase == .running || s.phase == .sensing)

/-- The events registered in this cycle are processed in ascending SOURCE (R364). An event that the processing itself gives
arises after they have been taken, and waits for the next cycle. -/
def State.processAll (s : State) : State :=
  let due := sortBy (fun (a b : Event) => decide (a.source ≤ b.source)) (s.events.filter (fun e => e.ready))
  let s := due.foldl (fun s e => s.processEvent e) { s with events := s.events.filter (fun e => !e.ready) }.tableRead
  { s with events := s.events.map (fun (e : Event) => { e with ready := false }) }

/-- The events of this cycle are processed, and the status registers follow. -/
def State.reactions (s : State) : State :=
  let s := if s.collects && s.events.any (fun e => e.ready) then s.processAll.showFlt else s
  s.keepUnsync.irqUpdate

/-- What every command ends with: the reactions to the events of this cycle, and its triggers. -/
def State.settle (s : State) : State := s.reactions.runTrigs

end Sys2Proof.Machine
end

