-- ==== Sys2Proof/Machine/Reserved.lean ====
section
/-! DEFINITION. Reserved encodings (R13): the values each field's table admits, and the rules that bind fields to one
another. A value outside the range a field table states is a reserved encoding. -/

namespace Sys2Proof.Machine

/-- The range of a field: its least and greatest code, read as signed where the least is negative. -/
structure FieldRange where
  fld : Fld
  lo : Int
  hi : Int
deriving DecidableEq, Repr

/-- The code a word holds in a field of a given range. -/
def FieldRange.read (r : FieldRange) (w : Word) : Int :=
  let v := bitsOf w r.fld.lo r.fld.width
  if r.lo < 0 then toS r.fld.width v else v

/-- Does the word hold a code of the range? -/
def FieldRange.admits (r : FieldRange) (w : Word) : Bool := decide (r.lo ≤ r.read w ∧ r.read w ≤ r.hi)

/-- Ranges of the loop registers (R205, R239). -/
def rangesLoop : List FieldRange := [
  ⟨F.LOOPn_FSW_DMAX, 1, 255⟩, ⟨F.LOOPn_FSW_PERIOD, 1600, 16000⟩, ⟨F.LOOPn_TARGET_MARGIN, -100, 100⟩,
  ⟨F.LOOPn_TARGET_VREF, 0, 8000⟩, ⟨F.LOOPn_SS_SLEW, 1, 1000⟩, ⟨F.LOOPn_SS_PG_WIN, 1, 255⟩,
  ⟨F.LOOPn_PWM_BLANK, 0, 8⟩, ⟨F.LOOPn_SHED_ADD_I, 1, 255⟩, ⟨F.LOOPn_SHED_SHED_T, 1, 255⟩, ⟨F.LOOPn_SHED_NMIN, 1, 24⟩,
  ⟨F.LOOPn_HINT_LEAD, 5, 200⟩, ⟨F.LOOPn_HINT_GUARD, 0, 100⟩, ⟨F.LOOPn_HINT_STEP, 1, 2000⟩,
  ⟨F.LOOPn_HINT2_FF_ADV, 0, 200⟩, ⟨F.LOOPn_HINT2_UW_STEP, 1, 255⟩, ⟨F.LOOPn_HINT2_COUT, 1, 4095⟩,
  ⟨F.LOOPn_BRAKE_BRK_ON, 2, 255⟩, ⟨F.LOOPn_BRAKE_BRK_TMAX, 1, 255⟩, ⟨F.LOOPn_OCP_IPK_LIM, 201, 1022⟩,
  ⟨F.LOOPn_OVLD_OVL_I, 0, 4094⟩, ⟨F.LOOPn_OVLD_T_NBIN, 63, 6250⟩] ++ [
  ⟨F.LOOPn_PHFLT_IMB_I, 1, 255⟩, ⟨F.LOOPn_PHFLT_IMB_N, 1, 15⟩, ⟨F.LOOPn_PHFLT_PLA_N, 1, 15⟩,
  ⟨F.LOOPn_PHFLT_CAP_FLOOR, 1, 24⟩, ⟨F.LOOPn_PHFLT2_L_PH, 10, 50000⟩, ⟨F.LOOPn_PHFLT2_VIN_NOM, 10, 700⟩,
  ⟨F.LOOPn_SENSE_SNS_DEV, 1, 255⟩, ⟨F.LOOPn_SENSE_SNS_N, 1, 15⟩, ⟨F.LOOPn_THR_THR_N, 1, 255⟩,
  ⟨F.LOOPn_THR_THR_HOLD, 1, 65535⟩, ⟨F.LOOPn_OPTB2_PER_MAX, 1600, 16000⟩, ⟨F.LOOPn_OPTB2_PER_MIN, 1600, 16000⟩]

/-- Ranges of the channel registers (R275). -/
def rangesChan : List FieldRange := [
  ⟨F.CHn_CFG_RSH, 100, 65535⟩, ⟨F.CHn_CFG_DECAY_T, 1, 255⟩, ⟨F.CHn_INRUSH_SR, 1, 500⟩, ⟨F.CHn_INRUSH_TSTART, 1, 255⟩,
  ⟨F.CHn_LIMIT_ILIM_SS, 1, 4094⟩, ⟨F.CHn_PG_VGS_FULL, 70, 110⟩, ⟨F.CHn_PG_VDS_PG, 1, 255⟩,
  ⟨F.CHn_RETRY_RETRY_DLY, 1, 255⟩, ⟨F.CHn_RETRY_RETRY_HYS, 1, 50⟩, ⟨F.CHn_RETRY_RETRY_CLR, 1, 255⟩,
  ⟨F.CHn_PAIR_BRK_DLY, 1, 255⟩, ⟨F.CHn_PAIR_IREV, 1, 255⟩, ⟨F.CHn_PAIR_VFWD_ON, 1, 255⟩,
  ⟨F.CHn_PAIR2_STBY_UV, 1, 640⟩]

/-- Ranges of the sequencer's registers (R312, R313). -/
def rangesSeq : List FieldRange := [
  ⟨F.SEQ_MRG_CFG_STEP, 1, 1000⟩, ⟨F.SEQ_MRG_CFG_RATE, 1, 255⟩, ⟨F.SEQ_RAILn_CTRL_MARGIN, -100, 100⟩,
  ⟨F.SEQ_RAILn_CFG_STOP_T, 1, 255⟩, ⟨F.SEQ_RAILn_CFG_LOSS_T, 0, 1000⟩]

/-- Ranges of the measurement, monitor and thermal registers (R337, R338, R354). -/
def rangesMeas : List FieldRange := [
  ⟨F.MEASm_CFG_URG_SPLIT, 0, 32⟩, ⟨F.MEAS_METERk_CFG_VSCALE, 0x1000, 0xFFFF⟩, ⟨F.MEAS_REFCHK_REF_TOL, 1, 255⟩,
  ⟨F.MONn_CFG_MODE, 0, 2⟩, ⟨F.MONn_CFG_FILT_N, 0, 5⟩, ⟨F.MON_TEST_DW_DWELL, 1, 255⟩, ⟨F.THM_CTRL_SHED_STEP, 1, 255⟩,
  ⟨F.THM_NTCk_CFG_R25, 100, 65535⟩, ⟨F.THM_NTCk_CFG_B, 1000, 8191⟩, ⟨F.THM_NODEn_TH_HYS, 2, 20⟩,
  ⟨F.THM_NODEn_ACT_SHED_D, 0, 8⟩, ⟨F.THM_NODEn_P1_TFIX, -40, 125⟩]

/-- Ranges of the power path's registers (R400). -/
def rangesPower : List FieldRange := [
  ⟨F.PWRP_CFG_NCELL, 4, 12⟩, ⟨F.PWRP_CFG_IFAST, 10, 255⟩, ⟨F.PWRP_CFG_IPRE, 1, 50⟩, ⟨F.PWRP_CFG_ITOP, 1, 50⟩,
  ⟨F.PWRP_CHG2_TPRE_MAX, 1, 255⟩, ⟨F.PWRP_CHG2_TFAST_MAX, 10, 255⟩, ⟨F.PWRP_EOC_DV, 0, 20⟩, ⟨F.PWRP_EOC_DTDT, 0, 50⟩,
  ⟨F.PWRP_EOC_THOLD, 1, 15⟩, ⟨F.PWRP_SW_SRC_UV, 60, 200⟩, ⟨F.PWRP_SW_SRC_HYS, 1, 15⟩, ⟨F.PWRP_SW_VGS_FULL, 0, 8⟩,
  ⟨F.PWRP_SHUNT_RSH_BAT, 1000, 65535⟩, ⟨F.PWRP_SHUNT_RSH_SRC, 100, 65535⟩, ⟨F.PWRP_PTH_R25, 100, 65535⟩,
  ⟨F.PWRP_PTH_B, 1000, 8191⟩]

/-- Ranges of the remaining registers (R102, R175, R375, R421, R472, R501). -/
def rangesRest : List FieldRange := [
  ⟨F.ESC_ARM_CMD_OP, 0, 2⟩, ⟨F.HIER_RA_CMD_OP, 1, 3⟩, ⟨F.HIER_CMT_CMD_OP, 1, 8⟩, ⟨F.HIER_DLV_CMD_OP, 1, 3⟩, ⟨F.HIER_STG_ADDR_WORD, 0, 6143⟩,
  ⟨F.FLT_CMD_OP, 1, 4⟩, ⟨F.KEEP_CMD_OP, 1, 5⟩, ⟨F.PE_WIN_SEL_PAGE, 0, 11⟩, ⟨F.KEEP_CFG_TRIM, -127, 127⟩, ⟨F.PEn_WD_LIMIT, 1, 65535⟩,
  ⟨F.MEM_SCRUB_MODE, 0, 1⟩, ⟨F.MEM_SCRUB_LAP_MAX, 1, 255⟩, ⟨F.MEM_SCRUB_INTERVAL, 1, 65535⟩,
  ⟨F.MEM_CHK_ADDR_REGION, 0, 11⟩]

/-- The ranges of the fields of the register whose copy 0 lies at `base`. -/
def rangesOf (base : Nat) : List FieldRange :=
  (rangesLoop ++ rangesChan ++ rangesSeq ++ rangesMeas ++ rangesPower ++ rangesRest).filter (fun r => r.fld.base == base)

/-- A code that a group or loop field admits: a number up to 7, or the code for none. -/
def codeOr (v none' : Nat) (n : Nat) : Bool := decide (v < n) || v == none'

/-- The thresholds that are not off ascend, and each minus HYS is at least code 0 (R348). -/
def thresholdsOk (w : Word) : Bool :=
  let t := ([bitsOf w 8 8, bitsOf w 16 8, bitsOf w 24 8]).filter (fun v => v != 255)
  let hys := bitsOf w 0 5
  t.all (fun v => decide (hys ≤ v)) && (t.zip (t.drop 1)).all (fun p => decide (p.1 < p.2))

/-- ARG of a handler slot lies in the range its TRIG gives (R460). -/
def triggerOk (w : Word) : Bool :=
  let arg := bitsOf w 16 12
  match bitsOf w 28 4 with
  | 0 => arg == 0
  | 1 => arg == 0
  | 2 => arg == 0
  | 3 => decide (arg ≤ 255)
  | 4 => decide (arg ≤ 24)
  | 5 => decide (arg ≤ 15)
  | 6 => decide (arg ≤ 3)
  | 7 => decide (arg ≤ 127)
  | 8 => decide (arg ≤ 63)
  | _ => false

/-- Would the host bus answer to a reserved address (R437)? -/
def hostAnswersReserved (addr mask : Word) : Bool :=
  let low (a : Nat) : Bool := decide (a ≤ 7) || decide (0x78 ≤ a)
  if bitOf mask 31 then
    (List.range 128).any (fun a => low a && ((a ^^^ bitsOf addr 0 7) &&& (127 - bitsOf mask 0 7)) == 0)
  else (List.range 4).any (fun k => bitOf addr (8 * k + 7) && low (bitsOf addr (8 * k) 7))

/-- Does the safe-stop set keep the local parents of each rail it keeps (R359)? -/
def State.safeClosed (s : State) (lo hi : Word) : Bool :=
  let kept (n : Nat) : Bool := if n < 32 then bitOf lo n else bitOf hi (n - 32)
  s.usedRails.all (fun n => !kept n || (s.parents n).all (fun p =>
    !s.parentLocal p || match s.railOfPoint p with | some r => kept r | none => true))

/-- Is the entry whose MASK bit a word sets of SOURCE 0xFF (R48, R318)? -/
def State.maskOk (s : State) (m : Nat) (w : Word) : Bool :=
  (List.range 32).all (fun e => !bitOf w e || entSource (s.entWord m e) != 0xFF)

/-- P0 or P1 of node `n` as a write leaves it (R342). -/
def State.nodeOk (s : State) (n : Nat) (p0 p1 : Word) : Bool :=
  let rth := bitsOf p0 16 16
  let cth := bitsOf p0 0 16
  let ref := bitsOf p1 24 8
  let used := if nodeBoard n then decide (0 < rth ∧ 0 < cth) else s.nodeUsed n
  (!used || decide (10 ≤ rth * cth)) &&
    (ref == 0xFF || (nodeBoard ref && (!nodeBoard n || decide (ref < n))))

/-- The values of RATE (R315). -/
def rateCodes : List Nat := [2, 5, 10, 20, 50, 100, 250, 500, 1000, 2000, 4000, 10000]

/-- May a rail's MARGIN hold a value other than 0 (R302)? -/
def State.marginAllowed (s : State) (n : Nat) : Bool :=
  s.railKind n != 3 && !(s.railKind n == 2 && s.rlMrg n == 0xFF)

/-- The rules that bind the fields of loop registers to one another (R205, R239), for the register at offset `o`. -/
def State.loopRules (s : State) (n o : Nat) (w : Word) : Bool :=
  let g (f : Fld) : Nat := bitsOf w f.lo f.width
  if o = 3 then decide (g F.LOOPn_ALIGN_OFS < s.get F.LOOPn_FSW_PERIOD n)
  else if o = 9 then decide (g F.LOOPn_CLAMP_IMIN_PH ≤ g F.LOOPn_CLAMP_IMAX_PH)
  else if o = 0xC then decide (g F.LOOPn_SHED_SHED_I < g F.LOOPn_SHED_ADD_I)
  else if o = 0x12 then decide (g F.LOOPn_BRAKE_BRK_OFF < g F.LOOPn_BRAKE_BRK_ON)
  else if o = 0x13 then decide (g F.LOOPn_OCP_IPK_LIM < g F.LOOPn_OCP_ISC)
  else if o = 0x14 then g F.LOOPn_OVLD_OVL_I == 0 || decide (g F.LOOPn_OVLD_OVL_I < g F.LOOPn_OVLD_OVL_PK)
  else if o = 0x1C then decide (g F.LOOPn_OPTB0_ADD_MIN ≤ g F.LOOPn_OPTB0_ADD_MAX ∧
      g F.LOOPn_OPTB0_SHED_MIN ≤ g F.LOOPn_OPTB0_SHED_MAX)
  else if o = 0x1D then decide (g F.LOOPn_OPTB1_DTR_MIN ≤ g F.LOOPn_OPTB1_DTR_MAX ∧
      g F.LOOPn_OPTB1_DTF_MIN ≤ g F.LOOPn_OPTB1_DTF_MAX)
  else if o = 0x1E then decide (g F.LOOPn_OPTB2_PER_MIN ≤ g F.LOOPn_OPTB2_PER_MAX)
  else true

/-- The same for channel registers (R243, R259, R264, R275). -/
def State.chanRules (s : State) (n o : Nat) (w : Word) : Bool :=
  let g (f : Fld) : Nat := bitsOf w f.lo f.width
  if o = 2 then codeOr (g F.CHn_CFG_SHED_GRP) 15 8 && decide (s.get F.CHn_LIMIT_ISC n * g F.CHn_CFG_RSH ≤ 320000)
  else if o = 4 then decide (g F.CHn_LIMIT_ILIM_SS < g F.CHn_LIMIT_ISC) &&
      decide (g F.CHn_LIMIT_ISC * s.get F.CHn_CFG_RSH n ≤ 320000)
  else if o = 7 then !(g F.CHn_PAIR_EN == 1 && s.cell (24 + n) % 4 == 1)
  else if o = 8 then decide (g F.CHn_PAIR2_STBY_FLOOR < g F.CHn_PAIR2_STBY_UV)
  else true

/-- The same for monitor registers (R329). -/
def monRules (cfg th : Word) : Bool :=
  decide (bitsOf th 0 10 + bitsOf cfg 16 4 ≤ 1023 ∧ bitsOf cfg 20 4 ≤ bitsOf th 16 10)

/-- Does a word of THM_LOOPn_STG leave RTH × CTH of every stage node that it makes used at least 10 (R340, R342)? -/
def State.stageOk (s : State) (n : Nat) (w : Word) : Bool :=
  bitsOf w F.THM_LOOPn_STG_P0.lo F.THM_LOOPn_STG_P0.width == 0 || (List.range 24).all (fun i =>
    s.cell i != 1 || s.loopOfPhase i != some n ||
      decide (10 ≤ s.get F.THM_NODEn_P0_RTH (8 + i) * s.get F.THM_NODEn_P0_CTH (8 + i)))

/-- The same for window bounds: LO ≤ HI of the entry (R322). -/
def State.windowOk (s : State) (a : Nat) (w : Word) : Bool :=
  let o := (a - 0x4000) % 0xC0
  let v (x : Word) : Int := toS 24 x.toNat
  if 0x60 ≤ o ∧ o < 0x80 then decide (v w ≤ v (s.reg (a + 0x20)))
  else if 0x80 ≤ o ∧ o < 0xA0 then decide (v (s.reg (a - 0x20)) ≤ v w)
  else true

/-- The same for thermal registers (R342, R344, R348, R354). -/
def State.thermRules (s : State) (a : Nat) (w : Word) : Bool :=
  let node := a % 128
  if 0x4828 ≤ a ∧ a ≤ 0x482B then
    let n := bitsOf w 0 8
    n == 0xFF || nodeStage n || nodeBoard n
  else if 0x4808 ≤ a ∧ a < 0x4810 then s.stageOk (a - 0x4808) w
  else if 0x4980 ≤ a ∧ a < 0x4A00 then thresholdsOk w
  else if 0x4A00 ≤ a ∧ a < 0x4A80 then codeOr (bitsOf w 24 4) 15 8
  else if nodeFet node || nodeWire1 node || nodeWire2 node then true
  else if 0x4A80 ≤ a ∧ a < 0x4B00 then s.nodeOk node w (s.reg (F.THM_NODEn_P1.addr node))
  else if 0x4B00 ≤ a ∧ a < 0x4B80 then s.nodeOk node (s.reg (F.THM_NODEn_P0.addr node)) w
  else true

/-- The same for the power path (R400). -/
def State.powerRules (s : State) (a : Nat) (w : Word) : Bool :=
  let g (f : Fld) : Nat := bitsOf w f.lo f.width
  if a = F.PWRP_CFG.base then !s.on F.PWRP_CHG2_IFAST_HI || decide (g F.PWRP_CFG_IFAST ≤ 150)
  else if a = F.PWRP_CHG2.base then g F.PWRP_CHG2_IFAST_HI == 0 || decide (s.get F.PWRP_CFG_IFAST ≤ 150)
  else if a = F.PWRP_TLIM.base then decide (g F.PWRP_TLIM_TCHG_HI < g F.PWRP_TLIM_TMAX)
  else if a = F.PWRP_VCELL.base then decide (g F.PWRP_VCELL_VCUT < g F.PWRP_VCELL_VAVAIL)
  else if a = F.PWRP_SW.base then codeOr (g F.PWRP_SW_AVAIL_RAIL) 0xFF 64
  else true

/-- The rules that bind fields to one another, by block. -/
def State.rulesOk (s : State) (a : Nat) (w : Word) : Bool :=
  match blockOf a with
  | 1 => !(a == F.CAL_LOAD_CTRL.base && bitsOf w 0 2 == 3)
  | 5 => s.loopRules ((a - 0x2000) / 0x100) (a % 0x100) w
  | 7 => s.chanRules ((a - 0x3000) / 0x40) (a % 0x40) w
  | 8 =>
    if 0x3840 ≤ a ∧ a < 0x3A40 ∧ a % 8 = 0 then bitsOf w 8 8 == 0 || s.marginAllowed ((a - 0x3840) / 8) else true
  | 9 =>
    if a < 0x4300 ∧ (a - 0x4000) % 0xC0 = 0 then s.maskOk ((a - 0x4000) / 0xC0) w
    else if a < 0x4300 ∧ (a - 0x4000) % 0xC0 = 1 then rateCodes.contains (bitsOf w 0 14)
    else if a < 0x4300 then s.windowOk a w
    else true
  | 10 =>
    if a < 0x4500 ∧ a % 4 = 0 then monRules w (s.reg (a + 1))
    else if a < 0x4500 ∧ a % 4 = 1 then monRules (s.reg (a - 1)) w
    else true
  | 11 => s.thermRules a w
  | 12 =>
    if a = F.FLT_SEL.base then decide (bitsOf w 0 10 < (if bitOf w 31 then 768 else 256))
    else if a = F.FLT_SAFE_RAIL.base then s.safeClosed w (s.reg (F.FLT_SAFE_RAIL.base + 1))
    else if a = F.FLT_SAFE_RAIL.base + 1 then s.safeClosed (s.reg F.FLT_SAFE_RAIL.base) w
    else true
  | 14 => s.powerRules a w
  | 16 =>
    if a = F.HOST_ADDR.base then !hostAnswersReserved w (s.reg F.HOST_MASK.base)
    else if a = F.HOST_MASK.base then !hostAnswersReserved (s.reg F.HOST_ADDR.base) w
    else true
  | 17 => if a < 0x6200 ∧ 8 ≤ a % 0x40 ∧ a % 0x40 < 0x18 ∧ a % 2 = 0 then triggerOk w else true
  | 18 =>
    if a = F.MEM_CHK_ADDR.base then decide (bitsOf w 0 14 < regionWords (bitsOf w 16 4)) else true
  | _ => true

/-- Does a word written to a register hold a reserved encoding (R13)? -/
def State.reservedWord (s : State) (a : Nat) (w : Word) : Bool :=
  match regDef a with
  | none => false
  | some d => !((rangesOf d.base).all (fun r => r.admits w) && s.rulesOk a w)

end Sys2Proof.Machine
end

