-- ==== Sys2Proof/Machine/Store.lean ====
section
/-! DEFINITION. What a granted word leaves in its register and what follows from it, for registers whose fields are
settings (R12): locks, banked copies, and the follow-ups each chapter gives a changed setting. -/

namespace Sys2Proof.Machine

/-! ### Blocks (R16, R29) -/

/-- Block that grants an access to a word: for a point the block of the object it names (R150). For a counter point, whose
INDEX names no counter that a chapter gives, and for an empty point no rule names a block: they are granted apart from
every other (DESIGN CHOICE, log entry 7). -/
def State.grantBlock (s : State) (a : Nat) : Nat :=
  let b := blockOf a
  if b = 21 then 17
  else if b = 23 then 2
  else if b = 22 then
    match (s.pointRec (a - 0x9000)).1 with
    | 1 => 8
    | 2 => 6
    | 3 => 5
    | 4 => 7
    | 5 => 10
    | 6 => 9
    | 7 => 11
    | 9 => 15
    | _ => 22
  else b

/-- A write of ranks 1 to 3 takes the block it reaches for this cycle (R29). -/
def State.occupy (a : Nat) (s : State) : State := { s with occupied := s.occupied ++ [s.grantBlock a] }

/-! ### Storing a word -/

/-- Key of a register for a party: its own copy where the register is banked (R102). -/
def bankKey (d : RegDef) (p : Party) (a : Nat) : Nat := if d.banked then a + 65536 * p.code else a

/-- What a write leaves in a register: within the mask, RW bits take the written value and W1C bits written 1 clear. -/
def mergedWord (d : RegDef) (old w m : Word) : Word :=
  ((old &&& ~~~(d.rw &&& m)) ||| (w &&& d.rw &&& m)) &&& ~~~(w &&& d.w1c &&& m)

/-- Is the register fixed by a lock (R237, R375), or does it ignore writes by its place (R175, R354)? -/
def State.writeLocked (s : State) (a : Nat) : Bool :=
  let o := a % 0x100
  if blockOf a = 5 then decide (0x1C ≤ o ∧ o ≤ 0x1E) && s.on F.LOOPn_OPTB1_LOCK ((a - 0x2000) / 0x100)
  else if 0x4C03 ≤ a ∧ a ≤ 0x4C06 then s.on F.FLT_LOCK_LOCK
  else if 0x4A80 ≤ a ∧ a < 0x4B80 then decide (32 ≤ a % 128 ∧ a % 128 < 104)
  else if a = F.HIER_CMT_TGT.base ∨ a = F.HIER_CMT_TGT.base + 1 then s.get F.HIER_CMT_STAT_PHASE != 0
  else false

/-- Before a word of a loop, of a phase or of a thermal node's parameters changes (R201, R353). -/
def State.beforeStore (a : Nat) (s : State) : State :=
  if blockOf a = 5 then s.loopTouch ((a - 0x2000) / 0x100)
  else if blockOf a = 6 then
    match s.loopOfPhase ((a - 0x2800) / 0x20) with
    | some n => s.loopTouch n
    | none => s
  else if (0x4808 ≤ a ∧ a < 0x4810) ∨ (0x4980 ≤ a ∧ a < 0x4B80) then s.keepParam a
  else s

/-- A port that its enable bit turns off sends nothing and receives nothing (R144): a port that was up goes down as by its
receiver, with its record and its heal, as R372 uses it to test link loss (DEDUCED, log entry 54). -/
def State.portsFollow (s : State) : State :=
  (List.range 2).foldl (fun s p =>
    if !s.portEn p && s.portState p != portDownSt then s.portGoesDown p false else s) s

/-- What follows from a changed word of the LINK block. -/
def State.linkStored (a : Nat) (s : State) : State :=
  if a = F.LINK_CTRL.base then s.portsFollow
  else if a = F.LINK_PH_CTRL.base then s.showPhantom
  else if a = F.LINK_PH_STAT.base then ((s.phantomCleared 0).phantomCleared 1).phantomCleared 2
  else s

/-- What follows from a changed word of the LOOP block: a loop that is off takes it at once, THROTTLEn# with it (R201, R230). -/
def State.loopStored (a : Nat) (s : State) : State :=
  let n := (a - 0x2000) / 0x100
  if a % 0x100 = 0x1A ∧ !s.loopOn n then s.throttle n else s

/-- What follows from a write of the CHAN block: ON and PMODE, changed or not, take effect in the next cycle (R248). -/
def State.chanStored (a : Nat) (m : Word) (s : State) : State :=
  let n := (a - 0x3000) / 0x40
  let o := a % 0x40
  if o = 0 ∧ bitOf m 0 then s.writeChOn n (s.on F.CHn_CTRL_ON n)
  else if o = 7 ∧ bitOf m 30 then s.writePmode n (s.on F.CHn_PAIR_PMODE n)
  else s

/-- What follows from a changed word of the SEQ block (R303, R305). -/
def State.seqStored (a : Nat) (m : Word) (s : State) : State :=
  if 0x3840 ≤ a ∧ a < 0x3A40 then
    if a % 8 = 0 ∧ m &&& 0xFF00 ≠ 0 then s.marginForward ((a - 0x3840) / 8) else s
  else if 0x3B00 ≤ a ∧ a < 0x3C80 then s.mirrorFreshen ((a - 0x3B00) / 6)
  else s

/-- What follows from a changed word of the MEAS block (R318, R325). -/
def State.measStored (a : Nat) (old : Word) (s : State) : State :=
  if a < 0x4300 then
    if (a - 0x4000) % 0xC0 = 0 then s.maskChanged ((a - 0x4000) / 0xC0) old.toNat else s
  else if a < 0x4340 ∧ a % 4 = 0 then s.showMeter ((a - 0x4300) / 4)
  else s

/-- What follows from a changed word of the THM block: with BAD cleared the run of disagreement begins anew (R346). -/
def State.thermStored (a : Nat) (old : Word) (s : State) : State :=
  if 0x4818 ≤ a ∧ a < 0x4824 then
    let k := a - 0x4818
    if bitOf old 31 && !s.on F.THM_SENSk_BAD k then { s with sens := tset s.sens k { tget s.sens k with run := none } } else s
  else s

/-- What follows from a stored word, by block. -/
def State.afterStore (a : Nat) (old w m : Word) (s : State) : State :=
  match blockOf a with
  | 0 =>
    if a = F.SYS_ARB_DROP.base ∧ bitOf (w &&& m) 31 then s.setReg a 0 else s
  | 3 => s.linkStored a
  | 5 => s.loopStored a
  | 4 => if a = F.HIER_SREF.base ∧ bitOf (w &&& m) 31 then (s.setReg a 0).setReg F.HIER_SREF_ID.base 0 else s
  | 7 => s.chanStored a m
  | 8 => s.seqStored a m
  | 9 => s.measStored a old
  | 10 => if a < 0x4500 ∧ a % 4 = 0 then s.monModeMove ((a - 0x4400) / 4) else s
  | 11 => s.thermStored a old
  | 14 => s.pwrpStored a
  | _ => s

/-- A word is stored in the register at `a`, within the bits of the mask, for a party. -/
def State.store (p : Party) (a : Nat) (w m : Word) (s : State) : State :=
  match regDef a with
  | none => s
  | some d =>
    if s.writeLocked a then s
    else
      let k := bankKey d p a
      let old := s.reg k
      ((s.beforeStore a).setReg k (mergedWord d old w m)).afterStore a old w m

/-- Every bit of a word. -/
def allBits : Word := 0xFFFFFFFF

/-! ### Whose writes take effect (R28, R31, R33, R237, R247, R309) -/

/-- A write dropped under R31: SYS_ARB_DROP and a Notice. -/
def State.arbDrop (p : Party) (named : Nat) (s : State) : State :=
  let s := (s.put F.SYS_ARB_DROP_VALID 1).bump F.SYS_ARB_DROP_DROP_CNT
  ((s.put F.SYS_ARB_DROP_WRITER p.code).put F.SYS_ARB_DROP_ADDR named).notice p named

/-- Bits of the register at `a` that a fault reaction holds (R33, R357, R359). -/
def State.heldBits (s : State) (a : Nat) : Word :=
  if blockOf a = 7 ∧ a % 0x40 = 0 then (if s.held (.chan ((a - 0x3000) / 0x40)) then 1 else 0)
  else if 0x3840 ≤ a ∧ a < 0x3A40 ∧ a % 8 = 0 then (if s.held (.rail ((a - 0x3840) / 8)) then 1 else 0)
  else 0

/-- Bits that this party may not write: ON of a channel that a rail targets (R247). -/
def State.closedBits (s : State) (p : Party) (a : Nat) : Word :=
  if blockOf a = 7 ∧ a % 0x40 = 0 ∧ s.railTargetsChan ((a - 0x3000) / 0x40) then
    match p with
    | .seq => 0
    | .reaction => 0
    | _ => 1
  else 0

/-- May the party write this register at all: a manager-only register on a worker, the mirrors and SEQ_HOLD (R144, R175,
R309)? -/
def State.writerOk (s : State) (p : Party) (a : Nat) (d : RegDef) : Bool :=
  if (d.managerOnly || a == F.SEQ_CTRL.base) && !s.isManager then false
  else if (0x3B00 ≤ a ∧ a < 0x3C80) ∨ a = F.SEQ_HOLD.base ∨ a = F.SEQ_HOLD.base + 1 then
    match p with
    | .link => true
    | .seq => s.isManager
    | _ => false
  else true

/-- Does an engine's write leave a field of this register outside LOOPn_OPTB0–2, or name PERIOD of a clocked loop (R237)? -/
def State.engineBounded (s : State) (p : Party) (a : Nat) (w : Word) : Bool :=
  if !isEngine p || blockOf a != 5 then false
  else
    let n := (a - 0x2000) / 0x100
    let o := a % 0x100
    let out (f lo hi : Fld) : Bool :=
      let v := bitsOf w f.lo f.width
      decide (v < s.get lo n) || decide (s.get hi n < v)
    if o = 2 then s.loopClock n != 0 || out F.LOOPn_FSW_PERIOD F.LOOPn_OPTB2_PER_MIN F.LOOPn_OPTB2_PER_MAX
    else if o = 0xB then out F.LOOPn_PWM_DT_RISE F.LOOPn_OPTB1_DTR_MIN F.LOOPn_OPTB1_DTR_MAX ||
      out F.LOOPn_PWM_DT_FALL F.LOOPn_OPTB1_DTF_MIN F.LOOPn_OPTB1_DTF_MAX
    else if o = 0xC then out F.LOOPn_SHED_ADD_I F.LOOPn_OPTB0_ADD_MIN F.LOOPn_OPTB0_ADD_MAX ||
      out F.LOOPn_SHED_SHED_I F.LOOPn_OPTB0_SHED_MIN F.LOOPn_OPTB0_SHED_MAX
    else false

/-- The word a write of some bits would give a register, for the checks of R13: other bits as they stand. -/
def State.wouldBe (s : State) (p : Party) (a : Nat) (w m : Word) : Word :=
  match regDef a with
  | none => w
  | some d => (s.reg (bankKey d p a) &&& ~~~ m) ||| (w &&& m)

/-- A granted write of the bits `m` of a word to a register of settings, `named` being the address the writer gave. -/
def State.ownedStore (p : Party) (named a : Nat) (w m : Word) (s : State) : State :=
  match regDef a with
  | none => s.notice p named
  | some d =>
    let v := s.wouldBe p a w m
    if !s.writerOk p a d then s.notice p named
    else if s.reservedWord a v || s.engineBounded p a v then s.notice p named
    else
      let held := if p = .reaction then 0 else s.heldBits a &&& m
      let s1 := if held != 0 then s.arbDrop p named else s
      let closed := s.closedBits p a &&& m &&& ~~~ held
      let s2 := if closed != 0 then s1.notice p named else s1
      s2.store p a w (m &&& ~~~ held &&& ~~~ closed)

end Sys2Proof.Machine
end

