-- ==== Sys2Proof/Machine/CalCheck.lean ====
section
/-! DEFINITION. The checks of a caliber image on its bytes and records (R38–R59): header, directory, the ranges of each
section, and the consistency of a configuration. -/

namespace Sys2Proof.Machine

/-! ### Bytes -/

/-- Are the `n` bytes from `o` on all zero? -/
def zeroAt (b : List Byte) (o n : Nat) : Bool := (slice b o n).all (fun x => x == 0)

/-- Consecutive pieces of `size` bytes, `n` of them. -/
def pieces (size : Nat) : Nat → List Byte → List (List Byte)
  | 0, _ => []
  | n + 1, b => b.take size :: pieces size n (b.drop size)

/-- A signed byte. -/
def sByteAt (b : List Byte) (i : Nat) : Int := toS 8 (byteAt b i)

/-- Do the keys strictly rise? -/
def ascending : List Nat → Bool
  | a :: b :: l => decide (a < b) && ascending (b :: l)
  | _ => true

/-! ### Header (R39–R41, R58, R64) -/

/-- FAIL_CODE of the header checks, 0 when they pass, in the order of R58. `dev` is the number a worker holds. -/
def headerCode (manager : Bool) (dev : Option Nat) (step : Nat) (h : List Byte) : Nat :=
  let len := leAt h 0xC 4
  let tagged := byteAt h 9 % 2 == 1
  let no := byteAt h 0x18
  if slice h 0 4 != [0x46, 0x43, 0x41, 0x4C] then 0x01
  else if crc32 (slice h 0 0x30) != leAt h 0x30 4 then 0x02
  else if leAt h 4 2 != 1 || leAt h 6 2 != 0x9480 then 0x03
  else if byteAt h 8 != (if manager then 0 else 1) then 0x04
  else if step < leAt h 0xA 2 then 0x05
  else if len % 4 != 0 || decide (len < (if tagged then 0x164 else 0x144)) || decide (524288 < len) ||
      !(zeroAt h 0x19 3 && zeroAt h 0x34 12) || decide (4 ≤ byteAt h 9) then 0x06
  else if manager then (if no = 0 then 0 else 0x07)
  else if no = 0xFF then 0
  else if decide (1 ≤ no ∧ no ≤ 63) && dev == some no then 0
  else 0x07

/-! ### Directory (R39, R42, R43) -/

/-- KIND, record size (0: varying), least and greatest COUNT of each section type 1 to 12 (R43). -/
def sectionTable : List (Nat × Nat × Nat × Nat) := [
  (0, 176, 1, 1), (0, 32, 8, 8), (2, 32, 64, 64), (1, 96, 0, 24), (1, 8, 64, 64), (1, 136, 4, 4), (1, 8, 0, 512),
  (0, 8, 1, 2048), (0, 36, 0, 256), (1, 0, 0, 8), (1, 16, 1, 1), (1, 8, 0, 4096)]

/-- A directory entry: OFFSET, LENGTH, COUNT. -/
structure DirEntry where
  offset : Nat
  length : Nat
  count : Nat
deriving DecidableEq, Repr, Inhabited

/-- Entry `i` of the directory of an image. -/
def dirEntry (img : List Byte) (i : Nat) : DirEntry :=
  let b := slice img (0x40 + 16 * i) 16
  ⟨leAt b 4 4, leAt b 8 4, leAt b 0xC 2⟩

/-- The entries of the twelve types. -/
def directory (img : List Byte) : List DirEntry := (List.range 12).map (dirEntry img)

/-- Is entry `i` well formed: TYPE, KIND, SFORMAT, and LENGTH by COUNT? -/
def entryForm (img : List Byte) (i : Nat) : Bool :=
  let b := slice img (0x40 + 16 * i) 16
  let e := dirEntry img i
  let row := sectionTable.getD i (0, 0, 0, 0)
  byteAt b 0 == i + 1 && byteAt b 1 == row.1 && leAt b 2 2 == 1 &&
  decide (row.2.2.1 ≤ e.count ∧ e.count ≤ row.2.2.2) &&
  (if e.length = 0 then e.offset == 0 && e.count == 0
   else decide (0 < e.count) && e.offset % 16 == 0 && (row.2.1 == 0 || e.length == e.count * row.2.1))

/-- Offsets ascend without overlap from 0x140 on; answers the end of the last non-empty section. -/
def offsetsEnd : List DirEntry → Nat → Option Nat
  | [], last => some last
  | e :: l, last => if e.length = 0 then offsetsEnd l last else if e.offset < last then none else offsetsEnd l (e.offset + e.length)

/-- Place of the CRC-32 by the header. -/
def crcPlace (img : List Byte) : Nat := leAt img 0xC 4 - (if byteAt img 9 % 2 = 1 then 36 else 4)

/-- The directory checks of R64 (code 0x08). R42 names no code for entries 12 to 15 that are not all zero: they fail with this
one (DESIGN CHOICE, log entry 47). -/
def directoryOk (img : List Byte) : Bool :=
  (List.range 12).all (entryForm img) && zeroAt img 0x100 64 &&
  match offsetsEnd (directory img) 0x140 with
  | some e => ceilTo 4 e == crcPlace img
  | none => false

/-- Records of an ENGINE_PROG body: each 16 + CODE_LEN + DATA_LEN bytes rounded up to 16; none where the body does not
hold exactly COUNT of them (R43, R53). -/
def progRecords : Nat → List Byte → Option (List (List Byte))
  | 0, b => if b.isEmpty then some [] else none
  | n + 1, b =>
    let l := ceilTo 16 (16 + leAt b 4 4 + leAt b 10 2)
    if b.length < 16 ∨ b.length < l then none
    else (progRecords n (b.drop l)).map (fun r => b.take l :: r)

/-- Body of section type `i + 1`. -/
def sectionBody (img : List Byte) (i : Nat) : List Byte :=
  let e := dirEntry img i
  slice img e.offset e.length

/-- Records of every section of an image, by type; none where ENGINE_PROG's lengths do not add up. -/
def imageSections (img : List Byte) : Option (List (List (List Byte))) :=
  match progRecords (dirEntry img 9).count (sectionBody img 9) with
  | none => none
  | some progs => some ((List.range 12).map (fun i =>
      if i = 9 then progs else pieces (sectionTable.getD i (0, 1, 0, 0)).2.1 (dirEntry img i).count (sectionBody img i)))

/-- Directory reserved bytes and the padding between sections are zero (R38). -/
def paddingOk (img : List Byte) : Bool :=
  let ends := (directory img).filter (fun e => e.length != 0)
  (List.range 12).all (fun i => zeroAt img (0x40 + 16 * i + 14) 2) &&
  (ends.foldl (fun (a : Bool × Nat) e => (a.1 && zeroAt img a.2 (e.offset - a.2), e.offset + e.length)) (true, 0x140)).1

/-! ### Ranges of records (code 0x0B) -/

/-- CELL_MAP (R44). -/
def cellMapOk (r : List Byte) : Bool :=
  let each (o n : Nat) (p : Nat → Bool) : Bool := (List.range n).all (fun i => p (byteAt r (o + i)))
  each 0 24 (fun v => decide (v ≤ 1)) && each 24 24 (fun v => decide (v < 8) && v % 4 != 3) &&
  each 48 32 (fun v => decide (v < 16 ∧ v % 4 ≤ 1)) && each 80 64 (fun v => decide (v < 4)) &&
  each 144 16 (fun v => decide (v < 8 ∧ v / 2 % 4 ≠ 3)) && decide (byteAt r 160 < 16) && decide (byteAt r 161 ≤ 1) &&
  codeOr (byteAt r 162) 0xFF 8 && decide (byteAt r 163 ≤ 1) && zeroAt r 164 12

/-- LOOP_MAP (R45). -/
def loopRecOk (r : List Byte) : Bool :=
  if byteAt r 0 = 0 then zeroAt r 0 32
  else byteAt r 0 == 1 && decide (1 ≤ byteAt r 1 ∧ byteAt r 1 ≤ 24) && codeOr (byteAt r 2) 0xFF 4 &&
    decide (byteAt r 3 ≤ 2) && byteAt r 7 == 0 && decide (0x1000 ≤ leAt r 8 2) && zeroAt r 10 22

/-- RAIL_GRAPH (R46). -/
def railRecOk (r : List Byte) : Bool :=
  let kind := byteAt r 0
  let n := byteAt r 3
  if kind = 0 then zeroAt r 0 32
  else
    decide (kind ≤ 3) && decide (byteAt r 1 < (if kind = 1 then 8 else if kind = 2 then 32 else 24)) &&
    decide (byteAt r 2 < 8) && decide (n ≤ 4) &&
    (List.range 4).all (fun i => let w := leAt r (4 + 4 * i) 4; if i < n then decide (w < 2 ^ 17) else w == 0) &&
    decide (10 ≤ leAt r 22 2 ∧ leAt r 22 2 ≤ 10000) && decide (1 ≤ leAt r 24 2 ∧ leAt r 24 2 ≤ 10000) &&
    decide (leAt r 26 2 ≤ 5000) && (byteAt r 28 == 0xFF || (kind == 2 && decide (byteAt r 28 ≤ 7))) && byteAt r 29 == 0

/-- CURVES (R47, R252, R255, R256). -/
def curveRecOk (r : List Byte) : Bool :=
  let w (k : Nat) : Nat := leAt r (4 + 4 * k) 4
  let wire (k : Nat) : Nat := leAt r (52 + 4 * k) 4
  let fet (k : Nat) : Nat := leAt r (76 + 4 * k) 4
  let unit9 (v : Nat) : Bool := decide (1 ≤ v ∧ v ≤ 1000000000)
  let node (v : Nat) : Bool := codeOr v 0xFF 128
  decide (byteAt r 0 ≤ 23) && decide (byteAt r 1 < 4) && zeroAt r 2 2 &&
  (List.range 12).all (fun k => decide (10 ≤ w k / 65536) && w k % 4096 != 0) &&
  decide (256 ≤ wire 0) && wire 0 % 256 != 0 && unit9 (wire 1) && unit9 (wire 2) && unit9 (wire 3) && unit9 (wire 4) &&
  decide (60 ≤ byteAt r 75 ∧ byteAt r 75 ≤ 200) && byteAt r 74 == 0 && node (byteAt r 73) &&
  decide (-40 ≤ sByteAt r 72 ∧ sByteAt r 72 ≤ 125) &&
  unit9 (fet 0) && unit9 (fet 1) && unit9 (fet 2) && decide (100 ≤ byteAt r 91 ∧ byteAt r 91 ≤ 200) &&
  byteAt r 90 == 0 && node (byteAt r 89) && zeroAt r 92 4

/-- MON_ROUTE (R48). -/
def monRecOk (r : List Byte) : Bool :=
  if byteAt r 0 = 0xFF then byteAt r 3 == 0xFF && zeroAt r 1 2 && zeroAt r 4 4
  else
    let m := byteAt r 1
    decide (byteAt r 0 ≤ 63) && decide (m % 4 ≤ 2) && decide (m / 4 % 8 ≤ 5) && decide (m < 32) && decide (byteAt r 2 ≤ 15) &&
    codeOr (byteAt r 3) 0xFF 64 && decide (byteAt r 4 < 4) && zeroAt r 5 3

/-- SCAN_PLAN (R49, R315). -/
def scanRecOk (r : List Byte) : Bool :=
  let mask := leAt r 0 4
  rateCodes.contains (leAt r 4 2) && zeroAt r 6 2 &&
  (List.range 32).all (fun e =>
    let o := 8 + 4 * e
    if byteAt r o = 0xFF then leAt r o 4 == 0x00FF00FF && !mask.testBit e
    else decide (byteAt r o ≤ 0x5B) && decide (byteAt r (o + 1) < 4) && codeOr (byteAt r (o + 2)) 0xFF 16 &&
      byteAt r (o + 3) == 0)

/-- FAULT_MAP (R50, R356). -/
def faultRecOk (r : List Byte) : Bool :=
  let re := byteAt r 4
  srcListed (leAt r 0 2) && byteAt r 2 == srcClass (leAt r 0 2) && decide (byteAt r 3 ≤ 4) && decide (re ≤ 2) &&
  (if re = 0 then byteAt r 5 == 0 else if re = 1 then decide (byteAt r 5 ≤ 7) else true) && zeroAt r 6 2

/-- Objects of a point kind, and the ACCESS bits it allows (R151). -/
def pointKinds : List (Nat × Nat) :=
  [(0, 0), (64, 7), (24, 3), (8, 7), (24, 7), (64, 1), (128, 1), (128, 1), (256, 1), (64, 3)]

/-- POINT_TABLE (R51, R151). -/
def pointRecOk (r : List Byte) : Bool :=
  let k := pointKinds.getD (byteAt r 2) (0, 0)
  decide (leAt r 0 2 ≤ 2047) && decide (byteAt r 3 < k.1) && (byteAt r 4 &&& k.2) == byteAt r 4 && zeroAt r 5 3

/-- May an action of a seeded entry name its address (R80), with the points of the image? -/
def seedTarget (points : List (List Byte)) (a : Action) : Bool :=
  let m : Word := BitVec.ofNat 32 ((2 ^ a.width - 1) * 2 ^ a.lsb)
  decide (a.lsb ≤ 31) && decide (1 ≤ a.width ∧ a.width ≤ 32) && decide (a.lsb + a.width ≤ 32) &&
  decide (a.value < 2 ^ a.width) &&
  match regDef a.addr with
  | some d => strikeBlocks.contains (blockOf a.addr) && ((d.rw &&& ~~~ d.soft) &&& m == m)
  | none => decide (0x9000 ≤ a.addr ∧ a.addr < 0x9800) &&
      points.any (fun r => leAt r 0 2 == a.addr - 0x9000 && (byteAt r 4).testBit 2)

/-- A seeded entry within R80. FIRST_DEV 0 of a manager's hierarchy slot is left to the consistency checks (R82). -/
def seedRecOk (manager : Bool) (points : List (List Byte)) (r : List Byte) : Bool :=
  let b := r.drop 4
  let b := if manager && entryScope b == 1 && entryFirst b == 0 then
      b.take 28 ++ [1, if entryLast b = 0 then 1 else BitVec.ofNat 8 (entryLast b)] ++ b.drop 30 else b
  zeroAt r 1 3 && entryOkWith manager (seedTarget points) b

/-- ENGINE_PROG (R53). -/
def progRecOk (r : List Byte) : Bool :=
  let code := leAt r 4 4
  let len := leAt r 10 2
  decide (byteAt r 0 ≤ 7) && decide (byteAt r 1 ≤ 1) && zeroAt r 2 2 && decide (4 ≤ code ∧ code ≤ 16384) && code % 4 == 0 &&
  leAt r 8 2 % 4 == 0 && len % 4 == 0 && decide (leAt r 8 2 + len ≤ 40960) && zeroAt r 12 4 &&
  zeroAt r (16 + code + len) (r.length - (16 + code + len))

/-- BEAT_PLAN (R54, R98). -/
def beatRecOk (manager : Bool) (r : List Byte) : Bool :=
  (if manager then decide (25 ≤ leAt r 0 4 ∧ leAt r 0 4 ≤ 1500000) else leAt r 0 4 == 0) && decide (leAt r 4 4 < 512) &&
  zeroAt r 8 8

/-- The range check of a record of section type `t`; REG_PRESET is checked where its values are written. -/
def recordOk (manager : Bool) (points : List (List Byte)) (t : Nat) (r : List Byte) : Bool :=
  match t with
  | 1 => cellMapOk r
  | 2 => loopRecOk r
  | 3 => railRecOk r
  | 4 => curveRecOk r
  | 5 => monRecOk r
  | 6 => scanRecOk r
  | 7 => faultRecOk r
  | 8 => pointRecOk r
  | 9 => seedRecOk manager points r
  | 10 => progRecOk r
  | 11 => beatRecOk manager r
  | _ => true

/-! ### Consistency (code 0x0C) -/

/-- The configuration to be checked. -/
structure Plan where
  manager : Bool
  dev : Nat
  secs : List (List (List Byte))
deriving DecidableEq, Repr

/-- Records of a type. -/
def Plan.recs (p : Plan) (t : Nat) : List (List Byte) := p.secs.getD (t - 1) []

/-- Record `i` of a type. -/
def Plan.rcd (p : Plan) (t i : Nat) : List Byte := (p.recs t).getD i []

/-- CELL_MAP byte. -/
def Plan.cell (p : Plan) (b : Nat) : Nat := byteAt (p.rcd 1 0) b

/-- No value stands twice. -/
def distinctNats (l : List Nat) : Bool := decide l.Nodup

/-- Loops: phases, NPH, hint pins. -/
def Plan.loopsOk (p : Plan) : Bool :=
  let used := (p.recs 2).filter (fun r => byteAt r 0 == 1)
  let phases (r : List Byte) : List Nat := (List.range 24).filter (fun i => (leAt r 4 4).testBit i)
  distinctNats (used.flatMap phases) && (used.flatMap phases).all (fun i => p.cell i == 1) &&
  used.all (fun r => byteAt r 1 == (phases r).length) &&
  distinctNats ((used.map (fun r => byteAt r 2)).filter (fun h => h != 0xFF))

/-- The parents of a rail record. -/
def recParents (r : List Byte) : List Nat := (List.range (min 4 (byteAt r 3))).map (fun i => leAt r (4 + 4 * i) 4 % 2 ^ 17)

/-- Is a parent local (R279)? -/
def Plan.localParent (p : Plan) (q : Nat) : Bool := q / 2048 == p.dev || (p.dev == 0xFF && q / 2048 == 0)

/-- The rail that a point of the device names. -/
def Plan.pointRail (p : Plan) (q : Nat) : Option Nat :=
  ((p.recs 8).find? (fun r => leAt r 0 2 == q % 2048 && byteAt r 2 == 1)).map (fun r => byteAt r 3)

/-- Take rails whose local parents have all been taken, until none is left or none can be taken. -/
def acyclic (parents : Nat → List Nat) : Nat → List Nat → List Nat → Bool
  | 0, left, _ => left.isEmpty
  | fuel + 1, left, done =>
    let go := left.filter (fun n => (parents n).all (fun q => done.contains q))
    if left.isEmpty then true
    else if go.isEmpty then false
    else acyclic parents fuel (left.filter (fun n => !go.contains n)) (done ++ go)

/-- Rails: targets, parents, cycle, MRG pins (R64, R279). -/
def Plan.railsOk (p : Plan) : Bool :=
  let used := (List.range 64).filter (fun n => byteAt (p.rcd 3 n) 0 != 0)
  let targetUsed (r : List Byte) : Bool :=
    match byteAt r 0 with
    | 1 => byteAt (p.rcd 2 (byteAt r 1)) 0 == 1
    | 2 => p.cell (48 + byteAt r 1) % 4 == 1
    | _ => p.cell (24 + byteAt r 1) % 4 != 0
  let pars (n : Nat) : List Nat := recParents (p.rcd 3 n)
  let all' := used.flatMap pars
  let remote := (all'.filter (fun q => !p.localParent q)).eraseDups
  used.all (fun n => targetUsed (p.rcd 3 n)) &&
  distinctNats (used.map (fun n => 256 * byteAt (p.rcd 3 n) 0 + byteAt (p.rcd 3 n) 1)) &&
  (p.dev != 0xFF || all'.all (fun q => q / 2048 == 0)) &&
  all'.all (fun q => if p.localParent q then (p.pointRail q).isSome else decide (q % 2048 < 64)) &&
  decide (remote.length ≤ 8) &&
  distinctNats ((used.filter (fun n => byteAt (p.rcd 3 n) 0 == 2 && byteAt (p.rcd 3 n) 28 != 0xFF)).map
    (fun n => byteAt (p.rcd 3 n) 28)) &&
  acyclic (fun n => ((pars n).filter p.localParent).filterMap p.pointRail) 65 used []

/-- Curves: order, a record for every used channel, points in order, and the models' time constants (R47, R253, R255). -/
def Plan.curvesOk (p : Plan) : Bool :=
  let recs := p.recs 4
  let t (w : Nat) : Nat := w % 4096 * 2 ^ (w / 4096 % 16)
  ascending (recs.map (fun r => byteAt r 0)) &&
  (List.range 24).all (fun c => p.cell (24 + c) % 4 == 0 || recs.any (fun r => byteAt r 0 == c)) &&
  recs.all (fun r =>
    let w (k : Nat) : Nat := leAt r (4 + 4 * k) 4
    (List.range 11).all (fun k => decide (w k / 65536 < w (k + 1) / 65536) && decide (t (w (k + 1)) ≤ t (w k))) &&
    decide (1000 ≤ leAt r 56 4 * leAt r 60 4) && decide (1000 ≤ leAt r 64 4 * leAt r 68 4))

/-- Does a point record name an object that is used (R151)? -/
def Plan.pointUsed (p : Plan) (r : List Byte) : Bool :=
  let i := byteAt r 3
  match byteAt r 2 with
  | 1 => byteAt (p.rcd 3 i) 0 != 0
  | 2 => p.cell i == 1
  | 3 => byteAt (p.rcd 2 i) 0 == 1
  | 4 => p.cell (24 + i) % 4 != 0
  | 5 => byteAt (p.rcd 5 i) 0 != 0xFF && p.cell (80 + byteAt (p.rcd 5 i) 0) % 2 == 1
  | 6 => byteAt (p.rcd 6 (i / 32)) (8 + 4 * (i % 32)) != 0xFF
  | 7 => if nodeStage i then p.cell (i - 8) == 1
         else if 32 ≤ i ∧ i < 104 then p.cell (24 + nodeChan i) % 4 != 0 else true
  | _ => true

/-- The meter rules (R325). -/
def Plan.metersOk (p : Plan) : Bool :=
  let word (i : Nat) : Nat := leAt (p.rcd 6 (i / 32)) (8 + 4 * (i % 32)) 4
  (List.range 16).all (fun k =>
    match (meterEnts word k).map (fun x => x.2) with
    | [] => true
    | [a] => srcLoop a
    | [a, b] => (srcCurrent a != srcCurrent b) || (!srcCurrent a && !srcCurrent b && (srcDiff a || srcDiff b))
    | _ => false)

/-- Strikes: order, and the two cases of R82. -/
def Plan.strikesOk (p : Plan) : Bool :=
  let recs := p.recs 9
  let hier (r : List Byte) : Bool := entryScope (r.drop 4) == 1
  ascending (recs.map (fun r => byteAt r 0)) &&
  (if p.manager then recs.all (fun r => !(hier r && entryFirst (r.drop 4) == 0))
   else (p.recs 7).all (fun f => !(byteAt f 4 == 2 && recs.any (fun r => byteAt r 0 == byteAt f 5 && hier r))))

/-- The second pass of R58. -/
def Plan.consistent (p : Plan) : Bool :=
  p.loopsOk && p.railsOk && p.curvesOk && ascending ((p.recs 7).map (fun r => leAt r 0 2)) &&
  ascending ((p.recs 8).map (fun r => leAt r 0 2)) && (p.recs 8).all p.pointUsed && p.strikesOk &&
  ascending ((p.recs 10).map (fun r => byteAt r 0)) && p.metersOk

end Sys2Proof.Machine
end

