-- ==== Sys2Proof/Machine/Caliber.lean ====
section
/-! DEFINITION. Loading a caliber image, its acceptance, reloads, and the parcels of a commit (chapter 2). -/

namespace Sys2Proof.Machine

/-! ### States of the stage and of the commit unit -/

/-- STG_STATE codes (R175). -/
def stgNone : Nat := 0
def stgOpen : Nat := 1
def stgReady : Nat := 2
def stgCommit : Nat := 3
def stgAbort : Nat := 4
def stgStale : Nat := 5

def State.stgState (s : State) : Nat := s.get F.HIER_STAT_STG_STATE
def State.stgId (s : State) : Nat := s.get F.HIER_STAT_STG_ID

/-- PHASE codes of HIER_CMT_STAT. -/
def cmtIdlePh : Nat := 0
def cmtStaging : Nat := 1
def cmtPreparing : Nat := 2
def cmtCommit : Nat := 3
def cmtAborting : Nat := 4
def cmtChecking : Nat := 5

def State.cmtPhase (s : State) : Nat := s.get F.HIER_CMT_STAT_PHASE
def State.cmtId (s : State) : Nat := s.get F.HIER_CMT_STAT_ID

/-! ### The stage window (R158, R175) -/

/-- WORD moves on, from the last word to the first. -/
def State.stgNext (s : State) : State :=
  let w := s.get F.HIER_STG_ADDR_WORD
  s.put F.HIER_STG_ADDR_WORD (if w + 1 < 6144 then w + 1 else 0)

/-- A granted write of HIER_STG_DATA. -/
def State.stgWrite (p : Party) (w : Word) (s : State) : State :=
  if !s.isManager then s.notice p F.HIER_STG_DATA.base
  else if s.cmtPhase ≠ cmtIdlePh ∨ s.stgState ≠ stgNone then (s.notice p F.HIER_STG_DATA.base).stgNext
  else (s.portWrite p (sramKey 8 (10240 + s.get F.HIER_STG_ADDR_WORD)) w).stgNext

/-- A granted read of HIER_STG_DATA. -/
def State.stgRead (s : State) : Word × State :=
  if !s.isManager then (0, s)
  else
    let r := s.sramRead 2 (sramKey 8 (10240 + s.get F.HIER_STG_ADDR_WORD))
    (r.1, r.2.2.stgNext)

/-! ### Settings written by REG_PRESET and CAL_DEFAULT (R55, R489) -/

/-- The blocks R55 admits: LINK, HIER, LOOP, PH, CHAN, SEQ, MEAS, MON, THM, FLT, IRQ, PWRP, HOST, PE. -/
def presetBlocks : List Nat := [3, 4, 5, 6, 7, 8, 9, 10, 11, 12, 13, 14, 16, 17]

/-- Does an address lie within R55: a register of those blocks whose fields are all RW or RWL? -/
def presetAddrOk (a : Nat) : Bool :=
  match regDef a with
  | none => false
  | some d => presetBlocks.contains (blockOf a) && d.rw != 0 && d.w1c == 0 && d.wo == 0 && d.soft == 0

/-- The parties that have copies of banked registers. -/
def bankParties : List Party :=
  [.test, .seq, .pe 0, .pe 1, .pe 2, .pe 3, .pe 4, .pe 5, .pe 6, .pe 7, .link, .host]

/-- The bits of a register that a preset may set: bit 0 of HIER_DLV_TGT names no worker and is ignored (R175). -/
def presetMask (a : Nat) : Word := if a = F.HIER_DLV_TGT.base then ~~~ (1 : Word) else allBits

/-- A preset value is written: to every copy of a banked register, and neither to a field that a reaction holds (R31) nor to
the ON of a channel that a rail targets (R247), nor to a register that the device's role or the sequencer keeps to itself
(R144, R175, R309). One of HIER_STG_DATA writes a word of the stage (R158). -/
def State.presetWrite (a : Nat) (w : Word) (s : State) : State :=
  let m := presetMask a &&& ~~~ s.heldBits a &&& ~~~ s.closedBits .test a
  match regDef a with
  | none => s
  | some d =>
    if !s.writerOk .test a d then s
    else if a = F.HIER_STG_DATA.base then s.stgWrite .reaction w
    else if d.banked then bankParties.foldl (fun s p => s.store p a w m) s else s.store .reaction a w m

/-- The preset records of a section or region, in order: FAIL_CODE of the first that fails, 0 when none does, and the
state with them written. -/
def State.presets : List (List Byte) → State → Nat × State
  | [], s => (0, s)
  | r :: rs, s =>
    let a := leAt r 0 2
    let w := BitVec.ofNat 32 (leAt r 4 4)
    if !presetAddrOk a then (0x0D, s)
    else if !zeroAt r 2 2 || s.reservedWord a w then (0x0B, s)
    else State.presets rs (s.presetWrite a w)

/-- The records of CAL_DEFAULT: up to 31, ended by the first of zeros (R489). -/
def State.calDefaults (s : State) : List (List Byte) :=
  (pieces 8 31 (s.otpBytes 2)).takeWhile (fun r => !zeroAt r 0 8)

/-- CAL_DEFAULT is written, every record in order (R489). -/
def State.writeDefaults (s : State) : State :=
  s.calDefaults.foldl (fun s r => s.presetWrite (leAt r 0 2) (BitVec.ofNat 32 (leAt r 4 4))) s

/-! ### Placing sections -/

/-- Clear the SRAM words of a region from word `lo` up to `hi`. -/
def State.sramClear (region lo hi : Nat) (s : State) : State :=
  let out (k : Nat) : Bool := decide (k < sramKey region lo) || decide (sramKey region hi ≤ k)
  { s with
    sram := s.sram.filter (fun e => out e.1)
    sramRaw := s.sramRaw.filter (fun e => out e.1)
    writeBack := s.writeBack.filter out }

/-- One CURVES record is placed (R47). -/
def State.placeCurve (r : List Byte) (s : State) : State :=
  let c := byteAt r 0
  let put (f : Fld) (k : Nat) (o : Nat) (s : State) : State := s.setReg ((f.off k).addr c) (BitVec.ofNat 32 (leAt r o 4))
  let s := (List.range 12).foldl (fun s k => put F.CHn_CURVE k (4 + 4 * k) s) s
  let s := (List.range 6).foldl (fun s k => put F.CHn_WIRE k (52 + 4 * k) s) s
  let s := (List.range 4).foldl (fun s k => put F.CHn_FET k (76 + 4 * k) s) s
  { s with curveFlags := s.curveFlags.set c (byteAt r 1) }

/-- What stands in the mirror words of a channel is kept before a commit replaces its record (R254, R353). -/
def State.keepCurve (c : Nat) (s : State) : State :=
  (List.range 22).foldl (fun s k => s.keepParam ((F.CHn_CURVE.off k).addr c)) s

/-- One POINT_TABLE record is placed (R51). -/
def State.placePoint (r : List Byte) (s : State) : State :=
  s.sramWrite (sramKey 9 (2048 + leAt r 0 2)) (BitVec.ofNat 32 (leAt r 2 3))

/-- One STRIKE_SEED record is placed, its slot disarmed (R52). -/
def State.placeSeed (r : List Byte) (s : State) : State :=
  let n := byteAt r 0
  let s := if (s.slot n).armed then s.closeSlot n else s
  s.sramWrites (sramKey 9 (8 * n)) (wordsOf (slice r 4 32))

/-- One ENGINE_PROG record is placed (R53). -/
def State.placeProg (r : List Byte) (s : State) : State :=
  let n := byteAt r 0
  let code := leAt r 4 4
  let s := (s.sramClear n 0 4096).sramWrites (sramKey n 0) (wordsOf (slice r 16 code))
  let s := s.sramWrites (sramKey 8 (leAt r 8 2 / 4)) (wordsOf (slice r (16 + code) (leAt r 10 2)))
  s.setPe n { s.pe n with codeLen := code }

/-- Records of section type `t` in a list of sections. -/
def secOf (secs : List (List (List Byte))) (t : Nat) : List (List Byte) := secs.getD (t - 1) []

/-- The sections of an accepted image are placed, before any preset (R55, R58). A point or strike slot without a record is
empty: R51 says so of points, R52 not of slots, which hold nothing of an image before (DESIGN CHOICE, log entry 52). -/
def State.placeSections (h : List Byte) (secs : List (List (List Byte))) (s : State) : State :=
  let old := s.secRecs 5
  let s := { s with
    hdr := h
    sections := secs
    cellMap := (secOf secs 1).getD 0 []
    loopMap := secOf secs 2
    railGraph := (Vector.range 64).map (fun n => (secOf secs 3).getD n [])
    curveFlags := List.replicate 24 0 }
  let s := (secOf secs 4).foldl (fun s r => s.placeCurve r) s
  let s := (List.range 24).foldl (fun s c =>
    if s.chUsed c then (s.put F.CHn_STAT_STATE chOff c).setCh c { s.ch c with allowEnd := some (s.now + 500000) }
    else (s.put F.CHn_STAT_STATE chUnused c).setCh c { s.ch c with gate := .normalDown }) s
  let s := (List.range 24).foldl (fun s p => s.setPhState p (if s.cell p ≠ 1 then phUnused else if s.get F.PHn_FLT_CAUSE p ≠ 0 then phDropped else phIdle)) s
  let s := s.sramClear 9 0 8192
  let s := (secOf secs 8).foldl (fun s r => s.placePoint r) s
  let s := (secOf secs 9).foldl (fun s r => s.placeSeed r) s
  let s := (secOf secs 10).foldl (fun s r => s.placeProg r) s
  let s := (s.railsStart.placeMon old (secOf secs 5) true).placeScan (secOf secs 6) true
  s.ppFit (s.cell 163 == 1)

/-- STATE of CAL_STAT. -/
def calWaiting : Nat := 0
def calLoading : Nat := 1
def calLoaded : Nat := 2
def calRestrict : Nat := 3

def State.calState (s : State) : Nat := s.get F.CAL_STAT_STATE

/-- What starts when an image has been accepted (R53, R66, R96, R147, R257, R282). -/
def State.acceptImage (src : Nat) (s : State) : State :=
  let h := s.hdr
  let s := ((s.put F.CAL_STAT_STATE calLoaded).put F.CAL_STAT_SRC src).put F.CAL_STAT_TAGGED (byteAt h 9 % 2)
  let s := ((s.setReg F.CAL_ID.base (BitVec.ofNat 32 (leAt h 0x10 4))).setReg F.CAL_VER.base
    (BitVec.ofNat 32 (leAt h 0x14 4))).setReg F.CAL_EDIT.base 0
  let s := s.nodesStart
  let s := { s with load := { s.load with src := 0, bytes := [], stage := 0, nextSrc := 0 } }
  let s := { s with
    beat := { s.beat with
      accepted := if s.isManager then some (ceilTo 4000 (s.tick + 16000)) else none
      start := s.tick, firstBank := true }
    link := { s.link with assignDue := true } }
  let s : State := (s.secRecs 10).foldl (fun (s : State) r =>
    if byteAt r 1 % 2 = 1 then s.peStart (byteAt r 0)
    else s.peStop (byteAt r 0) (if s.held (.eng (byteAt r 0)) then peHeld else peStopped)) s
  let s := (List.range 24).foldl (fun s c => s.chAccept c) s
  { s with evalAt := some s.now }.seqFirst

/-! ### Returning destinations to reset values (R58, R67) -/

/-- Registers return to their reset values. -/
def State.resetRegs (s : State) (l : List Nat) : State := l.foldl (fun s a => s.setReg a (regReset a)) s

/-- What MON_ROUTE places. -/
def State.clearMon (n : Nat) (s : State) : State :=
  let s := match s.sweep with
    | some w => if w.cell = n then s.sweepAbandon else s
    | none => s
  let c (f : Fld) (s : State) : State := s.put f (bitsOf (regReset (f.addr n)) f.lo f.width) n
  let s := c F.MONn_CFG_MODE (c F.MONn_CFG_FILT_N (c F.MONn_CFG_FILT_K s))
  let s := s.resetRegs [F.MONn_ROUTE.addr n, F.MONn_STAT.addr n]
  ((s.setMaskBit F.MON_UV n false).setMaskBit F.MON_OV n false).setMc n {}

/-- What SCAN_PLAN places, and the meters that follow from it. -/
def State.clearScan (m : Nat) (s : State) : State :=
  let s := (s.urgentDrop m).put F.MEASm_STAT_RUN 0 m
  let s := s.resetRegs ([F.MEASm_MASK.addr m, F.MEASm_VALID.addr m, F.MEASm_WSTATE.addr m] ++
    (List.range 32).map (fun e => (F.MEASm_ENT_WORD.off e).addr m))
  let s := s.put F.MEASm_CFG_RATE (bitsOf (regReset (F.MEASm_CFG.addr m)) 0 14) m
  let s := (List.range 4).foldl (fun s j =>
    let k := 4 * m + j
    let gap := s.get F.MEAS_METERk_STAT_GAP k
    ((s.resetRegs [F.MEAS_METERk_STAT.addr k]).put F.MEAS_METERk_STAT_GAP gap k).setMtr k { acc := (s.mtr k).acc }) s
  s.setMd m { stopped := (s.md m).stopped }

/-- The destinations of every section except REG_PRESET return to their reset values (R58, R67). -/
def State.clearPlaced (s : State) : State :=
  let progs := s.secRecs 10
  let s := progs.foldl (fun s r => s.sramClear 8 (leAt r 8 2 / 4) ((leAt r 8 2 + leAt r 10 2) / 4)) s
  let s := (List.range 8).foldl (fun s n =>
    ((s.sramClear n 0 4096).peStop n peNone).setPe n { (s.peStop n peNone).pe n with codeLen := 0, halted := false }) s
  let s := (List.range 256).foldl (fun s n => if (s.slot n).armed then s.closeSlot n else s) (s.sramClear 9 0 8192)
  let s := (List.range 64).foldl (fun s n => s.clearMon n) s
  let s := (List.range 4).foldl (fun s m => s.clearScan m) s
  let s := { s with
    hdr := [], sections := [], cellMap := List.replicate 176 0, loopMap := List.replicate 8 []
    railGraph := Vector.replicate 64 [], curveFlags := List.replicate 24 0 }
  let s := (List.range 24).foldl (fun s c =>
    let s := s.resetRegs ((List.range 22).map (fun j => 0x3010 + 0x40 * c + j))
    let s := (s.put F.CHn_STAT_STATE chOff c).setCh c { s.ch c with gate := .normalDown }
    s.setPhState c (bitsOf (regReset (F.PHn_STAT_STATE.addr c)) F.PHn_STAT_STATE.lo F.PHn_STAT_STATE.width)) s
  s.railsStart.ppFit false

/-- A reload that is accepted clears the configuration before the new image streams; no image is loaded (R67). -/
def State.clearConfig (s : State) : State :=
  let s := s.clearPlaced
  let s := ((s.put F.CAL_STAT_SRC 0).put F.CAL_STAT_TAGGED 0).put F.CAL_STAT_STATE calWaiting
  let s := ((s.setReg F.CAL_ID.base 0).setReg F.CAL_VER.base 0).setReg F.CAL_EDIT.base 0
  if s.isManager then { s.put F.ESC_BEAT_STAT_RUN 0 with beat := {} } else s

/-! ### A load (R58–R62) -/

/-- A load from a source begins. -/
def State.loadBegin (src : Nat) (s : State) : State :=
  { s.put F.CAL_STAT_STATE calLoading with
    load := { src := src, bytes := [], stage := 0, lastAt := s.now, nextSrc := 0 } }

/-- Byte address of a flash slot (R60). -/
def flashSlot (src : Nat) : Nat := if src = 1 then 0x000000 else 0x080000

/-- The device issues a flash command with its 24-bit address and 8 dummy clocks (R61). -/
def State.flashCommand (command address : Nat) (s : State) : State :=
  { s with load := { s.load with command := command, address := address, began := s.now } }

/-- Fabric cycles of one SCK cycle: 12.5 MHz until the PLL locks, 50 MHz after (R61). -/
def State.sckCycles (s : State) : Nat := if s.on F.SYS_CLK_STAT_PLL_LOCK then 2 else 8

/-- SCK cycles from the start of the command under way to the end of byte `n`: command, address and dummy clocks in single
mode, then 8 a byte, or 2 in quad mode (R61). -/
def State.sckCount (s : State) (n : Nat) : Nat := 40 + n * (if s.load.command = 0x6B then 2 else 8)

/-- Cycle in which byte `n` of the command under way has arrived. A command that was under way when the PLL locked goes on at
50 MHz from the lock, between two SCK cycles (R61). -/
def State.flashDue (n : Nat) (s : State) : Nat :=
  let k := s.sckCount n
  let slow := if s.on F.SYS_CLK_STAT_PLL_LOCK then min k ((s.pllLockAt - s.load.began + 7) / 8) else k
  s.load.began + 8 * slow + 2 * (k - slow)

/-- FAIL_CODE and FAIL_SRC. -/
def State.failCode (code src : Nat) (s : State) : State :=
  (s.put F.CAL_STAT_FAIL_CODE code).put F.CAL_STAT_FAIL_SRC src

/-- Words of shared data that the records of an ENGINE_PROG body give content, as far as the body has arrived (R53): pairs of a
first word and the one after the last. -/
def dataSpans : Nat → List Byte → List (Nat × Nat)
  | 0, _ => []
  | n + 1, b =>
    if b.length < 16 then []
    else
      let code := leAt b 4 4
      let lo := leAt b 8 2 / 4
      let got := min (leAt b 10 2) (b.length - (16 + code))
      (lo, min 10240 (lo + (got + 3) / 4)) :: dataSpans n (b.drop (ceilTo 16 (16 + code + leAt b 10 2)))

/-- The shared data that the image under way has been placed in returns to its reset value (R58). -/
def State.clearData (s : State) : State :=
  if s.load.stage < 2 then s
  else (dataSpans (dirEntry s.load.bytes 9).count (sectionBody s.load.bytes 9)).foldl (fun s x => s.sramClear 8 x.1 x.2) s

/-- The load under way fails: every destination is at its reset value again, and the next source is tried, or the device
waits (R58, R60, R64). Registers that REG_PRESET records would write were not written, and keep what they hold (R58, R67;
DEDUCED, log entry 47). -/
def State.loadFail (code : Nat) (s : State) : State :=
  let src := s.load.src
  let s := (s.clearData.clearPlaced.failCode code src).put F.CAL_STAT_STATE calWaiting
  let s := { s with load := { nextSrc := if src = 1 then 2 else 0 } }
  if code = 1 ∧ src ≤ 2 then s.raiseReg 13 2 src F.CAL_STAT else s.raiseReg 13 1 src F.CAL_STAT

/-- The number a worker holds. -/
def State.heldNumber (s : State) : Option Nat := if s.hasNumber then some s.devNo else none

/-- The image key, bytes 0–31 of KEY (R57, R490), and whether it is blank. -/
def State.imageKey (s : State) : List Byte := (s.otpBytes 3).take 32
def State.keyBlank (s : State) : Bool := zeroAt s.imageKey 0 32

/-- Does a byte string carry the tag of its first `n` bytes after them (R57)? -/
def State.tagOk (s : State) (b : List Byte) (n : Nat) : Bool :=
  !s.keyBlank && slice b n 32 == hmacSha256 s.imageKey (b.take n)

/-- The end of the stream: CRC-32, then tag (R58, R59). -/
def State.streamCode (s : State) (img : List Byte) : Nat :=
  let p := crcPlace img
  if crc32 (img.take p) != leAt img p 4 then 0x09
  else if byteAt img 9 % 2 = 1 then (if s.tagOk img (p + 4) then 0 else 0x0A)
  else if byteAt (s.otpBytes 1) 2 % 2 = 1 then 0x0A
  else 0

/-- The bytes received so far are checked as far as they reach (R43, R58). -/
def State.loadStep (s : State) : State :=
  let b := s.load.bytes
  let n := b.length
  let s :=
    if s.load.stage = 0 ∧ 64 ≤ n then
      let c := headerCode s.isManager s.heldNumber (s.get F.SYS_ID_STEP) b
      if c ≠ 0 then s.loadFail c else { s with load := { s.load with stage := 1 } }
    else s
  let s :=
    if s.load.stage = 1 ∧ 320 ≤ n then
      if directoryOk b then { s with load := { s.load with stage := 2 } } else s.loadFail 0x08
    else s
  let e := dirEntry b 9
  if s.load.stage = 2 ∧ e.offset + e.length ≤ n ∧ (progRecords e.count (sectionBody b 9)).isNone then s.loadFail 0x08
  else if s.load.stage = 2 ∧ leAt b 0xC 4 ≤ n then
    let c := s.streamCode b
    if c ≠ 0 then s.loadFail c else { s with load := { s.load with stage := 3 } }
  else s

/-- Image bytes arrive; none beyond IMAGE_LEN is taken once the header has given it. -/
def State.loadFeed (b : List Byte) (s : State) : State :=
  let all := s.load.bytes ++ b
  let all := if 64 ≤ all.length ∧ s.load.stage ≠ 0 then all.take (leAt all 0xC 4) else all
  { s with load := { s.load with bytes := all } }.loadStep

/-- The two passes of R58 on a closed load, with the state in which the image is in force. -/
def State.imageCode (s : State) : Nat × State :=
  let img := s.load.bytes
  match imageSections img with
  | none => (0x08, s)
  | some secs =>
    let points := secOf secs 8
    let ranges := paddingOk img && (List.range 11).all (fun i => (secOf secs (i + 1)).all (recordOk s.isManager points (i + 1)))
    if !ranges then (0x0B, s)
    else
      let h := slice img 0 64
      let r := State.presets (secOf secs 12) (s.placeSections h secs).writeDefaults
      if r.1 ≠ 0 then r
      else
        let dev := if s.isManager then 0 else byteAt h 0x18
        if (Plan.mk s.isManager dev secs).consistent then (0, r.2.acceptImage s.load.src) else (0x0C, s)

/-- IMAGE_CHECKS_DONE: the image is accepted, or the load fails. -/
def State.imageChecks (s : State) : State :=
  if s.load.src = 0 ∨ s.load.stage ≠ 3 then s
  else
    let r := s.imageCode
    if r.1 = 0 then r.2 else s.loadFail r.1

/-- A flash load is under way and awaits what lies at a stage. -/
def State.flashAt (s : State) (stage : Nat) : Bool :=
  (s.load.src == 1 || s.load.src == 2) && s.load.stage == stage

/-- IMAGE_SOURCE_TRY (R60). -/
def State.sourceTry (s : State) : State :=
  if s.phase == .running && s.calState == calWaiting && s.load.src == 0 && s.load.nextSrc != 0 then
    (s.loadBegin s.load.nextSrc).flashCommand 0x0B (flashSlot s.load.nextSrc)
  else s

/-- Bytes of the image in flash arrive, after time has passed to the last of them. With QUAD_READ in an accepted header, the
rest of the image is read in quad mode, from the byte after the header (R40, R61). -/
def State.flashFeed (b : List Byte) (s : State) : State :=
  let first := s.load.stage == 0
  let src := s.load.src
  let s := s.loadFeed b
  if first && s.load.src == src && s.load.stage == 1 && (byteAt s.load.bytes 9).testBit 1 then
    s.flashCommand 0x6B (flashSlot src + 64)
  else s

/-- Image bytes that the command under way has read when `n` more have arrived. -/
def State.flashRead (s : State) (n : Nat) : Nat :=
  let len := leAt s.load.bytes 0xC 4
  let total := s.load.bytes.length + n
  (if s.load.stage = 2 then min total len else total) - (if s.load.command = 0x6B then 64 else 0)

/-! ### The host's load (R62, R67) -/

/-- Is a reload accepted: every rail un-wound and every channel off (R67)? -/
def State.reloadOk (s : State) : Bool :=
  s.allUnwound && (List.range 24).all (fun c => s.chState c == chOff || s.chState c == chUnused)

/-- The HOST/L0 record of R62, whatever party wrote. -/
def State.hostNotice (p : Party) (a : Nat) (s : State) : State := s.raise 15 0 p.code (BitVec.ofNat 32 (a * 65536 + p.code))

/-- CAL_LOAD_CTRL.START (R62). Until every flash slot has been tried the flash load is under way (R60). -/
def State.calStart (p : Party) (s : State) : State :=
  let a := F.CAL_LOAD_CTRL.base
  if !s.isManager then s.hostNotice p a
  else if s.calState == calRestrict || s.load.src == 1 || s.load.src == 2 || s.load.nextSrc != 0 || s.load.stage == 3 then
    s.notice p a
  else if s.load.src = 3 then (s.put F.CAL_LOAD_CNT_BYTES 0).loadBegin 3
  else if s.calState = calLoaded then
    if s.reloadOk then (s.clearConfig.put F.CAL_LOAD_CNT_BYTES 0).loadBegin 3 else s.failCode 0x10 3
  else (s.put F.CAL_LOAD_CNT_BYTES 0).loadBegin 3

/-- Is a host load streaming? -/
def State.hostStreams (s : State) : Bool := s.load.src == 3 && s.load.stage != 3

/-- CAL_LOAD_CTRL.ABORT, and the gap of 100 ms. -/
def State.calAbort (s : State) : State := if s.hostStreams then s.loadFail 0x0E else s

/-- A write of CAL_LOAD_CTRL: both bits together are a reserved encoding (R62). -/
def State.calCtrl (p : Party) (w : Word) (s : State) : State :=
  if bitOf w 0 && bitOf w 1 then s.notice p F.CAL_LOAD_CTRL.base
  else if bitOf w 0 then s.calStart p
  else if bitOf w 1 then s.calAbort
  else s

/-- An aperture write (R62). -/
def State.calAp (p : Party) (a : Nat) (w : Word) (s : State) : State :=
  if s.hostStreams then
    let s := s.bump F.CAL_LOAD_CNT_BYTES 0 4
    { s with load := { s.load with lastAt := s.now } }.loadFeed (leBytes w.toNat 4)
  else s.hostNotice p a

/-- Cycle at which the gap of a host load aborts it. -/
def State.gapDue (s : State) : Option Nat := if s.hostStreams then some (s.load.lastAt + 10000000) else none

/-! ### Parcels (R68–R70) -/

/-- Byte `i` of the stage area lies in shared data from byte 40,960 on (R53). -/
def State.stageBytes (s : State) (len : Nat) : List Byte :=
  (bytesOf ((List.range ((len + 3) / 4)).map (fun i => s.sramPeek (sramKey 8 (10240 + i))))).take len

/-- The device reads the stage area where it uses it (R477). -/
def State.readStage (len : Nat) (s : State) : State := s.ownRead 3 (sramKey 8 10240) (sramKey 8 (10240 + (len + 3) / 4))

/-- Length of a parcel that begins a byte string. -/
def parcelLen (b : List Byte) : Nat := 20 + leAt b 12 4 + (if byteAt b 1 % 2 = 1 then 32 else 0)

/-- The parcels of a stage, each at the first 4-byte boundary after the one before (R158), and where the last ends. -/
def parcelsFrom : Nat → Nat → List Byte → List (List Byte) × Nat
  | 0, off, _ => ([], off)
  | n + 1, off, b =>
    let l := parcelLen b
    let rest := parcelsFrom n (off + (if n = 0 then l else ceilTo 4 l)) (b.drop (ceilTo 4 l))
    (b.take l :: rest.1, rest.2)

/-- TYPE, COUNT and BODY of a parcel. -/
def parcelType (b : List Byte) : Nat := byteAt b 0
def parcelBody (b : List Byte) : List Byte := slice b 16 (leAt b 12 4)

/-- The records of a parcel; none where its body does not hold COUNT of them. -/
def parcelRecs (b : List Byte) : Option (List (List Byte)) :=
  let t := parcelType b
  let n := leAt b 2 2
  let row := sectionTable.getD (t - 1) (0, 1, 0, 0)
  if n < row.2.2.1 ∨ row.2.2.2 < n then none
  else if t = 10 then progRecords n (parcelBody b)
  else if (parcelBody b).length = n * row.2.1 then some (pieces row.2.1 n (parcelBody b)) else none

/-- Key of a record of CURVES, FAULT_MAP or ENGINE_PROG (R68). -/
def recordKey (t : Nat) (r : List Byte) : Nat := if t = 7 then leAt r 0 2 else byteAt r 0

/-- Insert a record by its key, replacing the one of that key. -/
def putRecord (t : Nat) (l : List (List Byte)) (r : List Byte) : List (List Byte) :=
  let k := recordKey t r
  l.filter (fun x => decide (recordKey t x < k)) ++ [r] ++ l.filter (fun x => decide (k < recordKey t x))

/-- The records of a section after a parcel. -/
def mergeRecs (t : Nat) (old new : List (List Byte)) : List (List Byte) :=
  if t = 12 then old
  else if t = 4 ∨ t = 7 ∨ t = 10 then new.foldl (putRecord t) old
  else new

/-- The sections after a parcel. -/
def mergeParcel (secs : List (List (List Byte))) (b : List Byte) : List (List (List Byte)) :=
  let t := parcelType b
  secs.set (t - 1) (mergeRecs t (secOf secs t) ((parcelRecs b).getD []))

/-- Do two RAIL_GRAPH records agree in their structural bytes 0, 1 and 3 to 19 (R46)? -/
def sameStructure (a b : List Byte) : Bool := slice a 0 2 == slice b 0 2 && slice a 3 17 == slice b 3 17

/-- A parcel's sections are placed at its commit (R70); presets follow their own way. -/
def State.placeParcel (b : List Byte) (s : State) : State :=
  let t := parcelType b
  let recs := (parcelRecs b).getD []
  let old := s.secRecs t
  let s := { s with sections := mergeParcel s.sections b }
  if t = 3 then { s with railGraph := (Vector.range 64).map (fun n => recs.getD n []) }
  else if t = 4 then recs.foldl (fun s r => (s.keepCurve (byteAt r 0)).placeCurve r) s
  else if t = 5 then s.placeMon old recs false
  else if t = 6 then (s.placeScan recs false).showSensors
  else if t = 10 then recs.foldl (fun s r => (s.placeProg r).peReplaced (byteAt r 0)) s
  else s

/-- CRC, IMAGE_ID, EDIT_SEQ and content of a parcel, up to the ranges of its records (R69). No rule names a code for a
parcel whose BODY_LEN does not match its COUNT, or whose COUNT lies outside R43: it is refused as out of range, 0x0B (DESIGN
CHOICE, log entry 47). -/
def State.parcelCode (s : State) (b : List Byte) : Nat :=
  let t := parcelType b
  let n := 16 + leAt b 12 4
  let tagged := byteAt b 1 % 2 == 1
  if b.length < parcelLen b || crc32 (b.take n) != leAt b n 4 then 0x15
  else if (tagged && !s.tagOk b (n + 4)) || (!tagged && s.on F.CAL_STAT_TAGGED) then 0x15
  else if leAt b 4 4 != (s.reg F.CAL_ID.base).toNat then 0x13
  else if leAt b 8 4 != ((s.reg F.CAL_EDIT.base).toNat + 1) % 2 ^ 32 then 0x14
  else if t = 1 ∨ t = 2 ∨ t = 8 ∨ t = 9 then 0x11
  else
    match parcelRecs b with
    | none => if t = 11 && !s.isManager then 0x16 else 0x0B
    | some recs =>
      if t = 3 && !((List.range 64).all (fun i => sameStructure ((s.secRecs 3).getD i []) (recs.getD i []))) then 0x11
      else if t = 11 && !s.isManager then 0x16
      else if t = 0 || decide (12 < t) || decide (2 ≤ byteAt b 1) then 0x0B
      else if recs.all (recordOk s.isManager (s.secRecs 8) t) then 0
      else 0x0B

/-- The parcels in stage order, presets checked on the configuration `c` that results: FAIL_CODE of the first failure. -/
def State.parcelsCode (s : State) : List (List Byte) → State → Nat
  | [], _ => 0
  | b :: bs, c =>
    let k := s.parcelCode b
    if k ≠ 0 then k
    else if parcelType b = 12 then
      let r := State.presets ((parcelRecs b).getD []) c
      if r.1 ≠ 0 then r.1 else State.parcelsCode s bs r.2
    else State.parcelsCode s bs c

/-- The records of keyed parcels stand in ascending order, none twice. -/
def parcelSorted (b : List Byte) : Bool :=
  let t := parcelType b
  !(t == 4 || t == 7 || t == 10) || ascending (((parcelRecs b).getD []).map (recordKey t))

/-- The checks of a stage (R69): 0 ready, else the code of the refusal. -/
def State.stageCode (s : State) (npar len : Nat) : Nat :=
  let ps := parcelsFrom npar 0 (s.stageBytes len)
  if 24576 < ps.2 then 0x12
  else
    let plain := ps.1.filter (fun b => parcelType b != 12 && s.parcelCode b == 0)
    let c := plain.foldl (fun s b => s.placeParcel b) s
    let k := s.parcelsCode ps.1 c
    if k ≠ 0 then k
    else if ps.1.all parcelSorted && (Plan.mk s.isManager s.imageDev c.sections).consistent then 0 else 0x0C

/-- A preset of a commit: a write of the strike unit, to every copy of a banked register (R55, R70); one of a mailbox is an
event of its engine, as any write of it (R460). -/
def State.commitPreset (a : Nat) (w : Word) (s : State) : State :=
  match regDef a with
  | none => s
  | some d =>
    let s := s.occupy a
    if a = F.HIER_STG_DATA.base then s.stgWrite .strike w
    else if 0x6000 ≤ a ∧ a < 0x6200 ∧ 4 ≤ a % 0x40 ∧ a % 0x40 < 8 then s.mboxWrite ((a - 0x6000) / 0x40) (a % 0x40 - 4) w
    else if d.banked then s.presetWrite a w else s.ownedStore .strike a a w (presetMask a)

/-- An address in the block that holds what a parcel's section sets: RAIL_GRAPH the SEQ block, CURVES CHAN, MON_ROUTE MON,
SCAN_PLAN MEAS, FAULT_MAP FLT, ENGINE_PROG PE, BEAT_PLAN ESC (R70; DEDUCED, log entry 52). -/
def parcelPlace (t : Nat) : Nat :=
  match t with
  | 3 => F.SEQ_CTRL.base
  | 4 => F.CHn_CTRL.base
  | 5 => F.MONn_CFG.base
  | 6 => F.MEASm_MASK.base
  | 7 => F.FLT_STAT.base
  | 10 => F.PE_NOTIFY.base
  | _ => F.ESC_STAT.base

/-- A commit takes effect (R70): every parcel in order as one batch of the strike unit, and CAL_EDIT; it takes every block
it touches for this cycle (R32). -/
def State.applyParcels (npar len : Nat) (s : State) : State :=
  let ps := (parcelsFrom npar 0 (s.stageBytes len)).1
  let s := ps.foldl (fun s b =>
    if parcelType b = 12 then
      ((parcelRecs b).getD []).foldl (fun s r =>
        s.commitPreset (leAt r 0 2) (BitVec.ofNat 32 (leAt r 4 4))) s
    else (s.occupy (parcelPlace (parcelType b))).placeParcel b) (s.occupy F.CAL_EDIT.base)
  s.setReg F.CAL_EDIT.base (s.reg F.CAL_EDIT.base + 1)

end Sys2Proof.Machine
end

