-- ==== Sys2Proof/Machine/Beats.lean ====
section
/-! DEFINITION. Beats: the latch of statistics at a boundary, their restart, and the latched bank (R96–R101, R506,
R507). -/

namespace Sys2Proof.Machine

/-- The registers of a group that count or add up: they restart at 0. -/
def groupCounts (g : Nat) : List Nat :=
  let keep (o : Nat) : Bool :=
    (g == 1 && decide ((o - 36) % 13 < 3)) || (g == 2 && ((o - 140) % 6 == 0 || (o - 140) % 6 == 4)) ||
    (g == 3 && (o - 284) % 4 == 3) || g == 4
  ((bankGroup g).filter (fun w => !keep w.1)).map (fun w => w.2)

/-- A number that a register holds signed in `w` bits, as a signed word. -/
def State.signedWord (s : State) (f : Fld) (i : Nat) : Word := BitVec.ofInt 32 (s.getS f i)

/-- The energies restart at 0 and keep what lies below the µJ that the bank has taken: none is counted in two beats or lost
between them (R327). -/
def State.meterRest (s : State) : State :=
  (List.range 16).foldl (fun s k =>
    let e := toS 64 (s.get F.MEAS_METERk_E_LO_E k + 2 ^ 32 * s.get F.MEAS_METERk_E_HI_E k)
    s.setMtr k { s.mtr k with acc := (s.mtr k).acc - 2 ^ 20 * e }) s

/-- The statistics of a group restart (R97): counts and integrals at 0, extremes at the present value. An extreme of
V_sense has a present value only after SS_DONE. -/
def State.restartGroup (g : Nat) (s : State) : State :=
  let s := if g = 0 then s.meterRest else s
  let s := (groupCounts g).foldl (fun s a => s.setReg a 0) s
  if g = 1 then (List.range 8).foldl (fun s n =>
    let v : Word := if s.on F.LOOPn_STAT_SS_DONE n then BitVec.ofNat 32 (s.get F.LOOPn_VSENSE_VSENSE n) else 0
    let s := s.setReg (F.LOOPn_STATS_V.addr n) (s.signedWord F.LOOPn_STAT_ILOOP n)
    let s := (s.setReg ((F.LOOPn_STATS_V.off 1).addr n) v).setReg ((F.LOOPn_STATS_V.off 2).addr n) v
    s.setLp n { s.lp n with vSeen := s.on F.LOOPn_STAT_SS_DONE n }) s
  else if g = 2 then (List.range 24).foldl (fun s n =>
    let s := s.setReg (F.CHn_STATS_V.addr n) (BitVec.ofNat 32 (s.getS F.CHn_MEAS_I n).natAbs)
    let s := s.setReg ((F.CHn_STATS_V.off 4).addr n) (s.signedWord F.CHn_TEMP_TW1 n)
    s.setCh n { s.ch n with charge := 0 }) s
  else if g = 4 then (List.range 128).foldl (fun s n => s.putS F.THM_XMAXn_TMAX (s.getS F.THM_NODEn_T_T n) n) s
  else s

/-- STATS_MASK of the image in force (R54). -/
def State.statsMask (s : State) : Nat := leAt ((s.secRecs 11).getD 0 []) 4 4

/-- BEAT_SWINGS. -/
def State.beatSwings (s : State) : Nat := leAt ((s.secRecs 11).getD 0 []) 0 4

/-- The live words are read, the masked groups copied and restarted, every other word of the bank is 0 (R97, R478, R507). -/
def State.latchGroups (s : State) : State :=
  let mask := s.statsMask
  let s := s.ownRead 3 (liveKey 0) (liveKey 783)
  let s := (List.range 783).foldl (fun s o => s.sramWrite (latchKey o) 0) s
  (List.range 9).foldl (fun s g =>
    if mask.testBit g then
      ((bankGroup g).foldl (fun s w => s.sramWrite (latchKey w.1) (s.reg w.2)) s).restartGroup g
    else s) s

/-- Start tick of the current beat. -/
def State.beatStart (s : State) : Nat := s.get64 F.ESC_BEAT_START_LO

/-- Start of the beat that ends where beat `n` starts: ESC_BEAT_START where the beats run and no boundary was missed in it, else
the boundary that a BEAT command carried for it, taken or not, where one came. -/
def State.endingStart (n : Nat) (s : State) : Option Nat :=
  if s.on F.ESC_BEAT_STAT_RUN && !s.beat.merged then some s.beatStart
  else
    (([s.beat.prior, s.beat.seen].filterMap id).find? (fun (x : Nat × Nat) => (x.1 + 1) % 2 ^ 32 == n)).map
      (fun (x : Nat × Nat) => x.2)

/-- The length in swings of a beat that ends at `b` and of whose start the device had no word: the manager's to know, free
here between the least length of a plan, and on a device that counted since within it, and the greatest (R54; log entry 22). -/
def State.freeLength (b : Nat) (s : State) : Nat :=
  let lo := max 25 (if s.beat.merged || s.on F.ESC_BEAT_STAT_RUN then 25 else (b - s.beat.start + 3999) / 4000)
  lo + (Config.freeWord s.free).toNat % (max lo 1500000 - lo + 1)

/-- A bank is latched at boundary `b`, at which beat `n` starts; `cover` as R100. The meters add up to `b` where group
0 is set (R327). ESC_BEAT_LEN is the length of the beat that ends, and so is word 1 but for a merged bank, where it is the span from the first merged beat's start. -/
def State.latchBank (b n cover : Nat) (s : State) : State :=
  let len := match s.endingStart n with
    | some t => (b - t) / 4000
    | none => s.freeLength b
  let s := if (s.endingStart n).isSome then s else s.draw
  let start := if cover = 1 then s.beat.start else s.beatStart
  let span := if cover = 2 then (b - start) / 4000 else len
  let s := (if s.statsMask.testBit 0 then s.meterBeat else s).latchGroups
  let s := s.sramWrites (latchKey 0) [BitVec.ofNat 32 (n + 2 ^ 32 - 1), BitVec.ofNat 32 span, BitVec.ofNat 32 start,
    BitVec.ofNat 32 (start / 2 ^ 32 % 256 * 2 ^ 24 + cover)]
  (s.setReg F.ESC_BEAT_LEN.base (BitVec.ofNat 32 len)).put F.ESC_BEAT_STAT_COVER cover

/-- A beat `n` starts at `b`. -/
def State.beatBegin (b n : Nat) (s : State) : State :=
  let s := ((s.setReg F.ESC_BEAT_NUM.base (BitVec.ofNat 32 n)).put64 F.ESC_BEAT_START_LO b).put F.ESC_BEAT_STAT_RUN 1
  { s with beat := { s.beat with
      accepted := none, next := none, nextNum := (n + 1) % 2 ^ 32, merged := false, afterWake := false } }

/-- Every handler slot that watches beats registers its event (R460): DATA is the number of the beat that starts. -/
def State.beatEvent (n : Nat) (s : State) : State := s.trigger 1 0 (n % 65536)

/-- The boundaries missed are counted at the next boundary the worker has received (R101). -/
def State.countMissed (s : State) : State :=
  if s.beat.missed = 0 then s
  else
    let s := (s.bump F.ESC_CNT_BEAT_MISS 0 s.beat.missed).raise 11 12 0
    { s with beat := { s.beat with missed := 0 } }

/-- COVER of a bank that is latched now. Where the device's first bank also missed a boundary both names of R100 fit; it is
partial, since it tells from when the device counted (DESIGN CHOICE, log entry 53). -/
def State.beatCover (s : State) : Nat := if s.beat.firstBank then 1 else if s.beat.merged then 2 else 0

/-- The beat latch at the boundary `b` (R97, R100, R101): no bank at the start of beat 0 or at the first boundary after
wake (R96); KEEP_CAL follows at every boundary (R407). A number that has run through all 32 bits reads 0 again and is taken
as beat 0 (DESIGN CHOICE, log entry 53). -/
def State.beatLatch (b : Nat) (s : State) : State :=
  let n := s.beat.nextNum
  let s := s.countMissed
  if n = 0 ∨ s.beat.afterWake then (s.keepBeat.beatBegin b n).beatEvent n
  else
    let s := (s.latchBank b n s.beatCover).keepBeat.beatBegin b n
    { s with beat := { s.beat with firstBank := false } }.beatEvent n

/-- The manager fixes the next boundary, after the batch of tick `b` (R96). -/
def State.fixNextBeat (b : Nat) (s : State) : State :=
  if s.isManager then { s with beat := { s.beat with next := some (b + 4000 * s.beatSwings) } } else s

/-- Entry to rest latches the bank with the tick of entry as its end (R429): the beat under way ends there. -/
def State.restLatch (e : Nat) (s : State) : State :=
  if !s.on F.ESC_BEAT_STAT_RUN then s
  else
    let n := if s.beat.merged then s.beat.nextNum else (s.get F.ESC_BEAT_NUM + 1) % 2 ^ 32
    let s := s.latchBank e n s.beatCover
    { s.put F.ESC_BEAT_STAT_RUN 0 with beat := { nextNum := n, afterWake := true, start := e } }

/-- After wake the first beat starts at the first swing boundary 16,000 ticks after the lock (R432). -/
def State.beatWake (s : State) : State :=
  { s with beat := { s.beat with
      accepted := if s.isManager && s.calState == calLoaded then some (ceilTo 4000 (s.tick + 16000)) else none
      start := s.tick, firstBank := true, afterWake := true } }

end Sys2Proof.Machine
end

