-- ==== Sys2Proof/Machine/Resets.lean ====
section
/-! DEFINITION. Resets, the power-on order, clocks and power domains (chapters 1 and 15). -/

namespace Sys2Proof.Machine

/-! ### Power-on and hard reset (R422–R425) -/

/-- CAUSE codes of SYS_RST_STAT (R434). -/
def causePower : Nat := 0
def causePin : Nat := 1
def causeHard : Nat := 2
def causeSoft : Nat := 3
def causeOff : Nat := 4

/-- The words of the keep domain, which no reset of the main domain touches (R424). -/
def keepDomain : List Nat := F.KEEP_STAT.base :: keepWords

/-- The power path through a reset: switches and SHIP# untouched, the charger off and its probe ended (R379, R424); a shorted pack's
record is gone from the table with every other (R371, R389). -/
def State.pathKept (s : State) : State :=
  let short := s.on F.PWRP_STAT_SHORTED
  let s := (s.put F.PWRP_STAT_SHORTED 0).chgOff
  { s with pp := { s.pp with probeNow := s.pp.probeNow || short } }

/-- A power-on or hard reset: every block takes its reset values except the keep domain, the power path's switches and
what is no register of the main domain: OTP cells and the pins (R424, R476, R508). RST_N is low. -/
def State.hardReset (cause : Nat) (s : State) : State :=
  let s := s.pathKept.keepLose
  let t : State := { State.reset with
    pending := s.pending
    now := s.now
    free := s.free
    regs := s.regs.filter (fun e => keepDomain.contains e.1)
    keep := { s.keep with window := none, heldSilent := true }
    pp := s.pp
    pwrgd := s.pwrgd
    otp := s.otp
    otpLocks := s.otpLocks
    vinFall := s.vinFall, hintPin := s.hintPin }
  let t := t.setReg F.SYS_DOM_STAT.base (s.reg F.SYS_DOM_STAT.base)
  let t := t.put F.SYS_CLK_STAT_KEEP_XTAL_OK (s.get F.SYS_CLK_STAT_KEEP_XTAL_OK)
  let t := t.setReg F.PWRP_STAT.base (s.reg F.PWRP_STAT.base)
  t.put F.SYS_RST_STAT_CAUSE cause

/-- SYS_DOM_STAT.VCC5_SRC of a supply (R36). -/
def supplyCode : Supply → Nat
  | .vin => 0
  | .phantom p => 1 + p.val

/-- POWER_ON_RESET: the supply has risen through its threshold and the regulators are good; the device holds RST_N low for
50 µs more (R425 steps 1 to 3). -/
def State.powerOn (v : Supply) (s : State) : State :=
  let off := s.path == ppOff || (s.phase == .inReset && s.get F.SYS_RST_STAT_CAUSE == causeOff)
  let s := s.hardReset (if off then causeOff else causePower)
  let s := { s with rstHold := s.now + 5000 }
  let s := (s.put F.SYS_DOM_STAT_VCC5_SRC (supplyCode v)).put F.SYS_DOM_STAT_VDDA_OK 1
  (s.putB F.SYS_DOM_STAT_VIN_OK (v == .vin)).put F.SYS_DOM_STAT_LINK_HELD 0

/-- SUPPLY_UNDERVOLTAGE: VCC5 below 4.3 V or VCORE below 0.80 V (R422). -/
def State.undervoltage (s : State) : State := (s.hardReset causePower).put F.SYS_DOM_STAT_VDDA_OK 0

/-- A HARD write: the device holds RST_N low for 10 µs (R422). -/
def State.hardWrite (s : State) : State :=
  let s := s.hardReset causeHard
  { s with rstHold := s.now + 1000 }

/-- OTP sensing takes 80 µs from a release of reset, or from a soft reset (R425, R426). -/
def State.senseStart (s : State) : State := { s with phase := .sensing, senseEnd := s.now + 8000 }

/-- Reset release: ROLE and TEST_EN are sampled on the rising edge of RST_N, and OTP sensing starts (R2, R425). -/
def State.release (worker testEn : Bool) (s : State) : State :=
  if s.phase != .inReset || s.path == ppOff then s
  else
    let s := { s with now := max s.now s.rstHold, rstHold := 0 }.senseStart
    let s := { s with scrub := { last := s.now, lapStart := s.now } }
    let s := (s.putB F.SYS_DOM_STAT_ROLE worker).putB F.SYS_RST_STAT_TEST_EN testEn
    let s := s.putB F.TEST_STAT_ENABLED testEn
    let s := (s.putB F.SYS_DOM_STAT_LINK_HELD (worker && s.get F.SYS_DOM_STAT_VCC5_SRC != 0)).measHeld
    (if worker then s
     else ((s.put F.LINK_PH_CTRL_INJ_A 1).put F.LINK_PH_CTRL_INJ_B 1).put F.HIER_STAT_DEV_SRC 3).portsListen.showPhantom

/-! ### Soft reset (R424, R508) -/

/-- The link counters (R144). -/
def linkCounters : List Nat := [F.LINK_CNT0.base, F.LINK_CNT1.base, F.LINK_LATE_CNT.base]

/-- The registers that a soft reset keeps, with the bits kept: the live statistics are words of region 11, which keeps its
content (R474, R476), but the link counters take their reset values (R508). -/
def State.softKeep (s : State) (k : Nat) : Word :=
  if keepDomain.contains k || (bankRegs.any (fun w => w.2 == k) && !linkCounters.contains k) then allBits
  else if k = F.SYS_CLK_STAT.base then 0x4F
  else if k = F.SYS_DOM_STAT.base then allBits
  else if k = F.SYS_RST_STAT.base then 0x1800FFFF
  else if k = F.SYS_REST_STAT.base then 0xFFFF
  else if k = F.ESC_STAT.base then 7
  else if k = F.ESC_OFFSET.base ∨ k = F.ESC_ERR.base then allBits
  else if 0xC01 ≤ k ∧ k ≤ 0xC04 then allBits
  else if k = F.LINK_PH_STAT.base then 0x60
  else if k = 0xC08 ∨ k = 0xC09 ∨ k = F.LINK_TAG_STAT.base then allBits
  else if k = F.HIER_STAT.base then (if s.get F.HIER_STAT_DEV_SRC = 2 then 0x3FC00000 else 0)
  else if (List.range 24).any (fun n => k == F.CHn_TEMP.addr n) then allBits
  else if (List.range 24).any (fun n => k == F.CHn_TEMP2.addr n) then 0xFFFF0000
  else if F.THM_NODEn_T.base ≤ k ∧ k < F.THM_NODEn_T.base + 128 then allBits
  else if k = F.FLT_HIST_HEAD.base ∨ k = F.PWRP_CNT.base ∨ k = F.PWRP_STAT.base then allBits
  else if k = F.MEM_STAT.base then 0xFF000000
  else if k = F.MEM_SCRUB.base ∨ (F.MEM_REMAP.base ≤ k ∧ k < F.MEM_REMAP.base + 8) then allBits
  else if k = F.TEST_STAT.base then 0x80000000
  else 0

/-- The link unit through a soft reset: training, upstream, forwarding and status word run on; queues, transactions and
selection sets are lost. It is a reset: swings without a frame count from the first frame taken after it, and PDOWN from a port
that is up after it (R126, R137, R422). -/
def softLink (tick : Nat) (l : LinkSt) : LinkSt :=
  { l with
    queue := [], txns := [], tagQuar := l.tagQuar ++ l.txns.map (fun (x : Txn) => (x.tag % 64, tick)), replies := [], reports := [], sets := Vector.replicate 4 0, restCopies := []
    ansWait := [], sentFrames := [], answers := [], alarmWord := false, alarmMap := false, dupStop := false
    assignDue := false, nextGrants := [], header := none, everTaken := false, missed := 0 }

/-- A soft reset: as the table of R424, ending in OTP sensing (R426). -/
def State.softReset (s : State) : State :=
  if s.phase == .inReset then s
  else
    let s := (List.range 256).foldl (fun s i => if (s.slot i).armed then s.closeSlot i else s) s
    let s := s.openIds.foldl (fun s i => s.closeId i) s
    let s := s.fltReset.pathKept.keepLose
    let s := s.bump F.SYS_RST_STAT_SOFT_CNT
    let t : State := { State.reset with
      pending := s.pending, now := s.now, free := s.free, hintPin := s.hintPin
      tick := s.tick, ticking := s.ticking, pllLockAt := s.pllLockAt
      sram := s.sram, sramRaw := s.sramRaw.filter (fun e => !((liveReg e.1).map linkCounters.contains).getD false), writeBack := s.writeBack, seqNext := s.seqNext
      strikeNext := s.strikeNext, strikeTaken := s.strikeTaken, quarantine := s.quarantine
      errRun := s.errRun, stepDue := s.stepDue, pllPhase := s.pllPhase
      refFallback := s.refFallback, syncBefore := s.syncBefore, holdEnd := s.holdEnd, vinFall := s.vinFall, cancelSent := s.cancelSent }
    let t := { t with
      link := { softLink s.tick s.link with port := Vector.ofFn (fun p => { s.port p.val with upOnce := s.portUp p.val }) }, nodeT := s.nodeT, nodeKept := s.nodeKept
      sens := s.sens.map (fun (x : SensSt) => { fresh := x.fresh })
      meter := s.meter.map (fun (x : MeterSt) => { acc := x.acc })
      chan := s.chan.map (fun (x : ChanSt) => { charge := x.charge })
      loop := s.loop.map (fun (x : LoopSt) => { vSeen := x.vSeen })
      pp := s.pp, pwrgd := s.pwrgd, syncIn := s.syncIn, keep := { s.keep with window := none, heldSilent := true }
      scrub := s.scrub, otp := s.otp, otpLocks := s.otpLocks, tap := { s.tap with ask := none } }
    let kept : SMap := s.regs.map (fun e => (e.1, (regReset e.1 &&& ~~~ s.softKeep e.1) ||| (e.2 &&& s.softKeep e.1)))
    let t := kept.foldl (fun t e => t.setReg e.1 e.2) t
    let t := t.measHeld.senseStart.showTags.put F.SYS_RST_STAT_CAUSE causeSoft
    (if s.isManager then
       ((t.put F.LINK_PH_CTRL_INJ_A 1).put F.LINK_PH_CTRL_INJ_B 1).put F.HIER_STAT_DEV_SRC 3 else t).showPhantom

/-! ### OTP sensing (R425 step 5, R427, R487–R490) -/

/-- Bytes of a region as sensed. -/
def otpRegion (m : SMap) (r : Nat) : List Byte :=
  bytesOf ((List.range 64).map (fun w => SMap.get otpDefault m (otpKey r w)))

/-- A region with its CRC over bytes 0–253 at 254–255; a blank one passes without. -/
def otpCrcOk (b : List Byte) : Bool := zeroAt b 0 256 || crc16 (b.take 254) == leAt b 254 2

/-- IDENTITY (R488). -/
def identityOk (b : List Byte) : Bool :=
  decide (byteAt b 0 < 64) &&
  (if byteAt b 1 < 128 then byteAt b 1 == 0 else decide (0x88 ≤ byteAt b 1 ∧ byteAt b 1 ≤ 0xF7)) &&
  decide (byteAt b 2 < 2) && byteAt b 3 == 0

/-- CAL_DEFAULT (R489): every record before the first of zeros lies within R55, each judged after those before it. -/
def State.calDefaultOk (s : State) (b : List Byte) : Bool :=
  (State.presets ((pieces 8 31 b).takeWhile (fun r => !zeroAt r 0 8)) s).1 == 0

/-- COUNTERS (R487): no programmed bit above an unprogrammed one in any counter. -/
def counterOk (b : List Byte) (k : Nat) : Bool :=
  let bits := (List.range 256).map (fun i => (byteAt b (32 * k + i / 8)).testBit (i % 8))
  (bits.dropWhile (fun x => x)).all (fun x => !x)

/-- The check of a region (R485, R487). -/
def State.regionOk (s : State) (m : SMap) (r : Nat) : Bool :=
  let b := otpRegion m r
  if r = 4 then (List.range 8).all (counterOk b)
  else otpCrcOk b && (zeroAt b 0 256 ||
    (if r = 1 then identityOk b else if r = 2 then s.calDefaultOk b else if r = 3 then zeroAt b 32 222 else true))

/-- What the sensed identity and trims set (R145, R354, R438). A number that a soft reset kept from ASSIGN stands (R147). -/
def State.takeIdentity (s : State) : State :=
  let id := s.otpBytes 1
  let s := if !s.isManager && decide (1 ≤ byteAt id 0 ∧ byteAt id 0 ≤ 63) && s.get F.HIER_STAT_DEV_SRC != 2 then (s.put F.HIER_STAT_DEV (byteAt id 0)).put F.HIER_STAT_DEV_SRC 1 else s
  let s := (s.put F.HOST_ADDR_ADDR0 (if 128 ≤ byteAt id 1 then byteAt id 1 - 128 else 0x48)).put F.HOST_ADDR_EN0 1
  (List.range 8).foldl (fun s n =>
    s.setReg (F.THM_NODEn_P0.addr n) (BitVec.ofNat 32 (leAt (s.otpBytes 0) (8 + 4 * n) 4))) s

/-- OTP sensing ends with what the cells read: the regions are checked, the fault collector starts, and the image sources
are tried, or the restrictive defaults hold (R425, R427). -/
def State.otpSensed (cells : List (Nat × Word)) (locks : BitVec 32) (s : State) : State :=
  if s.phase != .sensing then s
  else
    let otp := cells.foldl (fun m c => SMap.set otpDefault m c.1 (SMap.get otpDefault m c.1 ||| c.2)) s.otp
    let s := { s with otp := otp, otpShadow := otp, otpLocks := s.otpLocks ||| locks }.showOtp
    let bad := (List.range 8).filter (fun r => !s.regionOk otp r)
    let s := (s.put F.OTP_STAT_SENSED 1).put F.OTP_STAT_CHKFAIL (bad.foldl (fun m r => m + 2 ^ r) 0)
    let s := if bad.isEmpty then s else s.put F.SYS_RST_STAT_RDEF 1
    let s := { s.takeIdentity with collector := true, phase := .running }
    let s := bad.foldl (fun s r => s.raise 13 3 r) s
    let s := s.keepFlags
    let s := if s.on F.SYS_DOM_STAT_LINK_HELD then (s.raiseReg 9 1 0 F.SYS_DOM_STAT).measHeld else s
    if s.on F.SYS_RST_STAT_RDEF then
      let s := (List.range 2).foldl (fun s p => s.put F.LINK_PORT_STAT_STATE portDownSt p) s
      (s.put F.CAL_STAT_STATE calRestrict).showPhantom
    else { s with load := { s.load with nextSrc := 1 } }

/-! ### Clocks (R20, R21) -/

/-- The tick count of a manager on wake: E advanced by the rest duration that the keep clock measured, rounded to whole
ticks (R94, R407); `err` is KEEP_CAL.ERR in 0.01 ppm. A keep period is 1/32,768 s, 390,625/128 ticks. -/
def restTicks (periods : Nat) (err : Int) : Nat :=
  (roundDiv ((periods : Int) * 390625 * (100000000 - err)) (128 * 100000000)).toNat

/-- The PLL locks (R20), to the start-up oscillator where that serves until the next reset (R21), or on a worker whose
upstream clock is not present (R431). A manager's count starts at 0 after a power-on or hard reset and goes on after rest (R73, R94);
a worker's counter runs, and its first down frame sets it. Between the release and this first lock the count stands, though
CLK_FAB already runs from the start-up oscillator: R73 starts the count at the lock, R72 knows no such time (DESIGN CHOICE,
log entry 53). -/
def State.pllLock (s : State) : State :=
  if s.phase == .inReset || s.phase == .resting || s.on F.SYS_CLK_STAT_PLL_LOCK then s
  else
    let src := if s.refFallback then 3 else if s.isManager then 0 else match s.upstream with
      | some p => if s.portState p == portDownSt then 3 else p + 1
      | none => 3
    let s := (s.put F.SYS_CLK_STAT_PLL_LOCK 1).put F.SYS_CLK_STAT_REF_SRC src
    let s := { s with pllLockAt := s.now }
    let s := if s.ticking then s else { s with ticking := true }
    if s.phase == .waking then
      if s.isManager then
        ({ s with tick := s.get64 F.SYS_REST_TICK + restTicks s.rest.periods s.rest.err }).beatWake
      else s.beatWake
    else if s.isManager then s.setSync syncManager
    else s

/-- The reference is lost (R21): holdover, in which SYNC reads holdover (R76). PLL_LOCK goes on reading 1 in holdover, for
the PLL then holds its last frequency (DESIGN CHOICE, log entry 46). -/
def State.refLost (s : State) : State :=
  if !s.on F.SYS_CLK_STAT_PLL_LOCK || s.on F.SYS_CLK_STAT_HOLDOVER || s.get F.SYS_CLK_STAT_REF_SRC == 3 then s
  else
    let s := ({ s with holdEnd := some (s.now + 1000000), syncBefore := s.sync }.put F.ESC_STAT_SYNC syncHoldover).put
      F.SYS_CLK_STAT_HOLDOVER 1
    if s.isManager then (s.put F.SYS_CLK_STAT_XTAL_LOST 1).raiseReg 11 17 0 F.SYS_CLK_STAT
    else s.put F.SYS_CLK_STAT_LREF_LOST 1

/-- Holdover ends with a reference: SYNC reads again what it stood for before. -/
def State.holdoverEnd (s : State) : State :=
  { s.put F.SYS_CLK_STAT_HOLDOVER 0 with holdEnd := none }.put F.ESC_STAT_SYNC s.syncBefore

/-- Are the 10 ms of holdover still running? -/
def State.inHoldover (s : State) : Bool :=
  s.on F.SYS_CLK_STAT_HOLDOVER && (s.holdEnd.map (fun t => decide (s.now < t))).getD false

/-- A worker re-locks to its other port within the 10 ms (R21 step 2). -/
def State.relockOther (s : State) : State :=
  if s.isManager || !s.inHoldover then s
  else
    let src := s.get F.SYS_CLK_STAT_REF_SRC
    (s.holdoverEnd.put F.SYS_CLK_STAT_REF_SRC (3 - src)).raiseReg 11 16 0 F.SYS_CLK_STAT

/-- The reference returns on the same port, or the crystal returns, within the 10 ms. -/
def State.refReturn (s : State) : State := if s.inHoldover then s.holdoverEnd else s

/-- 10 ms of holdover expire (R21 step 4): the start-up oscillator serves until the next reset, which is one that restarts
the PLL (R424; DEDUCED, log entry 46). SYNC goes on reading holdover until then: the rules give it no other value, and the
agreement of R77 does not hold (DESIGN CHOICE, log entry 46). -/
def State.holdoverExpiry (s : State) : State :=
  if !s.on F.SYS_CLK_STAT_HOLDOVER then s
  else
    let s := (s.put F.SYS_CLK_STAT_HOLDOVER 0).put F.SYS_CLK_STAT_REF_SRC 3
    { s with holdEnd := none, refFallback := true }.raiseReg 11 18 0 F.SYS_CLK_STAT

/-! ### VIN and link-held (R23–R25) -/

/-- Entry to link-held (R24). -/
def State.linkHeldEnter (s : State) : State :=
  let s := s.put F.SYS_DOM_STAT_LINK_HELD 1
  let s := s.raiseReg 9 1 0 F.SYS_DOM_STAT
  let s := (List.range 8).foldl (fun s n => s.loopOff n) s
  let s := (List.range 6).foldl (fun s n => s.peHalt (n + 2)) s
  let s := (s.measStop 2).measStop 3
  let s := (List.range 64).foldl (fun s n => s.monModeMove n) s
  s.chgOff

/-- The end of link-held (R25). -/
def State.linkHeldLeave (s : State) : State :=
  let s := s.put F.SYS_DOM_STAT_LINK_HELD 0
  let s := (List.range 6).foldl (fun s n => s.peUnhalt (n + 2)) s
  let s := (s.measResume 2).measResume 3
  let s := (List.range 64).foldl (fun s n => s.monModeMove n) s
  s.chgEval

/-- VIN falls below 5.8 V (R23); `port` is the higher of the two phantom supplies. In reset and rest a worker only
changes its input. -/
def State.vinLost (port : Fin 2) (s : State) : State :=
  let s := (s.put F.SYS_DOM_STAT_VIN_OK 0).showPhantom
  if s.isManager then s
  else
    let s := { s.put F.SYS_DOM_STAT_VCC5_SRC (1 + port.val) with vinFall := some s.now }
    if s.on F.SYS_DOM_STAT_LINK_HELD || s.phase == .inReset then s
    else if s.phase == .running then s.linkHeldEnter
    else
      let s := s.put F.SYS_DOM_STAT_LINK_HELD 1
      if s.phase == .sensing then s.measHeld else s

/-- The cycle before which VIN cannot have stayed at or above 6.0 V for 10 ms since its last fall on a worker (R23). -/
def State.vinDue (s : State) : Nat := if s.isManager then s.now else (s.vinFall.map (fun t => t + 1000000)).getD s.now

/-- VIN has stayed at or above 6.0 V for 10 ms (R23, R25). -/
def State.vinGood (s : State) : State :=
  let s := ((s.put F.SYS_DOM_STAT_VIN_OK 1).put F.SYS_DOM_STAT_VCC5_SRC 0).showPhantom
  if s.on F.SYS_DOM_STAT_LINK_HELD then
    (if s.phase == .running then s.linkHeldLeave
     else
       let s := s.put F.SYS_DOM_STAT_LINK_HELD 0
       if s.phase == .sensing then (s.measResume 2).measResume 3 else s)
  else s

end Sys2Proof.Machine
end

