-- ==== Sys2Proof/Machine/Commit.lean ====
section
/-! DEFINITION. Operating a hierarchy (chapter 5): the stage of a device, the manager's commit unit, image delivery, and
remote accesses as the manager queues them. -/

namespace Sys2Proof.Machine

/-! ### The stage (R158–R164) -/

/-- Answers in the status word (R126). -/
def ansNone : Nat := 0
def ansReady : Nat := 1
def ansRefuse : Nat := 2
def ansStale : Nat := 3

/-- Chunks of a stage or image of `len` bytes. -/
def chunksOf (len : Nat) : Nat := (len + 31) / 32

/-- Every chunk of the stage has been received. -/
def State.stageWhole (s : State) : Bool := (List.range (chunksOf s.stage.len)).all s.stage.got.contains

/-- The device opens a stage. -/
def State.stageBegin (id npar len dead : Nat) (got : List Nat) (s : State) : State :=
  let s := (s.put F.HIER_STAT_STG_STATE stgOpen).put F.HIER_STAT_STG_ID id
  { s with stage := { npar := npar, len := len, dead := dead, got := got } }

/-- The stage is freed. -/
def State.stageFree (s : State) : State :=
  { (s.put F.HIER_STAT_STG_STATE stgNone).put F.HIER_STAT_STG_ID 0 with stage := {} }

/-- STG_OPEN on a worker: its answer and effect (R159). A stage under the same ID keeps its chunks, and the NPAR, STAGE_LEN
and deadline it was opened with, whatever the second one carries: the rule does not say (DESIGN CHOICE, log entry 49). -/
def State.stageOpen (id npar dead len : Nat) (s : State) : Nat × State :=
  let st := s.stgState
  if s.calState ≠ calLoaded ∨ s.idQuarantined id ∨ st = stgStale ∨ (st ≠ stgNone ∧ s.stgId ≠ id) then (ansRefuse, s)
  else if st = stgNone then
    (ansReady, { s.stageBegin id npar len dead [] with openIds := s.openIds ++ [id] })
  else (ansReady, s)

/-- The bytes of a chunk enter the stage area; those beyond STAGE_LEN are ignored. -/
def State.stageStore (chunk : Nat) (b : List Byte) (s : State) : State :=
  let n := min 32 (s.stage.len - 32 * chunk)
  (List.range ((n + 3) / 4)).foldl (fun s i =>
    let k := sramKey 8 (10240 + 8 * chunk + i)
    let m : Nat := min 4 (n - 4 * i)
    let s := if m < 4 then s.ownRead 3 k (k + 1) else s
    let old := (s.sramPeek k).toNat / 256 ^ m * 256 ^ m
    s.sramWrite k (BitVec.ofNat 32 (old + leAt b (4 * i) m))) s

/-- STG_DATA on a worker (R159, R160). A chunk that lies wholly beyond STAGE_LEN is ignored, and a ready stage stays ready: the
rule speaks of the last chunk's bytes alone (DESIGN CHOICE, log entry 49). -/
def State.stageData (chunk : Nat) (b : List Byte) (s : State) : State :=
  if s.stgState ≠ stgOpen ∧ s.stgState ≠ stgReady then s
  else if chunksOf s.stage.len ≤ chunk then s
  else
    let s := (s.stageStore chunk b).put F.HIER_STAT_STG_STATE stgOpen
    let got := if s.stage.got.contains chunk then s.stage.got else chunk :: s.stage.got
    let s := { s with stage := { s.stage with got := got, failed := false } }
    { s with stage := { s.stage with checking := s.stageWhole } }

/-- A bit of a device in a pair of mask registers. -/
def State.mark (s : State) (f : Fld) (dev : Nat) (b : Bool) : State := s.setMaskBit f dev b

/-- The manager's READY or REFUSE of one device; neither for 0b00 and 0b11 (R160). A later answer clears the bit of the opposite
one, which the rule does not say (DESIGN CHOICE, log entry 49). -/
def State.cmtReady (dev ans : Nat) (s : State) : State :=
  if ans = ansReady then (s.mark F.HIER_CMT_READY dev true).mark F.HIER_CMT_REFUSE dev false
  else if ans = ansRefuse then (s.mark F.HIER_CMT_REFUSE dev true).mark F.HIER_CMT_READY dev false
  else s

/-- STAGE_CHECKS_DONE: the stage is ready, or refused with the code of R64 (R69, R160). A stage that has gone stale meanwhile
stays stale, its checks passed or not (R162, R164). -/
def State.stageChecks (s : State) : State :=
  if !s.stage.checking || (s.stgState != stgOpen && s.stgState != stgStale) then s
  else
    let s := s.readStage s.stage.len
    let c := s.stageCode s.stage.npar s.stage.len
    let s := { s with stage := { s.stage with checking := false, failed := c != 0 } }
    let s := if c ≠ 0 then s.failCode c 5
      else if s.stgState = stgStale then s else s.put F.HIER_STAT_STG_STATE stgReady
    if s.isManager then s.cmtReady 0 (if c = 0 then ansReady else ansRefuse) else s

/-- STG_PREPARE on a worker (R160). -/
def State.stagePrepare (id npar len : Nat) (s : State) : Nat :=
  let st := s.stgState
  if (st ≠ stgOpen ∧ st ≠ stgReady) ∨ s.stgId ≠ id ∨ s.stage.npar ≠ npar ∨ s.stage.len ≠ len then ansNone
  else if st = stgReady then ansReady
  else if !s.stageWhole then ansStale
  else if s.stage.failed then ansRefuse
  else ansNone

/-- COMMIT or ABORT on a worker (R162). -/
def State.stageArm (commit : Bool) (id tick : Nat) (s : State) : State :=
  let st := s.stgState
  if st = stgNone ∨ s.stgId ≠ id then s.bump F.ESC_CNT_STALE_ID
  else if st = stgCommit ∨ st = stgAbort then s
  else if tick < s.tick + 200 ∨ (s.stage.dead ≤ tick ∧ st ≠ stgStale) ∨ (commit ∧ st ≠ stgReady ∧ st ≠ stgStale) ∨
      (commit ∧ st = stgStale ∧ (s.stage.failed ∨ s.stage.checking ∨ !s.stageWhole)) then
    s.raiseReg 13 4 0 F.HIER_STAT
  else
    { s.put F.HIER_STAT_STG_STATE (if commit then stgCommit else stgAbort) with
      stage := { s.stage with armedAt := some tick } }

/-- HIER_LAST records an outcome (R163). -/
def State.cmtLast (id out : Nat) (s : State) : State := (s.put F.HIER_LAST_OUT out).put F.HIER_LAST_ID id

/-- STAGE_STALE: T_d passes with nothing armed (R164). -/
def State.stageStale (s : State) : State :=
  if s.isManager || (s.stgState != stgOpen && s.stgState != stgReady) || decide (s.tick < s.stage.dead) then s
  else (s.put F.HIER_STAT_STG_STATE stgStale).raiseReg 13 5 0 F.HIER_STAT

/-- CMT_CHECK on a worker (R165). -/
def State.stageOutcome (id : Nat) (s : State) : Nat :=
  if s.get F.HIER_LAST_OUT = 1 ∧ s.get F.HIER_LAST_ID = id then ansReady
  else if s.stgState = stgStale ∧ s.stgId = id then ansStale
  else ansRefuse

/-! ### Command bytes (R123, R153) -/

/-- A command with its header; TAG is filled in when it is placed in a frame. -/
def cmdBytes (op flags dest arg5 arg6 arg7 : Nat) (body : List Byte) : List Byte :=
  leBytes op 1 ++ leBytes (8 + body.length) 1 ++ [0] ++ leBytes flags 1 ++ leBytes dest 1 ++
    leBytes arg5 1 ++ leBytes arg6 1 ++ leBytes arg7 1 ++ body

/-- FLAGS: REQ and ANS. -/
def flagReq : Nat := 1
def flagAns : Nat := 2

/-- SELECT of set `k` with a mask (R123). -/
def selectBytes (k mask : Nat) : List Byte := cmdBytes 0x10 0 0xFF k 0 0 (leBytes (mask / 2 * 2) 8)

/-- DEST of selection set `k`. -/
def destSet (k : Nat) : Nat := 0x40 + k

/-! ### The commit unit (R158–R168) -/

/-- RESULT codes of HIER_CMT_STAT. -/
def cmtOk : Nat := 0
def cmtLate : Nat := 1
def cmtBusy : Nat := 2
def cmtOrder : Nat := 3
def cmtNotReady : Nat := 4
def cmtRange : Nat := 5

def State.cmtResult (r : Nat) (s : State) : State := s.put F.HIER_CMT_STAT_RESULT r

/-- Targets of the commit: all, and the workers among them. -/
def State.cmtTgt (s : State) : Nat := s.get64 F.HIER_CMT_TGT
def State.cmtWorkers (s : State) : Nat := s.cmtTgt / 2 * 2
def State.cmtSelf (s : State) : Bool := s.cmtTgt % 2 == 1

/-- The numbers of the set bits of a mask. -/
def bitsList (m : Nat) : List Nat := (List.range 64).filter (fun i => m.testBit i)

/-- Chunk `i` of the manager's stage area. -/
def State.stageChunk (s : State) (i : Nat) : List Byte :=
  bytesOf ((List.range 8).map (fun j => s.sramPeek (sramKey 8 (10240 + 8 * i + j))))

/-- STG_DATA of every chunk is queued for a destination. -/
def State.queueChunks (dest : Nat) (s : State) : State :=
  let n := chunksOf (s.get F.HIER_CMT_LEN_STAGE_LEN)
  let s := s.readStage (s.get F.HIER_CMT_LEN_STAGE_LEN)
  let s := (List.range n).foldl (fun s i =>
    s.queueCmd 5 (cmdBytes 0x29 0 dest (i % 256) (i / 256) 0 (s.stageChunk i)) .stgData) s
  { s with commit := { s.commit with dataLeft := s.commit.dataLeft + n } }

/-- Body of STG_PREPARE. -/
def State.prepareBody (s : State) : List Byte :=
  leBytes s.cmtId 2 ++ leBytes (s.get F.HIER_CMT_LEN_NPAR) 2 ++ leBytes (s.get F.HIER_CMT_LEN_STAGE_LEN) 4

/-- The manager's own stage is checked again (R160). -/
def State.selfCheck (s : State) : State :=
  if s.cmtSelf && (s.stgState == stgOpen || s.stgState == stgReady) then
    { s.put F.HIER_STAT_STG_STATE stgOpen with stage := { s.stage with checking := true } }
  else s

/-- The value of a register of low 32 bits of a tick, by the rule of R86. -/
def State.tickOf (s : State) (v : Nat) : Int := (s.tick : Int) + toS 32 (v + 2 ^ 32 - s.tick % 2 ^ 32)

/-- A mask register pair is cleared. -/
def State.clearMask (s : State) (f : Fld) : State := s.put64 f 0

/-- OPEN (R158). -/
def State.cmtOpen (p : Party) (s : State) : State :=
  let td := s.tickOf (s.get F.HIER_CMT_DEAD_VALUE)
  let len := s.get F.HIER_CMT_LEN_STAGE_LEN
  let npar := s.get F.HIER_CMT_LEN_NPAR
  if s.cmtPhase ≠ cmtIdlePh then s.cmtResult cmtBusy
  else if td - s.tick < 36000 ∨ 2 ^ 31 - 1 < td - s.tick ∨ s.cmtTgt = 0 ∨ len < 20 ∨ 24576 < len ∨ npar = 0 then
    s.cmtResult cmtRange
  else if s.cmtSelf ∧ s.stgState ≠ stgNone then s.cmtResult cmtOrder
  else
    let r := s.takeId
    let id := r.1
    let s : State := { r.2 with openIds := r.2.openIds ++ [id], commit := { dead := td } }
    let s := (((s.put F.HIER_CMT_STAT_ID id).put F.HIER_CMT_STAT_OWNER p.code).cmtResult cmtOk).put
      F.HIER_CMT_STAT_PHASE cmtStaging
    let s := (((s.clearMask F.HIER_CMT_READY).clearMask F.HIER_CMT_REFUSE).clearMask F.HIER_CMT_STALE).clearMask
      F.HIER_CMT_DONE
    let s : State := if s.cmtWorkers ≠ 0 then
        let s := s.queueCmd 3 (selectBytes 3 s.cmtWorkers)
        let s := s.queueCmd 4 (cmdBytes 0x28 flagAns (destSet 3) 0 0 0
          (leBytes id 2 ++ leBytes npar 2 ++ leBytes td.toNat 8 ++ leBytes len 4)) .stgOpen
        let s := s.queueChunks (destSet 3)
        { s with commit := { s.commit with prepareDue := true, checkAt := some td.toNat } }
      else s
    if s.cmtSelf then
      let s := s.stageBegin id npar len td.toNat (List.range (chunksOf len))
      if s.cmtWorkers = 0 then (s.put F.HIER_CMT_STAT_PHASE cmtPreparing).selfCheck else s
    else s

/-- The targets among the workers that are not in READY. -/
def State.notReady (s : State) : List Nat := (bitsList s.cmtWorkers).filter (fun d => !s.maskBit F.HIER_CMT_READY d)

/-- SEND (R160). -/
def State.cmtSend (s : State) : State :=
  let dests := s.notReady
  let s := (dests.foldl (fun s d => s.queueChunks d) s).cmtResult cmtOk
  let s : State := { s.put F.HIER_CMT_STAT_PHASE cmtStaging with
    commit := { s.commit with prepareDue := !dests.isEmpty, prepareTo := dests } }
  if s.cmtWorkers = 0 then (s.put F.HIER_CMT_STAT_PHASE cmtPreparing).selfCheck else s

/-- PREPARE (R160). -/
def State.cmtPrepare (s : State) : State :=
  let s := s.cmtResult cmtOk
  if s.cmtWorkers = 0 then (s.put F.HIER_CMT_STAT_PHASE cmtPreparing).selfCheck
  else { s with commit := { s.commit with prepareDue := true, prepareTo := [] } }

/-- The least lead of a commit's decision. -/
def State.cmtLead (s : State) : Int := if s.cmtWorkers ≠ 0 then 12000 else 200

/-- COMMIT and ABORT (R161). -/
def State.cmtDecide (commit : Bool) (s : State) : State :=
  let tc := s.tickOf (s.get F.HIER_CMT_TICK_VALUE)
  if commit ∧ s.get64 F.HIER_CMT_READY ≠ s.cmtTgt then s.cmtResult cmtNotReady
  else if tc - s.tick < s.cmtLead then s.cmtResult cmtLate
  else if s.commit.dead ≤ tc then s.cmtResult cmtRange
  else
    let s := (s.cmtResult cmtOk).put F.HIER_CMT_STAT_PHASE (if commit then cmtCommit else cmtAborting)
    let w := s.cmtWorkers ≠ 0
    let s := { s with commit := { s.commit with
      decided := some commit, tick := tc.toNat, prepareDue := false } }
    let s := if w then
        s.queueCmd 2 (cmdBytes (if commit then 0x2B else 0x2C) 0 (destSet 3) 0 0 0
          (leBytes s.cmtId 2 ++ [0, 0] ++ leBytes tc.toNat 8))
      else s
    if s.cmtSelf && s.stgState != stgNone then
      { s.put F.HIER_STAT_STG_STATE (if commit then stgCommit else stgAbort) with
        stage := { s.stage with armedAt := some tc.toNat } }
    else s

/-- Commands of the commit that still wait leave the queue. -/
def commitPurpose : CmdFor → Bool
  | .stgOpen => true
  | .stgData => true
  | .prepare => true
  | .check => true
  | _ => false

/-- The commit closes, and its ID at the manager (R167). An own stage that is not armed is freed. -/
def State.cmtClose (s : State) : State :=
  let s := s.closeId s.cmtId
  let s := if s.isManager && (s.stgState == stgOpen || s.stgState == stgReady) then s.stageFree else s
  let s := { s with
    commit := {}
    link := { s.link with queue := s.link.queue.filter (fun c => !commitPurpose c.purpose) } }
  ((s.put F.HIER_CMT_STAT_PHASE cmtIdlePh).put F.HIER_CMT_STAT_ID 0).put F.HIER_CMT_STAT_OWNER 0

/-- The unit returns to idle: rest, a reload or a delivery taken by the manager (R168). -/
def State.cmtIdle (s : State) : State := if s.cmtPhase = cmtIdlePh then s else s.cmtClose

/-- DONE equals TGT: the commit closes (R167). -/
def State.cmtDoneCheck (s : State) : State :=
  if s.cmtPhase ≠ cmtIdlePh ∧ s.commit.decided.isSome ∧ s.get64 F.HIER_CMT_DONE = s.cmtTgt then s.cmtClose else s

/-- REPAIR_COMMIT and REPAIR_ABORT (R166). A commit that reached T_d undecided was not committed: the rule names no decision for
it, and the model takes its repair as an abort (DESIGN CHOICE, log entry 49). -/
def State.cmtRepair (commit : Bool) (dev : Nat) (s : State) : State :=
  let tc := s.tickOf (s.get F.HIER_CMT_TICK_VALUE)
  if s.commit.decided.getD false ≠ commit ∨ !s.maskBit F.HIER_CMT_STALE dev then s.cmtResult cmtOrder
  else if tc - s.tick < 12000 then s.cmtResult cmtLate
  else
    let s := (s.cmtResult cmtOk).queueCmd 2 (cmdBytes (if commit then 0x2B else 0x2C) 0 dev 0 0 0
      (leBytes s.cmtId 2 ++ [0, 0] ++ leBytes tc.toNat 8))
    { s with commit := { s.commit with
      decided := some commit
      repairs := s.commit.repairs.filter (fun r => r.1 != dev) ++ [(dev, tc.toNat)] } }

/-- OP codes of HIER_CMT_CMD. -/
def opOpen : Nat := 1
def opSend : Nat := 2
def opPrepare : Nat := 3
def opCommit : Nat := 4
def opAbort : Nat := 5
def opRepairCommit : Nat := 6
def opRepairAbort : Nat := 7
def opClose : Nat := 8

/-- A granted write of HIER_CMT_CMD. -/
def State.cmtCmd (p : Party) (op dev : Nat) (s : State) : State :=
  let ph := s.cmtPhase
  if !s.isManager || op == 0 || decide (8 < op) then s.notice p F.HIER_CMT_CMD.base
  else if ph ≠ cmtIdlePh ∧ s.get F.HIER_CMT_STAT_OWNER ≠ p.code then s.cmtResult cmtBusy
  else if op = opOpen then s.cmtOpen p
  else if ph = cmtIdlePh then s.cmtResult cmtOrder
  else if op = opClose then s.cmtClose.cmtResult cmtOk
  else if op = opRepairCommit then s.cmtRepair true dev
  else if op = opRepairAbort then s.cmtRepair false dev
  else if ph ≠ cmtStaging ∧ ph ≠ cmtPreparing then s.cmtResult cmtOrder
  else if op = opSend then s.cmtSend
  else if op = opPrepare then s.cmtPrepare
  else s.cmtDecide (op == opCommit)

/-- The answer of a worker to the commit's commands (R159, R160, R165). An answer to CMT_CHECK that is neither stale nor the
decision's clears STALE and leaves DONE: the rule says only when the bits are set (DESIGN CHOICE, log entry 49). -/
def State.cmtAnswer (what : CmdFor) (dev ans : Nat) (s : State) : State :=
  if s.cmtPhase = cmtIdlePh then s
  else match what with
    | .stgOpen => if ans = ansRefuse then s.mark F.HIER_CMT_REFUSE dev true else s
    | .prepare => s.cmtReady dev ans
    | .check =>
      let want := s.commit.decided.map (fun c => if c then ansReady else ansRefuse)
      if ans = ansStale then s.mark F.HIER_CMT_STALE dev true
      else if some ans = want then ((s.mark F.HIER_CMT_DONE dev true).mark F.HIER_CMT_STALE dev false).cmtDoneCheck
      else if ans = ansNone then s
      else s.mark F.HIER_CMT_STALE dev false
    | _ => s

/-- COMMIT_APPLY: the armed commit or abort takes effect in this tick (R163). -/
def State.stageApply (s : State) : State :=
  let st := s.stgState
  if st ≠ stgCommit ∧ st ≠ stgAbort then s
  else
    let id := s.stgId
    let s := if st = stgCommit then (s.readStage s.stage.len).applyParcels s.stage.npar s.stage.len else s
    let own := s.isManager && s.cmtId == id && s.cmtPhase != cmtIdlePh
    let s := (s.stageFree.cmtLast id (if st = stgCommit then 1 else 2))
    if own then (s.mark F.HIER_CMT_DONE 0 true).cmtDoneCheck else s.closeId id

/-- A stage is discarded on a reload, a delivery or rest (R168). -/
def State.stageDiscard (s : State) : State :=
  let s := if s.isManager then s.cmtIdle else s
  if s.stgState = stgNone then s else (s.closeId s.stgId).stageFree

/-! ### Image delivery (R169–R171) -/

/-- OP codes of HIER_DLV_CMD. -/
def dlvStartOp : Nat := 1
def dlvReloadOp : Nat := 2
def dlvAbortOp : Nat := 3

/-- Does a byte string begin with MAGIC (R40)? -/
def hasMagic (b : List Byte) : Bool := slice b 0 4 == [0x46, 0x43, 0x41, 0x4C]

/-- START and START_RELOAD; `flash` is what the boot flash holds from HIER_DLV_ADDR on (R169). -/
def State.dlvBegin (reload : Bool) (flash : List Byte) (s : State) : State :=
  if s.on F.HIER_DLV_STAT_BUSY then s.put F.HIER_DLV_STAT_RESULT 1
  else if !hasMagic flash then s.put F.HIER_DLV_STAT_RESULT 2
  else
    let len := leAt flash 0xC 4
    let s := ((s.put F.HIER_DLV_STAT_RESULT 0).put F.HIER_DLV_STAT_BUSY 1).put F.HIER_DLV_STAT_NEXT 0
    let s := (s.clearMask F.HIER_DLV_OK).clearMask F.HIER_DLV_FAIL
    let s := s.queueCmd 3 (selectBytes 2 (s.get64 F.HIER_DLV_TGT)) .dlvStart
    let s := s.queueCmd 4 (cmdBytes 0x30 0 (destSet 2) (b2n reload) 0 0 (leBytes len 4 ++ slice flash 0x10 4)) .dlvStart
    let data (i : Nat) : LinkCmd :=
      ⟨5, cmdBytes 0x31 0 (destSet 2) (i % 256) (i / 256 % 256) (i / 65536) (slice flash (32 * i) 32), .dlvData⟩
    { s with
      deliv := { s.deliv with queryAt := none }
      link := { s.link with queue := s.link.queue ++ (List.range (chunksOf (min len 524288))).map data } }

/-- Commands of a delivery. -/
def deliveryPurpose : CmdFor → Bool
  | .dlvStart => true
  | .dlvData => true
  | .dlvQuery => true
  | _ => false

/-- ABORT: the manager stops sending (R175). -/
def State.dlvAbort (s : State) : State :=
  if !s.on F.HIER_DLV_STAT_BUSY then s
  else
    let s := (s.put F.HIER_DLV_STAT_BUSY 0).put F.HIER_DLV_STAT_RESULT 0
    { s with
      deliv := { s.deliv with queryAt := none }
      link := { s.link with queue := s.link.queue.filter (fun c => !deliveryPurpose c.purpose) } }

/-- A granted write of HIER_DLV_CMD. -/
def State.dlvCmd (p : Party) (op : Nat) (flash : List Byte) (s : State) : State :=
  if !s.isManager || op == 0 then s.notice p F.HIER_DLV_CMD.base
  else if op = dlvAbortOp then s.dlvAbort
  else s.dlvBegin (op == dlvReloadOp) flash

/-- The answer of a worker to DLV_QUERY. -/
def State.dlvAnswer (dev ans : Nat) (s : State) : State :=
  if ans = ansReady then s.mark F.HIER_DLV_OK dev true
  else if ans = ansRefuse ∨ ans = ansStale then s.mark F.HIER_DLV_FAIL dev true
  else s

/-- FAIL_SRC of a delivery and of a host load. -/
def srcDelivery : Nat := 4

/-- DLV_START on a worker (R170). -/
def State.dlvStart (reload : Bool) (s : State) : State :=
  let take (s : State) : State :=
    { s.stageDiscard.loadBegin srcDelivery with deliv := { s.deliv with takes := true, next := 0, outcome := 0 } }
  let none' := { s with deliv := { s.deliv with takes := false, outcome := 0 } }
  if s.isManager || s.phase != .running || s.calState == calRestrict then none'
  else if s.load.src = srcDelivery then take s
  else if s.load.src ≠ 0 then none'
  else if s.calState = calWaiting then (if s.load.nextSrc = 0 then take s else none')
  else if !reload then none'
  else if s.reloadOk then take s.stageDiscard.clearConfig
  else { s.failCode 0x10 srcDelivery with deliv := { s.deliv with takes := false, outcome := ansRefuse } }

/-- A delivery that the manager breaks off ends with code 0x0E (R64, R175). The rules do not say by what the worker knows: here
by 100 ms without a chunk, as R62 has it for a host load, or by a DLV_QUERY before the last chunk (DESIGN CHOICE, log entry 49). -/
def State.dlvBroken (s : State) : State :=
  if s.deliv.takes && s.load.src == srcDelivery && s.load.stage != 3 then
    { s.loadFail 0x0E with deliv := { s.deliv with takes := false, outcome := ansStale } }
  else s

/-- Cycle at which the gap of a host load or of a delivery ends it. -/
def State.streamGap (s : State) : Option Nat :=
  if s.deliv.takes && s.load.src == srcDelivery && s.load.stage != 3 then some (s.load.lastAt + 10000000) else s.gapDue

/-- The gap ends a load (R62). -/
def State.gapEnds (s : State) : State := s.calAbort.dlvBroken

/-- DLV_DATA on a worker (R170). -/
def State.dlvData (chunk : Nat) (b : List Byte) (s : State) : State :=
  let d := s.deliv
  if !d.takes || s.load.src != srcDelivery || s.load.stage == 3 || decide (chunk < d.next) then s
  else if d.next < chunk then
    { s.loadFail 0x0E with deliv := { d with takes := false, outcome := ansStale } }
  else
    let s := { s with load := { s.load with lastAt := s.now } }.loadFeed b
    if s.load.src = 0 then { s with deliv := { d with takes := false, outcome := ansRefuse } }
    else { s with deliv := { d with next := d.next + 1 } }

/-- The checks of an image end (R58), and what a delivery answers then (R171). -/
def State.checksDone (s : State) : State :=
  let dlv := s.load.src == srcDelivery && s.load.stage == 3
  let t := s.imageChecks
  if dlv then
    { t with deliv := { t.deliv with takes := false, outcome := if t.calState = calLoaded then ansReady else ansRefuse } }
  else t

/-- A reload that R67 accepts discards the stage (R168), here the host's. -/
def State.reloadStart (p : Party) (w : Word) (s : State) : State :=
  let was := s.calState
  let t := s.calCtrl p w
  if was = calLoaded ∧ t.calState = calLoading then t.stageDiscard else t

/-! ### Remote accesses on the manager (R155–R157) -/

/-- RESULT codes of HIER_RA_STAT (R157). -/
def raOk : Nat := 0
def raEmpty : Nat := 1
def raDenied : Nat := 2
def raRange : Nat := 3
def raTimeout : Nat := 4
def raLost : Nat := 5
def raNoAns : Nat := 6
def raBusy : Nat := 7
def raRefused : Nat := 8

/-- A remote access of a party completes. -/
def State.raDone (party result : Nat) (s : State) : State :=
  (s.put (F.HIER_RA_STAT_BUSY.bk party) 0).put (F.HIER_RA_STAT_RESULT.bk party) result

/-- Read data arrives. -/
def State.raData (party i : Nat) (w : Word) (s : State) : State := s.setReg ((F.HIER_RA_DATA.bk party).addr i) w

/-- First cause that refuses an access to `n` points from `first` on: its result, 0 for none (R156). -/
def State.pointsCheck (write : Bool) (first n : Nat) (s : State) : Nat :=
  if 2048 < first + n then raRange
  else
    match (List.range n).find? (fun i =>
      (s.pointRec (first + i)).1 == 0 || !(s.pointRec (first + i)).2.2.testBit (b2n write)) with
    | none => raOk
    | some i => if (s.pointRec (first + i)).1 == 0 then raEmpty else raDenied

/-- First cause that refuses a register access to `n` words from `a` on (R156). -/
def regsCheck (a n : Nat) : Nat :=
  if 0x10000 < a + n then raRange
  else if (List.range n).any (fun i => blockOf (a + i) == 19 || blockOf (a + i) == 20) then raDenied else raOk

/-- An access to device 0 ends in the next cycle. -/
def State.raEnds (p : Party) (result : Nat) (s : State) : State :=
  { s with waiting := s.waiting ++ [{ party := p, addr := F.HIER_RA_CMD.base, word := none, ra := some (.done result) }] }

/-- The next step of an access to device 0 as the grant of HIER_RA_CMD queued it: point word `i` of `n` at `a`, with the words
of a write from here on, or its end. -/
def State.raLocal (p : Party) (write : Bool) (a i n : Nat) (ws : List Word) (s : State) : State :=
  if i < n then
    let w := if write then some (ws.headD 0) else none
    { s with waiting := s.waiting ++ [{ party := p, addr := a, word := w, ra := some (.word i n (ws.drop 1)) }] }
  else s.raEnds p raOk

/-- A granted write of HIER_RA_CMD (R155–R157): op 1 read, 2 write, 3 write with answer. The rule gives the parties of ranks 4 to
14 a copy each; one of the test port, which has a copy too (log entry 17), is ignored with a Notice (DESIGN CHOICE, log entry 25). -/
def State.raCmd (p : Party) (op : Nat) (s : State) : State :=
  let k := p.code
  if !s.isManager || op == 0 || k < 3 then s.notice p F.HIER_RA_CMD.base
  else if s.on (F.HIER_RA_STAT_BUSY.bk k) then s.put (F.HIER_RA_STAT_RESULT.bk k) raBusy
  else
    let bcast := s.on (F.HIER_RA_ADDR_BCAST.bk k)
    let regMode := s.on (F.HIER_RA_ADDR_MODE.bk k)
    let t := s.get (F.HIER_RA_ADDR_TARGET.bk k)
    let n := s.get (F.HIER_RA_ADDR_COUNT.bk k) + 1
    let write := op != 1
    let dev := if regMode then t / 65536 else t / 2048 % 64
    let a := if regMode then t % 65536 else t % 2048
    if (bcast && !write) || (!regMode && decide (131072 ≤ t)) || (regMode && !bcast && dev == 0) then
      s.raDone k raRange
    else if !bcast && dev == 0 then
      let s := (s.put (F.HIER_RA_STAT_BUSY.bk k) 1).readPoints a n
      let r := s.pointsCheck write a n
      let ws := (List.range n).map (fun i => s.reg ((F.HIER_RA_DATA.bk k).addr i))
      if r ≠ raOk then s.raEnds p r else s.raLocal p write (0x9000 + a) 0 n (if write then ws else [])
    else if !bcast && !s.maskBit F.LINK_WKR dev then s.raDone k raLost
    else
      let body := if write then bytesOf ((List.range n).map (fun i => s.reg ((F.HIER_RA_DATA.bk k).addr i))) else []
      let ans := op == 3 && !bcast
      let flags := if !write then flagReq else if ans then flagAns else 0
      let opc := (if regMode then 0x23 else 0x21) + b2n write
      let dest := if bcast then 0xFF else dev
      let s := s.put (F.HIER_RA_STAT_BUSY.bk k) 1
      s.queueCmd 4 (cmdBytes opc flags dest (a % 256) (a / 256) n body) (if write && !ans then .bcast k else .ra k)

end Sys2Proof.Machine
end

