-- ==== Sys2Proof/Machine/LinkReceive.lean ====
section
/-! DEFINITION. What the fields of an up frame do as they pass: a worker's own fields enter it (R126–R128), and on the manager
each is registered 2 ticks after its last code group (R127): words, map bytes and long slots (R133, R135–R138, R149, R173,
R174), with the transactions and tags they close (R131, R132) and the reads of the sequencer's relay (R305, R307). -/

namespace Sys2Proof.Machine

/-! ### Tags (R131, R132) -/

/-- Is a tag number open or quarantined? -/
def State.tagBusy (s : State) (n : Nat) : Bool :=
  s.link.txns.any (fun x => x.tag % 64 == n) ||
  s.link.tagQuar.any (fun q => q.1 == n && decide (s.tick < q.2 + 8000))

/-- The number taken next: NEXT or the first after it that is neither open nor quarantined. -/
def State.tagFind (s : State) : Option Nat :=
  ((List.range 64).map (fun i => (s.link.tagNext + i) % 64)).find? (fun n => !s.tagBusy n)

/-- A transaction of `dev` opens now: its tag. -/
def State.tagOpen (dev count : Nat) (p : CmdFor) (s : State) : Option (Nat × State) :=
  s.tagFind.map (fun n =>
    let l := s.link
    let g := l.tagTaken.getD n 0
    let tag := g % 4 * 64 + n
    let x : Txn := { tag := tag, dev := dev, opened := s.tick, count := count, purpose := p }
    let t : State := { s with link := { l with
      tagNext := (n + 1) % 64, tagTaken := l.tagTaken.set n (g + 1), txns := l.txns ++ [x] } }
    (tag, t.showTags))

/-- A transaction closes, and its number is quarantined from this tick. -/
def State.tagClose (x : Txn) (s : State) : State :=
  let l := s.link
  { s with link := { l with
      txns := l.txns.filter (fun y => y.tag != x.tag), tagQuar := l.tagQuar ++ [(x.tag % 64, s.tick)] } }.showTags

/-- Tick at which the first quarantine of a number ends. -/
def State.tagQuarDue (s : State) : Option Nat := earliest (s.link.tagQuar.map (fun q => some (q.2 + 8000)))

/-- Numbers whose 8,000 ticks have passed leave the quarantine. -/
def State.tagQuarEnd (s : State) : State :=
  { s with link := { s.link with tagQuar := s.link.tagQuar.filter (fun q => decide (s.tick < q.2 + 8000)) } }

/-! ### The relay (R305–R307) -/

/-- A read of the relay has ended, with its words or none. Where both reads of a device have ended and one failed, its
mirror stays as it was. -/
def State.relayGot (dev part : Nat) (ws : List Word) (s : State) : State :=
  let r := s.relay
  if !r.running then s
  else
    let s := if ws.isEmpty then s.bump F.SEQ_RLY_CNT_ERRS else s
    let got := r.got ++ [(dev, part, ws)]
    let mine := got.filter (fun g => g.1 == dev)
    let got := if mine.length = 2 ∧ mine.any (fun g => g.2.2.isEmpty) then got.filter (fun g => g.1 != dev) else got
    { s with relay := { r with out := r.out.filter (fun x => x != (dev, part)), got := got } }

/-- Issue reads while fewer than three are outstanding. -/
def State.relaySend : Nat → State → State
  | 0, s => s
  | fuel + 1, s =>
    let r := s.relay
    match r.todo with
    | [] => s
    | (d, part) :: rest =>
      if 3 ≤ r.out.length then s
      else
        let a := if part = 0 then 0x3804 else 0x380C
        let n := if part = 0 then 8 else 6
        if d = 0 then
          let ws := (List.range n).map (fun i => s.reg (a + i))
          State.relaySend fuel ({ s with relay := { r with todo := rest } }.relayGot 0 part ws)
        else
          let s := { s with relay := { r with todo := rest, out := r.out ++ [(d, part)] } }
          State.relaySend fuel (s.queueCmd 4 (cmdBytes 0x23 flagReq d (a % 256) (a / 256) n []) (.relay d part))

/-- A round takes the manager, then each worker that is in the mask and in LINK_WKR. -/
def State.relayRound (s : State) : State :=
  let ds := 0 :: (List.range 64).filter (fun d => d != 0 && s.maskBit F.SEQ_RLY_MASK d && s.maskBit F.LINK_WKR d)
  { s with relay := { s.relay with running := true, todo := ds.flatMap (fun d => [(d, 0), (d, 1)]), out := [], got := [] } }

/-- The relay moves on: rounds follow each other while RLY_EN is 1. -/
def State.relayMove (s : State) : State :=
  let r := s.relay
  if !s.isManager || !s.on F.SEQ_CTRL_RLY_EN then { s with relay := { r with running := false, todo := [], out := [], got := [] } }
  else if !r.running then s.relayRound.relaySend 128
  else if r.todo.isEmpty && r.out.isEmpty && r.got.isEmpty then
    (s.bump F.SEQ_RLY_CNT_ROUNDS).relayRound.relaySend 128
  else s.relaySend 128

/-! ### Ends of transactions and answers (R132, R135, R155–R157) -/

/-- What the owner of a request learns: a result of R157 and the words of a read. -/
def State.reqDone (p : CmdFor) (result : Nat) (ws : List Word) (s : State) : State :=
  match p with
  | .ra party =>
    (((List.range ws.length).zip ws).foldl (fun s x => s.raData party x.1 x.2) s).raDone party result
  | .relay dev part => (s.relayGot dev part (if result = raOk then ws else [])).relayMove
  | _ => s

/-- The transaction that times out first. -/
def State.txnDue (s : State) : Option Nat := earliest (s.link.txns.map (fun x => some (x.opened + 12000)))

/-- Transactions open for 12,000 ticks time out (R132). -/
def State.txnTimeout (s : State) : State :=
  (s.link.txns.filter (fun x => decide (x.opened + 12000 ≤ s.tick))).foldl (fun s x =>
    ((s.tagClose x).bump F.LINK_CNT1_TIMEOUT).reqDone x.purpose raTimeout []) s

/-- An answer in a valid status word of worker `d` (R135): RA writes complete, the commit and delivery take it. -/
def State.answerTake (p : CmdFor) (d ans : Nat) (s : State) : State :=
  match p with
  | .ra party => s.raDone party (if ans = ansReady then raOk else if ans = ansRefuse then raRefused else raNoAns)
  | .dlvQuery => s.dlvAnswer d ans
  | q => s.cmtAnswer q d ans

/-- The up frame that carried an answer has passed: targets without a word have none (R157), and a delivery's query ends
the delivery. -/
def State.answerEnd (x : AnsWait) (s : State) : State :=
  match x.purpose with
  | .ra party => if x.got = 0 then s.raDone party raNoAns else s
  | .dlvQuery => s.put F.HIER_DLV_STAT_BUSY 0
  | _ => s

/-- Answers of up frames up to `k` end. -/
def State.answersEnd (k : Nat) (s : State) : State :=
  let old := s.link.ansWait.filter (fun x => decide (x.swing ≤ k))
  old.foldl (fun s x => s.answerEnd x)
    { s with link := { s.link with ansWait := s.link.ansWait.filter (fun x => decide (k < x.swing)) } }

/-! ### The up frame (R125–R130, R133, R136, R137, R149, R173, R174) -/

/-- The word of worker `d` in up frame `k` on port `p`, valid (R126, R127, R135–R138, R149, R173). -/
def State.wordTake (p k d w : Nat) (s : State) : State :=
  let bit (i : Nat) : Bool := w.testBit i
  let x := tget s.link.wkr d
  let s := if x.lastSwing = some k ∧ x.lastPort ≠ p then
      let s := s.put F.HIER_STAT_DUP 1
      s.raise 11 19 d (s.reg F.HIER_STAT.base) (some d)
    else s
  let joined := s.maskBit F.LINK_WKR d
  let s := s.setMaskBit F.LINK_WKR d true
  let s := if !joined && x.wasIn then s.setMaskBit F.HIER_REJOIN d true else s
  let s := if bit 15 then s.setMaskBit F.LINK_ALARM d true else s
  let s := (s.setMaskBit F.HIER_WERR d (bit 14)).setMaskBit F.HIER_WIRQ d (bit 13)
  let s := if bit 7 && !(x.pdown && joined) then s.raise 11 3 d 0 (some d) else s
  let y : WorkerSt := { wasIn := false, pdown := bit 7, req := bit 12, lastSwing := some k, lastPort := p }
  let lost (f : SentFrame) : SentFrame :=
    if bit 9 && f.swing + 1 == k then { f with lost := f.lost ||| 2 ^ d } else f
  let s := { s with link := { s.link with
    wkr := tset s.link.wkr d y, sentFrames := s.link.sentFrames.map lost } }
  let waits := s.link.ansWait.filter (fun a => a.swing == k && a.targets.testBit d && !a.got.testBit d)
  let mark (a : AnsWait) : AnsWait := if a.swing == k && a.targets.testBit d then { a with got := a.got ||| 2 ^ d } else a
  let s := { s with link := { s.link with ansWait := s.link.ansWait.map mark } }
  waits.foldl (fun s a => s.answerTake a.purpose d (w / 1024 % 4)) s

/-- A reply or a refusal report in long slot `i` of up frame `k`, against the grants of that frame (R128, R133, R174): every reply
that is not registered counts as late. -/
def State.slotTake (k i : Nat) (b : List Byte) (good : Bool) (s : State) : State :=
  let g := (((s.link.grantLog.find? (fun e => e.1 == k)).map (fun e => e.2)).getD []).getD i 0
  let kind := byteAt b 1
  if !good || crc16 (b.take 62) != leAt b 62 2 then s.bump F.LINK_CNT1_SLOT_ERR
  else if kind = 1 ∧ (byteAt b 0 ≠ g ∨ g = 0) then s.bump F.LINK_LATE_CNT_LATE
  else if kind = 0 ∨ byteAt b 0 ≠ g ∨ g = 0 then s
  else if kind = 1 then
    match s.link.txns.find? (fun x => x.dev == g && x.tag == byteAt b 2) with
    | none => s.bump F.LINK_LATE_CNT_LATE
    | some x =>
      let res := byteAt b 4
      let ws := if res = 0 then (List.range x.count).map (fun j => BitVec.ofNat 32 (leAt b (8 + 4 * j) 4)) else []
      (s.tagClose x).reqDone x.purpose (if res ≤ 3 then res else raNoAns) ws
  else if kind = 2 then
    let slot := byteAt b 4
    let res := byteAt b 5
    let id := leAt b 6 2
    let w : Word := BitVec.ofNat 32 (2 ^ 31 + res % 16 * 2 ^ 16 + slot * 256 + g)
    let s := (s.setReg F.HIER_SREF.base w).setReg F.HIER_SREF_ID.base (BitVec.ofNat 32 id)
    if res = armLate ∧ s.cancelSent.contains id then s.raise 11 15 g w (some g) else s.raise 11 14 g w (some g)
  else s

/-- A status word on port `p` is registered. One that fails its check leaves a worker of this branch without a request for a
slot (R129), and counts for a worker in LINK_WKR: in a ring a worker's place in the frame of the other branch, on whose port
its words do not arrive, is none of its slots (R144; DEDUCED, log entry 48), unless the port by which they came is down. -/
def State.wordSeen (p k d w : Nat) (good : Bool) (s : State) : State :=
  if good && wordValid w then s.wordTake p k d w
  else
    let x := tget s.link.wkr d
    if x.lastPort ≠ p ∧ s.portUp x.lastPort then s
    else
      let s := { s with link := { s.link with wkr := tset s.link.wkr d { x with req := false } } }
      if s.maskBit F.LINK_WKR d then s.bump F.LINK_CNT1_STATUS_ERR else s

/-- Byte `i` of the alarm map is registered (R127). -/
def State.mapTake (i w : Nat) (s : State) : State :=
  (List.range 8).foldl (fun s j => if w.testBit j && decide (0 < 8 * i + j) then s.setMaskBit F.LINK_ALARM (8 * i + j) true else s) s

/-- The last byte of up frame `k` has been registered on port `p`: once that has come on every port that is up, answers of the
frame end. -/
def State.upEnds (p k : Nat) (s : State) : State :=
  let seen := if s.link.upSwing = k then p :: s.link.upBranch else [p]
  let s := { s with link := { s.link with upSwing := k, upBranch := seen } }
  if (List.range 2).all (fun q => !s.portUp q || seen.contains q) then s.answersEnd k else s

/-- One point of the link unit's timeline. -/
def State.lineEvent (e : LineEvent) (s : State) : State :=
  match e with
  | .ownWord p k => s.ownWord p k
  | .ownSlot p k i => s.ownSlot p k i
  | .ownMap p k => s.ownMap p k
  | .word p k d w good => s.wordSeen p k d w good
  | .slot _ k i b good => s.slotTake k i b good
  | .map _ _ i w => s.mapTake i w
  | .last p k => s.upEnds p k

/-- The next cycle at which a field of a passing up frame is due. -/
def State.lineNext (s : State) : Option Nat := earliest (s.link.lineDue.map (fun e => some e.1))

/-- The fields due by the present cycle. -/
def State.lineRun (s : State) : State :=
  let due := s.link.lineDue.filter (fun e => decide (e.1 ≤ s.now))
  if due.isEmpty then s
  else
    due.foldl (fun s e => s.lineEvent e.2)
      { s with link := { s.link with lineDue := s.link.lineDue.filter (fun e => decide (s.now < e.1)) } }

end Sys2Proof.Machine
end

