-- ==== Sys2Proof/Machine/Fabric.lean ====
section
/-! DEFINITION. The register fabric (R26–R33): what a granted read or write of any word of the address space does
(R504–R506), the point window (R150–R152, R203, R273, R310), the arbitration of waiting accesses, and the passing of
time with it. -/

namespace Sys2Proof.Machine

/-! ### Writes with an effect of their own -/

/-- Rest is scheduled for the entry tick `e` (R428); wake sources count from here on (R433). -/
def State.restSchedule (e : Nat) (s : State) : State :=
  { s.put F.SYS_REST_STAT_STATE 1 with rest := { s.rest with entry := some e }, wakePend := 0 }

/-- Rest is scheduled for E, the first multiple of 4,000 at least 20,000 ticks away, or refused (R428). A manager sends
three copies of REST first. -/
def State.restEnter (s : State) : State :=
  let sync := s.sync
  if !(s.isManager || sync == syncUnsynced || sync == syncCoarse || s.outOfContact) || s.rest.entry.isSome then
    s.put F.SYS_REST_STAT_REFUSED 1
  else
    let e := ceilTo 4000 (s.tick + 20000)
    let k := e / 4000
    let s := s.restSchedule e
    if s.isManager then { s with link := { s.link with restCopies := [(k - 4, e), (k - 3, e), (k - 2, e)] } } else s

/-- A granted write of SYS_RST_CTRL (R422, R423): the reset takes effect in the cycle after the grant. -/
def State.rstCtrl (p : Party) (w : Word) (s : State) : State :=
  if bitsOf w 24 8 ≠ 0x5A then s.notice p F.SYS_RST_CTRL.base
  else if bitOf w 1 then (s.cycles 1).hardWrite
  else if bitOf w 0 then (s.cycles 1).softReset
  else s

/-- A granted write of the SYS block. -/
def State.writeSys (p : Party) (a : Nat) (w m : Word) (s : State) : State :=
  if a = F.SYS_RST_CTRL.base then s.rstCtrl p w
  else if a = F.SYS_REST_CTRL.base then
    let t := s.ownedStore p a a w m
    if bitOf w 31 then t.restEnter else t
  else s.ownedStore p a a w m

/-- A granted write of the CAL block (R62, R67). -/
def State.writeCal (p : Party) (a : Nat) (w m : Word) (s : State) : State :=
  if a = F.CAL_LOAD_CTRL.base then s.reloadStart p w
  else if F.CAL_LOAD_AP.base ≤ a ∧ a < F.CAL_LOAD_AP.base + 16 then s.calAp p a w
  else s.ownedStore p a a w m

/-- A write of ESC_SLOT_DATAn: structural (R33, R83), and refused while the selected slot is armed. -/
def State.slotWrite (p : Party) (a : Nat) (w : Word) (s : State) : State :=
  let n := s.get (F.ESC_SLOT_SEL_SLOT.bk p.code)
  if !s.allUnwound || (s.slot n).armed then s.notice p a
  else s.portWrite p (sramKey 9 (8 * n + (a - F.ESC_SLOT_DATA.base))) w

/-- A granted write of the ESC block. -/
def State.writeEsc (p : Party) (a : Nat) (w m : Word) (s : State) : State :=
  if a = F.ESC_ARM_CMD.base then
    let op := bitsOf w 30 2
    let slot := bitsOf w 0 8
    if op = 3 then s.notice p a
    else if op = 2 then s.cancelCmd p (bitOf w 29) slot
    else s.armCmd p (op == 1) (bitOf w 29) (bitOf w 28) slot
  else if F.ESC_SLOT_DATA.base ≤ a ∧ a < F.ESC_SLOT_DATA.base + 8 then s.slotWrite p a w
  else if a = F.ESC_CNT_CLR.base then (if bitOf w 0 then s.escCntClr else s)
  else s.ownedStore p a a w m

/-- A granted write of the LINK block (R144). -/
def State.writeLink (p : Party) (a : Nat) (w m : Word) (s : State) : State :=
  if a = F.LINK_CTRL.base then
    let t := s.ownedStore p a a w m
    let t := if bitOf w 2 then t.retrain 0 else t
    if bitOf w 3 then t.retrain 1 else t
  else if a = F.LINK_CNT_CLR.base then (if bitOf w 0 then s.linkCntClr else s)
  else s.ownedStore p a a w m

/-- What the boot flash holds from HIER_DLV_ADDR on (R169): as the row of the access says, else as Config has it. -/
def State.bootFlash (s : State) : List Byte :=
  s.flash.getD ((List.range 524288).map (fun i => Config.flashByte (s.get F.HIER_DLV_ADDR + i)))

/-- A granted write of the HIER block (R155, R158, R169, R175). -/
def State.writeHier (p : Party) (a : Nat) (w m : Word) (s : State) : State :=
  if a = F.HIER_RA_CMD.base then s.raCmd p (bitsOf w 0 2)
  else if a = F.HIER_STG_DATA.base then s.stgWrite p w
  else if a = F.HIER_CMT_CMD.base then s.cmtCmd p (bitsOf w 28 4) (bitsOf w 0 6)
  else if a = F.HIER_DLV_CMD.base then
    s.dlvCmd p (bitsOf w 30 2) s.bootFlash
  else if a = F.HIER_DLV_TGT.base then s.ownedStore p a a w (m &&& ~~~ (1 : Word))
  else s.ownedStore p a a w m

/-- A granted write of the MEAS or MON block (R320, R334). -/
def State.writeMeas (p : Party) (a : Nat) (w m : Word) (s : State) : State :=
  if a < 0x4300 ∧ (a - 0x4000) % 0xC0 = 3 then
    if bitOf w 31 then s.urgent ((a - 0x4000) / 0xC0) (bitsOf w 0 5) else s
  else if a = F.MON_TEST.base then
    let t := s.ownedStore p a a w m
    if bitOf (w &&& m) 31 then t.sweepGo else t
  else s.ownedStore p a a w m

/-- A granted write of the FLT block (R368). -/
def State.writeFlt (p : Party) (a : Nat) (w m : Word) (s : State) : State :=
  if a = F.FLT_CMD.base then
    if bitsOf w 28 4 = 0 ∨ 4 < bitsOf w 28 4 then s.notice p a else s.fltCmd p w
  else s.ownedStore p a a w m

/-- A granted write of the PWRP block (R390, R395). -/
def State.writePwrp (p : Party) (a : Nat) (w m : Word) (s : State) : State :=
  let t := s.ownedStore p a a w m
  if a = F.PWRP_CTRL.base then t.ppCtrl p (w &&& m) else t

/-- A granted write of the KEEP block (R411–R418). -/
def State.writeKeep (p : Party) (a : Nat) (w m : Word) (s : State) : State :=
  if a = F.KEEP_STAT.base then
    match regDef a with
    | some d => if w &&& d.w1c = 0 then s else s.keepWrite p (.clear (w &&& d.w1c))
    | none => s
  else if a = F.KEEP_CFG.base then (if s.reservedWord a w then s.notice p a else s.keepWrite p (.cfg w))
  else if a = F.KEEP_CMD.base then
    let op := bitsOf w 28 4
    if op = 0 ∨ 5 < op then s.notice p a else s.keepCmd p op
  else s.ownedStore p a a w m

/-- A granted write of the PE block (R460, R472, R473). Of several bits of PEn_CTRL the higher acts first. -/
def State.writePe (p : Party) (a : Nat) (w m : Word) (s : State) : State :=
  if a = F.PE_NOTIFY.base then s.put F.PE_CAUSE_NOTIFY (s.get F.PE_CAUSE_NOTIFY ||| bitsOf (w &&& m) 0 8)
  else if a < 0x6200 then
    let n := (a - 0x6000) / 0x40
    let o := a % 0x40
    if o = 0 then
      let t := if bitOf w 31 then s.peGo n p else s
      let t := if bitOf w 30 then t.peRestartCmd n else t
      if bitOf w 29 then t.peStopCmd n else t
    else if 4 ≤ o ∧ o < 8 then s.mboxWrite n (o - 4) (s.wouldBe p a w m)
    else s.ownedStore p a a w m
  else s.ownedStore p a a w m

/-- A granted write of the MEM or OTP block (R483, R484, R492, R493, R501). -/
def State.writeMem (p : Party) (a : Nat) (w m : Word) (s : State) : State :=
  if a = F.MEM_SCRUB.base then s.scrubWrite p w
  else if a = F.MEM_CNT_CLR.base then s.memCntClr w
  else if a = F.MEM_CHK_CMD.base then s.chkCmd p w
  else if a = F.OTP_CMD.base then s.otpCmd p w
  else s.ownedStore p a a w m

/-! ### The engine memory window (R473, R505) -/

/-- What the page of the window shows at word `i`: an SRAM key, or none where it is reserved. -/
def windowKey (page i : Nat) : Option Nat :=
  if page < 8 then some (sramKey page i)
  else if page < 12 then some (sramKey 8 ((page - 8) * 4096 + i))
  else none

/-- Does the word lie in the stage area (R53)? -/
def stageKey (k : Nat) : Bool := decide (sramKey 8 10240 ≤ k ∧ k < sramKey 9 0)

/-- A granted write of the window (R454). -/
def State.windowWrite (p : Party) (a : Nat) (w : Word) (s : State) : State :=
  let page := s.get (F.PE_WIN_SEL_PAGE.bk p.code)
  match windowKey page (a - 0x8000) with
  | none => s.notice p a
  | some k =>
    let st := s.peState page
    if stageKey k || (decide (page < 8) && !(st == peNone || st == peStopped || st == peHeld || st == peCodeErr)) then
      s.notice p a
    else s.portWrite p k w

/-- A granted read of the window. -/
def State.windowRead (p : Party) (a : Nat) (s : State) : Word × State :=
  match windowKey (s.get (F.PE_WIN_SEL_PAGE.bk p.code)) (a - 0x8000) with
  | none => (0, s)
  | some k =>
    if stageKey k then (0, s)
    else
      let r := s.sramRead 2 k
      (r.1, r.2.2)

/-! ### The point window -/

/-- The record of point `a - 0x9000` as an access reads it: PKIND, INDEX, ACCESS; PKIND 0 where it is empty or its word is
uncorrectable. -/
def State.pointOf (a : Nat) (s : State) : (Nat × Nat × Nat) × State :=
  let r := s.sramRead 2 (sramKey 9 (2048 + (a - 0x9000)))
  let s := r.2.2
  if r.2.1 == .uncorrectable then ((0, 0, 0), s)
  else ((r.1.toNat % 256, r.1.toNat / 256 % 256, r.1.toNat / 65536 % 256), s)

/-- The last command word of a point's object (R203). -/
def State.pointCmdWord (s : State) (kind i : Nat) : Word := SMap.get sramDefault s.pointCmd (kind * 256 + i)

/-- A command word is acted on: the write of the field it names (R203, R273, R310). -/
def State.pointAct (p : Party) (a kind i : Nat) (c : Word) (s : State) : State :=
  let op := bitsOf c 30 2
  let put (f : Fld) : State :=
    s.ownedStore p a (f.addr i) (withBits 0 f.lo f.width (bitsOf c 0 f.width))
      (withBits 0 f.lo f.width (2 ^ f.width - 1))
  if kind = 2 then put F.PHn_CTRL_DIS
  else if op = 1 then
    if kind = 1 then put F.SEQ_RAILn_CTRL_ON
    else if kind = 3 then put F.LOOPn_TARGET_MARGIN
    else put F.CHn_CTRL_ON
  else if op = 2 then
    if kind = 1 then put F.SEQ_RAILn_CTRL_MARGIN
    else if kind = 3 then put F.LOOPn_SHED_NMIN
    else put F.CHn_PAIR_PMODE
  else s

/-- Has the command word of a point a reserved encoding: the operation 0b11, or a bit that is reserved as 0 (R13; DEDUCED)?
The words of rails and loops carry an operand of 8 bits, those of phases and channels one of 1 bit (R203, R273, R310). -/
def pointReserved (kind : Nat) (c : Word) : Bool :=
  if kind = 2 then bitsOf c 1 31 != 0
  else bitsOf c 30 2 == 3 || (if kind = 4 then bitsOf c 1 29 != 0 else bitsOf c 8 22 != 0)

/-- A granted write of a point (R151, R152, R203): an empty point, and one without the ACCESS bit, ignores it. -/
def State.pointWrite (p : Party) (a : Nat) (w m : Word) (s : State) : State :=
  let r := s.pointOf a
  let kind := r.1.1
  let i := r.1.2.1
  let s := r.2
  let bit := match p with
    | .strike => 2
    | _ => 1
  if kind = 0 ∨ !r.1.2.2.testBit bit then s.notice p a
  else if kind = 9 then s.keepByte p a i (w.toNat % 256)
  else if 4 < kind then s.notice p a
  else
    let c := (s.pointCmdWord kind i &&& ~~~ m) ||| (w &&& m)
    if pointReserved kind c then s.notice p a
    else State.pointAct p a kind i c { s with pointCmd := SMap.set sramDefault s.pointCmd (kind * 256 + i) c }

/-- The word a point reads (R151, R203, R273, R310, R354). A counter point's count has no owner in the manual: its word is
a free value. -/
def State.pointValue (s : State) (kind i : Nat) : Word × State :=
  if kind = 1 then
    (BitVec.ofNat 32 (bitsOf (s.reg (F.SEQ_RAILn_STAT.addr i)) 20 12 * 2 ^ 20 + s.get F.SEQ_RAILn_CTRL_MARGIN i * 256), s)
  else if kind = 2 then (BitVec.ofNat 32 (s.get F.PHn_STAT_STATE i * 2 ^ 29 + s.get F.PHn_STAT_IPH i), s)
  else if kind = 3 then
    (BitVec.ofNat 32 (s.get F.LOOPn_STAT_EN i * 2 ^ 31 + s.get F.LOOPn_STAT_PG i * 2 ^ 30 + s.get F.LOOPn_TSTAT_THR i * 2 ^ 29 +
      s.get F.LOOPn_STAT_CLAMP_HI i * 2 ^ 28 + s.get F.LOOPn_STAT_NACT i * 2 ^ 23 + s.get F.LOOPn_STAT_ILOOP i), s)
  else if kind = 4 then
    (BitVec.ofNat 32 (s.get F.CHn_STAT_STATE i * 2 ^ 28 + s.get F.CHn_STAT_PG i * 2 ^ 27 + s.get F.CHn_STAT_FET_DMG i * 2 ^ 26 +
      s.get F.CHn_STAT_RETRY_CNT i * 2 ^ 22 + s.get F.CHn_STAT_CAUSE i * 2 ^ 19 + s.get F.CHn_MEAS_I i), s)
  else if kind = 5 then (BitVec.ofNat 32 (s.get F.MONn_STAT_OV i * 2 + s.get F.MONn_STAT_UV i), s)
  else if kind = 6 then (s.reg (((F.MEASm_RES).off (i % 32)).addr (i / 32)), s)
  else if kind = 7 then (s.reg (F.THM_NODEn_T.addr i), s)
  else if kind = 8 then ((Config.freeWord s.free).setWidth 32, s.draw)
  else if kind = 9 then (BitVec.ofNat 32 (bitsOf (s.reg (F.KEEP_MEM.addr (i / 4))) (8 * (i % 4)) 8), s)
  else (0, s)

/-- A granted read of a point. -/
def State.pointRead (p : Party) (a : Nat) (s : State) : Word × State :=
  let r := s.pointOf a
  let s := r.2
  if r.1.1 = 0 then (0, s)
  else if !r.1.2.2.testBit 0 then (0, s.notice p a)
  else s.pointValue r.1.1 r.1.2.1

/-! ### Any word -/

/-- A write of the bits `m` of the word at `a` by a party takes effect. -/
def State.writeWord (p : Party) (a : Nat) (w m : Word) (s : State) : State :=
  match blockOf a with
  | 21 => s.windowWrite p a w
  | 22 => s.pointWrite p a w m
  | 23 => s.notice p a
  | 24 => s.notice p a
  | b =>
    if (regDef a).isNone then s.notice p a
    else
      match b with
      | 0 => s.writeSys p a w m
      | 1 => s.writeCal p a w m
      | 2 => s.writeEsc p a w m
      | 3 => s.writeLink p a w m
      | 4 => s.writeHier p a w m
      | 9 => s.writeMeas p a w m
      | 10 => s.writeMeas p a w m
      | 12 => s.writeFlt p a w m
      | 14 => s.writePwrp p a w m
      | 15 => s.writeKeep p a w m
      | 17 => s.writePe p a w m
      | 18 => s.writeMem p a w m
      | 19 => s.writeMem p a w m
      | 20 => if isEngine p then s.notice p a else s.ownedStore p a a w m
      | _ => s.ownedStore p a a w m

/-- Events after the first `n` arise from the outcome of this cycle, whose events have been taken: they are processed with
those of the next (R364). -/
def State.eventsLater (n : Nat) (s : State) : State :=
  { s with events := s.events.take n ++ (s.events.drop n).map (fun (e : Event) => { e with ready := false }) }

/-- A granted write of the bits `m` of the word at `a` by a party. -/
def State.writeBits (p : Party) (a : Nat) (w m : Word) (s : State) : State :=
  (s.writeWord p a w m).eventsLater s.events.length

/-- A granted write of a whole word. -/
def State.writeReg (p : Party) (a : Nat) (w : Word) (s : State) : State := s.writeBits p a w allBits

/-- Seconds in the present charger state, saturating (R400). -/
def State.chgElapsed (s : State) : Nat := min 65535 (s.chgTime / 100000000)

/-- A granted read of a word of a register. -/
def State.readRegister (p : Party) (a : Nat) (d : RegDef) (s : State) : Word × State :=
  let s := s.liveRead 2 a
  let k := p.code
  let slot := s.get (F.ESC_SLOT_SEL_SLOT.bk k)
  let b := blockOf a
  if d.managerOnly && !s.isManager then (0, s)
  else if a = F.ESC_TICK_LO.base then s.readTick p
  else if F.ESC_SLOT_DATA.base ≤ a ∧ a < F.ESC_SLOT_DATA.base + 8 then
    let r := s.sramRead 2 (sramKey 9 (8 * slot + (a - F.ESC_SLOT_DATA.base)))
    (r.1, r.2.2)
  else if a = F.ESC_SLOT_STAT.base then
    let x := s.slot slot
    (if x.armed then BitVec.ofNat 32 (x.id * 65536 + 1) else 0, s)
  else if a = F.ESC_SLOT_LAUNCH_LO.base ∨ a = F.ESC_SLOT_LAUNCH_HI.base then
    let x := s.slot slot
    (if x.armed then BitVec.ofNat 32 (if a = F.ESC_SLOT_LAUNCH_LO.base then x.launch else x.launch / 2 ^ 32) else 0, s)
  else if a = F.HIER_STG_DATA.base then s.stgRead
  else if F.SEQ_REC.base ≤ a ∧ a < F.SEQ_REC.base + 8 then
    let n := s.get (F.SEQ_REC_SEL_RAIL.bk k)
    (BitVec.ofNat 32 (leAt (tget s.railGraph n) (4 * (a - F.SEQ_REC.base)) 4), s)
  else if F.FLT_RECD.base ≤ a ∧ a < F.FLT_RECD.base + 8 then
    let i := s.get (F.FLT_SEL_INDEX.bk k)
    let j := a - F.FLT_RECD.base
    let hist := s.on (F.FLT_SEL_HIST.bk k)
    let key := if hist then (if i < 768 then some (histKey i j) else none)
      else if i < 256 then some (recKey i j) else none
    match key with
    | none => (0, s)
    | some q =>
      let r := s.sramRead 2 q
      (if hist || s.recUsed i then r.1 else 0, r.2.2)
  else if b = 14 ∧ !s.pp.fitted then (0, s)
  else if a = F.PWRP_STAT.base then
    (BitVec.ofNat 32 ((s.reg a).toNat / 65536 * 65536 + s.chgElapsed), s)
  else if a = F.KEEP_DATE.base then (s.reg a, s.setReg (F.KEEP_TIME.bk k).base (s.reg F.KEEP_TIME.base))
  else if b = 20 ∧ isEngine p then (0, s.notice p a)
  else (s.reg (bankKey d p a) &&& ~~~ d.wo, s)

/-- A granted read of word `k` of the OTP window (R492). -/
def State.otpRead (p : Party) (k : Nat) (s : State) : Word × State :=
  let test := match p with
    | .test => true
    | _ => false
  if s.rlocked (k / 64) && !test then (0, s.notice p (0x6C00 + k)) else (s.otpWord (k / 64) (k % 64), s)

/-- A read of any word (R28, R505) takes effect. The OTP window is no register of the tables. -/
def State.readWord (p : Party) (a : Nat) (s : State) : Word × State :=
  match blockOf a with
  | 21 => s.windowRead p a
  | 22 => s.pointRead p a
  | 23 =>
    let r := s.sramRead 2 (latchKey (a - 0xA000))
    (r.1, r.2.2)
  | 24 => (0, s)
  | _ =>
    match regDef a with
    | none =>
      if 0x6C00 ≤ a ∧ a < 0x6E00 then s.otpRead p (a - 0x6C00)
      else (0, if isEngine p && blockOf a == 20 then s.notice p a else s)
    | some d => s.readRegister p a d

/-- A granted read of any word. -/
def State.readReg (p : Party) (a : Nat) (s : State) : Word × State :=
  let r := s.readWord p a
  (r.1, r.2.eventsLater s.events.length)

/-! ### Arbitration (R27, R29, R30) -/

/-- Is this only the end of a remote access to device 0 (R155), which takes no grant? -/
def Access.isEnd (x : Access) : Bool := match x.ra with
  | some (.done _) => true
  | _ => false

/-- And its result. -/
def Access.result (x : Access) : Nat := match x.ra with
  | some (.done r) => r
  | _ => raOk

/-- Whose access this is: a party has one of its own outstanding (R27), and beside it one word of a remote access to
device 0, which does not count against it (R155). -/
def Access.sameTurn (x y : Access) : Bool := x.party.code == y.party.code && x.ra.isSome == y.ra.isSome

/-- The accesses outstanding: of each turn the first one waiting. A party issues its next when this one is granted (R27). -/
def State.outstanding (s : State) : List Access :=
  (s.waiting.filter (fun x => !x.isEnd)).foldl (fun r x => if r.any x.sameTurn then r else r ++ [x]) []

/-- Accesses that wait at a block. -/
def State.waitingAt (s : State) (b : Nat) : List Access := s.outstanding.filter (fun x => s.grantBlock x.addr == b)

/-- May a party be granted at a block, by R30? -/
def State.mayGrant (s : State) (b : Nat) (x : Access) : Bool :=
  let here := (s.waitingAt b).map (fun (y : Access) => y.party.code)
  !s.barred.any (fun e => e.1 == b && e.2.1 == x.party.code && e.2.2.any (fun q => here.contains q))

/-- The access a block grants in this cycle: the lowest rank of those that R30 admits, none where ranks 1 to 3 reached
the block. -/
def State.pick (s : State) (b : Nat) : Option Access :=
  if s.occupied.contains b then none
  else
    ((s.waitingAt b).filter (s.mayGrant b)).foldl (fun (r : Option Access) x =>
      match r with
      | none => some x
      | some y => if x.party.code < y.party.code then some x else r) none

/-- One entry less. -/
def dropOne (x : Access) : List Access → List Access
  | [] => []
  | y :: l => if y = x then l else y :: dropOne x l

/-- R30's note of a grant, and the access no longer waits. -/
def State.noteGrant (b : Nat) (x : Access) (s : State) : State :=
  let q := x.party.code
  let others := (((s.waitingAt b).map (fun (y : Access) => y.party.code)).filter (fun c => c != q)).eraseDups
  let old := (s.barred.filter (fun e => !(e.1 == b && e.2.1 == q))).map (fun (e : Nat × Nat × List Nat) =>
    if e.1 = b then (e.1, e.2.1, e.2.2.filter (fun c => c != q)) else e)
  { s with
    waiting := dropOne x s.waiting
    barred := (if others.isEmpty then old else old ++ [(b, q, others)]).filter (fun e => !e.2.2.isEmpty) }

/-- An access takes effect; a word of a remote access to device 0 is followed by the next (R155). -/
def State.serve (x : Access) (s : State) : Word × State :=
  let r := match x.word with
    | some w => (w, s.writeBits x.party x.addr w x.mask)
    | none => s.readReg x.party x.addr
  match x.ra with
  | some (.word i n rest) =>
    let t := if x.word.isNone then r.2.raData x.party.code i r.1 else r.2
    (r.1, t.raLocal x.party x.word.isSome (x.addr + 1) (i + 1) n rest)
  | _ => r

/-- Block of the control fields of a held object. -/
def HoldObj.block : HoldObj → Nat
  | .rail _ => 8
  | .chan _ => 7
  | .pair _ => 8
  | .loop _ => 5
  | .eng _ => 17
  | .chg => 14

/-- Objects that the reactions between two states put under a new hold: one that a waiting hold handed to its record, or a
record to a waiting hold, was held before. -/
def newlyHeld (old new : State) : List HoldObj :=
  ((new.holds.filter (fun h => !old.holds.contains h)).map (fun (h : Nat × HoldObj) => h.2)).filter
      (fun o => !old.holdWait.any (fun h => h.2 == o)) ++
    ((new.holdWait.filter (fun h => !old.holdWait.contains h)).map (fun (h : Nat × HoldObj) => h.2)).filter
      (fun o => !old.holds.any (fun h => h.2 == o))

/-- Does the collector process events in this cycle? -/
def State.eventsDue (s : State) : Bool := s.collects && s.events.any (fun e => e.ready)

/-- Blocks that the fault reaction unit reaches in this cycle: FLT wherever it processes an event (R364), and those in which
the reactions of new holds write (R18, R29). -/
def State.reactedBlocks (s : State) : List Nat :=
  if s.eventsDue then (12 :: (newlyHeld s s.reactions).map HoldObj.block).eraseDups else []

/-- The words of an applied host write are granted once none of them waits; BUSY ends with them (R445, R450). -/
def State.hostGranted (s : State) : State :=
  if s.hostBurst && !s.waiting.any (fun x => decide (x.party = .host)) then { s.put F.HOST_STAT_BUSY 0 with hostBurst := false } else s

/-- The grants of ranks 4 to 14 of one cycle, with the word each one read or wrote: a read follows every write granted in
that cycle (R27). Remote accesses that end do so. -/
def State.grantCycle (s : State) : List (Access × Word) × State :=
  let ends := s.waiting.filter (fun x => x.isEnd)
  let blocks := (s.outstanding.map (fun (x : Access) => s.grantBlock x.addr)).eraseDups
  let all := blocks.filterMap (fun b => (s.pick b).map (fun x => (b, x)))
  let picks := all.filter (fun p => p.2.word.isSome) ++ all.filter (fun p => p.2.word.isNone)
  let s := ends.foldl (fun s x => State.raDone x.party.code x.result
    { s with waiting := dropOne x s.waiting }) s
  picks.foldl (fun (r : List (Access × Word) × State) p =>
    if r.2.waiting.contains p.2 then
      let g := (r.2.noteGrant p.1 p.2).serve p.2
      (r.1 ++ [(p.2, g.1)], g.2)
    else r) ([], s)

/-- Does the fabric run: neither in reset nor at rest (R424, R430)? -/
def State.fabricOn (s : State) : Bool := s.phase == .running || s.phase == .sensing

/-- The end of a cycle: where accesses wait and the fabric runs, the grants at the blocks that are not taken, `taken` among
those that are, and what follows from the grants; then the triggers of the cycle. -/
def State.endCycle (taken : List Nat) (s : State) : List (Access × Word) × State :=
  if s.waiting.isEmpty || !s.fabricOn then ([], s.runTrigs)
  else
    let r := { s with occupied := s.occupied ++ taken }.grantCycle
    (r.1, if r.1.isEmpty then r.2.runTrigs else r.2.settle)

/-- The reactions to the events of a cycle, then its grants: a reaction takes the blocks that it reaches (R29). -/
def State.reactCycle (s : State) : List (Access × Word) × State :=
  State.endCycle s.reactedBlocks s.reactions

/-- The next fabric cycle begins: a host write whose words are all granted is over, time passes, and the fields of passing up frames that are due in it take place. -/
def State.cycleStart (s : State) : State := (s.hostGranted.cycles 1).lineRun

/-- One fabric cycle in which ranks 2 and 3 do `f`: their writes, the reactions, then the grants of ranks 4 to 14 at the
blocks that ranks 1 to 3 left alone (R29, R32). A write of `f` to a field that the reaction of this cycle holds comes before
it and is not dropped, as the example of chapter 1 has it (DEDUCED, log entry 7). -/
def State.cycleWith (f : State → State) (s : State) : List (Access × Word) × State := (f s.cycleStart).reactCycle

/-- One fabric cycle: reactions, then the grants, then the events they give. -/
def State.cycleOnce (s : State) : List (Access × Word) × State := s.cycleWith id

/-- Is there something that the very next cycle settles? -/
def State.busyCycle (s : State) : Bool :=
  !s.waiting.isEmpty || !s.due.isEmpty || s.events.any (fun e => !e.ready)

/-- Cycles pass in which nothing is settled but in the first. -/
def State.jump (t : Nat) (s : State) : State := if s.now < t then (s.cycles (t - s.now)).settle else s

/-- Time passes to cycle `t`: cycle by cycle while something is settled, else at once to the next cycle in which a field of
a passing up frame is due; at most `fuel` such cycles. -/
def State.passN : Nat → Nat → State → State
  | 0, t, s => s.jump t
  | fuel + 1, t, s =>
    if t ≤ s.now then s
    else if s.busyCycle then State.passN fuel t s.cycleOnce.2
    else
      match s.lineNext with
      | some u => if u ≤ t then State.passN fuel t (s.jump (u - 1)).cycleOnce.2 else s.jump t
      | none => s.jump t

/-- Time passes to cycle `t`; nothing where it is past. The accesses that wait are all granted in fewer cycles than the
fuel (R30). -/
def State.passTo (t : Nat) (s : State) : State := s.passN (64 + 64 * s.waiting.length + 64 * s.link.lineDue.length) t

/-- Time passes to a value of the tick count. -/
def State.passToTick (t : Nat) (s : State) : State := s.passTo (s.now + s.untilTick t)

/-- Bytes of a flash image that stands at `stage` arrive: time passes to the last of them (R61). -/
def State.flashArrives (stage : Nat) (b : List Byte) (s : State) : State :=
  if !s.flashAt stage then s
  else
    let t := s.passTo (s.flashDue (s.flashRead b.length))
    if t.flashAt stage then t.flashFeed b else t

/-- An access of a party waits for its grant, cycle by cycle: the word, the cycles it waited, and the state after the
grant. The bound of R30 lies far below the fuel. An access that is withdrawn while it waits gives none. -/
def State.accessWait : Nat → Access → Nat → State → Option Word × Nat × State
  | 0, x, n, s =>
    let r := State.serve x { s with waiting := dropOne x s.waiting }
    (some r.1, n, r.2.settle)
  | fuel + 1, x, n, s =>
    let r := s.cycleOnce
    match r.1.find? (fun g => g.1 == x) with
    | some g => (some g.2, n, r.2)
    | none => if r.2.waiting.contains x then State.accessWait fuel x (n + 1) r.2 else (none, n, r.2)

/-- One access of a party of ranks 4 to 14, from its request to its grant, after the party's accesses before it (R27). -/
def State.access (p : Party) (a : Nat) (w : Option Word) (s : State) : Option Word × Nat × State :=
  let x : Access := { party := p, addr := a, word := w }
  if !s.fabricOn then (none, 0, s)
  else State.accessWait (64 + 64 * s.waiting.length) x 0 { s with waiting := s.waiting ++ [x] }

/-- Words written one by one from address `a` on, `step` apart, each as an access of its own. A reset that one of them
starts loses the rest. -/
def State.burst (p : Party) (step : Nat) : Nat → List Word → State → State
  | _, [], s => s
  | a, w :: ws, s =>
    let t := (s.access p a (some w)).2.2
    if t.phase = s.phase then State.burst p step ((a + step) % 65536) ws t else t

/-- Words read one by one from address `a` on, each with the cycles it waited. A reset meanwhile loses the rest. -/
def State.fetch (p : Party) (step : Nat) : Nat → Nat → State → List (Word × Nat) × State
  | _, 0, s => ([], s)
  | a, n + 1, s =>
    let r := s.access p a none
    let t := if r.2.2.phase = s.phase then State.fetch p step ((a + step) % 65536) n r.2.2 else ([], r.2.2)
    ((r.1.getD 0, r.2.1) :: t.1, t.2)

/-- Cycles pass while the collector has events to process in the next one. -/
def State.afterEvents : Nat → State → State
  | 0, s => s
  | fuel + 1, s => if s.cycleStart.eventsDue then State.afterEvents fuel s.cycleOnce.2 else s

/-- An access of ranks 1 to 3 in the next cycle, which never waits: what it reads. A write of the strike unit or the test
port comes before the reactions of the cycle, one of the reaction unit with them; a read follows them and the grants of the
other blocks (R27, R29). An acknowledge or clear command of the test port waits for the events (R364). -/
def State.urgentAccess (p : Party) (a : Nat) (w : Option Word) (s : State) : Word × State :=
  let s := (if p = .test ∧ a = F.FLT_CMD.base ∧ w.isSome then s.afterEvents 64 else s).cycleStart
  match w with
  | some v =>
    let t := if p = .reaction then s.reactions else s
    (v, ((t.occupy a).writeReg p a v).reactCycle.2)
  | none =>
    let r := ((s.occupy a).reactCycle.2).readReg p a
    (r.1, r.2.settle)

/-- Requests of one party in a list. -/
def ofParty (p : Party) (l : List (Party × BitVec 16 × Word)) : List (Party × BitVec 16 × Word) :=
  l.filter (fun x => decide (x.1 = p))

/-- REGISTER_WRITE: the writes that reach the fabric in one cycle. Ranks 1 to 3 take effect in the order strike unit, test
port, reaction unit; the others wait for their grants (R29–R33). Where a party of ranks 4 to 14 has an access outstanding,
its write is issued after that (R27; DEDUCED, log entry 7). The test port's FLT_CMD waits for the events (R364), and with TEST_EN
sampled low the port writes nothing (R495). -/
def State.registerWrites (l : List (Party × BitVec 16 × Word)) (s : State) : State :=
  if !s.fabricOn then s
  else
    let l := if s.tapOn then l else l.filter (fun x => decide (x.1 ≠ .test))
    let acks := (ofParty .test l).filter (fun x => decide (x.2.1.toNat = F.FLT_CMD.base))
    let due := s.cycleStart.eventsDue
    let l := if due then l.filter (fun x => !acks.contains x) else l
    let now' (p : Party) (s : State) : State :=
      (ofParty p l).foldl (fun s x => (s.occupy x.2.1.toNat).writeReg p x.2.1.toNat x.2.2) s
    let s := now' .test (now' .strike s.cycleStart)
    let taken := s.reactedBlocks
    let s := if (ofParty .reaction l).isEmpty then s.reactions else (now' .reaction s.reactions).reactions
    let s := l.foldl (fun s x =>
      if x.1.urgent then s
      else { s with waiting := s.waiting ++ [{ party := x.1, addr := x.2.1.toNat, word := some x.2.2 }] }) s
    let t := (s.endCycle taken).2
    if due then acks.foldl (fun s x => (s.urgentAccess .test x.2.1.toNat (some x.2.2)).2) t else t

/-- A write of a register by a party, at its grant. -/
def State.granted (p : Party) (a : Nat) (w : Word) (s : State) : State :=
  if s.fabricOn then s.writeReg p a w else s

end Sys2Proof.Machine
end

