-- ==== Sys2Proof/Machine/Strike.lean ====
section
/-! DEFINITION. What the cycle of a tick applies as one batch of the strike unit (R32, R75, R92): the beat latch, a staged
commit or abort, and the launch of strike slots. -/

namespace Sys2Proof.Machine

/-- The launch tick due first. -/
def State.launchDue (s : State) : Option Nat :=
  earliest ((s.slots.toList.filter (fun k => k.armed)).map (fun (k : StrikeSlot) => some k.launch))

/-- The beat boundary due next: the start of beats, or the boundary fixed by the manager or by a BEAT command. -/
def State.beatDue (s : State) : Option Nat := earlier s.beat.accepted s.beat.next

/-- The eight words of an entry as the strike unit reads them at launch: was any of them uncorrectable (R478)? -/
def State.entryRead (n : Nat) (s : State) : List Word × Bool × State :=
  (List.range 8).foldl (fun (r : List Word × Bool × State) i =>
    let x := r.2.2.sramRead 3 (sramKey 9 (8 * n + i))
    (r.1 ++ [x.1], r.2.1 || x.2.1 == .uncorrectable, x.2.2)) ([], false, s)

/-- One action of a strike (R81). -/
def State.strikeAction (x : Action) (s : State) : State :=
  (s.occupy x.addr).writeBits .strike x.addr (BitVec.ofNat 32 (x.value * 2 ^ x.lsb))
    (BitVec.ofNat 32 ((2 ^ x.width - 1) * 2 ^ x.lsb))

/-- Slot `n` launches: its actions in order, and it closes (R81, R92). On the manager a hierarchy slot runs its own
actions only with TFLAGS bit 0 (R80, R89). -/
def State.launchSlot (n : Nat) (s : State) : State :=
  let own := (s.slot n).ownRun
  let r := s.entryRead n
  let s := r.2.2
  let s := if r.2.1 || !own then s else (entryActions (bytesOf r.1)).foldl (fun s x => s.strikeAction x) s
  s.closeSlot n

/-- Armed slots whose launch tick has come, in ascending launch tick and slot (R75, R92). -/
def State.launching (s : State) : List Nat :=
  let due := (List.range 256).filter (fun n => (s.slot n).armed && decide ((s.slot n).launch ≤ s.tick))
  sortBy (fun a b => decide ((s.slot a).launch < (s.slot b).launch) ||
    ((s.slot a).launch == (s.slot b).launch && decide (a ≤ b))) due

/-- The batch of the present tick (R75, R92). Where a forward step passes the tick of a staged commit and launch ticks before
it, the commit comes first, as R92 has it within one tick: R75 gives it no place among them (DESIGN CHOICE, log entry 53). Engines
that watch a slot learn of its launch after the batch (R460), and the manager fixes the next boundary last (R96). -/
def State.batch (s : State) : State :=
  let b := s.beatDue.filter (fun t => decide (t ≤ s.tick))
  let s := match b with
    | some t => s.beatLatch t
    | none => s
  let s := if (s.stage.armedAt.map (fun t => decide (t ≤ s.tick))).getD false then s.stageApply else s
  let l := s.launching
  let s := l.foldl (fun s n => s.launchSlot n) s
  let s := l.foldl (fun s n => s.trigger 3 n n) s
  match b with
  | some t => s.fixNextBeat t
  | none => s

/-- Time passes to the cycle of tick `t`, in which its batch takes effect before any access of ranks 4 to 14 at a block it
touches (R29, R32); where `t` is past, the batch takes effect at once. -/
def State.batchCycle (t : Nat) (s : State) : State :=
  if s.tick < t then ((s.passToTick (t - 1)).cycleWith State.batch).2 else s.batch.settle

/-- Time passes to a due tick and its batch takes effect; nothing where none is due. -/
def State.batchAt (due : Option Nat) (s : State) : State :=
  match due with
  | none => s
  | some t => if s.ticking then s.batchCycle t else s

/-- A step that is due sets the count in the next cycle, with what the step passes as one batch (R74, R75). -/
def State.escStep (s : State) : State :=
  if s.stepDue.isNone then s else (s.cycleWith (fun c => (c.stepCount.periodicPassed c.tick).batch)).2

end Sys2Proof.Machine
end

