-- ==== Sys2Proof/Machine/Commands.lean ====
section
/-! DEFINITION. What the command rows are built from: a party's write or read of one word, an operation that time brings,
and an engine's fabric accesses. -/

namespace Sys2Proof.Machine

/-- The outcome of a command that goes on: the state with its events and status settled. -/
def done (s : State) : Host.Outcome State Fault Refusal := .next s.settle

/-- Can the party reach the fabric? The test port only with TEST_EN sampled high (R495). -/
def State.admits (s : State) (p : Party) : Bool := decide (p ≠ .test) || s.tapOn

/-- A party writes one word, from its request to its grant (R27–R31). Nothing while the fabric stands. -/
def State.written (p : Party) (a : Nat) (w : Word) (s : State) : State :=
  if !s.fabricOn || !s.admits p then s
  else if p.urgent then (s.urgentAccess p a (some w)).2
  else (s.access p a (some w)).2.2

/-- A party reads one word; `busWord` is what it gets. Nothing while the fabric stands. -/
def State.readBy (p : Party) (a : Nat) (s : State) : State :=
  if !s.fabricOn || !s.admits p then s
  else if p.urgent then
    let r := s.urgentAccess p a none
    { r.2 with busWord := r.1 }
  else
    let r := s.access p a none
    { r.2.2 with busWord := r.1.getD s.busWord }

/-- Update-DR with FABRIC selected (R497): the access is granted in the next fabric cycle, and the next capture shows STATUS
done with what it read or wrote. While the fabric stands it is pending. -/
def State.fabricAccess (write : Bool) (addr : Nat) (data : Word) (s : State) : State :=
  if !s.tapOn || s.get F.TEST_STAT_IR != 0x20 then s
  else if s.fabricOn then
    let r := { s with tap := { s.tap with ask := none } }.urgentAccess .test addr (if write then some data else none)
    r.2.tapCapture (fabricDr 2 r.1.toNat addr (b2n write))
  else
    let t := s.tapCapture (fabricDr 1 data.toNat addr (b2n write))
    { t with tap := { t.tap with ask := some (write, addr, data) } }

/-- The fabric runs again: a pending access of the test port is granted. -/
def State.tapPending (s : State) : State :=
  match s.tap.ask with
  | some (w, a, d) => s.fabricAccess w a d
  | none => s

/-- A beat boundary that falls in cycle `t` comes before whatever else is due in it, also where time has passed to it already
(R97: an event stamped at the boundary counts in the beat that starts there). -/
def State.boundaryFirst (t : Nat) (s : State) : State :=
  match s.beat.next with
  | none => s
  | some b => if s.ticking ∧ s.tick ≤ b ∧ s.now + s.untilTick b = t then s.batchCycle b else s

/-- An operation that time brings: cycles pass to `due` and it takes effect; nothing where nothing is due. -/
def State.atTime (due : Option Nat) (f : State → State) (s : State) : State :=
  match due with
  | none => s
  | some t => f ((s.boundaryFirst t).passTo t)

/-- The same for an operation due at a tick, which does not come while the count stands. -/
def State.atTick (due : Option Nat) (f : State → State) (s : State) : State :=
  match due with
  | none => s
  | some t => if s.ticking then f ((s.boundaryFirst (s.now + s.untilTick t)).passToTick t) else s

/-- What a step does when no command waits: one fabric cycle, in which waiting accesses are granted and the events of the
cycle before reach the collector; in reset and rest no grant is made. -/
def State.idle (s : State) : State := s.cycleOnce.2

/-- Time passes to the cycle in which the run in progress reaches its BUDGET, and it overruns there (R462). -/
def State.reachBudget (n : Nat) (s : State) : State :=
  let c := s.passTo ((s.runTo n (s.runBudget n)).engNow n)
  if c.budgetAhead n then c.runTo n (c.runBudget n) else c

/-- An engine's instruction: time passes to the cycle in which it ends, and it takes effect there, unless the engine has
been stopped on the way. A budget that the run reaches before overruns in its own cycle (R462). -/
def State.engStep (n : Nat) (f : State → State) (s : State) : State :=
  let s := if s.budgetAhead n && decide (s.runBudget n < ((f s).pe n).cycles) then s.reachBudget n else s
  f (s.passTo ((f s).engNow n))

/-- Fabric address of FRD and FWR, none outside 0 to 0xFFFF (R456). -/
def fabricAddr (base : Word) (imm : BitVec 18) : Option Nat :=
  let a := (base + imm.signExtend 32).toNat
  if a < 65536 then some a else none

/-- An access of engine `n` waits for its grant at most `fuel` fabric cycles, each two cycles of its run, in which its budget can
overrun (R462): the word, and the state then. -/
def State.engWait (n : Nat) (x : Access) : Nat → State → Option Word × State
  | 0, s => (none, s)
  | fuel + 1, s =>
    let r := s.cycleOnce
    match r.1.find? (fun g => g.1 == x) with
    | some g => (some g.2, r.2)
    | none =>
      if r.2.waiting.contains x then
        State.engWait n x fuel (r.2.addCycles n (min 2 (r.2.runLimit n - (r.2.pe n).cycles)))
      else (none, r.2)

/-- A fabric access of engine `n`, after its own four cycles: the W fabric cycles it waits are 2 W engine cycles more. The
watchdog may expire first, which withdraws it (R463, R464); where another event stops the engine's run, nothing more happens. -/
def State.engAccess (n : Fin 8) (a : Nat) (w : Option Word) (g : Word → State → State) (s : State) : State :=
  let x : Access := { party := .pe n, addr := a, word := w }
  if !s.fabricOn then s
  else
    let left := (s.runLimit n - (s.pe n).cycles + 1) / 2
    let r := State.engWait n x left { s with waiting := s.waiting ++ [x] }
    let t := r.2
    match r.1 with
    | none => if t.waiting.contains x then t.watchdog n else t
    | some v =>
      if t.peState n != peRunning then t
      else if t.runLimit n ≤ (t.pe n).cycles then t.watchdog n
      else g v t

/-- FRD and FWR: the instruction's own four cycles, then the access at `d`, none where the address is out of range (R456). The
instruction has taken its cycles where the run stands further than before, apart from cycles counted ahead of it. -/
def State.engFabric (n : Fin 8) (i : Word) (d : Option Nat) (w : Option Word) (g : Word → State → State) (s : State) : State :=
  let t := s.engStep n (State.execEng n i (fun _ => match d with
    | none => .fault 4
    | some _ => .done 4 id))
  match d with
  | none => t
  | some a =>
    if t.peState n == peRunning && (t.pe n).cycles + (s.pe n).ahead != (s.pe n).cycles + (t.pe n).ahead then
      t.engAccess n a w g
    else t

/-- FRD (R456). -/
def State.opFrd (n : Fin 8) (rd a : XReg) (imm : BitVec 18) (s : State) : State :=
  s.engFabric n (encI 0x34 rd a imm) (fabricAddr (s.xreg n a) imm) none (fun v s => (s.setXreg n rd v).pcNext n)

/-- FWR (R456). -/
def State.opFwr (n : Fin 8) (b a : XReg) (imm : BitVec 18) (s : State) : State :=
  s.engFabric n (encI 0x35 b a imm) (fabricAddr (s.xreg n a) imm) (some (s.xreg n b)) (fun _ s => s.pcNext n)

end Sys2Proof.Machine
end

