-- ==== Sys2Proof/Machine/LoopCommands.lean ====
section
/-! DEFINITION. The commands of the conversion loops (chapters 6 and 7). -/

namespace Sys2Proof.Machine

/-! ### Boundaries and their clock -/

/-- CARRIER_BOUNDARY: the next carrier boundary of a loop, with what it samples (R217). -/
def execCarrierBoundary (n : Fin 8) (x : LoopSample) (s : State) : Host.Outcome State Fault Refusal :=
  if x.iph.length = 24 then done (s.atTime ((s.lp n).bnd.map (fun (t : Nat) => t / 32)) (State.carrierBoundary n x)) else .fault .illFormed

/-- SYNC_IN_EDGE: a rising edge of SYNC_IN, `d` fine units after the one before (R186). -/
def execSyncInEdge (d : Nat) (s : State) : Host.Outcome State Fault Refusal :=
  done (let t : Nat := max (32 * s.now) (s.syncIn.last.getD (32 * s.now) + d)
    (s.passTo (t / 32)).syncEdge t)

/-- SYNC_IN_LOST: no edge comes within 1.25 times the last measured interval: a loop loses SYNC_IN (R186). -/
def execSyncInLost (n : Fin 8) (s : State) : Host.Outcome State Fault Refusal :=
  done (if s.syncLoops.contains n.val && s.syncIn.interval != 0 then
      s.atTime (s.syncIn.last.map (fun t => (4 * t + 5 * s.syncIn.interval + 127) / 128)) (State.syncLoss n)
    else s)

/-- ON_TIME_END: the on-time that is due of a phase ends, at the time that its current gives: times in fine units from its start
with raw currents in mA, in order (R189, R225). -/
def execOnTimeEnd (p : Fin 24) (xs : List (Nat × Int)) (s : State) : Host.Outcome State Fault Refusal :=
  done (s.atTime ((s.onTimeEndAt p xs).map (fun t => t / 32)) (State.onTimeEnd p xs))

/-! ### Protection -/

/-- LOOP_FAST_SHORT: a phase of the loop reads this current in mA (R222). -/
def execLoopFastShort (n : Fin 8) (p : Fin 24) (raw : Int) (s : State) : Host.Outcome State Fault Refusal :=
  done (s.loopFastShort n p raw)

/-- BRAKE_ENGAGE: the remote sense stands at `v` µV, the local one at `vl` (R219, R233). -/
def execBrakeEngage (n : Fin 8) (v vl : Int) (s : State) : Host.Outcome State Fault Refusal :=
  done (s.brakeEngage n v vl)

/-- OVERLOAD_BIN_END: the end of the overload bin under way (R223). -/
def execOverloadBinEnd (n : Fin 8) (s : State) : Host.Outcome State Fault Refusal :=
  done (s.atTick (some (16000 * (max ((s.lp n).binNo + 1) (s.tick / 16000)))) (State.binEnd n))

/-- STGFLT_EDGE: STGFLTn# has been low for `held` consecutive ticks: the third registers, and the level shows at once (R229, R239). -/
def execStgfltEdge (n : Fin 8) (held : Nat) (s : State) : Host.Outcome State Fault Refusal :=
  done (s.stgLow n held)

/-- STGFLT_RISE: STGFLTn# has returned high (R229). -/
def execStgfltRise (n : Fin 8) (s : State) : Host.Outcome State Fault Refusal :=
  done (s.stgRise n)

/-- STAGE_FAULT_IDENTIFY: 50 µs after the edge, with the current of each phase cell in mA (R229). -/
def execStageFaultIdentify (n : Fin 8) (raw : List Int) (s : State) : Host.Outcome State Fault Refusal :=
  if raw.length = 24 then done (s.atTime ((s.lp n).stgAt.map (fun (t : Nat) => t + 5000)) (State.stageIdentify n raw)) else .fault .illFormed

/-- THROTTLE_RELEASE: THR_HOLD after the last source went inactive (R230). -/
def execThrottleRelease (n : Fin 8) (s : State) : Host.Outcome State Fault Refusal :=
  done (s.atTime (s.lp n).relAt (State.throttleRelease n))

/-- LOOP_DISCHARGE_TIMEOUT: 10 ms after the withdrawal of a discharging loop (R200). -/
def execLoopDischargeTimeout (n : Fin 8) (s : State) : Host.Outcome State Fault Refusal :=
  done (s.atTime ((s.lp n).discharge.map (fun (t : Nat) => t + 1000000)) (State.dischargeTimeout n))

/-! ### Hints and points -/

/-- HINT_EDGE: HINTk has stood at a level for `held` consecutive ticks (R207, R217). -/
def execHintEdge (k : Fin 4) (high : Bool) (held : Nat) (s : State) : Host.Outcome State Fault Refusal :=
  done (s.hintSample k high held)

/-- A write of the command word of a point: bits 31:30 `op`, the operand below (R203). -/
def State.pointCommand (p : Party) (point op v : Nat) (s : State) : State :=
  s.written p (0x9000 + point) (BitVec.ofNat 32 (op * 2 ^ 30 + v))

/-- POINT_LOOP_MARGIN: a write of MARGIN through a loop's point (R203). -/
def execPointLoopMargin (p : Party) (point : Fin 2048) (v : BitVec 8) (s : State) : Host.Outcome State Fault Refusal :=
  .next (s.pointCommand p point 1 v.toNat)

/-- POINT_LOOP_NMIN: a write of NMIN through a loop's point (R203). -/
def execPointLoopNmin (p : Party) (point : Fin 2048) (v : BitVec 5) (s : State) : Host.Outcome State Fault Refusal :=
  .next (s.pointCommand p point 2 v.toNat)

/-- POINT_PHASE_DIS: a write of DIS through a phase's point (R203). -/
def execPointPhaseDis (p : Party) (point : Fin 2048) (v : Bool) (s : State) : Host.Outcome State Fault Refusal :=
  .next (s.pointCommand p point 0 (b2n v))

end Sys2Proof.Machine
end

