-- ==== Sys2Proof/Machine/ChannelCommands.lean ====
section
/-! DEFINITION. The commands of the distribution channels (chapter 8). -/

namespace Sys2Proof.Machine

/-- Tick at which channel `n` samples next: a multiple of 1,000 (R243). -/
def State.sampleDue (s : State) (n : Nat) : Nat :=
  if s.tick % 1000 = 0 ∧ (s.ch n).lastSample ≠ some s.tick then s.tick else (s.tick / 1000 + 1) * 1000

/-- CHANNEL_SAMPLE: the next sample of a channel (R243). -/
def execChannelSample (n : Fin 24) (x : ChanSample) (s : State) : Host.Outcome State Fault Refusal :=
  done (if s.fabricOn then s.atTick (some (s.sampleDue n)) (State.channelSample n x) else s)

/-- CHANNEL_FAST_SHORT: the shunt voltage in µV (R259). -/
def execChannelFastShort (n : Fin 24) (v : Int) (s : State) : Host.Outcome State Fault Refusal :=
  done (s.channelFastShort n v)

/-- REVERSE_BLOCK: the shunt voltage of a pair member in µV (R243, R265). -/
def execReverseBlock (n : Fin 24) (v : Int) (s : State) : Host.Outcome State Fault Refusal :=
  done (s.reverseBlock n v)

/-- STANDBY_RESCUE: V_out of a standby member in mV, and the ticks for which it has been below STBY_UV (R266). -/
def execStandbyRescue (n : Fin 24) (v : Int) (held : Nat) (s : State) : Host.Outcome State Fault Refusal :=
  done (s.standbyRescue n v held)

/-- PAIR_BREAK: the scheduled break tick (R267). -/
def execPairBreak (n : Fin 24) (s : State) : Host.Outcome State Fault Refusal :=
  done (s.atTime (s.ch n).breakAt (State.pairBreak n))

/-- CHANNEL_ON_WRITE: a write of CHn_CTRL (R246–R248). -/
def execChannelOnWrite (p : Party) (n : Fin 24) (w : Word) (s : State) : Host.Outcome State Fault Refusal :=
  .next (s.written p (F.CHn_CTRL_ON.addr n) w)

/-- PMODE_WRITE: a write of CHn_PAIR (R267). -/
def execPmodeWrite (p : Party) (n : Fin 24) (w : Word) (s : State) : Host.Outcome State Fault Refusal :=
  .next (s.written p (F.CHn_PAIR_PMODE.addr n) w)

/-- POINT_CH_ON: a write of ON through a channel's point (R273). -/
def execPointChOn (p : Party) (point : Fin 2048) (v : Bool) (s : State) : Host.Outcome State Fault Refusal :=
  .next (s.pointCommand p point 1 (b2n v))

/-- POINT_CH_PMODE: a write of PMODE through a channel's point (R273). -/
def execPointChPmode (p : Party) (point : Fin 2048) (v : Bool) (s : State) : Host.Outcome State Fault Refusal :=
  .next (s.pointCommand p point 2 (b2n v))

end Sys2Proof.Machine
end

