-- ==== Sys2Proof/Machine/EngineCommands.lean ====
section
/-! DEFINITION. The commands of the policy engines beside their instructions (chapter 17). -/

namespace Sys2Proof.Machine

/-! ### Runs -/

/-- RUN_START: an idle engine begins the run of its lowest pending slot (R461). -/
def execRunStart (n : Fin 8) (s : State) : Host.Outcome State Fault Refusal :=
  done (s.runStart n)

/-- The run lasts 64 × LIMIT cycles and restarts (R463). An overrun in that very cycle makes its record beside the watchdog's
(R471). -/
def State.expire (n : Nat) (s : State) : State :=
  if s.peState n = peRunning then (s.runTo n (s.runLimit n)).watchdog n else s

/-- BUDGET_OVERRUN: the run in progress reaches its BUDGET (R462); a watchdog that expires no later does so on the way (R471). -/
def execBudgetOverrun (n : Fin 8) (s : State) : Host.Outcome State Fault Refusal :=
  done (if !s.budgetAhead n then s
    else if s.runLimit n ≤ s.runBudget n then s.engStep n (State.expire n)
    else s.reachBudget n)

/-- WATCHDOG_EXPIRY: the run in progress lasts 64 × LIMIT cycles (R463). -/
def execWatchdogExpiry (n : Fin 8) (s : State) : Host.Outcome State Fault Refusal :=
  done (if s.peState n = peRunning then s.engStep n (State.expire n) else s)

/-- PERIODIC_TRIGGER: the next multiple of 1,000 × PERIOD of a periodic slot (R460). -/
def execPeriodicTrigger (n : Fin 8) (h : Fin 8) (s : State) : Host.Outcome State Fault Refusal :=
  done (s.atTick (s.periodicDue n h) (State.periodicEvent n h))

/-! ### Restart and control -/

/-- RESTART: a write of PEn_CTRL with RESTART 1 (R464). -/
def execRestart (p : Party) (n : Fin 8) (s : State) : Host.Outcome State Fault Refusal :=
  .next (s.written p (F.PEn_CTRL.addr n) (BitVec.ofNat 32 (2 ^ 30)))

/-- RESTART_CHECK_DONE: F + 2,049 (R464). -/
def execRestartCheckDone (n : Fin 8) (s : State) : Host.Outcome State Fault Refusal :=
  done (s.atTime ((s.pe n).failAt.map (fun (t : Nat) => t + 2049)) (State.restartCheck n))

/-- INIT_RUN_START: F + 5,000 (R464). -/
def execInitRunStart (n : Fin 8) (s : State) : Host.Outcome State Fault Refusal :=
  done (s.atTime ((s.pe n).failAt.map (fun (t : Nat) => t + 5000)) (State.initRun n))

/-- GO: a write of PEn_CTRL with GO 1 (R472). -/
def execGo (p : Party) (n : Fin 8) (s : State) : Host.Outcome State Fault Refusal :=
  .next (s.written p (F.PEn_CTRL.addr n) (BitVec.ofNat 32 (2 ^ 31)))

/-- STOP: a write of PEn_CTRL with STOP 1 (R471). -/
def execStop (p : Party) (n : Fin 8) (s : State) : Host.Outcome State Fault Refusal :=
  .next (s.written p (F.PEn_CTRL.addr n) (BitVec.ofNat 32 (2 ^ 29)))

/-! ### Mailboxes and notices -/

/-- MBOX_WRITE: a write of PEn_MBOXk (R460). -/
def execMboxWrite (p : Party) (n : Fin 8) (k : Fin 4) (w : Word) (s : State) : Host.Outcome State Fault Refusal :=
  .next (s.written p ((F.PEn_MBOX.off k).addr n) w)

/-- PE_NOTIFY: a write of PE_NOTIFY (R473). -/
def execPeNotify (p : Party) (set : BitVec 8) (s : State) : Host.Outcome State Fault Refusal :=
  .next (s.written p F.PE_NOTIFY.base (set.zeroExtend 32))

end Sys2Proof.Machine
end

