-- ==== Sys2Proof/Machine/FaultCommands.lean ====
section
/-! DEFINITION. The commands of the fault collector (chapter 12). -/

namespace Sys2Proof.Machine

/-- FAULT_RECORD: the collector processes the events of the cycle before (R364). -/
def execFaultRecord (s : State) : Host.Outcome State Fault Refusal :=
  done (if s.events.isEmpty then s else s.cycleOnce.2)

/-- A word of FLT_CMD. -/
def fltWord (op cls index : Nat) : Word := BitVec.ofNat 32 (op * 2 ^ 28 + cls * 2 ^ 8 + index)

/-- ACK: a write of FLT_CMD with ACK (R368). -/
def execAck (p : Party) (slot : Fin 256) (s : State) : Host.Outcome State Fault Refusal :=
  .next (s.written p F.FLT_CMD.base (fltWord 1 0 slot))

/-- CLEAR: with CLEAR (R361, R368). -/
def execClear (p : Party) (slot : Fin 256) (s : State) : Host.Outcome State Fault Refusal :=
  .next (s.written p F.FLT_CMD.base (fltWord 2 0 slot))

/-- ACK_CLASS: with ACK_CLASS (R368). -/
def execAckClass (p : Party) (cls : Fin 16) (s : State) : Host.Outcome State Fault Refusal :=
  .next (s.written p F.FLT_CMD.base (fltWord 3 cls 0))

/-- CLEAR_L0: with CLEAR_L0 (R368). -/
def execClearL0 (p : Party) (s : State) : Host.Outcome State Fault Refusal :=
  .next (s.written p F.FLT_CMD.base (fltWord 4 0 0))

end Sys2Proof.Machine
end

