-- ==== Sys2Proof/Machine/LinkManager.lean ====
section
/-! DEFINITION. The manager's side of the Kamser link: the down frame of each swing with its commands and grants
(R122–R136, R154), the arrival of an up frame, lost workers (R137), and the update of the relay (R306, R307). -/

namespace Sys2Proof.Machine

/-! ### The relay (R306, R307) -/

/-- The hold map of device `d`: bit p is the OR of HOLD over every entry that names d:p (R306). -/
def State.holdMap (s : State) (d : Nat) : BitVec 64 :=
  let ws := s.relay.rpar.flatMap (fun e => e.2)
  let names (p : Nat) (w : Word) : Bool := bitOf w 31 && bitsOf w 0 17 == d * 2048 + p
  BitVec.ofNat 64 ((List.range 64).foldl (fun m p => if ws.any (names p) then m + 2 ^ p else m) 0)

/-- REG_WRITE bytes of words from `a` on. -/
def regWriteBytes (dest a : Nat) (ws : List Word) : List Byte :=
  cmdBytes 0x24 0 dest (a % 256) (a / 256) ws.length (bytesOf ws)

/-- RELAY_DEVICE_UPDATE: both reads of a device have completed (R307). -/
def State.relayUpdate (s : State) : State :=
  let r := s.relay
  let both (g : Nat × Nat × List Word) : Bool := g.2.1 == 0 && r.got.any (fun h => h.1 == g.1 && h.2.1 == 1)
  match r.got.find? both with
  | none => s.relayMove
  | some g =>
    let d := g.1
    let w1 := ((r.got.find? (fun h => h.1 == d && h.2.1 == 1)).map (fun h => h.2.2)).getD []
    let sums := g.2.2.take 6
    let rpar := g.2.2.drop 6 ++ w1
    let s := { s with relay := { r with
      got := r.got.filter (fun h => h.1 != d), rpar := r.rpar.filter (fun (e : Nat × List Word) => e.1 != d) ++ [(d, rpar)] } }
    let s := s.queueCmd 4 (regWriteBytes 0xFF (0x3B00 + 6 * d) sums)
    let s := s.burst .seq 1 (0x3B00 + 6 * d) sums
    let s := (List.range 64).foldl (fun (s : State) (e : Nat) =>
      let m : BitVec 64 := s.holdMap e
      let old : BitVec 64 := ((s.relay.maps.find? (fun x => x.1 == e)).map (fun x => x.2)).getD 0
      if m = old then s
      else
        let ws : List Word := [m.setWidth 32, (m >>> 32).setWidth 32]
        let s := { s with relay := { s.relay with maps := s.relay.maps.filter (fun (x : Nat × BitVec 64) => x.1 != e) ++ [(e, m)] } }
        if e = 0 then s.burst .seq 1 F.SEQ_HOLD.base ws else s.queueCmd 4 (regWriteBytes e F.SEQ_HOLD.base ws)) s
    s.relayMove

/-! ### The down frame (R122, R129, R154) -/

/-- A command and its purpose, as queued. -/
def LinkCmd.op (c : LinkCmd) : Nat := byteAt c.bytes 0
def LinkCmd.strike (c : LinkCmd) : Bool := decide (1 ≤ c.op ∧ c.op ≤ 3)
def LinkCmd.req (c : LinkCmd) : Bool := !c.strike && byteAt c.bytes 3 % 2 == 1
def LinkCmd.ans (c : LinkCmd) : Bool := !c.strike && byteAt c.bytes 3 / 2 % 2 == 1
def LinkCmd.data (c : LinkCmd) : Bool := c.op == 0x29 || c.op == 0x31

/-- The frame under construction. -/
structure Build where
  cmds : List (List Byte) := []
  bytes : Nat := 16
  reqs : List Nat := []               -- targets of its REQ commands
  anss : Nat := 0
  data : Nat := 0
  full : Bool := false                -- a command did not fit: nothing follows it
  left : List LinkCmd := []           -- commands that wait

/-- Workers a DEST names. -/
def State.destMask (s : State) (dest : Nat) : Nat :=
  if 1 ≤ dest ∧ dest ≤ 0x3F then 2 ^ dest
  else if 0x40 ≤ dest ∧ dest ≤ 0x43 then (tget s.link.sets (dest - 0x40)).toNat
  else if dest = 0xFF then 2 ^ 64 - 2
  else 0

/-- What the sending of a command starts on the manager, in frame `k`. -/
def State.cmdSent (k : Nat) (c : LinkCmd) (s : State) : State :=
  let dest := byteAt c.bytes 4
  let s := if c.op = 0x10 then
      let n := byteAt c.bytes 5
      { s with link := { s.link with sets := tset s.link.sets n (BitVec.ofNat 64 (leAt c.bytes 8 8)) } }
    else s
  let s := if c.ans then
      let w : AnsWait := { swing := k + 1, targets := s.destMask dest, purpose := c.purpose }
      { s with link := { s.link with ansWait := s.link.ansWait ++ [w] } }
    else s
  match c.purpose with
  | .bcast party => s.raDone party raOk
  | .stgData =>
    let n := s.commit.dataLeft - 1
    { s with commit := { s.commit with dataLeft := n, lastData := some k } }
  | .prepare => (s.put F.HIER_CMT_STAT_PHASE cmtPreparing).selfCheck
  | .check => s.put F.HIER_CMT_STAT_PHASE cmtChecking
  | .dlvData =>
    let n := leAt c.bytes 5 3
    let more := s.link.queue.any (fun x => x.purpose == .dlvData && decide (n < leAt x.bytes 5 3))
    let s := s.put F.HIER_DLV_STAT_NEXT (n + 1)
    if more then s else { s with deliv := { s.deliv with queryAt := some (k + 32) } }
  | _ => s

/-- Place a command where it fits (R154). -/
def State.place (k : Nat) (r : Build × State) (c : LinkCmd) : Build × State :=
  let b := r.1
  let fits := !b.full && decide (b.cmds.length < 8) && decide (b.bytes + c.bytes.length ≤ 336) &&
    (!c.req || decide (b.reqs.length < 3)) && (!c.ans || decide (b.anss < 1)) && (!c.data || decide (b.data < 6))
  let open' : Option (List Byte × State) :=
    if !fits then none
    else if c.req then
      (r.2.tagOpen (byteAt c.bytes 4) (byteAt c.bytes 7) c.purpose).map (fun t =>
        (splice c.bytes 2 (leBytes t.1 1), t.2))
    else some (c.bytes, r.2)
  match open' with
  | none => ({ b with full := true, left := b.left ++ [c] }, r.2)
  | some (bytes, s) =>
    ({ b with
        cmds := b.cmds ++ [bytes], bytes := b.bytes + bytes.length
        reqs := if c.req then b.reqs ++ [byteAt c.bytes 4] else b.reqs
        anss := b.anss + b2n c.ans, data := b.data + b2n c.data }, s.cmdSent k c)

/-- Copies due under R136: the strike commands of a frame that workers report lost, to those workers alone. -/
def repeatsOf (f : SentFrame) : List LinkCmd :=
  if f.lost = 0 then []
  else
    f.strikes.filterMap (fun b =>
      let m := leAt b 12 8 &&& f.lost
      if m = 0 then none else some ⟨1, splice b 12 (leBytes m 8), .none⟩)

/-- Commands that swing `k` adds to the queue: repeats, BEAT (R96), REST (R428), ASSIGN (R147), and the questions of the
commit and delivery units (R160, R165, R166, R171). -/
def State.swingCmds (k : Nat) (s : State) : State :=
  let l := s.link
  let s := { s with link := { l with
    queue := l.queue ++ l.sentFrames.flatMap repeatsOf
    sentFrames := l.sentFrames.map (fun (f : SentFrame) => { f with lost := 0 }) } }
  let beat (b : Option Nat) (s : State) : State :=
    if b = some (4000 * k + 16000) then
      s.queueCmd 2 (body40 (leBytes 3 1 ++ [0, 0, 0] ++ leBytes (4000 * k + 16000) 8 ++ leBytes (2 ^ 64 - 2) 8 ++
        leBytes s.beat.nextNum 4))
    else s
  let s := beat s.beat.next (beat s.beat.accepted s)
  let s := (s.link.restCopies.filter (fun c => c.1 == k)).foldl (fun s c =>
    s.queueCmd 3 (cmdBytes 0x13 0 0xFF 0 0 0 (leBytes c.2 8))) s
  let s := { s with link := { s.link with restCopies := s.link.restCopies.filter (fun c => decide (k < c.1)) } }
  let assign := s.on F.HIER_CTRL_AUTO_ASSIGN && s.calState == calLoaded && (s.link.assignDue || k % 256 == 0)
  let s := if s.calState == calLoaded then { s with link := { s.link with assignDue := false } } else s
  let s := if assign then
      s.queueCmd 3 (cmdBytes 0x20 0 0xFF (s.get F.HIER_CTRL_BASE_A) (s.get F.HIER_CTRL_BASE_B) 0 [])
    else s
  let c := s.commit
  let ready := c.prepareDue && c.dataLeft == 0 && (c.lastData.map (fun d => decide (d + 3 ≤ k))).getD false
  let s := if ready then
      let dests := if c.prepareTo.isEmpty then [destSet 3] else c.prepareTo
      let s := { s with commit := { c with prepareDue := false } }
      dests.foldl (fun s d => s.queueCmd 4 (cmdBytes 0x2A flagAns d 0 0 0 s.prepareBody) .prepare) s
    else s
  let check (d : Nat) (s : State) : State := s.queueCmd 4 (cmdBytes 0x2D flagAns d 0 0 0 (leBytes s.cmtId 2 ++ [0, 0])) .check
  let s := if (s.commit.checkAt.map (fun t => decide (t ≤ 4000 * k))).getD false then
      { check (destSet 3) s with commit := { s.commit with checkAt := none } }
    else s
  let due := s.commit.repairs.filter (fun r => decide (r.2 ≤ 4000 * k))
  let s := due.foldl (fun s r => check r.1 s) s
  let s := { s with commit := { s.commit with repairs := s.commit.repairs.filter (fun r => decide (4000 * k < r.2)) } }
  if (s.deliv.queryAt.map (fun q => decide (q ≤ k))).getD false then
    { s.queueCmd 4 (cmdBytes 0x32 flagAns (destSet 2) 0 0 0 []) .dlvQuery with deliv := { s.deliv with queryAt := none } }
  else s

/-- Grants of up frame `k` (R129): the targets of the REQ commands of the frame before, then the workers that ask,
round-robin: those whose word of the latest up frame had REQ, which is that of swing `k - 1` or `k - 2`, whichever came last. The
worker last granted by the second rule comes with them. -/
def State.grantsOf (k : Nat) (s : State) : List Nat × Nat :=
  let g1 := s.link.nextGrants.take 3
  let ask := ((List.range 63).map (fun i => (s.link.rrLast + i) % 63 + 1)).filter (fun d =>
    (tget s.link.wkr d).req && s.maskBit F.LINK_WKR d && !g1.contains d &&
      ((tget s.link.wkr d).lastSwing.map (fun j => decide (k ≤ j + 2))).getD false)
  let g2 := ask.take (3 - g1.length)
  ((g1 ++ g2 ++ [0, 0, 0]).take 3, g2.getLast?.getD s.link.rrLast)

/-- Down frame `k` in bytes (R122); the first byte stands for K27.7. -/
def downFrame (tick : Nat) (grants : List Nat) (cmds : List (List Byte)) : List Byte :=
  let h := leBytes (0x10 + cmds.length) 1 ++ leBytes tick 8 ++ grants.flatMap (fun g => leBytes g 1)
  [0xFB] ++ h ++ leBytes (crc8 h) 1 ++ leBytes (crc16 cmds.flatten) 2 ++ cmds.flatten

/-- Does the manager send frames? -/
def State.sendsFrames (s : State) : Bool :=
  s.isManager && s.ticking && s.fabricOn && !s.on F.SYS_RST_STAT_RDEF

/-- Down frame `k` is built and sent (R122, R129, R154). -/
def State.downBuild (k : Nat) (s : State) : State :=
  let s := ((s.answersEnd (k - 2)).relayMove).swingCmds k
  let q := s.link.queue
  let ordered := (List.range 6).flatMap (fun g => q.filter (fun c => c.grp == g))
  let r := ordered.foldl (State.place k) ({}, s)
  let b := r.1
  let s := r.2
  let added := s.link.queue.drop q.length
  let g := s.grantsOf k
  let f := downFrame (4000 * k) g.1 b.cmds
  let strikes := b.cmds.filter (fun c => decide (1 ≤ byteAt c 0 ∧ byteAt c 0 ≤ 3))
  let sent : SentFrame := { swing := k, strikes := strikes, lost := 0 }
  let s := { s with link := { s.link with
    queue := b.left ++ added, nextGrants := b.reqs, grantLog := ((k, g.1) :: s.link.grantLog).take 4, rrLast := g.2, sentSwing := some k
    sentFrames := (s.link.sentFrames ++ [sent]).drop (s.link.sentFrames.length - 7) } }
  (List.range 2).foldl (fun s p => if s.portSends p then (s.setPort p { s.port p with
      frame := f, frameAt := some s.now, rd := s.rdStart p, rdKept := true }).draw else s) s

/-- The swing whose frame is sent next. -/
def State.nextSwing (s : State) : Nat :=
  let k := (s.tick + 3999) / 4000
  if s.link.sentSwing = some k then k + 1 else k

/-- DOWN_FRAME_SEND: time passes to the next swing start at or after swing `k`, and the frame of that swing is sent. -/
def State.downSendAt (k : Nat) (s : State) : State :=
  if !s.sendsFrames then s
  else
    let k := max k s.nextSwing
    let s := s.passToTick (4000 * k)
    if s.sendsFrames then (s.downBuild k).settle else s

/-! ### The up frame (R125–R130, R137) -/

/-- UP_FRAME_RECEIVE: byte 0 of an up frame arrives on manager port `p`; `bad` are the bytes that come with a code error. Each
field is registered 2 ticks after its last code group (R127). Every field has its own check, so that a header that fails its
CRC-8 only counts; the frame is then taken as that of the swing in which it began, offset 2,200 being the earliest (DEDUCED, log
entry 48). -/
def State.upReceive (p : Nat) (b : List Byte) (bad : List Nat) (s : State) : State :=
  if !s.sendsFrames || !s.portUp p then s
  else
    let s := s.codeErrors p bad.length
    let good (o n : Nat) : Bool := (List.range n).all (fun i => !bad.contains (o + i))
    let at' (o : Nat) : Nat := s.now + 10 * o + 2
    let head := good 0 8 && crc8 (slice b 1 6) == byteAt b 7
    let k := if head then s.swing - (s.swing + 2 ^ 16 - leAt b 2 2) % 2 ^ 16 else swingOf (s.tick - 2200)
    let s := if head then s else s.bump F.LINK_CNT0_HCRC_ERR
    let words := (List.range 63).map (fun i =>
      (at' (10 + 2 * i), LineEvent.word p k (i + 1) (leAt b (8 + 2 * i) 2) (good (8 + 2 * i) 2)))
    let slots := (List.range 3).map (fun i =>
      (at' (slotOffset i + 64), LineEvent.slot p k i (slice b (slotOffset i) 64) (good (slotOffset i) 64)))
    let maps := ((List.range 8).filter (fun i => good (326 + i) 1)).map (fun i =>
      (at' (327 + i), LineEvent.map p k i (byteAt b (326 + i))))
    { s with link := { s.link with
      lineDue := s.link.lineDue ++ words ++ slots ++ maps ++ [(at' 334, LineEvent.last p k)] } }

/-- Tick at which worker `d` is lost: five up frames without a valid word have passed (R137). The rule names no moment in the
fifth: the model takes offset 7,534 of its swing, when the latest word of any branch would have been registered, whatever the
worker's own place (DESIGN CHOICE, log entry 24). -/
def State.lostAt (s : State) (d : Nat) : Option Nat :=
  if d = 0 ∨ !s.maskBit F.LINK_WKR d then none
  else (tget s.link.wkr d).lastSwing.map (fun k => 4000 * (k + 5) + 7534)

/-- The first tick at which a worker is lost. -/
def State.lostDue (s : State) : Option Nat := earliest ((List.range 64).map s.lostAt)

/-- Workers whose time has passed are marked lost (R137, R173, R305). -/
def State.workersLost (s : State) : State :=
  (List.range 64).foldl (fun s d =>
    if ((s.lostAt d).map (fun t => decide (t ≤ s.tick))).getD false then
      let s := ((s.setMaskBit F.LINK_WKR d false).setMaskBit F.HIER_WERR d false).setMaskBit F.HIER_WIRQ d false
      let gone : WorkerSt := { wasIn := true }
      let s := { s with link := { s.link with wkr := tset s.link.wkr d gone } }
      (s.raise 11 4 d 0 (some d)).mirrorStale d
    else s) s

end Sys2Proof.Machine
end

