-- ==== Sys2Proof/Machine/HierCommands.lean ====
section
/-! DEFINITION. The commands of hierarchy operation on the manager, of stages, commits, deliveries and the relay (chapters 5 and 9). -/

namespace Sys2Proof.Machine

/-! ### Remote access -/

/-- RA_READ: a write of HIER_RA_CMD with OP read (R155). -/
def execRaRead (p : Party) (s : State) : Host.Outcome State Fault Refusal :=
  .next (s.written p F.HIER_RA_CMD.base 1)

/-- RA_WRITE: a write of HIER_RA_CMD with OP write (R155). -/
def execRaWrite (p : Party) (s : State) : Host.Outcome State Fault Refusal :=
  .next (s.written p F.HIER_RA_CMD.base 2)

/-- RA_WRITE_ANS: a write of HIER_RA_CMD with OP write with answer (R157). -/
def execRaWriteAns (p : Party) (s : State) : Host.Outcome State Fault Refusal :=
  .next (s.written p F.HIER_RA_CMD.base 3)

/-! ### Commits -/

/-- HIER_STG_DATA: a write of the stage window (R158). -/
def execHierStgData (p : Party) (w : Word) (s : State) : Host.Outcome State Fault Refusal :=
  .next (s.written p F.HIER_STG_DATA.base w)

/-- A word of HIER_CMT_CMD. -/
def cmtWord (op dev : Nat) : Word := BitVec.ofNat 32 (op * 2 ^ 28 + dev)

/-- OPEN: a write of HIER_CMT_CMD with OPEN (R158). -/
def execOpenCmt (p : Party) (s : State) : Host.Outcome State Fault Refusal :=
  .next (s.written p F.HIER_CMT_CMD.base (cmtWord opOpen 0))

/-- SEND: with SEND (R160). -/
def execSendCmt (p : Party) (s : State) : Host.Outcome State Fault Refusal :=
  .next (s.written p F.HIER_CMT_CMD.base (cmtWord opSend 0))

/-- PREPARE: with PREPARE (R160). -/
def execPrepareCmt (p : Party) (s : State) : Host.Outcome State Fault Refusal :=
  .next (s.written p F.HIER_CMT_CMD.base (cmtWord opPrepare 0))

/-- CMT_COMMIT: with COMMIT (R161). -/
def execCmtCommit (p : Party) (s : State) : Host.Outcome State Fault Refusal :=
  .next (s.written p F.HIER_CMT_CMD.base (cmtWord opCommit 0))

/-- CMT_ABORT: with ABORT (R161). -/
def execCmtAbort (p : Party) (s : State) : Host.Outcome State Fault Refusal :=
  .next (s.written p F.HIER_CMT_CMD.base (cmtWord opAbort 0))

/-- REPAIR_COMMIT: with REPAIR_COMMIT for a worker (R166). -/
def execRepairCommit (p : Party) (dev : BitVec 6) (s : State) : Host.Outcome State Fault Refusal :=
  .next (s.written p F.HIER_CMT_CMD.base (cmtWord opRepairCommit dev.toNat))

/-- REPAIR_ABORT: with REPAIR_ABORT for a worker (R166). -/
def execRepairAbort (p : Party) (dev : BitVec 6) (s : State) : Host.Outcome State Fault Refusal :=
  .next (s.written p F.HIER_CMT_CMD.base (cmtWord opRepairAbort dev.toNat))

/-- CLOSE: with CLOSE (R167). -/
def execClose (p : Party) (s : State) : Host.Outcome State Fault Refusal :=
  .next (s.written p F.HIER_CMT_CMD.base (cmtWord opClose 0))

/-- STAGE_CHECKS_DONE: the checks of a whole stage end (R160). -/
def execStageChecksDone (s : State) : Host.Outcome State Fault Refusal :=
  done (s.stageChecks)

/-- COMMIT_APPLY: the armed tick of the stage (R163). -/
def execCommitApply (s : State) : Host.Outcome State Fault Refusal :=
  done (s.batchAt s.stage.armedAt)

/-- STAGE_STALE: T_d passes on a worker (R164). -/
def execStageStale (s : State) : Host.Outcome State Fault Refusal :=
  done (if s.stgState = stgNone then s else s.atTick (some s.stage.dead) State.stageStale)

/-- CMT_CHECK_SEND: the first swing at or after the tick from which a check is due (R165). -/
def execCmtCheckSend (s : State) : Host.Outcome State Fault Refusal :=
  done (match earlier s.commit.checkAt (earliest (s.commit.repairs.map (fun r => some r.2))) with
    | none => s
    | some t => s.downSendAt ((t + 3999) / 4000))

/-! ### Deliveries -/

/-- HIER_DLV_CMD is written, with what the boot flash holds from HIER_DLV_ADDR on (R169). -/
def State.dlvWritten (p : Party) (op : Nat) (flash : List Byte) (s : State) : State :=
  { State.written p F.HIER_DLV_CMD.base (BitVec.ofNat 32 (op * 2 ^ 30)) { s with flash := some flash } with flash := none }

/-- DLV_START_OP: a write of HIER_DLV_CMD with START (R169). -/
def execDlvStartOp (p : Party) (flash : List Byte) (s : State) : Host.Outcome State Fault Refusal :=
  .next (s.dlvWritten p dlvStartOp flash)

/-- START_RELOAD: a write of HIER_DLV_CMD with START_RELOAD (R169). -/
def execStartReload (p : Party) (flash : List Byte) (s : State) : Host.Outcome State Fault Refusal :=
  .next (s.dlvWritten p dlvReloadOp flash)

/-- DLV_ABORT: a write of HIER_DLV_CMD with ABORT (R169). -/
def execDlvAbort (p : Party) (s : State) : Host.Outcome State Fault Refusal :=
  .next (s.written p F.HIER_DLV_CMD.base (BitVec.ofNat 32 (dlvAbortOp * 2 ^ 30)))

/-- DLV_QUERY_SEND: the swing in which DLV_QUERY may first ride (R171). -/
def execDlvQuerySend (s : State) : Host.Outcome State Fault Refusal :=
  done (match s.deliv.queryAt with
    | none => s
    | some k => s.downSendAt k)

/-! ### The relay -/

/-- RELAY_DEVICE_UPDATE: both relay reads of a device have completed (R307). -/
def execRelayDeviceUpdate (s : State) : Host.Outcome State Fault Refusal :=
  done (s.relayUpdate)

/-- MIRROR_STALE: a mirror entry has not been written for 256 swings (R305). -/
def execMirrorStale (d : Fin 64) (s : State) : Host.Outcome State Fault Refusal :=
  done (s.atTime ((tget s.mirAt d).map (fun (t : Nat) => t + 1024000)) (State.mirrorStale d))

end Sys2Proof.Machine
end

