-- ==== Sys2Proof/Machine/HostBus.lean ====
section
/-! DEFINITION. The host two-wire bus (chapter 16): a whole transaction of the controller, its address match, its packet
error code, its words as rank-14 accesses, and the timeouts of stuck lines. -/

namespace Sys2Proof.Machine

/-- Does the device answer to a 7-bit address, and as which list entry (R437)? -/
def State.hostMatch (s : State) (tgt : Nat) : Option Nat :=
  let a := s.reg F.HOST_ADDR.base
  if s.on F.HOST_MASK_MODE then
    let diff := (tgt ^^^ s.get F.HOST_ADDR_ADDR0) &&& (127 - s.get F.HOST_MASK_MASK)
    if diff = 0 then some 0 else none
  else (List.range 4).find? (fun k => bitOf a (8 * k + 7) && bitsOf a (8 * k) 7 == tgt)

/-- Fabric cycles of nine clocks of SCL, one byte with its acknowledge, at 1 MHz, the fastest clock the bus takes (R435). The
rate is the controller's; a slower one leaves a word more time (DESIGN CHOICE, log entry 39). -/
def hostByte : Nat := 900

/-- A transaction has completed. -/
def State.hostDone (k opcode addr : Nat) (s : State) : State :=
  let s := (s.bump F.HOST_CNT_TRANS).put F.HOST_STAT_AIDX k
  (s.put F.HOST_LAST_OPCODE opcode).put F.HOST_LAST_ADDR addr

/-- The accesses of a write's words, `step` apart, in order (R440). -/
def hostAccesses (step : Nat) : Nat → List Word → List Access
  | _, [] => []
  | a, w :: ws => { party := .host, addr := a, word := some w } :: hostAccesses step ((a + step) % 65536) ws

/-- Cycles pass while words of an applied write wait, at most `fuel`. -/
def State.hostGrants : Nat → State → State
  | 0, s => s
  | fuel + 1, s =>
    let s := s.hostGranted
    if s.hostBurst then State.hostGrants fuel s.cycleOnce.2 else s

/-- A write is applied: its words enter the fabric one by one as rank-14 accesses (R443). They are waited for as long as the
next address byte takes at the least; BUSY stands until the last is granted (R450). -/
def State.hostApply (k opcode addr step : Nat) (ws : List Word) (s : State) : State :=
  let s := s.hostDone k opcode addr
  State.hostGrants hostByte { s.put F.HOST_STAT_BUSY 1 with hostBurst := true, waiting := s.waiting ++ hostAccesses step addr ws }

/-- A START or a STOP ends the transaction that stands open (R446): a write that carries exactly its data bytes is applied where
no PEC is required, any other is discarded with FRAME_ERR (R443); a read that has sent data is complete. -/
def State.hostEnd (s : State) : State :=
  let t := { s.put F.HOST_STAT_BUSY (b2n s.hostBurst) with hostOpen := none }
  match s.hostOpen with
  | none => s
  | some (.write k _ opcode addr step b) =>
    if b.length = 4 * (opcode % 16 + 1) ∧ s.on F.HOST_CFG_PEC_REQ = false then t.hostApply k opcode addr step (wordsOf b)
    else t.put F.HOST_STAT_FRAME_ERR 1
  | some (.read k opcode addr data) => if data then t.hostDone k opcode addr else t

/-- The open transaction is broken off (R446, R447): a write is discarded with FRAME_ERR, a read only ends. -/
def State.hostAbandon (s : State) : State :=
  match s.hostOpen with
  | none => s
  | some (.write ..) => { (s.put F.HOST_STAT_BUSY (b2n s.hostBurst)).put F.HOST_STAT_FRAME_ERR 1 with hostOpen := none }
  | some (.read ..) => { s.put F.HOST_STAT_BUSY (b2n s.hostBurst) with hostOpen := none }

/-- START and the address byte of a transaction: none where the device does not acknowledge it (R437, R445, R447), with what
the NACK leaves. Both lines are high before a START, so their low episodes are over (R446). -/
def State.hostStart (tgt : Nat) (s : State) : Option Nat × State :=
  let s := { s.hostEnd with hostScl := false, hostSda := false, hostAcks := [false] }
  match s.hostMatch tgt with
  | none => (none, s)
  | some k =>
    match s.phase with
    | .running => if s.hostBurst then (none, s.bump F.HOST_CNT_BUSY_NACK) else (some k, s)
    | .resting => (none, s.wakeBy 1)
    | .inReset => (none, s)
    | _ => (none, s.bump F.HOST_CNT_BUSY_NACK)

/-- The bytes of a transaction up to its word address. -/
def hostHead (tgt opcode addr : Nat) : List Byte := leBytes (2 * tgt) 1 ++ leBytes opcode 1 ++ leBytes addr 2

/-- The device acknowledges the bytes of a transaction: `n` from the address byte on, then `b`. -/
def State.acked (n : Nat) (b : List Bool) (s : State) : State := { s with hostAcks := List.replicate n true ++ b }

/-- Acknowledges of bytes that a controller sends after the PEC: the rules give none, so each is free. -/
def State.freeAcks (n : Nat) (s : State) : List Bool := (List.range n).map (fun i => Config.freeBit (s.free + i))

/-- WRITE and WRITE_FIX: `b` are the bytes the controller sends after ADDR_H, before P or before it falls silent with the
transaction open (R439–R443). A reserved OPCODE is not acknowledged and ends the transaction (R440). A PEC decides at its
acknowledge. -/
def State.hostWrite (tgt opcode addr step : Nat) (b : List Byte) (stop : Bool) (s : State) : State :=
  let r := s.hostStart tgt
  match r.1 with
  | none => r.2
  | some k =>
    let n := 4 * (opcode % 16 + 1)
    let s := r.2.put F.HOST_STAT_AIDX k
    if opcode / 16 = 0 ∨ 4 < opcode / 16 then (s.put F.HOST_STAT_FRAME_ERR 1).acked 1 [false]
    else if b.length ≤ n then
      let t := { s.put F.HOST_STAT_BUSY 1 with hostOpen := some (.write k tgt opcode addr step b) }.acked (4 + b.length) []
      if stop then t.hostEnd else t
    else
      let ok := decide (crc8 (hostHead tgt opcode addr ++ b.take n) = byteAt b n)
      let extra := b.length - (n + 1)
      let t := { s.acked (4 + n) (ok :: s.freeAcks extra) with free := s.free + extra }
      if ok then t.hostApply k opcode addr step (wordsOf (b.take n))
      else ((t.put F.HOST_STAT_PEC_ERR 1).bump F.HOST_CNT_PEC_FAIL).raise 15 3 0

/-- READ and READ_FIX: after address+R the controller clocks `n` bytes, then its NACK and P (R439, R444), or leaves the
transaction open; with no `n` it sends no address+R. Word 0 is fetched after ADDR_H; where it has not been granted when the
address+R byte ends, that byte is not acknowledged (R445). Each further word is fetched while the four bytes of the one before
it shift out, and comes late where it is granted after them and its first bit is clocked. A reset loses the transaction (R448). -/
def State.hostRead (tgt opcode addr step : Nat) (n : Option Nat) (stop : Bool) (s : State) : State :=
  let r := s.hostStart tgt
  match r.1 with
  | none => r.2
  | some k =>
    let s := r.2.put F.HOST_STAT_AIDX k
    let c := opcode % 16 + 1
    let f := ({ s.put F.HOST_STAT_BUSY 1 with hostTx := [] }.acked 4 []).fetch .host step addr 1
    let open' (data : Bool) (t : State) : State :=
      let t := { t with hostOpen := some (.read k opcode addr data) }
      if stop then t.hostEnd else t
    if f.2.phase ≠ s.phase then f.2
    else
      match n with
      | none => open' false f.2
      | some n =>
        if f.1.any (fun x => decide (hostByte < x.2)) then
          ((f.2.acked 4 [false]).put F.HOST_STAT_BUSY 0).bump F.HOST_CNT_BUSY_NACK
        else
          let got := if n = 0 then 1 else min c ((n + 3) / 4 + 1)
          let g := f.2.fetch .host step ((addr + step) % 65536) (got - 1)
          if g.2.phase ≠ s.phase then g.2
          else
            let tardy := (List.range (got - 1)).map (fun j => decide (4 * hostByte < ((g.1[j]?).map (fun x => x.2)).getD 0 ∧ 4 * (j + 1) < n))
            let late := tardy.any (fun x => x)
            let words := f.1.map (fun x => x.1) ++ (g.1.zip tardy).map (fun x => if x.2 then 0xFFFFFFFF else x.1.1)
            let data := bytesOf words
            let pec := crc8 (hostHead tgt opcode addr ++ leBytes (2 * tgt + 1) 1 ++ data)
            let out := if c ≤ got then data ++ leBytes (if late then 255 - pec else pec) 1 else data
            let t := { g.2.acked 5 [] with hostTx := (out ++ List.replicate n 0xFF).take n }
            open' true (if late then t.put F.HOST_STAT_LATE_RD 1 else t)

/-- A line has been held low for 30 ms (R446): what stands open ends, an unapplied write with FRAME_ERR as every discard but a
failed PEC does (R443), and the record is made once in an episode. `again` says that the line has been high since its last
timeout. -/
def State.hostTimeout (sda again : Bool) (s : State) : State :=
  if !s.fabricOn || (!again && (if sda then s.hostSda else s.hostScl)) then s
  else
    let s := s.hostAbandon
    if sda then ({ s with hostSda := true }.put F.HOST_STAT_SDA_TO 1).raise 15 2 0
    else ({ s with hostScl := true }.put F.HOST_STAT_SCL_TO 1).raise 15 1 0

end Sys2Proof.Machine
end

