-- ==== Sys2Proof/Machine/HostCommands.lean ====
section
/-! DEFINITION. The commands of the host bus (chapter 16): `tgt` is the 7-bit target address, `count` COUNT − 1, `addr` the word address. -/

namespace Sys2Proof.Machine

/-- WRITE: a transaction that writes, with its OPCODE and the bytes after ADDR_H (R443). The OPCODE is WRITE's, or one that
R440 reserves; those of the other three commands belong to their own rows. -/
def execHostWrite (tgt : BitVec 7) (op : BitVec 8) (addr : BitVec 16) (b : List Byte) (stop : Bool) (s : State) :
    Host.Outcome State Fault Refusal :=
  if 2 ≤ op.toNat / 16 ∧ op.toNat / 16 ≤ 4 then .fault .illFormed
  else done (s.hostWrite tgt.toNat op.toNat addr.toNat 1 b stop)

/-- READ: a READ transaction of which the controller clocks `n` bytes (R444). -/
def execHostRead (tgt : BitVec 7) (count : Fin 16) (addr : BitVec 16) (n : Option Nat) (stop : Bool) (s : State) :
    Host.Outcome State Fault Refusal :=
  done (s.hostRead tgt.toNat (0x20 + count.val) addr.toNat 1 n stop)

/-- WRITE_FIX: a WRITE_FIX transaction (R440). -/
def execWriteFix (tgt : BitVec 7) (count : Fin 16) (addr : BitVec 16) (b : List Byte) (stop : Bool) (s : State) :
    Host.Outcome State Fault Refusal :=
  done (s.hostWrite tgt.toNat (0x30 + count.val) addr.toNat 0 b stop)

/-- READ_FIX: a READ_FIX transaction (R440). -/
def execReadFix (tgt : BitVec 7) (count : Fin 16) (addr : BitVec 16) (n : Option Nat) (stop : Bool) (s : State) :
    Host.Outcome State Fault Refusal :=
  done (s.hostRead tgt.toNat (0x40 + count.val) addr.toNat 0 n stop)

/-- SCL_TIMEOUT: SCL has been low for 30 ms; `again`: it has been high since its last timeout (R446). -/
def execSclTimeout (again : Bool) (s : State) : Host.Outcome State Fault Refusal :=
  done (s.hostTimeout false again)

/-- SDA_TIMEOUT: SDA has been low for 30 ms (R446). -/
def execSdaTimeout (again : Bool) (s : State) : Host.Outcome State Fault Refusal :=
  done (s.hostTimeout true again)

end Sys2Proof.Machine
end

