-- ==== Sys2Proof/Machine/Instructions.lean ====
section
/-! DEFINITION. The meanings of the engine instructions (R456): each is the engine executing that instruction at its PC. -/

namespace Sys2Proof.Machine

/-- ADD (R456). -/
def execAdd (n : Fin 8) (rd a b : Fin 16) (s : State) : Host.Outcome State Fault Refusal :=
  done (s.engStep n (State.opR n 0x01 rd a b 1 (fun x y => x + y)))

/-- SUB (R456). -/
def execSub (n : Fin 8) (rd a b : Fin 16) (s : State) : Host.Outcome State Fault Refusal :=
  done (s.engStep n (State.opR n 0x02 rd a b 1 (fun x y => x - y)))

/-- AND (R456). -/
def execAndI (n : Fin 8) (rd a b : Fin 16) (s : State) : Host.Outcome State Fault Refusal :=
  done (s.engStep n (State.opR n 0x03 rd a b 1 (fun x y => x &&& y)))

/-- OR (R456). -/
def execOrI (n : Fin 8) (rd a b : Fin 16) (s : State) : Host.Outcome State Fault Refusal :=
  done (s.engStep n (State.opR n 0x04 rd a b 1 (fun x y => x ||| y)))

/-- XOR (R456). -/
def execXorI (n : Fin 8) (rd a b : Fin 16) (s : State) : Host.Outcome State Fault Refusal :=
  done (s.engStep n (State.opR n 0x05 rd a b 1 (fun x y => x ^^^ y)))

/-- SLL (R456). -/
def execSll (n : Fin 8) (rd a b : Fin 16) (s : State) : Host.Outcome State Fault Refusal :=
  done (s.engStep n (State.opR n 0x06 rd a b 1 (fun x y => x <<< (y.toNat % 32))))

/-- SRL (R456). -/
def execSrl (n : Fin 8) (rd a b : Fin 16) (s : State) : Host.Outcome State Fault Refusal :=
  done (s.engStep n (State.opR n 0x07 rd a b 1 (fun x y => x >>> (y.toNat % 32))))

/-- SRA (R456). -/
def execSra (n : Fin 8) (rd a b : Fin 16) (s : State) : Host.Outcome State Fault Refusal :=
  done (s.engStep n (State.opR n 0x08 rd a b 1 (fun x y => x.sshiftRight (y.toNat % 32))))

/-- SLT (R456). -/
def execSlt (n : Fin 8) (rd a b : Fin 16) (s : State) : Host.Outcome State Fault Refusal :=
  done (s.engStep n (State.opR n 0x09 rd a b 1 (fun x y => boolWord (BitVec.slt x y))))

/-- SLTU (R456). -/
def execSltu (n : Fin 8) (rd a b : Fin 16) (s : State) : Host.Outcome State Fault Refusal :=
  done (s.engStep n (State.opR n 0x0A rd a b 1 (fun x y => boolWord (BitVec.ult x y))))

/-- MIN (R456). -/
def execMinI (n : Fin 8) (rd a b : Fin 16) (s : State) : Host.Outcome State Fault Refusal :=
  done (s.engStep n (State.opR n 0x0B rd a b 1 (fun x y => if BitVec.slt x y then x else y)))

/-- MAX (R456). -/
def execMaxI (n : Fin 8) (rd a b : Fin 16) (s : State) : Host.Outcome State Fault Refusal :=
  done (s.engStep n (State.opR n 0x0C rd a b 1 (fun x y => if BitVec.slt x y then y else x)))

/-- MUL (R456). -/
def execMul (n : Fin 8) (rd a b : Fin 16) (s : State) : Host.Outcome State Fault Refusal :=
  done (s.engStep n (State.opR n 0x10 rd a b 2 (fun x y => x * y)))

/-- MULH (R456). -/
def execMulh (n : Fin 8) (rd a b : Fin 16) (s : State) : Host.Outcome State Fault Refusal :=
  done (s.engStep n (State.opR n 0x11 rd a b 2 (fun x y => mulHS x y)))

/-- MULHU (R456). -/
def execMulhu (n : Fin 8) (rd a b : Fin 16) (s : State) : Host.Outcome State Fault Refusal :=
  done (s.engStep n (State.opR n 0x12 rd a b 2 (fun x y => mulHU x y)))

/-- DIV (R456, R457). -/
def execDiv (n : Fin 8) (rd a b : Fin 16) (s : State) : Host.Outcome State Fault Refusal :=
  done (s.engStep n (State.opR n 0x13 rd a b 18 (fun x y => divS x y)))

/-- DIVU (R456, R457). -/
def execDivu (n : Fin 8) (rd a b : Fin 16) (s : State) : Host.Outcome State Fault Refusal :=
  done (s.engStep n (State.opR n 0x14 rd a b 18 (fun x y => divU x y)))

/-- REM (R456, R457). -/
def execRem (n : Fin 8) (rd a b : Fin 16) (s : State) : Host.Outcome State Fault Refusal :=
  done (s.engStep n (State.opR n 0x15 rd a b 18 (fun x y => remS x y)))

/-- REMU (R456, R457). -/
def execRemu (n : Fin 8) (rd a b : Fin 16) (s : State) : Host.Outcome State Fault Refusal :=
  done (s.engStep n (State.opR n 0x16 rd a b 18 (fun x y => remU x y)))

/-- MULQ (R456). -/
def execMulq (n : Fin 8) (rd a b : Fin 16) (s : State) : Host.Outcome State Fault Refusal :=
  done (s.engStep n (State.opR n 0x17 rd a b 2 (fun x y => mulQ x y)))

/-- ADDI (R456). -/
def execAddi (n : Fin 8) (rd a : Fin 16) (imm : BitVec 18) (s : State) : Host.Outcome State Fault Refusal :=
  done (s.engStep n (State.opI n 0x20 rd a imm (fun x => x + imm.signExtend 32)))

/-- SLTI (R456). -/
def execSlti (n : Fin 8) (rd a : Fin 16) (imm : BitVec 18) (s : State) : Host.Outcome State Fault Refusal :=
  done (s.engStep n (State.opI n 0x27 rd a imm (fun x => boolWord (BitVec.slt x (imm.signExtend 32)))))

/-- ANDI (R456). -/
def execAndi (n : Fin 8) (rd a : Fin 16) (imm : BitVec 18) (s : State) : Host.Outcome State Fault Refusal :=
  done (s.engStep n (State.opI n 0x21 rd a imm (fun x => x &&& imm.zeroExtend 32)))

/-- ORI (R456). -/
def execOri (n : Fin 8) (rd a : Fin 16) (imm : BitVec 18) (s : State) : Host.Outcome State Fault Refusal :=
  done (s.engStep n (State.opI n 0x22 rd a imm (fun x => x ||| imm.zeroExtend 32)))

/-- XORI (R456). -/
def execXori (n : Fin 8) (rd a : Fin 16) (imm : BitVec 18) (s : State) : Host.Outcome State Fault Refusal :=
  done (s.engStep n (State.opI n 0x23 rd a imm (fun x => x ^^^ imm.zeroExtend 32)))

/-- SLLI (R456). -/
def execSlli (n : Fin 8) (rd a : Fin 16) (sh : BitVec 5) (s : State) : Host.Outcome State Fault Refusal :=
  done (s.engStep n (State.opI n 0x24 rd a (sh.zeroExtend 18) (fun x => x <<< sh.toNat)))

/-- SRLI (R456). -/
def execSrli (n : Fin 8) (rd a : Fin 16) (sh : BitVec 5) (s : State) : Host.Outcome State Fault Refusal :=
  done (s.engStep n (State.opI n 0x25 rd a (sh.zeroExtend 18) (fun x => x >>> sh.toNat)))

/-- SRAI (R456). -/
def execSrai (n : Fin 8) (rd a : Fin 16) (sh : BitVec 5) (s : State) : Host.Outcome State Fault Refusal :=
  done (s.engStep n (State.opI n 0x26 rd a (sh.zeroExtend 18) (fun x => x.sshiftRight sh.toNat)))

/-- LUI (R456). -/
def execLui (n : Fin 8) (rd : Fin 16) (imm : BitVec 16) (s : State) : Host.Outcome State Fault Refusal :=
  done (s.engStep n (State.execEng n (encU 0x28 rd imm) (fun _ => wr n rd 1 (imm.zeroExtend 32 <<< 16))))

/-- LDW (R453, R458). -/
def execLdw (n : Fin 8) (rd a : Fin 16) (imm : BitVec 18) (s : State) : Host.Outcome State Fault Refusal :=
  done (s.engStep n (State.opLdw n rd a imm))

/-- STW (R453). -/
def execStw (n : Fin 8) (b a : Fin 16) (imm : BitVec 18) (s : State) : Host.Outcome State Fault Refusal :=
  done (s.engStep n (State.opStw n b a imm))

/-- FRD (R456). -/
def execFrd (n : Fin 8) (rd a : Fin 16) (imm : BitVec 18) (s : State) : Host.Outcome State Fault Refusal :=
  done (s.opFrd n rd a imm)

/-- FWR (R456). -/
def execFwr (n : Fin 8) (b a : Fin 16) (imm : BitVec 18) (s : State) : Host.Outcome State Fault Refusal :=
  done (s.opFwr n b a imm)

/-- BEQ (R456). -/
def execBeq (n : Fin 8) (a b : Fin 16) (off : BitVec 18) (s : State) : Host.Outcome State Fault Refusal :=
  done (s.engStep n (State.opB n 0x38 a b off (fun x y => decide (x = y))))

/-- BNE (R456). -/
def execBne (n : Fin 8) (a b : Fin 16) (off : BitVec 18) (s : State) : Host.Outcome State Fault Refusal :=
  done (s.engStep n (State.opB n 0x39 a b off (fun x y => decide (x ≠ y))))

/-- BLT (R456). -/
def execBlt (n : Fin 8) (a b : Fin 16) (off : BitVec 18) (s : State) : Host.Outcome State Fault Refusal :=
  done (s.engStep n (State.opB n 0x3A a b off (fun x y => BitVec.slt x y)))

/-- BGE (R456). -/
def execBge (n : Fin 8) (a b : Fin 16) (off : BitVec 18) (s : State) : Host.Outcome State Fault Refusal :=
  done (s.engStep n (State.opB n 0x3B a b off (fun x y => !BitVec.slt x y)))

/-- BLTU (R456). -/
def execBltu (n : Fin 8) (a b : Fin 16) (off : BitVec 18) (s : State) : Host.Outcome State Fault Refusal :=
  done (s.engStep n (State.opB n 0x3C a b off (fun x y => BitVec.ult x y)))

/-- BGEU (R456). -/
def execBgeu (n : Fin 8) (a b : Fin 16) (off : BitVec 18) (s : State) : Host.Outcome State Fault Refusal :=
  done (s.engStep n (State.opB n 0x3D a b off (fun x y => !BitVec.ult x y)))

/-- JAL (R456). -/
def execJal (n : Fin 8) (rd : Fin 16) (off : BitVec 22) (s : State) : Host.Outcome State Fault Refusal :=
  done (s.engStep n (State.opJal n rd off))

/-- JALR (R456). -/
def execJalr (n : Fin 8) (rd a : Fin 16) (imm : BitVec 18) (s : State) : Host.Outcome State Fault Refusal :=
  done (s.engStep n (State.opJalr n rd a imm))

/-- NOP (R456). -/
def execNop (n : Fin 8) (s : State) : Host.Outcome State Fault Refusal :=
  done (s.engStep n (State.opSys n 0 0 0 (fun _ => .done 1 (State.pcNext n))))

/-- HALT (R459). -/
def execHalt (n : Fin 8) (s : State) : Host.Outcome State Fault Refusal :=
  done (s.engStep n (State.opSys n 1 0 0 (fun _ => .done 1 (State.runEnd n) 0 true)))

/-- TICKL (R456). -/
def execTickl (n : Fin 8) (rd : Fin 16) (s : State) : Host.Outcome State Fault Refusal :=
  done (s.engStep n (State.opSys n 2 rd 0 (fun s => .done 1 (fun t =>
    ((t.setPe n { t.pe n with tickH := BitVec.ofNat 32 (s.tick / 2 ^ 32) }).setXreg n rd (BitVec.ofNat 32 s.tick)).pcNext n))))

/-- TICKH (R456). -/
def execTickh (n : Fin 8) (rd : Fin 16) (s : State) : Host.Outcome State Fault Refusal :=
  done (s.engStep n (State.opSys n 3 rd 0 (fun s => wr n rd 1 (s.pe n).tickH)))

/-- CYC (R456). -/
def execCyc (n : Fin 8) (rd : Fin 16) (s : State) : Host.Outcome State Fault Refusal :=
  done (s.engStep n (State.opSys n 4 rd 0 (fun s => wr n rd 1 (BitVec.ofNat 32 ((s.pe n).cycles - (s.pe n).ahead)))))

/-- EVT (R456, R461). -/
def execEvt (n : Fin 8) (rd : Fin 16) (s : State) : Host.Outcome State Fault Refusal :=
  done (s.engStep n (State.opSys n 5 rd 0 (fun s => wr n rd 1 (s.pe n).evt)))

/-- WAITT (R456). -/
def execWaitt (n : Fin 8) (a : Fin 16) (s : State) : Host.Outcome State Fault Refusal :=
  match s.waitTicks n a with
  | none => done s
  | some d => done (s.engStep n (State.opWaitt n a d))

end Sys2Proof.Machine
end

