-- ==== Sys2Proof/Machine/KeepCommands.lean ====
section
/-! DEFINITION. The commands of the keep domain (chapter 14). -/

namespace Sys2Proof.Machine

/-! ### Supply, crystal and clock -/

/-- KEEP_RESET: VKEEP below 1.45 V (R404). -/
def execKeepReset (s : State) : Host.Outcome State Fault Refusal :=
  done (s.keepReset)

/-- KEEP_RESET_RELEASE: VKEEP above 1.60 V (R404). -/
def execKeepResetRelease (s : State) : Host.Outcome State Fault Refusal :=
  done (s.keepRelease)

/-- SWITCH_OVER: the cell branch takes over VKEEP (R403). -/
def execSwitchOver (s : State) : Host.Outcome State Fault Refusal :=
  done (s.switchOver)

/-- MAIN_BRANCH_RETURN: the main branch takes VKEEP back (R403). -/
def execMainBranchReturn (s : State) : Host.Outcome State Fault Refusal :=
  done (s.mainBack)

/-- XTAL_STOP: no keep crystal edge for 1 ms (R406). -/
def execXtalStop (s : State) : Host.Outcome State Fault Refusal :=
  done (s.xtalStop)

/-- KEEP_CRYSTAL_RESTART: the keep crystal runs again (R406). -/
def execKeepCrystalRestart (s : State) : Host.Outcome State Fault Refusal :=
  done (s.xtalStart)

/-- CALENDAR_SECOND: the next second of the calendar (R409). -/
def execCalendarSecond (s : State) : Host.Outcome State Fault Refusal :=
  done (s.calendarSecond)

/-- TRIM_ADD: the next multiple of 2^20 keep periods (R408). -/
def execTrimAdd (s : State) : Host.Outcome State Fault Refusal :=
  done (s.trimNext)

/-- KEEP_CAL_WINDOW: a window of 32,768 keep periods ends after `n` ticks (R407). -/
def execKeepCalWindow (n : Nat) (s : State) : Host.Outcome State Fault Refusal :=
  done (s.keepWindow n)

/-! ### Commits -/

/-- KEEP_COMMIT_APPLY: a keep edge (R413). -/
def execKeepCommitApply (s : State) : Host.Outcome State Fault Refusal :=
  done (s.keepEdge)

/-- KEEP_CMD with an OP. -/
def State.keepOp (p : Party) (op : Nat) (s : State) : State := s.written p F.KEEP_CMD.base (BitVec.ofNat 32 (op * 2 ^ 28))

/-- SET_TIME: a write of KEEP_CMD with SET_TIME (R411). -/
def execSetTime (p : Party) (s : State) : Host.Outcome State Fault Refusal :=
  .next (s.keepOp p 1)

/-- HOUR_ADD: with HOUR_ADD (R412). -/
def execHourAdd (p : Party) (s : State) : Host.Outcome State Fault Refusal :=
  .next (s.keepOp p 2)

/-- HOUR_SUB: with HOUR_SUB (R412). -/
def execHourSub (p : Party) (s : State) : Host.Outcome State Fault Refusal :=
  .next (s.keepOp p 3)

/-- MEM_COMMIT: with MEM_COMMIT (R416). -/
def execMemCommit (p : Party) (s : State) : Host.Outcome State Fault Refusal :=
  .next (s.keepOp p 4)

/-- ALARM_SET: with ALARM_SET (R417). -/
def execAlarmSet (p : Party) (s : State) : Host.Outcome State Fault Refusal :=
  .next (s.keepOp p 5)

/-- KEEP_CFG_WRITE: a write of KEEP_CFG (R413). -/
def execKeepCfgWrite (p : Party) (w : Word) (s : State) : Host.Outcome State Fault Refusal :=
  .next (s.written p F.KEEP_CFG.base w)

/-- KEEP_STAT_CLEAR: a write of KEEP_STAT (R413). -/
def execKeepStatClear (p : Party) (w : Word) (s : State) : Host.Outcome State Fault Refusal :=
  .next (s.written p F.KEEP_STAT.base w)

/-- KEEP_DATE_READ: a read of KEEP_DATE, which latches KEEP_TIME for its reader (R415). -/
def execKeepDateRead (p : Party) (s : State) : Host.Outcome State Fault Refusal :=
  .next (s.readBy p F.KEEP_DATE.base)

/-- POINT_KEEP_BYTE_WRITE: a write of a keep-memory point (R413). -/
def execPointKeepByteWrite (p : Party) (point : Fin 2048) (v : BitVec 8) (s : State) : Host.Outcome State Fault Refusal :=
  .next (s.pointCommand p point 0 v.toNat)

end Sys2Proof.Machine
end

