-- ==== Sys2Proof/Machine/MeasCommands.lean ====
section
/-! DEFINITION. The commands of measurement, window monitors and the thermal model (chapters 10 and 11). -/

namespace Sys2Proof.Machine

/-! ### Measurement -/

/-- CONVERSION_END: the conversion under way ends with this code, before it is held to 24 bits (R314). -/
def execConversionEnd (m : Fin 4) (code : Int) (s : State) : Host.Outcome State Fault Refusal :=
  done (s.atTime (if s.on F.MEASm_STAT_RUN m then some ((s.md m).start + convTicks (s.md m).rate) else none) (State.conversionEnd m code))

/-- MEAS_MASK_WRITE: a write of MEASm_MASK (R319). -/
def execMeasMaskWrite (p : Party) (m : Fin 4) (w : Word) (s : State) : Host.Outcome State Fault Refusal :=
  .next (s.written p (F.MEASm_MASK.addr m) w)

/-- URG: a write of MEASm_URG with GO 1 (R320). -/
def execUrg (p : Party) (m : Fin 4) (e : BitVec 5) (s : State) : Host.Outcome State Fault Refusal :=
  .next (s.written p (F.MEASm_URG_GO.addr m) (BitVec.ofNat 32 (2 ^ 31 + e.toNat)))

/-! ### Window monitors -/

/-- In rest the comparators of the cells that SYS_REST_MON names go on, and their filters stand (R430). -/
def State.monRest (n : Nat) (v : Int) (s : State) : State :=
  if bitOf (s.reg (F.SYS_REST_MON.addr (n / 32))) (n % 32) && s.monUsed n then s.monRaws n (s.monRaw n v) else s

/-- A cell's next sample, its comparators seeing `v` nV: time passes to its sampling tick (R331). Where the count of ticks
stands, no sampling tick comes. -/
def State.monSampleNext (n : Nat) (v : Int) (s : State) : State :=
  if s.phase == .resting then s.monRest n v
  else if s.ticking then s.atTick (some (s.monSampleDue n)) (State.monSample n v) else s

/-- MONITOR_LEVEL_CHANGE: what a cell's comparators see at its next sampling ticks, in nV (R331–R333). The pin of a cell
whose input is on the test DAC is not seen (R334). -/
def execMonitorLevelChange (n : Fin 64) (l : List Int) (s : State) : Host.Outcome State Fault Refusal :=
  done (if s.on F.MONn_STAT_TEST n then s else l.foldl (fun s v => s.monSampleNext n v) s)

/-- MONITOR_SETTLE_END: a cell's hold ends, its comparators seeing `v` nV (R332), or the test DAC where its input is on it (R334).
No hold ends in rest, where the filters stand (R430). -/
def execMonitorSettleEnd (n : Fin 64) (v : Int) (s : State) : Host.Outcome State Fault Refusal :=
  done (if s.phase == .resting then s else s.atTime (s.mc n).settleEnd (State.monSettleEnd n v))

/-- MON_TEST_GO: a write of MON_TEST with GO 1 (R334). -/
def execMonTestGo (p : Party) (cell : BitVec 6) (first last : BitVec 10) (s : State) : Host.Outcome State Fault Refusal :=
  .next (s.written p F.MON_TEST_GO.base (BitVec.ofNat 32 (2 ^ 31 + last.toNat * 2 ^ 20 + first.toNat * 2 ^ 10 + cell.toNat)))

/-- The samples of the cell under test before cycle `till`, while what its comparators see does not change: after 16 of them the
filter has settled, and further ones change nothing. -/
def State.sweepSamples (till : Nat) (s : State) : State :=
  (List.range 16).foldl (fun s _ => match s.sweep with
    | none => s
    | some w =>
      if s.ticking && decide (s.now + s.untilTick (s.monSampleDue w.cell) < till) then
        s.atTick (some (s.monSampleDue w.cell)) State.sweepSample
      else s) s

/-- The samples of the cell under test up to the next move of the test DAC: its comparators see each code from their response
time after the DAC's move to it on (R330, R334). -/
def State.sweepDwell (s : State) : State :=
  match s.sweep with
  | none => s
  | some w =>
    let at' := (w.moves.map (fun m => m.1 + monResponse (s.monMode w.cell))).filter (fun t => decide (s.now < t ∧ t < w.due))
    let s := at'.reverse.foldl (fun s t => (s.sweepSamples t).atTime (some t) id) s
    s.sweepSamples w.due

/-- SWEEP_STEP: the next move of the test DAC, after the samples of the cell under test before it (R334). -/
def execSweepStep (s : State) : Host.Outcome State Fault Refusal :=
  done (s.sweepDwell.atTime (s.sweep.map (fun (w : SweepSt) => w.due)) State.sweepStep)

/-! ### The thermal model -/

/-- Tick of the next thermal update: a multiple of 10,000 (R340). -/
def State.thermalDue (s : State) : Nat :=
  if s.tick % 10000 = 0 ∧ s.thermalAt ≠ some s.tick then s.tick else (s.tick / 10000 + 1) * 10000

/-- The thermal update of this tick, with an image in force or without one, but not in rest (R340). -/
def State.thermalTick (pdev : Nat) (s : State) : State :=
  if s.phase != .running then s else { s with thermalAt := some s.tick }.thermalUpdate pdev

/-- Every node whose shed step is due sheds its next group (R350). -/
def State.shedsDue (s : State) : State :=
  (s.sheds.filter (fun (x : ShedSt) => decide (x.due ≤ s.now))).foldl (fun s x => s.shedNext x) s

/-- THERMAL_UPDATE: the next update, the device itself having drawn `pdev` mW (R340). -/
def execThermalUpdate (pdev : Nat) (s : State) : Host.Outcome State Fault Refusal :=
  done (s.atTick (some s.thermalDue) (State.thermalTick pdev))

/-- SHED_STEP: the next step of a hot node (R350). -/
def execShedStep (s : State) : Host.Outcome State Fault Refusal :=
  done (s.atTime (earliest (s.sheds.map (fun (x : ShedSt) => some x.due))) State.shedsDue)

end Sys2Proof.Machine
end

