-- ==== Sys2Proof/Machine/MemoryCommands.lean ====
section
/-! DEFINITION. The commands of memory integrity, OTP and the test port (chapter 18). -/

namespace Sys2Proof.Machine

/-! ### Memory integrity -/

/-- WRITEBACK_VERIFY: a corrected word is written back and re-read; `again` says that the re-read corrects too (R477). -/
def execWritebackVerify (again : Bool) (s : State) : Host.Outcome State Fault Refusal :=
  done (s.writeBackVerify again)

/-- SCRUB_READ: the scrubber reads its next word, in IDLE after `busy` cycles in which ports kept its bank (R481). -/
def execScrubRead (busy : Nat) (s : State) : Host.Outcome State Fault Refusal :=
  done (if s.fabricOn then s.atTime (some (s.scrubDue busy)) State.scrubRead else s)

/-- SCRUB_LAP_STARVED: an IDLE lap exceeds LAP_MAX (R482). -/
def execScrubLapStarved (s : State) : Host.Outcome State Fault Refusal :=
  done (if s.fabricOn then s.atTime s.starvedDue State.lapStarved else s)

/-- MEM_SCRUB_WRITE: a write of MEM_SCRUB (R483). -/
def execMemScrubWrite (p : Party) (w : Word) (s : State) : Host.Outcome State Fault Refusal :=
  .next (s.written p F.MEM_SCRUB.base w)

/-- READ_RAW: a write of MEM_CHK_CMD with READ_RAW (R484). -/
def execReadRaw (p : Party) (key : BitVec 8) (s : State) : Host.Outcome State Fault Refusal :=
  .next (s.written p F.MEM_CHK_CMD.base (BitVec.ofNat 32 (key.toNat * 2 ^ 24 + 2)))

/-- WRITE_RAW: with WRITE_RAW (R484). -/
def execWriteRaw (p : Party) (key : BitVec 8) (s : State) : Host.Outcome State Fault Refusal :=
  .next (s.written p F.MEM_CHK_CMD.base (BitVec.ofNat 32 (key.toNat * 2 ^ 24 + 1)))

/-- MEM_CNT_CLR: a write of MEM_CNT_CLR with CLR 1 (R501). -/
def execMemCntClr (p : Party) (s : State) : Host.Outcome State Fault Refusal :=
  .next (s.written p F.MEM_CNT_CLR.base 1)

/-! ### OTP -/

/-- A word of OTP_CMD. -/
def otpCmdWord (key : BitVec 8) (op : Nat) : Word := BitVec.ofNat 32 (key.toNat * 2 ^ 24 + op)

/-- PROGRAM: a write of OTP_CMD with PROGRAM (R494). -/
def execProgram (p : Party) (key : BitVec 8) (s : State) : Host.Outcome State Fault Refusal :=
  .next (s.written p F.OTP_CMD.base (otpCmdWord key 1))

/-- WLOCK: with WLOCK (R493). -/
def execWlock (p : Party) (key : BitVec 8) (s : State) : Host.Outcome State Fault Refusal :=
  .next (s.written p F.OTP_CMD.base (otpCmdWord key 2))

/-- RLOCK: with RLOCK (R493). -/
def execRlock (p : Party) (key : BitVec 8) (s : State) : Host.Outcome State Fault Refusal :=
  .next (s.written p F.OTP_CMD.base (otpCmdWord key 3))

/-- CTR_INC: with CTR_INC (R491). -/
def execCtrInc (p : Party) (key : BitVec 8) (s : State) : Host.Outcome State Fault Refusal :=
  .next (s.written p F.OTP_CMD.base (otpCmdWord key 4))

/-- OTP_PULSE_END: a pulse ends and the word, or the lock row, reads `seen` at the strict margin (R494). -/
def execOtpPulseEnd (seen : Word) (s : State) : Host.Outcome State Fault Refusal :=
  done (s.atTime (s.otpOp.map (fun (o : OtpOp) => o.due)) (State.otpPulse seen))

/-- OTP_WINDOW_READ: a read of the OTP window (R492). -/
def execOtpWindowRead (p : Party) (k : Fin 512) (s : State) : Host.Outcome State Fault Refusal :=
  .next (s.readBy p (0x6C00 + k.val))

/-! ### The test port -/

/-- The level of a pin, none where it is high-impedance. -/
def pinOf : PwmLevel → Option Bool
  | .high => some true
  | .low => some false
  | .midZ => none

/-- The levels of the boot-flash pins, FL_SCK, FL_CS# and FL_IO0–3: in SPI mode 0 a port at rest has its clock low, its select high
and its data pins released (R532). In a flash load the select is low, and the clock and the data pins move faster than a
command of this model: their levels are free. -/
def State.flashPins (s : State) : List (Option Bool) :=
  if s.load.src = 1 ∨ s.load.src = 2 then
    some (Config.freeBit s.free) :: some false :: (List.range 4).map (fun i => some (Config.freeBit (s.free + 1 + i)))
  else [some false, some true, none, none, none, none]

/-- The levels the device gives the digital pins it drives, in the order R496 names them: PWM0–23, PWREN0–31, THROTTLE0–7,
SYNC_OUT, IRQ#, ERR# and the boot-flash pins. A pin of CELL_MAP that asserts low or is open-drain is shown as asserted or not. -/
def State.devicePins (s : State) : List (Option Bool) :=
  (List.range 24).map (fun p => pinOf (s.pwm p (32 * s.now))) ++ (List.range 32).map (fun k => some (s.pwren.getLsbD k)) ++
    (List.range 8).map (fun n => some (!s.on F.LOOPn_TSTAT_THR n)) ++
    [some (s.syncOut (32 * s.now)), some (!s.irqLow), some (!s.errLow)] ++ s.flashPins

/-- The pins as they stand: while PINCTL is 1 they follow the boundary register, which gives a PWM pin a drive bit and a
mid-Z bit, or are high-impedance under HIGHZ (R498). The device's own values go on behind them. -/
def State.pins (s : State) : List (Option Bool) :=
  if !s.on F.TEST_STAT_PINCTL then s.devicePins
  else if s.get F.TEST_STAT_IR = 2 then List.replicate 73 none
  else
    let b (i : Nat) : Bool := s.tap.boundary.getD i false
    (List.range 24).map (fun p => if b (24 + p) then none else some (b p)) ++ (List.range 49).map (fun i => some (b (48 + i)))

/-- What SAMPLE captures of the pins: the drive and the mid-Z bit of each PWM pin, the other driven pins, PWRGD0–31 and
HINT0–3, and then `ins`, the pins whose level the state does not hold. The order of the cells is the vendor's (DESIGN CHOICE,
log entry 42). -/
def State.sampled (ins : List Bool) (s : State) : List Bool :=
  let out := s.devicePins
  let bit (o : Option Bool) : Bool := o.getD false
  (out.take 24).map bit ++ (out.take 24).map (fun o => o.isNone) ++ (out.drop 24).map bit ++
    (List.range 32).map (fun k => s.pwrgd.getLsbD k) ++ (List.range 4).map (fun k => s.hintPin.getLsbD k) ++ ins

/-- A list of bits, the first lowest. -/
def bitsNat (l : List Bool) : Nat := l.foldr (fun b n => b2n b + 2 * n) 0

/-- The test port selects an instruction and the boundary register takes what is shifted into it, if anything is. -/
def State.tapSelect (op : Nat) (d : Option (List Bool)) (s : State) : State :=
  let t := s.tapIr op
  match d with
  | none => t
  | some l => t.tapBoundary l

/-- EXTEST: the pins follow the boundary register, which takes `d` (R498). -/
def execExtest (d : Option (List Bool)) (s : State) : Host.Outcome State Fault Refusal :=
  done (s.tapSelect 0x00 d)

/-- SAMPLE_PRELOAD: the boundary register captures the pins, `ins` being those whose level the state does not hold, and takes
`d` (R496). -/
def execSamplePreload (ins : List Bool) (d : Option (List Bool)) (s : State) : Host.Outcome State Fault Refusal :=
  done ((s.tapSelect 0x01 d).tapCapture (bitsNat (s.sampled ins)))

/-- HIGHZ: every boundary output high-impedance (R498). -/
def execHighz (s : State) : Host.Outcome State Fault Refusal :=
  done (s.tapIr 0x02)

/-- CLAMP: outputs held from the boundary register (R498). -/
def execClamp (s : State) : Host.Outcome State Fault Refusal :=
  done (s.tapIr 0x03)

/-- DEVID: SYS_ID is selected and captured (R496). -/
def execDevid (s : State) : Host.Outcome State Fault Refusal :=
  done ((s.tapIr 0x10).tapCapture (s.reg F.SYS_ID.base).toNat)

/-- FABRIC: the fabric register is selected; it shows idle (R497). -/
def execFabric (s : State) : Host.Outcome State Fault Refusal :=
  done ((s.tapIr 0x20).tapCapture 0)

/-- BYPASS: BYPASS, or an opcode that acts as it (R496). -/
def execBypass (op : BitVec 8) (s : State) : Host.Outcome State Fault Refusal :=
  done (s.tapIr op.toNat)

/-- FABRIC_ACCESS: an Update-DR with FABRIC selected (R497). -/
def execFabricAccess (write : Bool) (addr : BitVec 16) (data : Word) (s : State) : Host.Outcome State Fault Refusal :=
  done (s.fabricAccess write addr.toNat data)

end Sys2Proof.Machine
end

