-- ==== Sys2Proof/Machine/LinkCommands.lean ====
section
/-! DEFINITION. What a worker does with the commands of an accepted down frame (R115, R123, R124, R146, R153, R156, R159–
R165, R170, R171, R428). Every meaning here takes a command's bytes, from OP on. -/

namespace Sys2Proof.Machine

/-- Does a DEST name this worker (R124)? One that found its number held twice acts on DEST 0xFF alone (R149), and so does
one without a number (R148). -/
def State.addressed (s : State) (dest : Nat) : Bool :=
  let own := s.hasNumber && !s.link.dupStop
  dest == 0xFF || (own && dest == s.devNo && dest != 0) ||
    (own && decide (0x40 ≤ dest ∧ dest ≤ 0x43) && (tget s.link.sets (dest - 0x40)).getLsbD s.devNo)

/-- Does a strike command's TARGETS name this worker (R95)? -/
def State.targeted (s : State) (b : List Byte) : Bool :=
  s.hasNumber && !s.link.dupStop && (cmdTargets b).testBit s.devNo

/-- A strike command acts on the workers in its TARGETS. -/
def State.onTarget (b : List Byte) (f : State → State) (s : State) : State :=
  if s.isManager || !s.fabricOn || !s.targeted b then s else f s

/-- A command with a header acts on the workers its DEST names. -/
def State.onDest (b : List Byte) (f : State → State) (s : State) : State :=
  if s.isManager || !s.fabricOn || !s.addressed (byteAt b 4) then s else f s

/-- FLAGS of a command. -/
def wantsReply (b : List Byte) : Bool := byteAt b 3 % 2 == 1
def wantsAns (b : List Byte) : Bool := byteAt b 3 / 2 % 2 == 1

/-- ARM, CANCEL, BEAT (R89–R91, R101). -/
def State.linkArm (b : List Byte) (s : State) : State := s.onTarget b (fun s => s.armLink b)
def State.linkCancel (b : List Byte) (s : State) : State := s.onTarget b (fun s => s.cancelLink b)
def State.linkBeat (b : List Byte) (s : State) : State := s.onTarget b (fun s => s.beatLink b)

/-- SELECT: a set is replaced (R124). -/
def State.linkSelect (b : List Byte) (s : State) : State :=
  s.onDest b (fun s =>
    let k := byteAt b 5
    let m := BitVec.ofNat 64 (leAt b 8 8 / 2 * 2)
    if k < 4 then { s with link := { s.link with sets := tset s.link.sets k m } } else s)

/-- RETRAIN (R123). -/
def State.linkRetrain (b : List Byte) (s : State) : State :=
  s.onDest b (fun s =>
    let s := if (byteAt b 5).testBit 0 then s.retrain 0 else s
    if (byteAt b 5).testBit 1 then s.retrain 1 else s)

/-- PHANTOM: ARG byte 5 is written to bits 7:0 of LINK_PH_CTRL (R123). -/
def State.linkPhantom (b : List Byte) (s : State) : State :=
  s.onDest b (fun s => s.ownedStore .link F.LINK_PH_CTRL.base F.LINK_PH_CTRL.base (BitVec.ofNat 32 (byteAt b 5)) 0xFF)

/-- REST: the first copy accepted schedules the entry; one less than 200 ticks ahead is ignored (R428). -/
def State.linkRest (b : List Byte) (s : State) : State :=
  s.onDest b (fun s =>
    let e := leAt b 8 8
    if s.rest.entry.isSome || decide (e < s.tick + 200) then s else s.restSchedule e)

/-- ASSIGN: a worker without a number takes one from its place (R146, R147). One that waits for its source tries flash
again under the new number's images (R60). -/
def State.linkAssign (b : List Byte) (s : State) : State :=
  s.onDest b (fun s =>
    if s.hasNumber then s
    else match s.upstream with
      | none => s
      | some p =>
        let base := byteAt b (5 + p)
        let n := base + s.get F.LINK_PORT_STAT_HOPS_VIA p - 1
        if base = 0 then s
        else if 63 < n then (s.put F.HIER_STAT_NONUM 1).raiseReg 11 20 0 F.HIER_STAT
        else
          let s := (s.put F.HIER_STAT_DEV n).put F.HIER_STAT_DEV_SRC 2
          if s.calState == calWaiting && s.load.src == 0 && s.phase == .running then
            { s with load := { s.load with nextSrc := 1 } }
          else s)

/-- A request received at tick `t` ends: its reply (R156), the answer of its status word, and the record of a refusal. -/
def State.ptDone (b : List Byte) (result : Nat) (ws : List Word) (t : Nat) (s : State) : State :=
  let s := if result = raOk then s else s.raise 11 10 0
  let s := if wantsReply b then s.holdReply t (byteAt b 2) (leBytes result 4 ++ bytesOf ws) else s
  if wantsAns b then s.setAnswer (if result = raOk then ansReady else ansRefuse) else s

/-- The words a write command carries. -/
def cmdWords (b : List Byte) : List Word := (List.range (byteAt b 7)).map (fun i => BitVec.ofNat 32 (leAt b (8 + 4 * i) 4))

/-- A count outside 1 to 8 is out of range (R153). -/
def countCheck (n r : Nat) : Nat := if n = 0 ∨ 8 < n then raRange else r

/-- A second request that carries a tag still held is ignored (R134). -/
def State.heldTag (b : List Byte) (s : State) : Bool := wantsReply b && s.replyHeld (byteAt b 2)

/-- A read of words from `a` on by rank-13 accesses, refused with `r` where it is not 0. -/
def State.linkRead (b : List Byte) (a r : Nat) (s : State) : State :=
  if s.heldTag b then s
  else if r ≠ raOk then s.ptDone b r [] s.tick
  else
    let x := s.fetch .link 1 a (byteAt b 7)
    x.2.ptDone b raOk (x.1.map (fun y => y.1)) s.tick

/-- A write of words from `a` on by rank-13 accesses, refused with `r` where it is not 0. -/
def State.linkWrite (b : List Byte) (a r : Nat) (s : State) : State :=
  if s.heldTag b then s
  else if r ≠ raOk then s.ptDone b r [] s.tick
  else (s.burst .link 1 a (cmdWords b)).ptDone b raOk [] s.tick

/-- First point of a point command, and the check of R156. -/
def cmdPoint (b : List Byte) : Nat := leAt b 5 2 % 2048
def State.pointsOk (b : List Byte) (write : Bool) (s : State) : Nat :=
  countCheck (byteAt b 7) (s.pointsCheck write (cmdPoint b) (byteAt b 7))

/-- The device reads the records of the points that a request it does not ignore names (R134, R477). -/
def State.readAsked (b : List Byte) (s : State) : State :=
  if s.heldTag b || countCheck (byteAt b 7) raOk != raOk then s else s.readPoints (cmdPoint b) (byteAt b 7)

/-- PT_READ, PT_WRITE, REG_READ, REG_WRITE (R156). -/
def State.linkPtRead (b : List Byte) (s : State) : State :=
  s.onDest b (fun s =>
    let s := s.readAsked b
    s.linkRead b (0x9000 + cmdPoint b) (s.pointsOk b false))
def State.linkPtWrite (b : List Byte) (s : State) : State :=
  s.onDest b (fun s =>
    let s := s.readAsked b
    s.linkWrite b (0x9000 + cmdPoint b) (s.pointsOk b true))
def State.linkRegRead (b : List Byte) (s : State) : State :=
  s.onDest b (fun s => s.linkRead b (leAt b 5 2) (countCheck (byteAt b 7) (regsCheck (leAt b 5 2) (byteAt b 7))))
def State.linkRegWrite (b : List Byte) (s : State) : State :=
  s.onDest b (fun s => s.linkWrite b (leAt b 5 2) (countCheck (byteAt b 7) (regsCheck (leAt b 5 2) (byteAt b 7))))

/-- The answer of an ANS command. -/
def State.ansIf (b : List Byte) (a : Nat) (s : State) : State := if wantsAns b then s.setAnswer a else s

/-- STG_OPEN, STG_DATA, STG_PREPARE, COMMIT, ABORT, CMT_CHECK (R159–R165). -/
def State.linkStgOpen (b : List Byte) (s : State) : State :=
  s.onDest b (fun s =>
    let r := s.stageOpen (leAt b 8 2) (leAt b 10 2) (leAt b 12 8) (leAt b 20 4)
    r.2.ansIf b r.1)
def State.linkStgData (b : List Byte) (s : State) : State :=
  s.onDest b (fun s => s.stageData (leAt b 5 2) (slice b 8 32))
def State.linkStgPrepare (b : List Byte) (s : State) : State :=
  s.onDest b (fun s => s.ansIf b (s.stagePrepare (leAt b 8 2) (leAt b 10 2) (leAt b 12 4)))
def State.linkCommit (b : List Byte) (s : State) : State :=
  s.onDest b (fun s => s.stageArm true (leAt b 8 2) (leAt b 12 8))
def State.linkAbort (b : List Byte) (s : State) : State :=
  s.onDest b (fun s => s.stageArm false (leAt b 8 2) (leAt b 12 8))
def State.linkCmtCheck (b : List Byte) (s : State) : State :=
  s.onDest b (fun s => s.ansIf b (s.stageOutcome (leAt b 8 2)))

/-- DLV_START, DLV_DATA, DLV_QUERY (R170, R171). -/
def State.linkDlvStart (b : List Byte) (s : State) : State :=
  s.onDest b (fun s => s.dlvStart ((byteAt b 5).testBit 0))
def State.linkDlvData (b : List Byte) (s : State) : State :=
  s.onDest b (fun s => s.dlvData (leAt b 5 3) (slice b 8 32))
def State.linkDlvQuery (b : List Byte) (s : State) : State :=
  s.onDest b (fun s => let s := s.dlvBroken; s.ansIf b s.deliv.outcome)

/-- The meaning of an OP, none where it is reserved (R123, R153). -/
def cmdMeaning (op : Nat) : Option (List Byte → State → State) :=
  match op with
  | 0x01 => some State.linkArm
  | 0x02 => some State.linkCancel
  | 0x03 => some State.linkBeat
  | 0x10 => some State.linkSelect
  | 0x11 => some State.linkRetrain
  | 0x12 => some State.linkPhantom
  | 0x13 => some State.linkRest
  | 0x20 => some State.linkAssign
  | 0x21 => some State.linkPtRead
  | 0x22 => some State.linkPtWrite
  | 0x23 => some State.linkRegRead
  | 0x24 => some State.linkRegWrite
  | 0x28 => some State.linkStgOpen
  | 0x29 => some State.linkStgData
  | 0x2A => some State.linkStgPrepare
  | 0x2B => some State.linkCommit
  | 0x2C => some State.linkAbort
  | 0x2D => some State.linkCmtCheck
  | 0x30 => some State.linkDlvStart
  | 0x31 => some State.linkDlvData
  | 0x32 => some State.linkDlvQuery
  | _ => none

/-- The commands of a checked frame in order; at a reserved OP, or a length R123 does not give, the rest is ignored with
LINK/L0 (R124). -/
def State.cmdsAct : Nat → List Byte → State → State
  | 0, _, s => s
  | n + 1, b, s =>
    match cmdMeaning (byteAt b 0) with
    | none => s.raise 11 9 0
    | some f =>
      let k := cmdLength b
      if k = 0 ∨ b.length < k then s.raise 11 9 0
      else State.cmdsAct n (b.drop k) (f (b.take k) s)

/-- What follows the header of the passing down frame goes on (R114); `bad` of its code groups were in error. -/
def State.downPasses (b : List Byte) (bad : Nat) (s : State) : State :=
  let s := match s.upstream with
    | none => s
    | some p => s.codeErrors p bad
  match s.link.passing with
  | none => s
  | some h => { s with link := { s.link with passing := none } }.downForward h b

/-- The swing of a taken frame that is not accepted is over: it counts now (R137, R144). -/
def State.lateLoss (s : State) : State :=
  if (s.link.taken.map (fun k => decide (k < s.swing))).getD false then s.bump F.LINK_LATE_CNT_DLOST else s

/-- DOWN_FRAME_ACCEPT: the bytes of a down frame from its CCRC on, its last byte arriving now (R115, R122). -/
def State.downAccept (b : List Byte) (bad : Nat) (s : State) : State :=
  let s := s.downPasses b bad
  match s.link.header with
  | none => s
  | some h =>
    let s := { s with link := { s.link with header := none } }
    if bad ≠ 0 ∨ crc16 (b.drop 2) ≠ leAt b 0 2 then (s.bump F.LINK_CNT0_CCRC_ERR).lateLoss
    else
      let l := s.link
      let s := { s with link := { l with accepted := l.taken, acceptedLog := (l.accepted.toList ++ l.acceptedLog).take 3 } }
      (s.syncStep.cmdsAct (byteAt h 1 % 16) (b.drop 2)).settle

end Sys2Proof.Machine
end

