-- ==== Sys2Proof/Machine/PortCommands.lean ====
section
/-! DEFINITION. The commands of the link: ports, frames, and the link commands a down frame carries (chapters 4 and 5). -/

namespace Sys2Proof.Machine

/-! ### Ports -/

/-- Where the link unit runs. -/
def State.onLink (f : State → State) (s : State) : State := if s.linkOn then f s else s

/-- PORT_TRAIN_START: valid code groups arrive at a port that is down, after `bad` invalid ones (R106, R118). -/
def execPortTrainStart (p : Fin 2) (bad : Nat) (s : State) : Host.Outcome State Fault Refusal :=
  done (s.onLink (fun s => (s.codeErrors p bad).portTrainStart p))

/-- TRAIN_SEND: time passes to the port's next TRAIN in training, and it leaves; on a port that is up one leaves now where
R119 lets it (R116, R118, R119). -/
def execTrainSend (p : Fin 2) (s : State) : Host.Outcome State Fault Refusal :=
  done (s.onLink (fun s =>
    if s.portState p == portTraining then s.atTime (some (s.trainDue p)) (State.trainSend p) else s.trainSend p))

/-- TRAIN_RECEIVE: the 20 bytes of a TRAIN set, the first arriving `fine` 1/32 ticks into the present cycle, `bad` code groups
in error and `idle` in the idle sets before it (R106, R116–R118). -/
def execTrainReceive (p : Fin 2) (b : List Byte) (fine : Fin 32) (bad idle : Nat) (s : State) : Host.Outcome State Fault Refusal :=
  if b.length = 20 then done (s.onLink (State.trainReceive p b fine bad idle)) else .fault .illFormed

/-- UPSTREAM_SELECT: a cold worker may choose its upstream port (R118). -/
def execUpstreamSelect (s : State) : Host.Outcome State Fault Refusal :=
  done (s.onLink (fun s => if s.mayChoose then s.atTime s.selectDue State.upstreamSelect else s))

/-- PORT_RX_DOWN: no valid code group for 1 µs, or where `ld` two /LD/, after `bad` invalid code groups (R106). -/
def execPortRxDown (p : Fin 2) (ld : Bool) (bad : Nat) (s : State) : Host.Outcome State Fault Refusal :=
  done (s.onLink (fun s => (s.codeErrors p bad).portGoesDown p ld))

/-- HEAL_RECEIVE: /HL/ arrives on a port, after `bad` code groups in error (R106, R138). -/
def execHealReceive (p : Fin 2) (bad : Nat) (s : State) : Host.Outcome State Fault Refusal :=
  done (s.onLink (fun s => (s.codeErrors p bad).healReceive p))

/-- BRANCH_END_DETECT: no /I2/ on the downstream port for 10 µs (R113). -/
def execBranchEndDetect (s : State) : Host.Outcome State Fault Refusal :=
  done (s.onLink (fun s => s.atTime (s.downstream.map (fun d => ((s.port d).lastI2.map (fun (t : Nat) => t + 1000)).getD s.now)) State.branchEnd))

/-- I2_RECEIVED: /I2/ arrives on a port, after `bad` code groups in error (R106, R113). -/
def execI2Received (p : Fin 2) (bad : Nat) (s : State) : Host.Outcome State Fault Refusal :=
  done (s.onLink (fun s => (s.codeErrors p bad).i2Received p))

/-- LINK_RETRAIN: a write of LINK_CTRL, RETRAIN_B and RETRAIN_A in bits 3 and 2, the enables below (R144). -/
def execLinkRetrain (p : Party) (w : BitVec 4) (s : State) : Host.Outcome State Fault Refusal :=
  .next (s.written p F.LINK_CTRL.base (w.zeroExtend 32))

/-- LINK_CNT_CLR: a write of LINK_CNT_CLR with CLR 1 (R144). -/
def execLinkCntClr (p : Party) (s : State) : Host.Outcome State Fault Refusal :=
  .next (s.written p F.LINK_CNT_CLR.base 1)

/-- PHANTOM_SWITCH_TRIP: a switch has been at its limit for 1 ms: 0 port A, 1 port B, 2 pass (R108). -/
def execPhantomSwitchTrip (w : Fin 3) (s : State) : Host.Outcome State Fault Refusal :=
  done (s.phantomTrip w)

/-- PHANTOM_SWITCH_RECLOSE: 100 ms after a trip (R108). -/
def execPhantomSwitchReclose (w : Fin 3) (s : State) : Host.Outcome State Fault Refusal :=
  done (s.atTime (tget s.link.sw w).reclose (State.phantomReclose w))

/-! ### Frames -/

/-- DOWN_FRAME_SEND: the start of the next swing on the manager (R122). -/
def execDownFrameSend (s : State) : Host.Outcome State Fault Refusal :=
  done (s.downSendAt 0)

/-- DOWN_FRAME_HEADER: the 14 header bytes of a down frame, the first at `arr` of the worker's count in 1/32 tick, `bad` code
groups in error (R106, R114, R115). -/
def execDownFrameHeader (p : Fin 2) (b : List Byte) (arr bad : Nat) (s : State) : Host.Outcome State Fault Refusal :=
  if b.length = 14 then done (s.onLink (State.downHeader p b arr bad)) else .fault .illFormed

/-- DOWN_FRAME_ACCEPT: the rest of a down frame, from its CCRC on, `bad` code groups in error (R106, R114, R115). -/
def execDownFrameAccept (b : List Byte) (bad : Nat) (s : State) : Host.Outcome State Fault Refusal :=
  done (s.onLink (State.downAccept b bad))

/-- DOWN_FRAME_MISSING: the end of a swing on a worker (R137). -/
def execDownFrameMissing (s : State) : Host.Outcome State Fault Refusal :=
  done (if s.isManager then s else (let k := s.swing; s.atTick (some (4000 * (k + 1))) (State.swingWithout k)))

/-- UP_FRAME_START: offset 2,200 of a swing at the branch end (R125). -/
def execUpFrameStart (s : State) : Host.Outcome State Fault Refusal :=
  done (if s.sendsUp then (s.passToTick s.upDue).upStart else s)

/-- UP_FRAME_FORWARD: the first of the 334 bytes of an up frame that passes the worker arrives; `bad` lists those with a code error
(R106, R114). -/
def execUpFrameForward (b : List Byte) (bad : List Nat) (s : State) : Host.Outcome State Fault Refusal :=
  if b.length = 334 then done (if s.isManager then s else s.onLink (State.upForward b bad)) else .fault .illFormed

/-- UP_FRAME_RECEIVE: the first of the 334 bytes of an up frame arrives on a manager port; `bad` lists those with a code error
(R106, R127). -/
def execUpFrameReceive (p : Fin 2) (b : List Byte) (bad : List Nat) (s : State) : Host.Outcome State Fault Refusal :=
  if b.length = 334 then done (s.upReceive p b bad) else .fault .illFormed

/-- WORKER_LOST: five up frames without a valid word of a worker have passed (R137). -/
def execWorkerLost (s : State) : Host.Outcome State Fault Refusal :=
  done (s.atTick s.lostDue State.workersLost)

/-- TRANSACTION_TIMEOUT: a transaction has been open for 12,000 ticks (R132). -/
def execTransactionTimeout (s : State) : Host.Outcome State Fault Refusal :=
  done (s.atTick s.txnDue State.txnTimeout)

/-- TAG_QUARANTINE_END: 8,000 ticks after its close a tag number may be taken again (R132). -/
def execTagQuarantineEnd (s : State) : Host.Outcome State Fault Refusal :=
  done (s.atTick s.tagQuarDue State.tagQuarEnd)

/-! ### Link commands on a worker, from the bytes of the command (R123, R153) -/

/-- A command of an accepted frame: `b` are its bytes. They must be of OP `op` and as long as R123 gives. -/
def linkRow (op : Nat) (b : List Byte) (f : State → State) (s : State) : Host.Outcome State Fault Refusal :=
  if byteAt b 0 = op ∧ b.length = cmdLength b ∧ b ≠ [] then
    done (if s.isManager || !s.fabricOn then s else f s)
  else .fault .illFormed

/-- ARM: arms a hierarchy slot on each target (R89). -/
def execArm (b : List Byte) (s : State) : Host.Outcome State Fault Refusal :=
  linkRow 0x01 b (State.linkArm b) s

/-- CANCEL: disarms a hierarchy slot on each target (R90). -/
def execCancel (b : List Byte) (s : State) : Host.Outcome State Fault Refusal :=
  linkRow 0x02 b (State.linkCancel b) s

/-- BEAT: gives the next boundary and beat number (R101). -/
def execBeat (b : List Byte) (s : State) : Host.Outcome State Fault Refusal :=
  linkRow 0x03 b (State.linkBeat b) s

/-- SELECT: replaces a selection set (R124). -/
def execSelect (b : List Byte) (s : State) : Host.Outcome State Fault Refusal :=
  linkRow 0x10 b (State.linkSelect b) s

/-- RETRAIN: retrains ports (R123). -/
def execRetrain (b : List Byte) (s : State) : Host.Outcome State Fault Refusal :=
  linkRow 0x11 b (State.linkRetrain b) s

/-- PHANTOM: writes LINK_PH_CTRL bits 7:0 (R123). -/
def execPhantom (b : List Byte) (s : State) : Host.Outcome State Fault Refusal :=
  linkRow 0x12 b (State.linkPhantom b) s

/-- REST: schedules rest (R428). -/
def execRest (b : List Byte) (s : State) : Host.Outcome State Fault Refusal :=
  linkRow 0x13 b (State.linkRest b) s

/-- ASSIGN: gives a worker without a number one (R146). -/
def execAssign (b : List Byte) (s : State) : Host.Outcome State Fault Refusal :=
  linkRow 0x20 b (State.linkAssign b) s

/-- PT_READ: reads points (R156). -/
def execPtRead (b : List Byte) (s : State) : Host.Outcome State Fault Refusal :=
  linkRow 0x21 b (State.linkPtRead b) s

/-- PT_WRITE: writes points after checking all of them (R156). -/
def execPtWrite (b : List Byte) (s : State) : Host.Outcome State Fault Refusal :=
  linkRow 0x22 b (State.linkPtWrite b) s

/-- REG_READ: reads registers (R156). -/
def execRegRead (b : List Byte) (s : State) : Host.Outcome State Fault Refusal :=
  linkRow 0x23 b (State.linkRegRead b) s

/-- REG_WRITE: writes registers (R156). -/
def execRegWrite (b : List Byte) (s : State) : Host.Outcome State Fault Refusal :=
  linkRow 0x24 b (State.linkRegWrite b) s

/-- STG_OPEN: opens a stage (R159). -/
def execStgOpen (b : List Byte) (s : State) : Host.Outcome State Fault Refusal :=
  linkRow 0x28 b (State.linkStgOpen b) s

/-- STG_DATA: writes one chunk into the stage (R159). -/
def execStgData (b : List Byte) (s : State) : Host.Outcome State Fault Refusal :=
  linkRow 0x29 b (State.linkStgData b) s

/-- STG_PREPARE: asks whether the stage is ready (R160). -/
def execStgPrepare (b : List Byte) (s : State) : Host.Outcome State Fault Refusal :=
  linkRow 0x2A b (State.linkStgPrepare b) s

/-- COMMIT: arms the stage to apply at a tick (R162). -/
def execCommit (b : List Byte) (s : State) : Host.Outcome State Fault Refusal :=
  linkRow 0x2B b (State.linkCommit b) s

/-- ABORT_STAGE: arms the discard of the stage (R162). -/
def execAbortStage (b : List Byte) (s : State) : Host.Outcome State Fault Refusal :=
  linkRow 0x2C b (State.linkAbort b) s

/-- CMT_CHECK: asks the outcome of a commit (R165). -/
def execCmtCheck (b : List Byte) (s : State) : Host.Outcome State Fault Refusal :=
  linkRow 0x2D b (State.linkCmtCheck b) s

/-- DLV_START: starts or restarts an image delivery (R170). -/
def execDlvStart (b : List Byte) (s : State) : Host.Outcome State Fault Refusal :=
  linkRow 0x30 b (State.linkDlvStart b) s

/-- DLV_DATA: delivers 32 image bytes (R170). -/
def execDlvData (b : List Byte) (s : State) : Host.Outcome State Fault Refusal :=
  linkRow 0x31 b (State.linkDlvData b) s

/-- DLV_QUERY: asks the outcome of the delivery (R171). -/
def execDlvQuery (b : List Byte) (s : State) : Host.Outcome State Fault Refusal :=
  linkRow 0x32 b (State.linkDlvQuery b) s

end Sys2Proof.Machine
end

