-- ==== Sys2Proof/Machine/Rest.lean ====
section
/-! DEFINITION. Rest (R428–R433): the entry at tick E, the wake, and the restore. -/

namespace Sys2Proof.Machine

/-! ### Entry (R429) -/

/-- Step 2 (a commit that only this entry outlives still reports to its party, R424): slots, stage, selection sets and the keep queue; scans, urgent conversions and sweeps are abandoned. -/
def State.restDrop (s : State) : State :=
  let silent := s.keep.held.isSome && s.keep.heldSilent
  let s := s.restDisarm.stageDiscard.keepLose
  let s := { s with keep := { s.keep with heldSilent := silent } }
  let s := { s with link := { s.link with sets := Vector.replicate 4 0 } }
  ((List.range 4).foldl (fun s m => s.measStop m) s).sweepAbandon

/-- A rail at entry: Failed stays, every other goes Down with no level. -/
def State.restRail (n : Nat) (s : State) : State :=
  let s := (((s.put F.SEQ_RAILn_CTRL_ON 0 n).put F.SEQ_RAILn_STAT_GOOD 0 n).put F.SEQ_RAILn_STAT_DEMAND 0 n).put
    F.SEQ_RAILn_STAT_UP 0 n
  let s := s.put F.SEQ_RAILn_STAT_EARLY 0 n
  if s.rlState n == rlFailed || s.rlState n == rlDown then s
  else
    let s := s.rlGo n rlDown
    s.setRl n { since := s.now }

/-- Step 3: ON 0 everywhere, every target withdrawn at once; FORCED where one was UP or a channel was not Off. -/
def State.restOff (s : State) : State :=
  let rails := s.usedRails
  let chans := (List.range 24).filter s.chUsed
  let forced := rails.any (fun n => s.on F.SEQ_RAILn_STAT_UP n) || chans.any (fun c => s.chState c != chOff)
  let s := if forced then s.put F.SYS_REST_STAT_FORCED 1 else s
  let s := (List.range 8).foldl (fun s n => s.loopOff n) s
  let s := chans.foldl (fun s c =>
    let s := s.put F.CHn_CTRL_ON 0 c
    if s.chState c == chOff then s else (s.chEnterOff c .normalDown).pgDrop c) s
  let s := { s with pwren := 0, mrg := s.mrg.map (fun (x : MrgSt) => { x with current := none }), due := [] }
  let s := (List.range 24).foldl (fun s c => s.put F.CHn_CTRL_ON 0 c) s
  let s := (List.range 64).foldl (fun s n => s.put F.SEQ_RAILn_CTRL_ON 0 n) s
  (rails.foldl (fun s n => s.restRail n) s).showSeq

/-- Step 4: engines, modulators and the thermal model stop, monitors go to LOW, every THROTTLEn# is released, the charger is
Idle. -/
def State.restUnits (s : State) : State :=
  let s := (List.range 8).foldl (fun s n => s.peHalt n) s
  let s := (List.range 64).foldl (fun s n => s.monModeMove n) { s with phase := .resting }
  let s := (List.range 8).foldl (fun s n =>
    let s := s.setLp n { s.lp n with therm := false }
    (s.put F.LOOPn_TSTAT_SRC 0 n).throttleRelease n) s
  s.chgOff

/-- The host transaction under way is abandoned (R447); remote accesses that were open time out, and what the link still carried is gone: ports train again warm (R142). -/
def State.restLink (s : State) : State :=
  let s := s.hostAbandon
  let s := if s.hostBurst then { s.put F.HOST_STAT_BUSY 0 with hostBurst := false } else s
  let open' : List CmdFor := (s.link.txns.map (fun x => x.purpose)) ++ (s.link.queue.map (fun c => c.purpose)) ++
    (s.link.ansWait.map (fun a => a.purpose)) ++ ((s.waiting.filter (fun x => x.ra.isSome)).map (fun x => .ra x.party.code))
  let s := open'.foldl (fun s p => match p with
    | .ra k => s.raDone k raTimeout
    | .bcast k => s.raDone k raTimeout
    | _ => s) { s with waiting := [], barred := [], relay := {} }
  let s := (List.range 2).foldl (fun s p =>
    let x := s.port p
    let up := s.portUp p
    (s.put F.LINK_PORT_STAT_STATE portDownSt p).setPort p { x with
      cs := [], rxT := none, upOnce := false, lastI2 := none, healEnd := none, warm := (x.warm || up)
      sent := [], sentAt := none, sentSwing := none, frame := [], frameAt := none, rdKept := false }) s
  let l := s.link
  let s := { s with link := { l with
    taken := none, accepted := none, header := none, healed := false, everTaken := false, missed := 0
    acceptedLog := [], passing := none, lineDue := [], answers := [], replies := [], reports := [], queue := [], sentFrames := [], txns := []
    tagQuar := l.tagQuar ++ l.txns.map (fun (x : Txn) => (x.tag % 64, s.tick))
    nextGrants := [], ansWait := [], sentSwing := none, restCopies := [], upBranch := [] } }
  (((s.put F.LINK_PORT_STAT_NB_ADOPT 0 0).put F.LINK_PORT_STAT_NB_ADOPT 0 1).markEnds).showTags

/-- What is under way on delivery ends with the stage and the link. -/
def State.restDelivery (s : State) : State :=
  { s.put F.HIER_DLV_STAT_BUSY 0 with deliv := {} }

/-- Step 5: the PLL and the tick count stop. From the wake event to the next lock the start-up oscillator is the
reference (R20). -/
def State.restStop (e : Nat) (s : State) : State :=
  let s := if s.on F.SYS_CLK_STAT_HOLDOVER then s.holdoverEnd else s
  let s := (s.put F.SYS_CLK_STAT_PLL_LOCK 0).put F.SYS_CLK_STAT_REF_SRC 3
  let s := (s.put64 F.SYS_REST_TICK e).bump F.SYS_REST_STAT_RESTS
  let s := s.put F.SYS_REST_STAT_STATE 0
  let s := if s.isManager then s else s.put F.ESC_STAT_SYNC syncUnsynced
  { s with
    ticking := false, holdEnd := none, stepDue := none, errRun := 0
    rest := { entry := none, err := if s.on F.KEEP_CAL_VALID then s.getS F.KEEP_CAL_ERR else 0, periods := 0
              since := s.now, held := s.on F.SYS_DOM_STAT_LINK_HELD } }

/-- Wake sources that stand in the present cycle: the alarm, and a hand-over under way (R430, R433). -/
def State.wakeLevels (s : State) : Nat :=
  b2n (s.on F.KEEP_STAT_ALARM) * 8 + b2n (s.path == ppHandover) * 16

/-- A waking device sends a wake burst of 4 µs on each port, from a cycle within 1 µs of its wake event on (R141). -/
def State.wakeBurst (s : State) : State :=
  { s with link := { s.link with burst := some (s.now + (Config.freeWord s.free).toNat % 101) } }.draw

/-- The wake event (R431, R432): `src` are the sources, `periods` the keep periods of the rest (R407). The rest has taken
at least so many cycles. -/
def State.wake (src periods : Nat) (s : State) : State :=
  let s := (s.put F.SYS_REST_STAT_STATE 2).put F.SYS_REST_STAT_WAKE_SRC src
  let s := s.put F.SYS_REST_DUR_DUR (min (periods / 128) (2 ^ 32 - 1))
  let s := s.put F.KEEP_CAL_VALID 0
  { s with
    phase := .waking, wakePend := 0, now := max s.now (s.rest.since + restTicks periods 0)
    rest := { s.rest with periods := periods }
    keep := { s.keep with window := none }
    link := { s.link with warmWake := (s.upstream.map (fun p => (s.port p).warm)).getD false } }.portsListen.wakeBurst

/-- REST_ENTRY: time passes to E, the batch of that tick is applied, and the device rests (R429). A wake source that is
active then wakes it at once (R433). -/
def State.restEntry (s : State) : State :=
  match s.rest.entry with
  | none => s
  | some e =>
    if s.phase != .running || !s.ticking then s
    else
      let s := s.batchCycle e
      if s.phase != .running || s.rest.entry != some e then s
      else
        let t := s.tick
        let s := ((((s.restLatch t).restDrop).restOff).restUnits).restLink.restDelivery.restStop t
        let src := (s.wakePend ||| s.wakeLevels) &&& s.get F.SYS_REST_CTRL % 64
        (if src = 0 then s else s.wake src 0).settle

/-! ### Wake (R430–R432) -/

/-- The wake sources that can register: enabled ones, and window monitors only where SYS_REST_MON names a used cell (R430,
R434). -/
def State.wakeEnabled (s : State) : Nat :=
  let en := s.get F.SYS_REST_CTRL % 64
  let cells := (List.range 64).any (fun n => bitOf (s.reg (F.SYS_REST_MON.addr (n / 32))) (n % 32) && s.monUsed n)
  if cells then en else en &&& 0x3B

/-- WAKE_EVENT: the sources `src` register, in the bit order of SYS_REST_CTRL, `periods` keep periods after entry. Between
the scheduling and E they wait for the entry (R433); until the device is fully active they are shown beside the first. -/
def State.wakeEvent (src periods : Nat) (s : State) : State :=
  let m := (src ||| s.wakePend) &&& s.wakeEnabled
  match s.phase with
  | .resting => if m = 0 then s else s.wake m periods
  | .waking => s.put F.SYS_REST_STAT_WAKE_SRC (s.get F.SYS_REST_STAT_WAKE_SRC ||| m)
  | .running => if s.rest.entry.isSome then { s with wakePend := m } else s
  | _ => s

/-- FULLY_ACTIVE: the PLL is locked and every block runs again (R431). Engines restart from address 0, scans restart at the
lowest enabled entry, monitors return to their modes, the next result of each sensor sets its node (R347), the charger
starts from Qualify (R397). A device link-held only since its rest enters that state now (R433). -/
def State.fullyActive (s : State) : State :=
  if s.phase != .waking || !s.on F.SYS_CLK_STAT_PLL_LOCK then s
  else
    let s := s.put F.SYS_REST_STAT_WAKE_SRC (s.get F.SYS_REST_STAT_WAKE_SRC ||| (s.wakePend &&& s.wakeEnabled))
    let s := { s.put F.SYS_REST_STAT_STATE 0 with phase := .running, wakePend := 0 }
    let s := (List.range 8).foldl (fun s n => s.peUnhalt n) s
    let held := s.on F.SYS_DOM_STAT_LINK_HELD
    let s := (List.range 4).foldl (fun s m => if held && decide (2 ≤ m) then s else s.measResume m) s
    let s := (List.range 64).foldl (fun s n => s.monModeMove n) s
    let gone := s.now - s.rest.since
    let s := { s with
      scrub := { s.scrub with lapStart := s.scrub.lapStart + gone, last := s.scrub.last + gone }
      sheds := s.sheds.map (fun (x : ShedSt) => { x with due := x.due + gone }) }
    let s := { s with sens := s.sens.map (fun (x : SensSt) => { x with fresh := true, run := none, result := [] }) }
    let s := if s.isManager then
        { s with link := { s.link with
          wkr := s.link.wkr.map (fun (x : WorkerSt) => { x with lastSwing := x.lastSwing.map (fun _ => s.swing), req := false }) } }
      else s
    let s := if held && !s.rest.held then s.linkHeldEnter else s
    s.chgEval.settle

end Sys2Proof.Machine
end

