-- ==== Sys2Proof/Machine/PowerCommands.lean ====
section
/-! DEFINITION. The commands of the reserve power path and the charger (chapter 13). `x` is what the path's cell measures at that tick. -/

namespace Sys2Proof.Machine

/-! ### The path -/

/-- SOURCE_LOST: V_SRC has been below SRC_UV for `held` cycles (R380). -/
def execSourceLost (x : PathSample) (held : Nat) (s : State) : Host.Outcome State Fault Refusal :=
  done (s.sourceLost x held)

/-- SOURCE_GOOD: V_SRC reaches SRC_UV + SRC_HYS (R380). -/
def execSourceGood (x : PathSample) (s : State) : Host.Outcome State Fault Refusal :=
  done (s.sourceGood x)

/-- HANDOVER_COMPLETE: the battery gate reaches VGS_FULL (R383). -/
def execHandoverComplete (x : PathSample) (s : State) : Host.Outcome State Fault Refusal :=
  done (s.handoverComplete x)

/-- SOURCE_QUALIFIED: the source has been good for 50 ms (R384). -/
def execSourceQualified (x : PathSample) (s : State) : Host.Outcome State Fault Refusal :=
  done (s.atTime s.qualifiedDue (State.sourceQualified x))

/-- HANDBACK_COMPLETE: the source gate reaches VGS_FULL (R384). -/
def execHandbackComplete (x : PathSample) (s : State) : Host.Outcome State Fault Refusal :=
  done (s.handbackComplete x)

/-- SOURCE_REVERSE_BLOCK: I_SRC below −0.5 A (R378). -/
def execSourceReverseBlock (x : PathSample) (s : State) : Host.Outcome State Fault Refusal :=
  done (s.sourceBlock x)

/-- SOURCE_BLOCK_RELEASE: V_SRC above V_SYS + 50 mV (R378). -/
def execSourceBlockRelease (x : PathSample) (s : State) : Host.Outcome State Fault Refusal :=
  done (s.sourceUnblock x)

/-- DEPLETION: V_BAT has been below NCELL × VCUT for `held` cycles (R385). -/
def execDepletion (x : PathSample) (held : Nat) (s : State) : Host.Outcome State Fault Refusal :=
  done (s.deplete x held)

/-- SUPPLEMENT_START: I_BAT has been below −0.1 A for `held` cycles (R382). -/
def execSupplementStart (x : PathSample) (held : Nat) (s : State) : Host.Outcome State Fault Refusal :=
  done (s.supplementStart x held)

/-- SUPPLEMENT_STOP: I_BAT has been at or above −0.1 A for `held` cycles (R382). -/
def execSupplementStop (x : PathSample) (held : Nat) (s : State) : Host.Outcome State Fault Refusal :=
  done (s.supplementStop x held)

/-- SHIP: a write of PWRP_CTRL with SHIP 1 and this CHG_EN (R395). -/
def execShip (p : Party) (chgEn : Bool) (s : State) : Host.Outcome State Fault Refusal :=
  .next (s.written p F.PWRP_CTRL.base (BitVec.ofNat 32 (2 ^ 31 + b2n chgEn)))

/-- SHIP_EXIT: with SHIP_EXIT 1 (R395). -/
def execShipExit (p : Party) (chgEn : Bool) (s : State) : Host.Outcome State Fault Refusal :=
  .next (s.written p F.PWRP_CTRL.base (BitVec.ofNat 32 (2 ^ 30 + b2n chgEn)))

/-- SHIP_PRESS: SHIP# is released after `held` ms (R395). -/
def execShipPress (held : Nat) (s : State) : Host.Outcome State Fault Refusal :=
  done (s.shipPress held)

/-- OFF_CYCLE_START: SHIP# has been low for `held` ms: 8 s start the off-cycle (R396). -/
def execOffCycleStart (held : Nat) (s : State) : Host.Outcome State Fault Refusal :=
  done (if s.pp.fitted && decide (8000 ≤ held) && s.shipCounts held then s.offCycleStart.hardReset causeOff else s)

/-- OFF_CYCLE_END: 2 s after the switches opened (R396). -/
def execOffCycleEnd (s : State) : Host.Outcome State Fault Refusal :=
  done (s.atTime (if s.path = ppOff then some s.pp.offEnd else none) State.offCycleEnd)

/-! ### The pack -/

/-- PACK_PROBE_START: a suspected or missing pack is probed (R387). -/
def execPackProbeStart (x : PathSample) (held : Nat) (s : State) : Host.Outcome State Fault Refusal :=
  done (s.atTime (some (s.probeDue.getD s.now)) (State.probeStart x held))

/-- PACK_PROBE_END: 100 ms after its start the probe judges (R387). -/
def execPackProbeEnd (x : PathSample) (s : State) : Host.Outcome State Fault Refusal :=
  done (s.atTime (s.pp.probe.map (fun (t : Nat) => t + 10000000)) (State.probeEnd x))

/-- PACK_REMOVED: the charging comparators trip (R388). -/
def execPackRemoved (x : PathSample) (held : Nat) (s : State) : Host.Outcome State Fault Refusal :=
  done (s.packRemoved x held)

/-- PACK_SHORTED: V_BAT has been below NCELL × 0.20 V for `held` cycles (R389). -/
def execPackShorted (x : PathSample) (held : Nat) (s : State) : Host.Outcome State Fault Refusal :=
  done (s.atTime (if s.chg = chgPre then s.chgReaches 100000000 else none) (State.packShorted x held))

/-! ### The charger -/

/-- CHARGE_SECOND: a second of Fast ends with these averages of V_BAT in mV and of T in mK (R392). -/
def execChargeSecond (vavg tavg : Int) (s : State) : Host.Outcome State Fault Refusal :=
  done (s.atTime s.pp.second (State.chargeSecond vavg tavg))

/-- CHARGER_TIMER_FAULT: a charge timer runs out, or the pack is above TMAX (R393). -/
def execChargerTimerFault (x : PathSample) (s : State) : Host.Outcome State Fault Refusal :=
  done (s.atTime (if s.chgHot x then some s.now else s.chgTimerDue) (State.chargerFault x))

/-- TOPOFF_END: TTOP has elapsed (R390). -/
def execTopoffEnd (x : PathSample) (s : State) : Host.Outcome State Fault Refusal :=
  done (s.atTime s.topoffDue (State.topoffEnd x))

/-- RECHARGE_START: V_cell has been below VRECHG for `held` cycles (R390). -/
def execRechargeStart (x : PathSample) (held : Nat) (s : State) : Host.Outcome State Fault Refusal :=
  done (s.atTime (if s.chg = chgDone then s.chgReaches minuteTicks else none) (State.rechargeStart x held))

/-- PRECHARGE_END: V_cell reaches VPRE (R390). -/
def execPrechargeEnd (x : PathSample) (s : State) : Host.Outcome State Fault Refusal :=
  done (s.prechargeEnd x)

/-- CHARGE_CONDITION_CHANGE: the conditions of Qualify come to hold or stop holding (R391). -/
def execChargeConditionChange (x : PathSample) (s : State) : Host.Outcome State Fault Refusal :=
  done (s.chargeCondition x)

/-- CHG_GO: a write of PWRP_CTRL with CHG_GO 1 (R390). -/
def execChgGo (p : Party) (chgEn : Bool) (s : State) : Host.Outcome State Fault Refusal :=
  .next (s.written p F.PWRP_CTRL.base (BitVec.ofNat 32 (2 ^ 29 + b2n chgEn)))

/-- PWRP_CFG_WRITE: a write of PWRP_CFG (R390). -/
def execPwrpCfgWrite (p : Party) (w : Word) (s : State) : Host.Outcome State Fault Refusal :=
  .next (s.written p F.PWRP_CFG.base w)

end Sys2Proof.Machine
end

