-- ==== Sys2Proof/Machine/RailCommands.lean ====
section
/-! DEFINITION. The commands of the sequencer (chapter 9). -/

namespace Sys2Proof.Machine

/-- The cycle of the sequencer's next evaluation, not before cycle `t`: it evaluates once a tick (R282). -/
def State.seqCycle (t : Nat) (s : State) : Nat :=
  let c := max t s.now
  if s.evalAt = some c then c + 1 else c

/-- Time passes to `due`, and the sequencer evaluates every rail (R282). -/
def State.seqAt (due : Option Nat) (s : State) : State :=
  match due with
  | none => s
  | some t =>
    if s.phase == .running then
      let u := s.passTo (s.seqCycle t)
      { u with evalAt := some u.now }.seqEval
    else s

/-- SEQUENCER_EVAL: the sequencer's next tick (R282). -/
def execSequencerEval (s : State) : Host.Outcome State Fault Refusal :=
  done (s.seqAt (some s.now))

/-- RAIL_DELAY_END: the DELAY of a rail has held (R285). -/
def execRailDelayEnd (n : Fin 64) (s : State) : Host.Outcome State Fault Refusal :=
  done (s.seqAt (s.railDelayDue n))

/-- RUN_AHEAD_START: the predicted start of a rail that runs ahead (R291). -/
def execRunAheadStart (n : Fin 64) (s : State) : Host.Outcome State Fault Refusal :=
  done (s.seqAt (s.railEarlyDue n))

/-- RAIL_QUALIFIED: power-good has held for TSTABLE (R286). -/
def execRailQualified (n : Fin 64) (s : State) : Host.Outcome State Fault Refusal :=
  done (s.seqAt (s.railQualifyDue n))

/-- RAIL_DEADLINE: TDEAD has passed (R288). -/
def execRailDeadline (n : Fin 64) (s : State) : Host.Outcome State Fault Refusal :=
  done (s.seqAt (s.railDeadDue n))

/-- RAIL_PG_LOST: power-good has been bad for LOSS_T (R289). -/
def execRailPgLost (n : Fin 64) (s : State) : Host.Outcome State Fault Refusal :=
  done (s.seqAt (s.railLostDue n))

/-- RAIL_LD_DELAY_END: a rail in Lower has been free for LD_DELAY (R299). -/
def execRailLdDelayEnd (n : Fin 64) (s : State) : Host.Outcome State Fault Refusal :=
  done (s.seqAt (s.railLdDue n))

/-- TARGET_STOP_TIMEOUT: a withdrawn target counts as stopped (R276). -/
def execTargetStopTimeout (n : Fin 64) (s : State) : Host.Outcome State Fault Refusal :=
  done (s.seqAt (s.railStopDue n))

/-- PWRGD_EDGE: PWRGDk has stood at a level for `held` consecutive ticks: the third registers (R276). -/
def execPwrgdEdge (k : Fin 32) (high : Bool) (held : Nat) (s : State) : Host.Outcome State Fault Refusal :=
  done (if held < 3 then s else s.pwrgdEdge k high)

/-- RAIL_CTRL_WRITE: a write of SEQ_RAILn_CTRL (R281, R303). -/
def execRailCtrlWrite (p : Party) (n : Fin 64) (w : Word) (s : State) : Host.Outcome State Fault Refusal :=
  .next (s.written p (F.SEQ_RAILn_CTRL_ON.addr n) w)

/-- MARGIN_STEP: the next step of a margin pin (R304). -/
def execMarginStep (k : Fin 8) (s : State) : Host.Outcome State Fault Refusal :=
  done (s.atTime ((tget s.mrg k).current.map (fun _ => (tget s.mrg k).due)) (State.marginStep k))

/-- POINT_RAIL_ON: a write of ON through a rail's point (R310). -/
def execPointRailOn (p : Party) (point : Fin 2048) (v : Bool) (s : State) : Host.Outcome State Fault Refusal :=
  .next (s.pointCommand p point 1 (b2n v))

/-- POINT_RAIL_MARGIN: a write of MARGIN through a rail's point (R303, R310). -/
def execPointRailMargin (p : Party) (point : Fin 2048) (v : BitVec 8) (s : State) : Host.Outcome State Fault Refusal :=
  .next (s.pointCommand p point 2 v.toNat)

end Sys2Proof.Machine
end

