-- ==== Sys2Proof/Machine/StartCommands.lean ====
section
/-! DEFINITION. The commands of start-up, resets, clocks, supplies, the Caliber load and rest (chapters 1, 2 and 15). -/

namespace Sys2Proof.Machine

/-! ### Resets and the power-on order -/

/-- POWER_ON_RESET: a supply has risen and the regulators are good; RST_N is still low (R425). -/
def execPowerOnReset (v : Supply) (s : State) : Host.Outcome State Fault Refusal :=
  done (s.powerOn v)

/-- RST_N_LOW: the board holds RST_N low: a hard reset, prolonged where a reset is under way (R422). -/
def execRstNLow (s : State) : Host.Outcome State Fault Refusal :=
  done (if s.phase = .inReset then s else s.hardReset causePin)

/-- RESET_RELEASE: RST_N rises with these levels of ROLE and TEST_EN (R2, R425). -/
def execResetRelease (worker testEn : Bool) (s : State) : Host.Outcome State Fault Refusal :=
  done (s.release worker testEn)

/-- SOFT: a write of SYS_RST_CTRL with SOFT 1 and this KEY (R422, R423). -/
def execSoft (p : Party) (key : BitVec 8) (s : State) : Host.Outcome State Fault Refusal :=
  .next (s.written p F.SYS_RST_CTRL.base (BitVec.ofNat 32 (key.toNat * 2 ^ 24 + 1)))

/-- HARD: a write of SYS_RST_CTRL with HARD 1 and this KEY (R422, R423). -/
def execHard (p : Party) (key : BitVec 8) (s : State) : Host.Outcome State Fault Refusal :=
  .next (s.written p F.SYS_RST_CTRL.base (BitVec.ofNat 32 (key.toNat * 2 ^ 24 + 2)))

/-- OTP_SENSING_DONE: sensing ends; `cells` and `locks` are programmed cells beyond those the state holds (R425, R487). -/
def execOtpSensingDone (cells : List (Nat × Word)) (locks : BitVec 32) (s : State) : Host.Outcome State Fault Refusal :=
  done (if s.phase = .sensing then s.atTime (some s.senseEnd) (State.otpSensed cells locks) else s)

/-- SUPPLY_UNDERVOLTAGE: VCC5 below 4.3 V or VCORE below 0.80 V (R422). -/
def execSupplyUndervoltage (s : State) : Host.Outcome State Fault Refusal :=
  done (s.undervoltage)

/-! ### Clocks and supplies -/

/-- PLL_LOCK: the PLL locks (R20). -/
def execPllLock (s : State) : Host.Outcome State Fault Refusal :=
  done (s.pllLock)

/-- REFERENCE_LOST: the clock monitor finds the reference lost (R21). -/
def execReferenceLost (s : State) : Host.Outcome State Fault Refusal :=
  done (s.refLost)

/-- RELOCK_OTHER_PORT: a worker in holdover re-locks to its other port (R21). -/
def execRelockOtherPort (s : State) : Host.Outcome State Fault Refusal :=
  done (s.relockOther)

/-- REFERENCE_RETURN: the reference returns in holdover (R21). -/
def execReferenceReturn (s : State) : Host.Outcome State Fault Refusal :=
  done (s.refReturn)

/-- HOLDOVER_EXPIRY: 10 ms of holdover have passed (R21). -/
def execHoldoverExpiry (s : State) : Host.Outcome State Fault Refusal :=
  done (s.atTime s.holdEnd State.holdoverExpiry)

/-- VIN_DISQUALIFY: VIN falls below 5.8 V; `port` is the phantom that then feeds a worker (R23). -/
def execVinDisqualify (port : Fin 2) (s : State) : Host.Outcome State Fault Refusal :=
  done (s.vinLost port)

/-- VIN_QUALIFY: VIN has stayed at or above 6.0 V for 10 ms, which on a worker began no earlier than its last fall
(R23, R25). -/
def execVinQualify (s : State) : Host.Outcome State Fault Refusal :=
  done ((s.passTo s.vinDue).vinGood)

/-! ### The register fabric -/

/-- REGISTER_WRITE: writes that reach the fabric in one cycle (R29–R33). -/
def execRegisterWrite (l : List (Party × BitVec 16 × Word)) (s : State) : Host.Outcome State Fault Refusal :=
  .next (s.registerWrites l)

/-! ### The Caliber load -/

/-- IMAGE_SOURCE_TRY: the device starts reading the next image source (R60). -/
def execImageSourceTry (s : State) : Host.Outcome State Fault Refusal :=
  done (s.sourceTry)

/-- HEADER_ARRIVED: the 64 header bytes of an image in flash arrive (R58). -/
def execHeaderArrived (b : List Byte) (s : State) : Host.Outcome State Fault Refusal :=
  if b.length = 64 then done (s.flashArrives 0 b) else .fault .illFormed

/-- DIRECTORY_ARRIVED: the 256 directory bytes of an image in flash arrive (R58). -/
def execDirectoryArrived (b : List Byte) (s : State) : Host.Outcome State Fault Refusal :=
  if b.length = 256 then done (s.flashArrives 1 b) else .fault .illFormed

/-- IMAGE_STREAM_END: the image bytes after the directory have arrived (R58). -/
def execImageStreamEnd (b : List Byte) (s : State) : Host.Outcome State Fault Refusal :=
  done (s.flashArrives 2 b)

/-- IMAGE_CHECKS_DONE: the range and consistency checks end (R58). -/
def execImageChecksDone (s : State) : Host.Outcome State Fault Refusal :=
  done (s.checksDone)

/-- START: a write of CAL_LOAD_CTRL with START 1, and ABORT 1 too where `both` (R62, R67). -/
def execStartLoad (p : Party) (both : Bool) (s : State) : Host.Outcome State Fault Refusal :=
  .next (s.written p F.CAL_LOAD_CTRL.base (if both then 3 else 1))

/-- ABORT: a write of CAL_LOAD_CTRL with ABORT 1 (R62). -/
def execAbortLoad (p : Party) (s : State) : Host.Outcome State Fault Refusal :=
  .next (s.written p F.CAL_LOAD_CTRL.base 2)

/-- CAL_LOAD_AP: a write of the load aperture (R62). -/
def execCalLoadAp (p : Party) (k : Fin 16) (w : Word) (s : State) : Host.Outcome State Fault Refusal :=
  .next (s.written p (F.CAL_LOAD_AP.base + k.val) w)

/-- HOST_LOAD_GAP_TIMEOUT: 100 ms without an aperture write (R62). -/
def execHostLoadGapTimeout (s : State) : Host.Outcome State Fault Refusal :=
  done (s.atTime s.streamGap State.gapEnds)

/-! ### Rest -/

/-- ENTER: a write of SYS_REST_CTRL with ENTER 1 and these wake enables (R428). -/
def execEnter (p : Party) (wake : BitVec 6) (s : State) : Host.Outcome State Fault Refusal :=
  .next (s.written p F.SYS_REST_CTRL.base (BitVec.ofNat 32 (2 ^ 31 + wake.toNat)))

/-- REST_ENTRY: tick E (R429). -/
def execRestEntry (s : State) : Host.Outcome State Fault Refusal :=
  done (s.restEntry)

/-- WAKE_EVENT: wake sources in the bit order of SYS_REST_CTRL, `periods` keep periods after entry (R431–R433). -/
def execWakeEvent (src : BitVec 6) (periods : Nat) (s : State) : Host.Outcome State Fault Refusal :=
  done (s.wakeEvent src.toNat periods)

/-- FULLY_ACTIVE: every domain is restored (R431). -/
def execFullyActive (s : State) : Host.Outcome State Fault Refusal :=
  done (s.fullyActive.tapPending)

end Sys2Proof.Machine
end

