-- ==== Sys2Proof/Machine/StrikeCommands.lean ====
section
/-! DEFINITION. The commands of the escapement: the tick count, strikes and beats (chapter 3). -/

namespace Sys2Proof.Machine

/-! ### The count -/

/-- ESC_STEP: the step that three swings of error call for (R74). -/
def execEscStep (s : State) : Host.Outcome State Fault Refusal :=
  done (s.escStep)

/-- ESC_TICK_READ: a read of ESC_TICK_LO, which latches ESC_TICK_HI for its reader (R102). -/
def execEscTickRead (p : Party) (s : State) : Host.Outcome State Fault Refusal :=
  .next (s.readBy p F.ESC_TICK_LO.base)

/-- ESC_CNT_CLR: a write of ESC_CNT_CLR with CLR 1 (R102). -/
def execEscCntClr (p : Party) (s : State) : Host.Outcome State Fault Refusal :=
  .next (s.written p F.ESC_CNT_CLR.base 1)

/-! ### Arming -/

/-- A word of ESC_ARM_CMD. -/
def armWord (op : Nat) (hier useMask : Bool) (slot : Fin 256) : Word :=
  BitVec.ofNat 32 (op * 2 ^ 30 + b2n hier * 2 ^ 29 + b2n useMask * 2 ^ 28 + slot.val)

/-- ARM_ABSOLUTE: a write of ESC_ARM_CMD with OP absolute (R86, R89). -/
def execArmAbsolute (p : Party) (hier useMask : Bool) (slot : Fin 256) (s : State) : Host.Outcome State Fault Refusal :=
  .next (s.written p F.ESC_ARM_CMD.base (armWord 0 hier useMask slot))

/-- ARM_RELATIVE: a write of ESC_ARM_CMD with OP relative (R84, R86). -/
def execArmRelative (p : Party) (hier useMask : Bool) (slot : Fin 256) (s : State) : Host.Outcome State Fault Refusal :=
  .next (s.written p F.ESC_ARM_CMD.base (armWord 1 hier useMask slot))

/-- CANCEL_CMD: a write of ESC_ARM_CMD with OP cancel (R90). -/
def execCancelCmd (p : Party) (hier : Bool) (slot : Fin 256) (s : State) : Host.Outcome State Fault Refusal :=
  .next (s.written p F.ESC_ARM_CMD.base (armWord 2 hier false slot))

/-- STRIKE_ID_QUARANTINE_END: 16,000 ticks after its close a strike ID may be taken again (R91). -/
def execStrikeIdQuarantineEnd (s : State) : Host.Outcome State Fault Refusal :=
  done (s.atTick s.quarantineDue State.endQuarantine)

/-! ### Launches and beats -/

/-- STRIKE_LAUNCH: the next launch tick of an armed slot (R92). -/
def execStrikeLaunch (s : State) : Host.Outcome State Fault Refusal :=
  done (s.batchAt s.launchDue)

/-- BEAT_ZERO_START: beat 0 starts (R96). -/
def execBeatZeroStart (s : State) : Host.Outcome State Fault Refusal :=
  done (s.batchAt s.beat.accepted)

/-- BEAT_BOUNDARY: the next beat boundary (R97). -/
def execBeatBoundary (s : State) : Host.Outcome State Fault Refusal :=
  done (s.batchAt s.beat.next)

end Sys2Proof.Machine
end

