-- ==== Sys2Proof/Machine/Dispatch.lean ====
section
/-! DEFINITION. The dispatch: one arm per constructor of `Instr`, each one direct call of its meaning. -/

namespace Sys2Proof.Machine

def exec (i : Instr) (s : State) : Host.Outcome State Fault Refusal :=
  match i with
  | .powerOnReset v => Sys2Proof.Machine.execPowerOnReset v s
  | .rstNLow => Sys2Proof.Machine.execRstNLow s
  | .resetRelease worker testEn => Sys2Proof.Machine.execResetRelease worker testEn s
  | .soft p key => Sys2Proof.Machine.execSoft p key s
  | .hard p key => Sys2Proof.Machine.execHard p key s
  | .otpSensingDone cells locks => Sys2Proof.Machine.execOtpSensingDone cells locks s
  | .pllLock => Sys2Proof.Machine.execPllLock s
  | .referenceLost => Sys2Proof.Machine.execReferenceLost s
  | .relockOtherPort => Sys2Proof.Machine.execRelockOtherPort s
  | .holdoverExpiry => Sys2Proof.Machine.execHoldoverExpiry s
  | .vinDisqualify port => Sys2Proof.Machine.execVinDisqualify port s
  | .vinQualify => Sys2Proof.Machine.execVinQualify s
  | .registerWrite l => Sys2Proof.Machine.execRegisterWrite l s
  | .imageSourceTry => Sys2Proof.Machine.execImageSourceTry s
  | .headerArrived b => Sys2Proof.Machine.execHeaderArrived b s
  | .directoryArrived b => Sys2Proof.Machine.execDirectoryArrived b s
  | .imageStreamEnd b => Sys2Proof.Machine.execImageStreamEnd b s
  | .imageChecksDone => Sys2Proof.Machine.execImageChecksDone s
  | .startLoad p both => Sys2Proof.Machine.execStartLoad p both s
  | .abortLoad p => Sys2Proof.Machine.execAbortLoad p s
  | .calLoadAp p k w => Sys2Proof.Machine.execCalLoadAp p k w s
  | .hostLoadGapTimeout => Sys2Proof.Machine.execHostLoadGapTimeout s
  | .escStep => Sys2Proof.Machine.execEscStep s
  | .armAbsolute p hier useMask slot => Sys2Proof.Machine.execArmAbsolute p hier useMask slot s
  | .armRelative p hier useMask slot => Sys2Proof.Machine.execArmRelative p hier useMask slot s
  | .cancelCmd p hier slot => Sys2Proof.Machine.execCancelCmd p hier slot s
  | .escTickRead p => Sys2Proof.Machine.execEscTickRead p s
  | .escCntClr p => Sys2Proof.Machine.execEscCntClr p s
  | .strikeLaunch => Sys2Proof.Machine.execStrikeLaunch s
  | .strikeIdQuarantineEnd => Sys2Proof.Machine.execStrikeIdQuarantineEnd s
  | .beatZeroStart => Sys2Proof.Machine.execBeatZeroStart s
  | .beatBoundary => Sys2Proof.Machine.execBeatBoundary s
  | .portTrainStart p bad => Sys2Proof.Machine.execPortTrainStart p bad s
  | .trainSend p => Sys2Proof.Machine.execTrainSend p s
  | .trainReceive p b fine bad idle => Sys2Proof.Machine.execTrainReceive p b fine bad idle s
  | .upstreamSelect => Sys2Proof.Machine.execUpstreamSelect s
  | .portRxDown p ld bad => Sys2Proof.Machine.execPortRxDown p ld bad s
  | .healReceive p bad => Sys2Proof.Machine.execHealReceive p bad s
  | .branchEndDetect => Sys2Proof.Machine.execBranchEndDetect s
  | .linkRetrain p w => Sys2Proof.Machine.execLinkRetrain p w s
  | .linkCntClr p => Sys2Proof.Machine.execLinkCntClr p s
  | .phantomSwitchTrip w => Sys2Proof.Machine.execPhantomSwitchTrip w s
  | .phantomSwitchReclose w => Sys2Proof.Machine.execPhantomSwitchReclose w s
  | .downFrameSend => Sys2Proof.Machine.execDownFrameSend s
  | .downFrameHeader p b arr bad => Sys2Proof.Machine.execDownFrameHeader p b arr bad s
  | .downFrameAccept b bad => Sys2Proof.Machine.execDownFrameAccept b bad s
  | .downFrameMissing => Sys2Proof.Machine.execDownFrameMissing s
  | .upFrameStart => Sys2Proof.Machine.execUpFrameStart s
  | .upFrameForward b bad => Sys2Proof.Machine.execUpFrameForward b bad s
  | .upFrameReceive p b bad => Sys2Proof.Machine.execUpFrameReceive p b bad s
  | .workerLost => Sys2Proof.Machine.execWorkerLost s
  | .transactionTimeout => Sys2Proof.Machine.execTransactionTimeout s
  | .tagQuarantineEnd => Sys2Proof.Machine.execTagQuarantineEnd s
  | .arm b => Sys2Proof.Machine.execArm b s
  | .cancel b => Sys2Proof.Machine.execCancel b s
  | .beat b => Sys2Proof.Machine.execBeat b s
  | .select b => Sys2Proof.Machine.execSelect b s
  | .retrain b => Sys2Proof.Machine.execRetrain b s
  | .phantom b => Sys2Proof.Machine.execPhantom b s
  | .rest b => Sys2Proof.Machine.execRest b s
  | .assign b => Sys2Proof.Machine.execAssign b s
  | .ptRead b => Sys2Proof.Machine.execPtRead b s
  | .ptWrite b => Sys2Proof.Machine.execPtWrite b s
  | .regRead b => Sys2Proof.Machine.execRegRead b s
  | .regWrite b => Sys2Proof.Machine.execRegWrite b s
  | .stgOpen b => Sys2Proof.Machine.execStgOpen b s
  | .stgData b => Sys2Proof.Machine.execStgData b s
  | .stgPrepare b => Sys2Proof.Machine.execStgPrepare b s
  | .commit b => Sys2Proof.Machine.execCommit b s
  | .abortStage b => Sys2Proof.Machine.execAbortStage b s
  | .cmtCheck b => Sys2Proof.Machine.execCmtCheck b s
  | .dlvStart b => Sys2Proof.Machine.execDlvStart b s
  | .dlvData b => Sys2Proof.Machine.execDlvData b s
  | .dlvQuery b => Sys2Proof.Machine.execDlvQuery b s
  | .raRead p => Sys2Proof.Machine.execRaRead p s
  | .raWrite p => Sys2Proof.Machine.execRaWrite p s
  | .raWriteAns p => Sys2Proof.Machine.execRaWriteAns p s
  | .hierStgData p w => Sys2Proof.Machine.execHierStgData p w s
  | .openCmt p => Sys2Proof.Machine.execOpenCmt p s
  | .sendCmt p => Sys2Proof.Machine.execSendCmt p s
  | .prepareCmt p => Sys2Proof.Machine.execPrepareCmt p s
  | .cmtCommit p => Sys2Proof.Machine.execCmtCommit p s
  | .cmtAbort p => Sys2Proof.Machine.execCmtAbort p s
  | .repairCommit p dev => Sys2Proof.Machine.execRepairCommit p dev s
  | .repairAbort p dev => Sys2Proof.Machine.execRepairAbort p dev s
  | .close p => Sys2Proof.Machine.execClose p s
  | .stageChecksDone => Sys2Proof.Machine.execStageChecksDone s
  | .commitApply => Sys2Proof.Machine.execCommitApply s
  | .stageStale => Sys2Proof.Machine.execStageStale s
  | .cmtCheckSend => Sys2Proof.Machine.execCmtCheckSend s
  | .dlvStartOp p flash => Sys2Proof.Machine.execDlvStartOp p flash s
  | .startReload p flash => Sys2Proof.Machine.execStartReload p flash s
  | .dlvAbort p => Sys2Proof.Machine.execDlvAbort p s
  | .dlvQuerySend => Sys2Proof.Machine.execDlvQuerySend s
  | .relayDeviceUpdate => Sys2Proof.Machine.execRelayDeviceUpdate s
  | .mirrorStale d => Sys2Proof.Machine.execMirrorStale d s
  | .carrierBoundary n x => Sys2Proof.Machine.execCarrierBoundary n x s
  | .syncInEdge d => Sys2Proof.Machine.execSyncInEdge d s
  | .syncInLost n => Sys2Proof.Machine.execSyncInLost n s
  | .onTimeEnd p xs => Sys2Proof.Machine.execOnTimeEnd p xs s
  | .loopFastShort n p raw => Sys2Proof.Machine.execLoopFastShort n p raw s
  | .brakeEngage n v vl => Sys2Proof.Machine.execBrakeEngage n v vl s
  | .hintEdge k high held => Sys2Proof.Machine.execHintEdge k high held s
  | .overloadBinEnd n => Sys2Proof.Machine.execOverloadBinEnd n s
  | .stgfltEdge n held => Sys2Proof.Machine.execStgfltEdge n held s
  | .stageFaultIdentify n raw => Sys2Proof.Machine.execStageFaultIdentify n raw s
  | .throttleRelease n => Sys2Proof.Machine.execThrottleRelease n s
  | .loopDischargeTimeout n => Sys2Proof.Machine.execLoopDischargeTimeout n s
  | .channelSample n x => Sys2Proof.Machine.execChannelSample n x s
  | .channelFastShort n v => Sys2Proof.Machine.execChannelFastShort n v s
  | .reverseBlock n v => Sys2Proof.Machine.execReverseBlock n v s
  | .standbyRescue n v held => Sys2Proof.Machine.execStandbyRescue n v held s
  | .pairBreak n => Sys2Proof.Machine.execPairBreak n s
  | .channelOnWrite p n w => Sys2Proof.Machine.execChannelOnWrite p n w s
  | .pmodeWrite p n w => Sys2Proof.Machine.execPmodeWrite p n w s
  | .pointChOn p point v => Sys2Proof.Machine.execPointChOn p point v s
  | .pointChPmode p point v => Sys2Proof.Machine.execPointChPmode p point v s
  | .pointLoopMargin p point v => Sys2Proof.Machine.execPointLoopMargin p point v s
  | .pointLoopNmin p point v => Sys2Proof.Machine.execPointLoopNmin p point v s
  | .pointPhaseDis p point v => Sys2Proof.Machine.execPointPhaseDis p point v s
  | .pointRailOn p point v => Sys2Proof.Machine.execPointRailOn p point v s
  | .pointRailMargin p point v => Sys2Proof.Machine.execPointRailMargin p point v s
  | .pointKeepByteWrite p point v => Sys2Proof.Machine.execPointKeepByteWrite p point v s
  | .sequencerEval => Sys2Proof.Machine.execSequencerEval s
  | .railDelayEnd n => Sys2Proof.Machine.execRailDelayEnd n s
  | .runAheadStart n => Sys2Proof.Machine.execRunAheadStart n s
  | .railQualified n => Sys2Proof.Machine.execRailQualified n s
  | .railDeadline n => Sys2Proof.Machine.execRailDeadline n s
  | .railPgLost n => Sys2Proof.Machine.execRailPgLost n s
  | .railLdDelayEnd n => Sys2Proof.Machine.execRailLdDelayEnd n s
  | .targetStopTimeout n => Sys2Proof.Machine.execTargetStopTimeout n s
  | .pwrgdEdge k high held => Sys2Proof.Machine.execPwrgdEdge k high held s
  | .railCtrlWrite p n w => Sys2Proof.Machine.execRailCtrlWrite p n w s
  | .marginStep k => Sys2Proof.Machine.execMarginStep k s
  | .conversionEnd m code => Sys2Proof.Machine.execConversionEnd m code s
  | .measMaskWrite p m w => Sys2Proof.Machine.execMeasMaskWrite p m w s
  | .urg p m e => Sys2Proof.Machine.execUrg p m e s
  | .monitorLevelChange n l => Sys2Proof.Machine.execMonitorLevelChange n l s
  | .monitorSettleEnd n v => Sys2Proof.Machine.execMonitorSettleEnd n v s
  | .monTestGo p cell first last => Sys2Proof.Machine.execMonTestGo p cell first last s
  | .sweepStep => Sys2Proof.Machine.execSweepStep s
  | .thermalUpdate pdev => Sys2Proof.Machine.execThermalUpdate pdev s
  | .shedStep => Sys2Proof.Machine.execShedStep s
  | .faultRecord => Sys2Proof.Machine.execFaultRecord s
  | .ack p slot => Sys2Proof.Machine.execAck p slot s
  | .clear p slot => Sys2Proof.Machine.execClear p slot s
  | .ackClass p cls => Sys2Proof.Machine.execAckClass p cls s
  | .clearL0 p => Sys2Proof.Machine.execClearL0 p s
  | .sourceLost x held => Sys2Proof.Machine.execSourceLost x held s
  | .handoverComplete x => Sys2Proof.Machine.execHandoverComplete x s
  | .sourceQualified x => Sys2Proof.Machine.execSourceQualified x s
  | .handbackComplete x => Sys2Proof.Machine.execHandbackComplete x s
  | .sourceReverseBlock x => Sys2Proof.Machine.execSourceReverseBlock x s
  | .depletion x held => Sys2Proof.Machine.execDepletion x held s
  | .supplementStart x held => Sys2Proof.Machine.execSupplementStart x held s
  | .supplementStop x held => Sys2Proof.Machine.execSupplementStop x held s
  | .packProbeStart x held => Sys2Proof.Machine.execPackProbeStart x held s
  | .packProbeEnd x => Sys2Proof.Machine.execPackProbeEnd x s
  | .packRemoved x held => Sys2Proof.Machine.execPackRemoved x held s
  | .packShorted x held => Sys2Proof.Machine.execPackShorted x held s
  | .chargeSecond vavg tavg => Sys2Proof.Machine.execChargeSecond vavg tavg s
  | .chargerTimerFault x => Sys2Proof.Machine.execChargerTimerFault x s
  | .topoffEnd x => Sys2Proof.Machine.execTopoffEnd x s
  | .rechargeStart x held => Sys2Proof.Machine.execRechargeStart x held s
  | .ship p chgEn => Sys2Proof.Machine.execShip p chgEn s
  | .shipExit p chgEn => Sys2Proof.Machine.execShipExit p chgEn s
  | .chgGo p chgEn => Sys2Proof.Machine.execChgGo p chgEn s
  | .pwrpCfgWrite p w => Sys2Proof.Machine.execPwrpCfgWrite p w s
  | .shipPress held => Sys2Proof.Machine.execShipPress held s
  | .offCycleStart held => Sys2Proof.Machine.execOffCycleStart held s
  | .offCycleEnd => Sys2Proof.Machine.execOffCycleEnd s
  | .keepReset => Sys2Proof.Machine.execKeepReset s
  | .switchOver => Sys2Proof.Machine.execSwitchOver s
  | .xtalStop => Sys2Proof.Machine.execXtalStop s
  | .calendarSecond => Sys2Proof.Machine.execCalendarSecond s
  | .trimAdd => Sys2Proof.Machine.execTrimAdd s
  | .keepCalWindow n => Sys2Proof.Machine.execKeepCalWindow n s
  | .keepCommitApply => Sys2Proof.Machine.execKeepCommitApply s
  | .setTime p => Sys2Proof.Machine.execSetTime p s
  | .hourAdd p => Sys2Proof.Machine.execHourAdd p s
  | .hourSub p => Sys2Proof.Machine.execHourSub p s
  | .memCommit p => Sys2Proof.Machine.execMemCommit p s
  | .alarmSet p => Sys2Proof.Machine.execAlarmSet p s
  | .keepCfgWrite p w => Sys2Proof.Machine.execKeepCfgWrite p w s
  | .keepStatClear p w => Sys2Proof.Machine.execKeepStatClear p w s
  | .keepDateRead p => Sys2Proof.Machine.execKeepDateRead p s
  | .enter p wake => Sys2Proof.Machine.execEnter p wake s
  | .restEntry => Sys2Proof.Machine.execRestEntry s
  | .wakeEvent src periods => Sys2Proof.Machine.execWakeEvent src periods s
  | .fullyActive => Sys2Proof.Machine.execFullyActive s
  | .hostWrite tgt op addr b stop => Sys2Proof.Machine.execHostWrite tgt op addr b stop s
  | .hostRead tgt count addr n stop => Sys2Proof.Machine.execHostRead tgt count addr n stop s
  | .writeFix tgt count addr b stop => Sys2Proof.Machine.execWriteFix tgt count addr b stop s
  | .readFix tgt count addr n stop => Sys2Proof.Machine.execReadFix tgt count addr n stop s
  | .sclTimeout again => Sys2Proof.Machine.execSclTimeout again s
  | .sdaTimeout again => Sys2Proof.Machine.execSdaTimeout again s
  | .add n rd a b => Sys2Proof.Machine.execAdd n rd a b s
  | .sub n rd a b => Sys2Proof.Machine.execSub n rd a b s
  | .andI n rd a b => Sys2Proof.Machine.execAndI n rd a b s
  | .orI n rd a b => Sys2Proof.Machine.execOrI n rd a b s
  | .xorI n rd a b => Sys2Proof.Machine.execXorI n rd a b s
  | .sll n rd a b => Sys2Proof.Machine.execSll n rd a b s
  | .srl n rd a b => Sys2Proof.Machine.execSrl n rd a b s
  | .sra n rd a b => Sys2Proof.Machine.execSra n rd a b s
  | .slt n rd a b => Sys2Proof.Machine.execSlt n rd a b s
  | .sltu n rd a b => Sys2Proof.Machine.execSltu n rd a b s
  | .minI n rd a b => Sys2Proof.Machine.execMinI n rd a b s
  | .maxI n rd a b => Sys2Proof.Machine.execMaxI n rd a b s
  | .mul n rd a b => Sys2Proof.Machine.execMul n rd a b s
  | .mulh n rd a b => Sys2Proof.Machine.execMulh n rd a b s
  | .mulhu n rd a b => Sys2Proof.Machine.execMulhu n rd a b s
  | .div n rd a b => Sys2Proof.Machine.execDiv n rd a b s
  | .divu n rd a b => Sys2Proof.Machine.execDivu n rd a b s
  | .rem n rd a b => Sys2Proof.Machine.execRem n rd a b s
  | .remu n rd a b => Sys2Proof.Machine.execRemu n rd a b s
  | .mulq n rd a b => Sys2Proof.Machine.execMulq n rd a b s
  | .addi n rd a imm => Sys2Proof.Machine.execAddi n rd a imm s
  | .slti n rd a imm => Sys2Proof.Machine.execSlti n rd a imm s
  | .andi n rd a imm => Sys2Proof.Machine.execAndi n rd a imm s
  | .ori n rd a imm => Sys2Proof.Machine.execOri n rd a imm s
  | .xori n rd a imm => Sys2Proof.Machine.execXori n rd a imm s
  | .slli n rd a sh => Sys2Proof.Machine.execSlli n rd a sh s
  | .srli n rd a sh => Sys2Proof.Machine.execSrli n rd a sh s
  | .srai n rd a sh => Sys2Proof.Machine.execSrai n rd a sh s
  | .lui n rd imm => Sys2Proof.Machine.execLui n rd imm s
  | .ldw n rd a imm => Sys2Proof.Machine.execLdw n rd a imm s
  | .stw n b a imm => Sys2Proof.Machine.execStw n b a imm s
  | .frd n rd a imm => Sys2Proof.Machine.execFrd n rd a imm s
  | .fwr n b a imm => Sys2Proof.Machine.execFwr n b a imm s
  | .beq n a b off => Sys2Proof.Machine.execBeq n a b off s
  | .bne n a b off => Sys2Proof.Machine.execBne n a b off s
  | .blt n a b off => Sys2Proof.Machine.execBlt n a b off s
  | .bge n a b off => Sys2Proof.Machine.execBge n a b off s
  | .bltu n a b off => Sys2Proof.Machine.execBltu n a b off s
  | .bgeu n a b off => Sys2Proof.Machine.execBgeu n a b off s
  | .jal n rd off => Sys2Proof.Machine.execJal n rd off s
  | .jalr n rd a imm => Sys2Proof.Machine.execJalr n rd a imm s
  | .nop n => Sys2Proof.Machine.execNop n s
  | .halt n => Sys2Proof.Machine.execHalt n s
  | .tickl n rd => Sys2Proof.Machine.execTickl n rd s
  | .tickh n rd => Sys2Proof.Machine.execTickh n rd s
  | .cyc n rd => Sys2Proof.Machine.execCyc n rd s
  | .evt n rd => Sys2Proof.Machine.execEvt n rd s
  | .waitt n a => Sys2Proof.Machine.execWaitt n a s
  | .runStart n => Sys2Proof.Machine.execRunStart n s
  | .budgetOverrun n => Sys2Proof.Machine.execBudgetOverrun n s
  | .watchdogExpiry n => Sys2Proof.Machine.execWatchdogExpiry n s
  | .restart p n => Sys2Proof.Machine.execRestart p n s
  | .restartCheckDone n => Sys2Proof.Machine.execRestartCheckDone n s
  | .initRunStart n => Sys2Proof.Machine.execInitRunStart n s
  | .go p n => Sys2Proof.Machine.execGo p n s
  | .stop p n => Sys2Proof.Machine.execStop p n s
  | .mboxWrite p n k w => Sys2Proof.Machine.execMboxWrite p n k w s
  | .peNotify p set => Sys2Proof.Machine.execPeNotify p set s
  | .writebackVerify again => Sys2Proof.Machine.execWritebackVerify again s
  | .scrubRead busy => Sys2Proof.Machine.execScrubRead busy s
  | .memScrubWrite p w => Sys2Proof.Machine.execMemScrubWrite p w s
  | .readRaw p key => Sys2Proof.Machine.execReadRaw p key s
  | .writeRaw p key => Sys2Proof.Machine.execWriteRaw p key s
  | .memCntClr p => Sys2Proof.Machine.execMemCntClr p s
  | .program p key => Sys2Proof.Machine.execProgram p key s
  | .wlock p key => Sys2Proof.Machine.execWlock p key s
  | .rlock p key => Sys2Proof.Machine.execRlock p key s
  | .ctrInc p key => Sys2Proof.Machine.execCtrInc p key s
  | .otpPulseEnd seen => Sys2Proof.Machine.execOtpPulseEnd seen s
  | .otpWindowRead p k => Sys2Proof.Machine.execOtpWindowRead p k s
  | .extest d => Sys2Proof.Machine.execExtest d s
  | .samplePreload ins d => Sys2Proof.Machine.execSamplePreload ins d s
  | .highz => Sys2Proof.Machine.execHighz s
  | .clamp => Sys2Proof.Machine.execClamp s
  | .devid => Sys2Proof.Machine.execDevid s
  | .fabric => Sys2Proof.Machine.execFabric s
  | .bypass op => Sys2Proof.Machine.execBypass op s
  | .fabricAccess write addr data => Sys2Proof.Machine.execFabricAccess write addr data s
  | .referenceReturn => Sys2Proof.Machine.execReferenceReturn s
  | .supplyUndervoltage => Sys2Proof.Machine.execSupplyUndervoltage s
  | .keepResetRelease => Sys2Proof.Machine.execKeepResetRelease s
  | .mainBranchReturn => Sys2Proof.Machine.execMainBranchReturn s
  | .keepCrystalRestart => Sys2Proof.Machine.execKeepCrystalRestart s
  | .i2Received p bad => Sys2Proof.Machine.execI2Received p bad s
  | .stgfltRise n => Sys2Proof.Machine.execStgfltRise n s
  | .sourceBlockRelease x => Sys2Proof.Machine.execSourceBlockRelease x s
  | .sourceGood x => Sys2Proof.Machine.execSourceGood x s
  | .chargeConditionChange x => Sys2Proof.Machine.execChargeConditionChange x s
  | .prechargeEnd x => Sys2Proof.Machine.execPrechargeEnd x s
  | .periodicTrigger n h => Sys2Proof.Machine.execPeriodicTrigger n h s
  | .scrubLapStarved => Sys2Proof.Machine.execScrubLapStarved s

end Sys2Proof.Machine
end

