-- ==== Sys2Proof/Machine/Programs.lean ====
section
/-! DEFINITION. The standard programs EFFOPT, WIRETRY and BEATLOG (R238, R468–R470): what one run of each makes of the state,
as the writes its engine then does. Their code is words of an image, which the engine rows execute one by one; no row calls
these definitions. -/

namespace Sys2Proof.Machine

/-- A write that a program makes: of a register word over the fabric, or of a byte address of shared data. -/
inductive ProgWrite where
  | fabric (addr : Nat) (w : Word)
  | data (addr : Nat) (w : Word)
deriving DecidableEq, Repr

/-- `n` bytes of shared data from byte `off` on. -/
def State.dataBytes (s : State) (off n : Nat) : List Byte :=
  slice (bytesOf ((List.range ((off + n + 3) / 4 - off / 4)).map (fun i => s.sramPeek (sramKey 8 (off / 4 + i))))) (off % 4) n

/-- A word of the latched bank (R99, R506). -/
def State.bankWord (s : State) (o : Nat) : Word := s.sramPeek (latchKey o)

/-- What an init run does with a parameter block that is out of range (R470): PE_NOTIFY, and every slot without a trigger. -/
def refuseParams (n : Nat) : List ProgWrite :=
  .fabric F.PE_NOTIFY.base (BitVec.ofNat 32 (2 ^ n)) ::
    (List.range 8).map (fun h => .fabric (((F.PEn_HCFG_TRIG).off (2 * h)).addr n) 0)

/-- The slots that an init run sets (R468): slot, TRIG, ARG and PERIOD of EFFOPT, WIRETRY and BEATLOG. -/
def effoptSlots : List (Nat × Nat × Nat × Nat) := [(0, 1, 0, 0), (1, 5, 0, 0), (2, 5, 1, 0), (3, 5, 2, 0)]
def wiretrySlots : List (Nat × Nat × Nat × Nat) := [(0, 5, 3, 0), (1, 2, 0, 10000)]
def beatlogSlots : List (Nat × Nat × Nat × Nat) := [(0, 1, 0, 0)]

/-- Its writes, the handler of slot h beginning at `entry h`. -/
def slotWrites (n : Nat) (entry : Nat → Nat) (l : List (Nat × Nat × Nat × Nat)) : List ProgWrite :=
  l.flatMap (fun x => [
    .fabric (((F.PEn_HCFG_TRIG).off (2 * x.1)).addr n)
      (BitVec.ofNat 32 (x.2.1 * 2 ^ 28 + x.2.2.1 * 2 ^ 16 + entry x.1)),
    .fabric (((F.PEn_HLIM_PERIOD).off (2 * x.1)).addr n) (BitVec.ofNat 32 (x.2.2.2 * 2 ^ 16))])

/-- What an init run does: the slots `l`, or the refusal of a parameter block that is out of range (R468, R470). -/
def initWrites (ok : Bool) (n : Nat) (entry : Nat → Nat) (l : List (Nat × Nat × Nat × Nat)) : List ProgWrite :=
  if ok then slotWrites n entry l else refuseParams n

/-! ### EFFOPT (R238, R468, R470) -/

/-- LOOPS: the loops that the program serves. -/
def optLoops (b : List Byte) : List Nat := (List.range 8).filter (fun n => (leAt b 0 1).testBit n)

/-- EFFOPT's parameters for loop `n`: HYST, STEADY, its two meters and the steps of the shed pair, DT_RISE, DT_FALL, PERIOD. -/
structure OptParams where
  hyst : Nat
  steady : Nat
  meterIn : Nat
  meterOut : Nat
  steps : List Nat
deriving DecidableEq, Repr

/-- The parameters in a block at `b`. -/
def optParams (b : List Byte) (n : Nat) : OptParams :=
  ⟨leAt b 1 1, leAt b 2 2, leAt b (4 + 8 * n) 1, leAt b (5 + 8 * n) 1,
    [leAt b (6 + 8 * n) 1, leAt b (7 + 8 * n) 1, leAt b (8 + 8 * n) 1, leAt b (10 + 8 * n) 2]⟩

/-- Ranges of R470. -/
def OptParams.ok (x : OptParams) : Bool :=
  decide (1 ≤ x.hyst) && decide (1 ≤ x.steady ∧ x.steady ≤ 10000) && decide (x.meterIn < 16 ∧ x.meterOut < 16) &&
    (x.steps.zip [32, 8, 8, 1600]).all (fun p => decide (1 ≤ p.1 ∧ p.1 ≤ p.2))

/-- Is the block within its ranges: the parameters of every loop served, and the byte of each that is 0? -/
def effoptOk (b : List Byte) : Bool :=
  (optLoops b).all (fun n => (optParams b n).ok && leAt b (9 + 8 * n) 1 == 0)

/-- EFFOPT's init run on engine `n` with the block at byte `off` of shared data. -/
def State.effoptInit (s : State) (n off : Nat) (entry : Nat → Nat) : List ProgWrite :=
  initWrites (effoptOk (s.dataBytes off 68)) n entry effoptSlots

/-- Places of the search. -/
inductive OptPhase where
  | base | settle | measure
deriving DecidableEq, Repr

/-- The settings it moves. -/
structure OptVals where
  addI : Int
  shedI : Int
  rise : Int
  fall : Int
  per : Int
deriving DecidableEq, Repr

/-- What the program keeps of a loop: the values kept and tried, the parameter and the direction, and the energies of the
beat it compares with. -/
structure OptSt where
  keep : OptVals
  trial : OptVals
  p : Nat := 0
  up : Bool := true
  phase : OptPhase := .base
  out0 : Int := 0
  in0 : Int := 0
deriving DecidableEq, Repr

/-- The present values of a loop. -/
def State.optNow (s : State) (n : Nat) : OptVals :=
  ⟨s.get F.LOOPn_SHED_ADD_I n, s.get F.LOOPn_SHED_SHED_I n, s.get F.LOOPn_PWM_DT_RISE n, s.get F.LOOPn_PWM_DT_FALL n,
    s.get F.LOOPn_FSW_PERIOD n⟩

/-- One parameter moved: the shed pair moves together. -/
def OptVals.move (v : OptVals) (p : Nat) (d : Int) : OptVals :=
  if p = 0 then { v with addI := v.addI + d, shedI := v.shedI + d }
  else if p = 1 then { v with rise := v.rise + d }
  else if p = 2 then { v with fall := v.fall + d }
  else { v with per := v.per + d }

/-- Within the bounds of LOOPn_OPTB0–2, SHED_I below ADD_I, and PERIOD of a clocked loop as it is (R194, R237). -/
def State.optOk (s : State) (n : Nat) (v : OptVals) : Bool :=
  let inside (x : Int) (lo hi : Fld) : Bool := decide ((s.get lo n : Int) ≤ x ∧ x ≤ s.get hi n)
  inside v.addI F.LOOPn_OPTB0_ADD_MIN F.LOOPn_OPTB0_ADD_MAX && inside v.shedI F.LOOPn_OPTB0_SHED_MIN F.LOOPn_OPTB0_SHED_MAX &&
    inside v.rise F.LOOPn_OPTB1_DTR_MIN F.LOOPn_OPTB1_DTR_MAX && inside v.fall F.LOOPn_OPTB1_DTF_MIN F.LOOPn_OPTB1_DTF_MAX &&
    decide (v.shedI < v.addI) &&
    (if s.loopClock n = 0 then inside v.per F.LOOPn_OPTB2_PER_MIN F.LOOPn_OPTB2_PER_MAX
     else decide (v.per = s.get F.LOOPn_FSW_PERIOD n))

/-- The writes that bring a loop's registers to `v`: the words that change. -/
def State.optWrites (s : State) (n : Nat) (v : OptVals) : List ProgWrite :=
  let word (f : Fld) (w : Word) : List ProgWrite := if w = s.reg (f.addr n) then [] else [.fabric (f.addr n) w]
  let shed := s.reg (F.LOOPn_SHED_ADD_I.addr n)
  let pwm := s.reg (F.LOOPn_PWM_DT_RISE.addr n)
  let fsw := s.reg (F.LOOPn_FSW_PERIOD.addr n)
  word F.LOOPn_SHED_ADD_I (withBits (withBits shed 24 8 v.addI.toNat) 16 8 v.shedI.toNat) ++
    word F.LOOPn_PWM_DT_RISE (withBits (withBits pwm 5 5 v.rise.toNat) 10 5 v.fall.toNat) ++
    word F.LOOPn_FSW_PERIOD (withBits fsw 0 14 v.per.toNat)

/-- Energy of a meter over the latched beat (R326, R506). -/
def State.bankEnergy (s : State) (k : Nat) : Int :=
  toS 64 ((s.bankWord (4 + 2 * k)).toNat + 2 ^ 32 * (s.bankWord (5 + 2 * k)).toNat)

/-- Is the beat just latched valid (R238)? `before` is E_out of the beat before, `clean` that THROTTLEn# was not asserted and the
loop made no record at L1 or above during the beat. -/
def State.optValid (s : State) (x : OptParams) (before : Int) (clean : Bool) : Bool :=
  let eOut := s.bankEnergy x.meterOut
  clean && bitsOf (s.bankWord 3) 0 2 == 0 && decide (0 < s.bankEnergy x.meterIn) &&
    decide (10000 * (eOut - before).natAbs ≤ x.steady * eOut.natAbs)

/-- The other direction, then the next parameter. -/
def OptSt.advance (o : OptSt) : OptSt :=
  if o.up then { o with up := false, phase := .base } else { o with up := true, p := (o.p + 1) % 4, phase := .base }

/-- The beat handler of EFFOPT for loop `n`: at most one change per beat (R238). -/
def State.optBeat (s : State) (n : Nat) (x : OptParams) (before : Int) (clean : Bool) (o : OptSt) : OptSt × List ProgWrite :=
  let v := s.optValid x before clean
  let eIn := s.bankEnergy x.meterIn
  let eOut := s.bankEnergy x.meterOut
  match o.phase with
  | .base =>
    let step : Int := x.steps.getD o.p 0
    let trial := o.keep.move o.p (if o.up then step else -step)
    if !v then (o, [])
    else if s.optOk n trial then
      ({ o with trial := trial, phase := .settle, out0 := eOut, in0 := eIn }, s.optWrites n trial)
    else (o.advance, [])
  | .settle => if v then ({ o with phase := .measure }, []) else ({ o with phase := .base }, s.optWrites n o.keep)
  | .measure =>
    if !v then ({ o with phase := .base }, s.optWrites n o.keep)
    else if (10000 * o.out0 + x.hyst * o.in0) * eIn ≤ 10000 * eOut * o.in0 then
      ({ o with keep := o.trial, phase := .base }, [])
    else (o.advance, s.optWrites n o.keep)

/-- The loop records CONV, PHASE or SENSE at L1 or above: the program reverts at once (R238). -/
def State.optRevert (s : State) (n : Nat) (o : OptSt) : OptSt × List ProgWrite :=
  ({ o with phase := .base }, s.optWrites n o.keep)

/-- The beat handler: the search of every loop set in LOOPS, in ascending order, with the places and the E_out of the beat before
it keeps of each, and whether each loop's beat was clean. -/
def State.effoptBeat (s : State) (b : List Byte) (clean : Nat → Bool) (before : Nat → Int) (o : Nat → OptSt) :
    List (Nat × OptSt) × List ProgWrite :=
  let r := (optLoops b).map (fun n => (n, s.optBeat n (optParams b n) (before n) (clean n) (o n)))
  (r.map (fun x => (x.1, x.2.1)), r.flatMap (fun x => x.2.2))

/-- The loop a record of CONV, PHASE or SENSE is about: its object, a loop or the loop of a phase. -/
def State.optLoopOf (s : State) (src : Nat) : Option Nat :=
  let c := src / 4096
  let o := src % 128
  if c = 0 ∨ c = 2 then some o else if c = 1 then s.loopOfPhase o else none

/-- The fault handlers H1 to H3: the loop of the record reverts where LOOPS names it and the record stands at L1 or above. -/
def State.effoptFault (s : State) (b : List Byte) (src : Nat) (o : Nat → OptSt) : Option (Nat × OptSt) × List ProgWrite :=
  match s.optLoopOf src, (List.range 256).find? (fun i => s.recUsed i && s.recSource i == src && decide (1 ≤ s.recLevel i)) with
  | some n, some _ =>
    if (optLoops b).contains n then
      let r := s.optRevert n (o n)
      (some (n, r.1), r.2)
    else (none, [])
  | _, _ => (none, [])

/-! ### WIRETRY (R468–R470) -/

/-- The parameter block: channel, MAXRETRY, COOL, up to the entry 0xFF. -/
def retryList (b : List Byte) : List (Nat × Nat × Nat) :=
  ((pieces 4 (b.length / 4) b).takeWhile (fun e => leAt e 0 1 != 0xFF)).map (fun e => (leAt e 0 1, leAt e 1 1, leAt e 2 1))

/-- Ranges of R470. -/
def retryOk (l : List (Nat × Nat × Nat)) : Bool :=
  l.all (fun e => decide (e.1 < 24) && decide (1 ≤ e.2.1 ∧ e.2.1 ≤ 15) && decide (1 ≤ e.2.2 ∧ e.2.2 ≤ 50))

/-- Is the block within its ranges, its fixed bytes at 0 up to the entry 0xFF? -/
def wiretryOk (b : List Byte) : Bool :=
  retryOk (retryList b) && ((pieces 4 (b.length / 4) b).takeWhile (fun e => leAt e 0 1 != 0xFF)).all (fun e => leAt e 3 1 == 0)

/-- WIRETRY's init run; a list has at most 24 channels and its end. -/
def State.wiretryInit (s : State) (n off : Nat) (entry : Nat → Nat) : List ProgWrite :=
  initWrites (wiretryOk (s.dataBytes off 100)) n entry wiretrySlots

/-- What the fault handler H0 notes: of a DIST record of event 2 of a listed channel, its channel, slot, SEQ and COUNT as read. -/
def State.wireNote (s : State) (l : List (Nat × Nat × Nat)) (src : Nat) : Option (Nat × Nat × Nat × Nat) :=
  match (List.range 256).find? (fun i => s.recUsed i && s.recSource i == src) with
  | some i =>
    if src = sourceOf 3 2 (src % 128) ∧ l.any (fun e => e.1 == src % 128) then some (src % 128, i, s.recSeq i, s.recCount i)
    else none
  | none => none

/-- T_a of a channel in 0.1 °C: AMB_NODE's temperature or AMB_FIX of its WIRE5 (R255). -/
def State.wireAmbient (s : State) (c : Nat) : Int :=
  let w := s.reg (((F.CHn_WIRE_W).off 5).addr c)
  if bitsOf w 8 8 = 0xFF then 10 * toS 8 (bitsOf w 0 8) else tget s.nodeT (bitsOf w 8 8) * 10 / 65536

/-- One channel at a periodic run: where its DIST/L2 record of event 2, noted in slot `i`, stands and its wire has cooled, the
program clears the record with the SEQ and COUNT it last read, and switches a channel on that no rail targets. `clears` are the
ticks of its clears of this channel: at most MAXRETRY of them lie in the last 3,600 s. -/
def State.wireRetry (s : State) (note : Nat × Nat × Nat × Nat) (max cool : Nat) (clears : List Nat) : List ProgWrite :=
  let c := note.1
  let i := note.2.1
  if s.recUsed i && s.recSource i == sourceOf 3 2 c && decide (s.recLevel i < 3) then
    if s.wireAmbient c + 10 * (cool : Int) < s.getS F.CHn_TEMP_TW1 c ∨
        max ≤ (clears.filter (fun t => decide (s.tick < t + 360000000000))).length then []
    else
      [.fabric F.FLT_CMD_ARG.base (BitVec.ofNat 32 (note.2.2.1 * 65536 + note.2.2.2 % 256)),
        .fabric F.FLT_CMD.base (BitVec.ofNat 32 (2 * 2 ^ 28 + i))] ++
      (if s.railTargetsChan c then [] else [.fabric (F.CHn_CTRL.addr c) (withBits (s.reg (F.CHn_CTRL.addr c)) 0 1 1)])
  else []

/-! ### BEATLOG (R468, R470) -/

/-- The parameter block: RING_OFF, RING_N, and the listed word indices. -/
def beatlogParams (b : List Byte) : Nat × Nat × List Nat :=
  (leAt b 0 4, leAt b 4 2, (List.range (leAt b 6 1)).map (fun j => leAt b (8 + 2 * j) 2))

/-- Ranges of R470. -/
def beatlogOk (x : Nat × Nat × List Nat) : Bool :=
  x.1 % 4 == 0 && decide (1 ≤ x.2.1 ∧ x.2.1 ≤ 256) && decide (x.2.2.length ≤ 28)

/-- BEATLOG's init run: the ranges, and its fixed byte. -/
def State.beatlogInit (s : State) (n off : Nat) (entry : Nat → Nat) : List ProgWrite :=
  let b := s.dataBytes off 64
  initWrites (beatlogOk (beatlogParams b) && leAt b 7 1 == 0) n entry beatlogSlots

/-- The beat handler: bank words 0 to 3 and the listed words go into ring entry `k` of 32 words, then engine `n` sets its own
bit of PE_NOTIFY. -/
def State.beatlog (s : State) (n k : Nat) (x : Nat × Nat × List Nat) : List ProgWrite :=
  let at' := x.1 + 128 * (k % x.2.1)
  (([0, 1, 2, 3] ++ x.2.2).mapIdx (fun i o => ProgWrite.data (at' + 4 * i) (s.bankWord o))) ++
    [.fabric F.PE_NOTIFY.base (BitVec.ofNat 32 (2 ^ n))]

end Sys2Proof.Machine
end

