-- ==== Sys2Proof/WellFormed.lean ====
section
/-! DEFINITION. Which terms are commands: operand lists have the length, and link commands the OP, that their row gives.
`exec` answers a next state for every one of these, and a fault for every other term. -/

namespace Sys2Proof

/-- Are these the bytes of a link command of OP `op`, as long as R123 and R153 give? -/
def linkForm (op : Nat) (b : List Byte) : Bool :=
  Machine.byteAt b 0 == op && b.length == Machine.cmdLength b && !b.isEmpty

/-- Well-formedness of a command, constructor by constructor. -/
def Instr.wellFormed : Instr → Bool
  | .powerOnReset _ => true
  | .rstNLow => true
  | .resetRelease _ _ => true
  | .soft _ _ => true
  | .hard _ _ => true
  | .otpSensingDone _ _ => true
  | .pllLock => true
  | .referenceLost => true
  | .relockOtherPort => true
  | .holdoverExpiry => true
  | .vinDisqualify _ => true
  | .vinQualify => true
  | .registerWrite _ => true
  | .imageSourceTry => true
  | .headerArrived b => b.length == 64
  | .directoryArrived b => b.length == 256
  | .imageStreamEnd _ => true
  | .imageChecksDone => true
  | .startLoad _ _ => true
  | .abortLoad _ => true
  | .calLoadAp _ _ _ => true
  | .hostLoadGapTimeout => true
  | .escStep => true
  | .armAbsolute _ _ _ _ => true
  | .armRelative _ _ _ _ => true
  | .cancelCmd _ _ _ => true
  | .escTickRead _ => true
  | .escCntClr _ => true
  | .strikeLaunch => true
  | .strikeIdQuarantineEnd => true
  | .beatZeroStart => true
  | .beatBoundary => true
  | .portTrainStart _ _ => true
  | .trainSend _ => true
  | .trainReceive _ b _ _ _ => b.length == 20
  | .upstreamSelect => true
  | .portRxDown _ _ _ => true
  | .healReceive _ _ => true
  | .branchEndDetect => true
  | .linkRetrain _ _ => true
  | .linkCntClr _ => true
  | .phantomSwitchTrip _ => true
  | .phantomSwitchReclose _ => true
  | .downFrameSend => true
  | .downFrameHeader _ b _ _ => b.length == 14
  | .downFrameAccept _ _ => true
  | .downFrameMissing => true
  | .upFrameStart => true
  | .upFrameForward b _ => b.length == 334
  | .upFrameReceive _ b _ => b.length == 334
  | .workerLost => true
  | .transactionTimeout => true
  | .tagQuarantineEnd => true
  | .arm b => linkForm 0x01 b
  | .cancel b => linkForm 0x02 b
  | .beat b => linkForm 0x03 b
  | .select b => linkForm 0x10 b
  | .retrain b => linkForm 0x11 b
  | .phantom b => linkForm 0x12 b
  | .rest b => linkForm 0x13 b
  | .assign b => linkForm 0x20 b
  | .ptRead b => linkForm 0x21 b
  | .ptWrite b => linkForm 0x22 b
  | .regRead b => linkForm 0x23 b
  | .regWrite b => linkForm 0x24 b
  | .stgOpen b => linkForm 0x28 b
  | .stgData b => linkForm 0x29 b
  | .stgPrepare b => linkForm 0x2A b
  | .commit b => linkForm 0x2B b
  | .abortStage b => linkForm 0x2C b
  | .cmtCheck b => linkForm 0x2D b
  | .dlvStart b => linkForm 0x30 b
  | .dlvData b => linkForm 0x31 b
  | .dlvQuery b => linkForm 0x32 b
  | .raRead _ => true
  | .raWrite _ => true
  | .raWriteAns _ => true
  | .hierStgData _ _ => true
  | .openCmt _ => true
  | .sendCmt _ => true
  | .prepareCmt _ => true
  | .cmtCommit _ => true
  | .cmtAbort _ => true
  | .repairCommit _ _ => true
  | .repairAbort _ _ => true
  | .close _ => true
  | .stageChecksDone => true
  | .commitApply => true
  | .stageStale => true
  | .cmtCheckSend => true
  | .dlvStartOp _ _ => true
  | .startReload _ _ => true
  | .dlvAbort _ => true
  | .dlvQuerySend => true
  | .relayDeviceUpdate => true
  | .mirrorStale _ => true
  | .carrierBoundary _ x => x.iph.length == 24
  | .syncInEdge _ => true
  | .syncInLost _ => true
  | .onTimeEnd _ _ => true
  | .loopFastShort _ _ _ => true
  | .brakeEngage _ _ _ => true
  | .hintEdge _ _ _ => true
  | .overloadBinEnd _ => true
  | .stgfltEdge _ _ => true
  | .stageFaultIdentify _ raw => raw.length == 24
  | .throttleRelease _ => true
  | .loopDischargeTimeout _ => true
  | .channelSample _ _ => true
  | .channelFastShort _ _ => true
  | .reverseBlock _ _ => true
  | .standbyRescue _ _ _ => true
  | .pairBreak _ => true
  | .channelOnWrite _ _ _ => true
  | .pmodeWrite _ _ _ => true
  | .pointChOn _ _ _ => true
  | .pointChPmode _ _ _ => true
  | .pointLoopMargin _ _ _ => true
  | .pointLoopNmin _ _ _ => true
  | .pointPhaseDis _ _ _ => true
  | .pointRailOn _ _ _ => true
  | .pointRailMargin _ _ _ => true
  | .pointKeepByteWrite _ _ _ => true
  | .sequencerEval => true
  | .railDelayEnd _ => true
  | .runAheadStart _ => true
  | .railQualified _ => true
  | .railDeadline _ => true
  | .railPgLost _ => true
  | .railLdDelayEnd _ => true
  | .targetStopTimeout _ => true
  | .pwrgdEdge _ _ _ => true
  | .railCtrlWrite _ _ _ => true
  | .marginStep _ => true
  | .conversionEnd _ _ => true
  | .measMaskWrite _ _ _ => true
  | .urg _ _ _ => true
  | .monitorLevelChange _ _ => true
  | .monitorSettleEnd _ _ => true
  | .monTestGo _ _ _ _ => true
  | .sweepStep => true
  | .thermalUpdate _ => true
  | .shedStep => true
  | .faultRecord => true
  | .ack _ _ => true
  | .clear _ _ => true
  | .ackClass _ _ => true
  | .clearL0 _ => true
  | .sourceLost _ _ => true
  | .handoverComplete _ => true
  | .sourceQualified _ => true
  | .handbackComplete _ => true
  | .sourceReverseBlock _ => true
  | .depletion _ _ => true
  | .supplementStart _ _ => true
  | .supplementStop _ _ => true
  | .packProbeStart _ _ => true
  | .packProbeEnd _ => true
  | .packRemoved _ _ => true
  | .packShorted _ _ => true
  | .chargeSecond _ _ => true
  | .chargerTimerFault _ => true
  | .topoffEnd _ => true
  | .rechargeStart _ _ => true
  | .ship _ _ => true
  | .shipExit _ _ => true
  | .chgGo _ _ => true
  | .pwrpCfgWrite _ _ => true
  | .shipPress _ => true
  | .offCycleStart _ => true
  | .offCycleEnd => true
  | .keepReset => true
  | .switchOver => true
  | .xtalStop => true
  | .calendarSecond => true
  | .trimAdd => true
  | .keepCalWindow _ => true
  | .keepCommitApply => true
  | .setTime _ => true
  | .hourAdd _ => true
  | .hourSub _ => true
  | .memCommit _ => true
  | .alarmSet _ => true
  | .keepCfgWrite _ _ => true
  | .keepStatClear _ _ => true
  | .keepDateRead _ => true
  | .enter _ _ => true
  | .restEntry => true
  | .wakeEvent _ _ => true
  | .fullyActive => true
  | .hostWrite _ op _ _ _ => !(decide (2 ≤ op.toNat / 16) && decide (op.toNat / 16 ≤ 4))
  | .hostRead _ _ _ _ _ => true
  | .writeFix _ _ _ _ _ => true
  | .readFix _ _ _ _ _ => true
  | .sclTimeout _ => true
  | .sdaTimeout _ => true
  | .add _ _ _ _ => true
  | .sub _ _ _ _ => true
  | .andI _ _ _ _ => true
  | .orI _ _ _ _ => true
  | .xorI _ _ _ _ => true
  | .sll _ _ _ _ => true
  | .srl _ _ _ _ => true
  | .sra _ _ _ _ => true
  | .slt _ _ _ _ => true
  | .sltu _ _ _ _ => true
  | .minI _ _ _ _ => true
  | .maxI _ _ _ _ => true
  | .mul _ _ _ _ => true
  | .mulh _ _ _ _ => true
  | .mulhu _ _ _ _ => true
  | .div _ _ _ _ => true
  | .divu _ _ _ _ => true
  | .rem _ _ _ _ => true
  | .remu _ _ _ _ => true
  | .mulq _ _ _ _ => true
  | .addi _ _ _ _ => true
  | .slti _ _ _ _ => true
  | .andi _ _ _ _ => true
  | .ori _ _ _ _ => true
  | .xori _ _ _ _ => true
  | .slli _ _ _ _ => true
  | .srli _ _ _ _ => true
  | .srai _ _ _ _ => true
  | .lui _ _ _ => true
  | .ldw _ _ _ _ => true
  | .stw _ _ _ _ => true
  | .frd _ _ _ _ => true
  | .fwr _ _ _ _ => true
  | .beq _ _ _ _ => true
  | .bne _ _ _ _ => true
  | .blt _ _ _ _ => true
  | .bge _ _ _ _ => true
  | .bltu _ _ _ _ => true
  | .bgeu _ _ _ _ => true
  | .jal _ _ _ => true
  | .jalr _ _ _ _ => true
  | .nop _ => true
  | .halt _ => true
  | .tickl _ _ => true
  | .tickh _ _ => true
  | .cyc _ _ => true
  | .evt _ _ => true
  | .waitt _ _ => true
  | .runStart _ => true
  | .budgetOverrun _ => true
  | .watchdogExpiry _ => true
  | .restart _ _ => true
  | .restartCheckDone _ => true
  | .initRunStart _ => true
  | .go _ _ => true
  | .stop _ _ => true
  | .mboxWrite _ _ _ _ => true
  | .peNotify _ _ => true
  | .writebackVerify _ => true
  | .scrubRead _ => true
  | .memScrubWrite _ _ => true
  | .readRaw _ _ => true
  | .writeRaw _ _ => true
  | .memCntClr _ => true
  | .program _ _ => true
  | .wlock _ _ => true
  | .rlock _ _ => true
  | .ctrInc _ _ => true
  | .otpPulseEnd _ => true
  | .otpWindowRead _ _ => true
  | .extest _ => true
  | .samplePreload _ _ => true
  | .highz => true
  | .clamp => true
  | .devid => true
  | .fabric => true
  | .bypass _ => true
  | .fabricAccess _ _ _ => true
  | .referenceReturn => true
  | .supplyUndervoltage => true
  | .keepResetRelease => true
  | .mainBranchReturn => true
  | .keepCrystalRestart => true
  | .i2Received _ _ => true
  | .stgfltRise _ => true
  | .sourceBlockRelease _ => true
  | .sourceGood _ => true
  | .chargeConditionChange _ => true
  | .prechargeEnd _ => true
  | .periodicTrigger _ _ => true
  | .scrubLapStarved => true

end Sys2Proof
end

