-- ==== Sys2Proof/Safety.lean ====
section
/-! DEFINITION. The terms the statements are made in: how a command completes, when nothing else is under way in the
block, the registers that follow the state by themselves, the canonical form of its stores, and when an engine stands
ready to execute an instruction. -/

namespace Sys2Proof.Machine

/-- The command answers the next state that `u`, the state with its own effect, settles to: at the end of the cycle the
events that are ready reach the fault collector and the status registers follow. -/
def Completes (i : Instr) (s : State) (P : State → Prop) : Prop := ∃ u : State, exec i s = .next u.settle ∧ P u

/-- Nothing else is under way: no access waits, no write is due, no event waits for the collector or an engine, no frame passes
through a port, no burst of the host is being granted. -/
structure State.Quiet (s : State) : Prop where
  fabric : s.fabricOn = true
  waiting : s.waiting = []
  barred : s.barred = []
  due : s.due = []
  events : s.events = []
  trigs : s.trigs = []
  line : s.link.lineDue = []
  burst : s.hostBurst = false

/-- Registers that follow the state by themselves at the end of every cycle: the interrupt summary and its sub-maps (R374),
and KEEP_CAL.VALID (R407). -/
def statusRegs : List Nat :=
  [F.IRQ_SUMMARY.base, F.IRQ_SUB_CHAN.base, F.IRQ_SUB_SEQ.base, F.IRQ_SUB_SEQ.base + 1, F.KEEP_CAL.base]

/-- Registers of the engines that count the events of an interrupt group or a fault (R460, R461): PEND and two counts of
each engine. -/
def eventRegs : List Nat :=
  (List.range 8).flatMap (fun n => [F.PEn_PEND_PEND.addr n, ((F.PEn_STATS_V).off 2).addr n, ((F.PEn_STATS_V).off 4).addr n])

/-- Registers that a command may change beside its own effect. -/
def aside : List Nat := statusRegs ++ eventRegs

/-- `t` is `s` but for what follows by itself: the registers of `aside`, the causes last seen, the triggers of the cycle and the
event data of handler slots, and the keep clock's measuring window. -/
structure State.Aside (s t : State) : Prop where
  regs : ∀ k, k ∉ aside → t.reg k = s.reg k
  rest : t = { s with regs := t.regs, irqSeen := t.irqSeen, trigs := t.trigs, eng := t.eng, keep := t.keep }
  eng : ∀ n, t.pe n = { s.pe n with data := (t.pe n).data }
  keep : t.keep = { s.keep with window := t.keep.window }

/-- `c` is `s` one fabric cycle later, but for what follows by itself and the blocks an urgent party takes in it. -/
def State.NextCycle (s c : State) : Prop :=
  ({ s with now := s.now + 1, tick := if s.ticking then (s.tick + 1) % 2 ^ 64 else s.tick,
            occupied := c.occupied } : State).Aside c

/-- The command, one write by party `p`, leaves `f c` where nothing else is under way: the cycle `c` after its request grants
it, and events that `f` raises are taken with those of the next cycle (R364). Where the fabric stands, or the test port is shut
(R495), nothing happens. -/
def Grants (p : Party) (i : Instr) (s : State) (f : State → State) : Prop :=
  (s.fabricOn = false ∨ s.admits p = false → exec i s = .next s) ∧
  (s.Quiet → s.admits p = true → Completes i s (fun u => ∃ c, s.NextCycle c ∧ u = (f c).eventsLater 0))

/-- The command, one read by party `p`, takes the word and leaves the state that `f` gives, one cycle after its request, events as
for a write. -/
def Reads (p : Party) (i : Instr) (s : State) (f : State → Word × State) : Prop :=
  (s.fabricOn = false ∨ s.admits p = false → exec i s = .next s) ∧
  (s.Quiet → s.admits p = true → ∃ c, s.NextCycle c ∧ exec i s = .next { ((f c).2.eventsLater 0).settle with busWord := (f c).1 })

/-- The command, an operation that time brings at the cycle `due`, leaves `f c`, `c` being the state when time has passed to
it, a batch of strikes due in the same cycle first (R97); nothing where nothing is due. -/
def Comes (i : Instr) (s : State) (due : Option Nat) (f : State → State) : Prop :=
  (due = none → Completes i s (fun u => u = s)) ∧ ∀ t, due = some t → Completes i s (fun u => u = f ((s.boundaryFirst t).passTo t))

/-- The same for an operation due at a tick: nothing while the count stands. -/
def ComesAtTick (i : Instr) (s : State) (due : Option Nat) (f : State → State) : Prop :=
  (due = none ∨ s.ticking = false → Completes i s (fun u => u = s)) ∧
    ∀ t, due = some t → s.ticking = true → Completes i s (fun u => u = f ((s.boundaryFirst (s.now + s.untilTick t)).passToTick t))

/-- The link commands with their OP, those that name their workers by TARGETS first (R123). -/
def strikeCommands (b : List Byte) : List (Nat × Instr) := [(0x01, .arm b), (0x02, .cancel b), (0x03, .beat b)]
def destCommands (b : List Byte) : List (Nat × Instr) :=
  [(0x10, .select b), (0x11, .retrain b), (0x12, .phantom b), (0x13, .rest b), (0x20, .assign b), (0x21, .ptRead b),
    (0x22, .ptWrite b), (0x23, .regRead b), (0x24, .regWrite b), (0x28, .stgOpen b), (0x29, .stgData b),
    (0x2A, .stgPrepare b), (0x2B, .commit b), (0x2C, .abortStage b), (0x2D, .cmtCheck b), (0x30, .dlvStart b),
    (0x31, .dlvData b), (0x32, .dlvQuery b)]

/-- A worker whose fabric runs hears the command `i` of OP `op`, which names it. -/
def Hears (op : Nat) (b : List Byte) (s : State) : Prop :=
  linkForm op b = true ∧ s.isManager = false ∧ s.fabricOn = true ∧
    (if op < 4 then s.targeted b else s.addressed (byteAt b 4)) = true

/-- The commands that write a point's command word: the command, the PKIND of the object it is for, the word's operation and
operand, and the field they name (R203, R273, R310). -/
inductive PointRow : Instr → Party → Fin 2048 → Nat → Word → Fld → Prop where
  | loopMargin (p q v) : PointRow (.pointLoopMargin p q v) p q 3 (BitVec.ofNat 32 (2 ^ 30 + v.toNat)) F.LOOPn_TARGET_MARGIN
  | loopNmin (p q v) : PointRow (.pointLoopNmin p q v) p q 3 (BitVec.ofNat 32 (2 * 2 ^ 30 + v.toNat)) F.LOOPn_SHED_NMIN
  | phaseDis (p q v) : PointRow (.pointPhaseDis p q v) p q 2 (BitVec.ofNat 32 (b2n v)) F.PHn_CTRL_DIS
  | chOn (p q v) : PointRow (.pointChOn p q v) p q 4 (BitVec.ofNat 32 (2 ^ 30 + b2n v)) F.CHn_CTRL_ON
  | chPmode (p q v) : PointRow (.pointChPmode p q v) p q 4 (BitVec.ofNat 32 (2 * 2 ^ 30 + b2n v)) F.CHn_PAIR_PMODE
  | railOn (p q v) : PointRow (.pointRailOn p q v) p q 1 (BitVec.ofNat 32 (2 ^ 30 + b2n v)) F.SEQ_RAILn_CTRL_ON
  | railMargin (p q v) : PointRow (.pointRailMargin p q v) p q 1 (BitVec.ofNat 32 (2 * 2 ^ 30 + v.toNat)) F.SEQ_RAILn_CTRL_MARGIN

/-- The ACCESS bit a party's write of a point needs (R151): the strike unit has its own. -/
def pointBit : Party → Nat
  | .strike => 2
  | _ => 1

/-- The canonical form of every sparse store: keys rise and no entry equals what an unlisted key reads as. -/
def State.canonical (s : State) : Bool :=
  SMap.wf regReset s.regs && SMap.wf sramDefault s.sram && SMap.wf sramDefault s.pointCmd &&
    SMap.wf takenDefault s.strikeTaken && SMap.wf otpDefault s.otp && SMap.wf otpDefault s.otpShadow

/-- Registers that a power-on or hard reset does not leave at their reset value: the keep domain, the domain and clock
status, the power path's state, and the reset status (R379, R424, R434). -/
def resetKeeps : List Nat :=
  keepDomain ++ [F.SYS_DOM_STAT.base, F.SYS_CLK_STAT.base, F.PWRP_STAT.base, F.SYS_RST_STAT.base]

/-- What a power-on or hard reset of cause `cause` leaves of `s` (R422, R424, R508). -/
structure State.ResetTo (cause : Nat) (s u : State) : Prop where
  phase : u.phase = .inReset
  cause : u.get F.SYS_RST_STAT_CAUSE = cause
  regs : ∀ k, k ∉ resetKeeps → u.reg k = regReset k
  sram : u.sram = [] ∧ u.sramRaw = []
  clock : u.tick = 0 ∧ u.ticking = false
  idle : u.waiting = [] ∧ u.due = [] ∧ u.events = [] ∧ u.holds = []
  off : u.pwren = 0 ∧ u.chan = State.reset.chan ∧ u.loop = State.reset.loop ∧ u.rail = State.reset.rail
  kept : u.otp = s.otp ∧ u.otpLocks = s.otpLocks ∧ u.pending = s.pending

/-- The conditions under which the charger keeps charging, once the power path has taken the sample `x` (R391, R393). -/
structure State.ChargeHolds (s : State) (x : PathSample) : Prop where
  fitted : s.pp.fitted = true
  may : (s.ppSample x).chgMay = true
  enabled : s.on F.PWRP_CTRL_CHG_EN = true
  path : s.path = ppSource
  present : s.on F.PWRP_STAT_BAT_MISSING = false
  sound : s.on F.PWRP_STAT_SHORTED = false
  probe : s.pp.probe = none
  cool : s.chgHot x = false
  ok : (s.ppSample x).chgOk = true

/-- Engine `n` runs and the word at its PC is `w`: it stands ready to execute that instruction. -/
structure State.EngineAt (s : State) (n : Fin 8) (w : Word) : Prop where
  running : s.peState n = peRunning
  free : s.peBarred n = false
  inCode : s.pc n < (s.pe n).codeLen / 4
  word : s.sramPeek (sramKey n (s.pc n)) = w
  sound : s.sramRaw = []

/-- Engine `n` stands in `c` where it stood in `s`: what happened as time passed has not touched its run, its registers, the
limit of its watchdog or its place among the port's slots. -/
structure State.SameEngine (n : Fin 8) (s c : State) : Prop where
  pe : c.pe n = { s.pe n with data := (c.pe n).data, stopReq := (c.pe n).stopReq }
  pc : c.pc n = s.pc n
  limit : c.runLimit n = s.runLimit n
  slow : c.peSlow n = s.peSlow n
  slot : c.pllLockAt = s.pllLockAt

/-- The state as time has passed to the end of `k` more cycles of the engine's run. -/
def State.engineThen (s : State) (n : Fin 8) (k : Nat) : State :=
  s.passTo (((s.pe n).runStart + (s.pe n).cycles + k + 1) / 2)

/-- The command is the engine's instruction of word `w`, of `k` cycles of its own and `wait` that it waits: where the engine
stands at it when its cycles have passed, and its watchdog does not expire on the way (HALT ends the run in its very cycle), they
are counted and `f` is its effect; an engine that was stopped on the way executes nothing. Cycles that an overrun on the way has
counted already are not counted again; where the budget of the run is reached before the instruction ends, the run overruns
first and the instruction goes on from there (R462), where it finds again in `same` what it took as it began. -/
def Executes (i : Instr) (n : Fin 8) (w : Word) (k : Nat) (s : State) (f : State → State) (wait : Nat := 0)
    (halts : Bool := false) (same : State → Prop := fun _ => True) : Prop :=
  let t := s.engCycles n k + wait
  let m := t - (s.pe n).ahead
  let c := s.engineThen n m
  s.EngineAt n w → (s.pe n).cycles + m < s.runLimit n + b2n halts →
    (s.budgetAhead n = false ∨ (s.pe n).cycles + m ≤ s.runBudget n →
      (c.EngineAt n w → s.SameEngine n c → Completes i s (fun u => u = f (c.engCount n t halts))) ∧
      (c.peState n ≠ peRunning → Completes i s (fun u => u = c))) ∧
    (s.budgetAhead n = true → s.runBudget n < (s.pe n).cycles + m →
      (s.reachBudget n).EngineAt n w → same (s.reachBudget n) → exec i s = exec i (s.reachBudget n))

/-- A run that has not gone past its budget without the overrun of R462; none ever has. -/
def State.inBudget (s : State) (n : Fin 8) : Prop := s.budgetAhead n = false ∨ (s.pe n).cycles ≤ s.runBudget n

/-- The instruction takes the fault of cause `cause` at the cycle it began in (R458). -/
def EngineFaults (i : Instr) (n : Fin 8) (w : Word) (cause : Nat) (s : State) : Prop :=
  let c := s.engineThen n 0
  s.EngineAt n w → s.inBudget n → c.EngineAt n w → s.SameEngine n c → Completes i s (fun u => u = c.peFault n cause)

/-- What an access of the fabric by the engine takes as it begins: its registers, and how far its run has come. -/
def State.SameBegin (s : State) (n : Fin 8) (c : State) : Prop :=
  (∀ r, c.xreg n r = s.xreg n r) ∧ (c.pe n).cycles + (s.pe n).ahead = (s.pe n).cycles + (c.pe n).ahead

/-- An instruction that writes `v` to `rd` and goes on. -/
def State.wrote (n : Nat) (rd : XReg) (v : Word) (t : State) : State := (t.setXreg n rd v).pcNext n

/-- A code of the opcode table's arithmetic instructions of format R: the command, its OP, its cycles and its result. -/
def rowsR (n : Fin 8) (rd a b : XReg) : List (Instr × Nat × Nat × (Word → Word → Word)) := [
  (.add n rd a b, 0x01, 1, fun x y => x + y), (.sub n rd a b, 0x02, 1, fun x y => x - y),
  (.andI n rd a b, 0x03, 1, fun x y => x &&& y), (.orI n rd a b, 0x04, 1, fun x y => x ||| y),
  (.xorI n rd a b, 0x05, 1, fun x y => x ^^^ y), (.sll n rd a b, 0x06, 1, fun x y => x <<< (y.toNat % 32)),
  (.srl n rd a b, 0x07, 1, fun x y => x >>> (y.toNat % 32)), (.sra n rd a b, 0x08, 1, fun x y => x.sshiftRight (y.toNat % 32)),
  (.slt n rd a b, 0x09, 1, fun x y => if x.toInt < y.toInt then 1 else 0),
  (.sltu n rd a b, 0x0A, 1, fun x y => if x.toNat < y.toNat then 1 else 0),
  (.minI n rd a b, 0x0B, 1, fun x y => BitVec.ofInt 32 (min x.toInt y.toInt)),
  (.maxI n rd a b, 0x0C, 1, fun x y => BitVec.ofInt 32 (max x.toInt y.toInt)),
  (.mul n rd a b, 0x10, 2, fun x y => x * y),
  (.mulh n rd a b, 0x11, 2, fun x y => BitVec.ofInt 32 (x.toInt * y.toInt / 2 ^ 32)),
  (.mulhu n rd a b, 0x12, 2, fun x y => BitVec.ofNat 32 (x.toNat * y.toNat / 2 ^ 32)),
  (.mulq n rd a b, 0x17, 2, fun x y => BitVec.ofInt 32 (x.toInt * y.toInt / 65536))]

/-- The same for the divisions of R457. -/
def rowsDiv (n : Fin 8) (rd a b : XReg) : List (Instr × Nat × (Word → Word → Word)) := [
  (.div n rd a b, 0x13, fun x y => if y = 0 then 0xFFFFFFFF else BitVec.ofInt 32 (x.toInt.tdiv y.toInt)),
  (.divu n rd a b, 0x14, fun x y => if y = 0 then 0xFFFFFFFF else BitVec.ofNat 32 (x.toNat / y.toNat)),
  (.rem n rd a b, 0x15, fun x y => if y = 0 then x else BitVec.ofInt 32 (x.toInt.tmod y.toInt)),
  (.remu n rd a b, 0x16, fun x y => if y = 0 then x else BitVec.ofNat 32 (x.toNat % y.toNat))]

/-- The instructions with an immediate: the command, its word and its result. -/
def rowsI (n : Fin 8) (rd a : XReg) (imm : BitVec 18) (up : BitVec 16) (sh : BitVec 5) :
    List (Instr × Word × (Word → Word)) := [
  (.addi n rd a imm, encI 0x20 rd a imm, fun x => x + imm.signExtend 32),
  (.slti n rd a imm, encI 0x27 rd a imm, fun x => if x.toInt < imm.toInt then 1 else 0),
  (.andi n rd a imm, encI 0x21 rd a imm, fun x => x &&& imm.zeroExtend 32),
  (.ori n rd a imm, encI 0x22 rd a imm, fun x => x ||| imm.zeroExtend 32),
  (.xori n rd a imm, encI 0x23 rd a imm, fun x => x ^^^ imm.zeroExtend 32),
  (.slli n rd a sh, encI 0x24 rd a (sh.zeroExtend 18), fun x => x <<< sh.toNat),
  (.srli n rd a sh, encI 0x25 rd a (sh.zeroExtend 18), fun x => x >>> sh.toNat),
  (.srai n rd a sh, encI 0x26 rd a (sh.zeroExtend 18), fun x => x.sshiftRight sh.toNat),
  (.lui n rd up, encU 0x28 rd up, fun _ => BitVec.ofNat 32 (65536 * up.toNat))]

/-- The branches: the command, its word and its condition. -/
def rowsB (n : Fin 8) (a b : XReg) (off : BitVec 18) : List (Instr × Word × (Word → Word → Bool)) := [
  (.beq n a b off, encI 0x38 a b off, fun x y => decide (x = y)), (.bne n a b off, encI 0x39 a b off, fun x y => decide (x ≠ y)),
  (.blt n a b off, encI 0x3A a b off, fun x y => decide (x.toInt < y.toInt)),
  (.bge n a b off, encI 0x3B a b off, fun x y => decide (y.toInt ≤ x.toInt)),
  (.bltu n a b off, encI 0x3C a b off, fun x y => decide (x.toNat < y.toNat)),
  (.bgeu n a b off, encI 0x3D a b off, fun x y => decide (y.toNat ≤ x.toNat))]

end Sys2Proof.Machine
end

