-- ==== Sys2Proof/Certificates/Slice0/Obligations.lean ====
section
/-! DEFINITION. The statements about the model, for the provers. `Completes i s P` says that the command `i` answers a next
state from `s`, and that `P` holds of the state with its effect. -/

open Sys2Proof Sys2Proof.Machine

/-! ### The block -/

/-- A step takes the command at the front of the queue and runs it on the state with the queue's rest. -/
def Obligations.StepRunsFront : Prop :=
  ∀ (c : Instr) (rest : List Instr) (s : State),
    step { s with pending := c :: rest } = exec c { s with pending := rest }

/-- Every command answers a next state in every state, whatever its operands, where its operand lists have the form of its
row; a term without that form is no command and faults.
No command touches the queue, and a step takes one command of it or none. -/
def Obligations.EveryCommandCompletes : Prop :=
  (∀ (i : Instr) (s : State), (i.wellFormed = true → ∃ t, exec i s = .next t) ∧
    (i.wellFormed = false → exec i s = .fault .illFormed)) ∧
  ((∀ (i : Instr) (s t : State), exec i s = .next t → t.pending = s.pending) ∧
  (∀ s t : State, step s = .next t → t.pending = s.pending.tail))

/-! ### Resets (R2, R422–R426, R434) -/

/-- Right after power-on the block stands in reset, every register at the value its field table gives, memory cleared, no
command waiting.
Every sparse store of the block has its canonical form right after reset (log entry 1). -/
def Obligations.ResetState : Prop :=
  ((∀ k, State.reset.reg k = regReset k) ∧ (∀ k, State.reset.sramPeek k = 0) ∧ State.reset.phase = .inReset ∧
    State.reset.pending = [] ∧ State.reset.tick = 0 ∧ State.reset.holds = [] ∧ State.reset.waiting = []) ∧
  (State.reset.canonical = true)

/-- Power-on, RST_N low, a supply under voltage, a keyed HARD write and the SHIP# off-cycle, 8 s of SHIP# low, reset the device: outputs
off, every register outside the keep domain and the power path at its reset value, the cause recorded. After power-on the device
holds RST_N low for 50 µs more, after a HARD write for 10 µs.
A keyed SOFT write resets the device in the cycle after its grant: OTP sensing begins again, the tick count runs on, every
record has left the table, and the cause is recorded. Of the channels only the charge counted in their words of region 11 stays, of
the loops only the voltage seen last.
Where a rule leaves a choice the model's is meant: log entries 1 and 18. -/
def Obligations.ResetsLeave : Prop :=
  ((∀ (s : State) (v : Supply), Completes (.powerOnReset v) s (fun u =>
    (s.ResetTo causePower u ∨ s.ResetTo causeOff u) ∧ u.get F.SYS_DOM_STAT_VCC5_SRC = supplyCode v ∧
      u.rstHold = s.now + 5000)) ∧
  (∀ s : State, s.phase ≠ .inReset → Completes .rstNLow s (s.ResetTo causePin)) ∧
  (∀ s : State, Completes .supplyUndervoltage s (s.ResetTo causePower)) ∧
  (∀ (s : State) (p : Party), s.Quiet → s.admits p = true → Completes (.hard p 0x5A) s (fun u =>
    s.ResetTo causeHard u ∧ u.rstHold = u.now + 1000)) ∧
  (∀ (s : State) (ms : Nat), ms < 8000 → Completes (.offCycleStart ms) s (fun u => u = s)) ∧
  (∀ (s : State) (ms : Nat), s.pp.fitted = true → s.path ≠ ppOff → 8000 ≤ ms → s.shipCounts ms = true →
    Completes (.offCycleStart ms) s (fun u =>
    s.ResetTo causeOff u ∧ u.pp.src = .off ∧ u.pp.bat = .off ∧ u.pp.offEnd = s.now + 200000000))) ∧
  (∀ (s : State) (p : Party), s.Quiet → s.admits p = true → Completes (.soft p 0x5A) s (fun u =>
    u.phase = .sensing ∧ u.get F.SYS_RST_STAT_CAUSE = causeSoft ∧ u.ticking = s.ticking ∧
      (s.ticking = true → u.tick = ((s.tick + 1) % 2 ^ 64 + 1) % 2 ^ 64) ∧ u.now = s.now + 2 ∧
      u.holds = [] ∧ u.events = [] ∧ u.pwren = 0 ∧
      u.chan = u.chan.map (fun (x : ChanSt) => { charge := x.charge }) ∧
      u.loop = u.loop.map (fun (x : LoopSt) => { vSeen := x.vSeen }) ∧
      u.rail = State.reset.rail ∧ u.otp = s.otp ∧ u.otpLocks = s.otpLocks ∧ u.nodeT = s.nodeT))

/-- At the release of RST_N, with the power path on, ROLE and TEST_EN are sampled and OTP sensing starts, to last 80 µs, not before the
reset has been held its 10 or 50 µs. A worker that its phantom feeds is link-held from here on, modulators 2 and 3 stand (R24).
OTP sensing ends 80 µs after it began. It then makes the device run: the fault collector starts, SENSED is set, and the image sources are tried in
turn. A region that fails its check puts the device in the restrictive defaults, where no image loads (R65).
Where a rule leaves a choice the model's is meant: log entry 18. -/
def Obligations.ReleaseAndSensing : Prop :=
  (∀ (s : State) (worker testEn : Bool), s.phase = .inReset → s.path ≠ ppOff →
    Completes (.resetRelease worker testEn) s (fun u =>
      u.phase = .sensing ∧ u.on F.SYS_DOM_STAT_ROLE = worker ∧ u.on F.SYS_RST_STAT_TEST_EN = testEn ∧
        u.now = max s.now s.rstHold ∧ u.senseEnd = u.now + 8000 ∧ (∀ k, k ∉ [F.SYS_DOM_STAT.base, F.SYS_RST_STAT.base, F.TEST_STAT.base,
          F.LINK_PH_CTRL.base, F.LINK_PH_STAT.base, F.HIER_STAT.base] → (worker = true → blockOf k ≠ 9) → u.reg k = s.reg k) ∧
        (u.on F.SYS_DOM_STAT_LINK_HELD = (worker && decide (s.get F.SYS_DOM_STAT_VCC5_SRC ≠ 0))) ∧
        (u.on F.SYS_DOM_STAT_LINK_HELD = true → (u.md 2).stopped = true ∧ (u.md 3).stopped = true))) ∧
  ((∀ (s : State) (cells : List (Nat × Word)) (locks : BitVec 32), s.phase ≠ .sensing →
    Completes (.otpSensingDone cells locks) s (fun u => u = s)) ∧
  (∀ (s : State) (cells : List (Nat × Word)) (locks : BitVec 32), s.phase = .sensing →
    Comes (.otpSensingDone cells locks) s (some s.senseEnd) (State.otpSensed cells locks)) ∧
  (∀ (s : State) (cells : List (Nat × Word)) (locks : BitVec 32), s.phase = .sensing → let u := s.otpSensed cells locks
      u.phase = .running ∧ u.collector = true ∧ u.on F.OTP_STAT_SENSED = true ∧ u.otpShadow = u.otp ∧
        u.otpLocks = s.otpLocks ||| locks ∧
        (u.on F.SYS_RST_STAT_RDEF = true → u.calState = calRestrict) ∧
        (u.on F.SYS_RST_STAT_RDEF = false → u.load.nextSrc = 1) ∧
        (u.get F.OTP_STAT_CHKFAIL ≠ 0 → u.on F.SYS_RST_STAT_RDEF = true)))

/-- A write of SYS_RST_CTRL takes effect only with 0x5A in its KEY field: with any other key it is ignored, with a Notice of the
writer's class. A reset takes effect in the fabric cycle after the write's grant (R423). -/
def Obligations.ResetKey : Prop :=
  (∀ (s : State) (p : Party) (w : Word), bitsOf w 24 8 ≠ 0x5A →
    s.writeReg p F.SYS_RST_CTRL.base w = s.notice p F.SYS_RST_CTRL.base) ∧
  (∀ (s : State) (p : Party) (key : BitVec 8), s.Quiet → s.admits p = true → key ≠ 0x5A →
    Completes (.soft p key) s (fun u => ∃ c, s.NextCycle c ∧ u = c.notice p F.SYS_RST_CTRL.base) ∧
    Completes (.hard p key) s (fun u => ∃ c, s.NextCycle c ∧ u = c.notice p F.SYS_RST_CTRL.base)) ∧
  (∀ (s : State) (p : Party), s.Quiet → s.admits p = true →
    Completes (.soft p 0x5A) s (fun u => u.phase = .sensing ∧ u.now = s.now + 2 ∧ u.get F.SYS_RST_STAT_CAUSE = causeSoft) ∧
    Completes (.hard p 0x5A) s (fun u => u.phase = .inReset ∧ u.now = s.now + 2 ∧ u.get F.SYS_RST_STAT_CAUSE = causeHard))

/-! ### Clocks, supplies, start-up (R20–R25, R425–R434) -/

/-- The PLL's lock sets PLL_LOCK; a manager's reference is its crystal, unless holdover has expired since the last reset, and
outside a wake its count starts to run and reads synchronised as manager.
Holdover (R21, R76): a lost reference enters it for 10 ms, in which SYNC reads holdover; a worker that re-locks to its other
port, or a reference that returns, within them ends it, and SYNC reads as before; where 10 ms expire the start-up oscillator
serves.
VIN below 5.8 V is disqualified, and a worker's supply is then the phantom of a port: a worker that starts up is
link-held, one that runs enters link-held operation. VIN back at 6.0 V for 10 ms, on a worker counted from its last fall, is
the supply again and ends link-held operation (R23–R25).
Where a rule leaves a choice the model's is meant: log entries 4, 46 and 53. -/
def Obligations.ClocksAndSupplies : Prop :=
  (∀ s : State, s.phase = .sensing ∨ s.phase = .running → s.on F.SYS_CLK_STAT_PLL_LOCK = false →
    Completes .pllLock s (fun u =>
      u.on F.SYS_CLK_STAT_PLL_LOCK = true ∧ u.ticking = true ∧ u.tick = s.tick ∧ u.pllLockAt = s.now ∧
        (s.refFallback = true → u.get F.SYS_CLK_STAT_REF_SRC = 3) ∧
        (s.isManager = true → u.syncUnder = syncManager ∧
          (s.refFallback = false → u.get F.SYS_CLK_STAT_REF_SRC = 0)))) ∧
  ((∀ s : State, s.on F.SYS_CLK_STAT_PLL_LOCK = true → s.on F.SYS_CLK_STAT_HOLDOVER = false →
    s.get F.SYS_CLK_STAT_REF_SRC ≠ 3 → Completes .referenceLost s (fun u =>
      u.on F.SYS_CLK_STAT_HOLDOVER = true ∧ u.holdEnd = some (s.now + 1000000) ∧ u.get F.ESC_STAT_SYNC = syncHoldover ∧
        u.syncBefore = s.sync ∧
        (if s.isManager then u.on F.SYS_CLK_STAT_XTAL_LOST = true else u.on F.SYS_CLK_STAT_LREF_LOST = true))) ∧
  (∀ s : State, s.isManager = false → s.inHoldover = true → s.get F.SYS_CLK_STAT_REF_SRC = 1 ∨
    s.get F.SYS_CLK_STAT_REF_SRC = 2 → Completes .relockOtherPort s (fun u =>
      u.on F.SYS_CLK_STAT_HOLDOVER = false ∧ u.holdEnd = none ∧
        u.get F.SYS_CLK_STAT_REF_SRC = 3 - s.get F.SYS_CLK_STAT_REF_SRC ∧ u.get F.ESC_STAT_SYNC = s.syncBefore % 8)) ∧
  (∀ s : State, s.inHoldover = false → Completes .referenceReturn s (fun u => u = s) ∧
    Completes .relockOtherPort s (fun u => u = s)) ∧
  (∀ s : State, s.inHoldover = true → Completes .referenceReturn s (fun u => u.get F.ESC_STAT_SYNC = s.syncBefore % 8 ∧
      u.on F.SYS_CLK_STAT_HOLDOVER = false ∧ u.holdEnd = none ∧
        u.get F.SYS_CLK_STAT_REF_SRC = s.get F.SYS_CLK_STAT_REF_SRC)) ∧
  (∀ (s : State) (t : Nat), s.on F.SYS_CLK_STAT_HOLDOVER = true → s.holdEnd = some t → t ≤ s.now →
    Completes .holdoverExpiry s (fun u =>
      u.on F.SYS_CLK_STAT_HOLDOVER = false ∧ u.holdEnd = none ∧ u.get F.SYS_CLK_STAT_REF_SRC = 3 ∧ u.refFallback = true))) ∧
  ((∀ (s : State) (port : Fin 2), s.isManager = true → Completes (.vinDisqualify port) s (fun u =>
    u.on F.SYS_DOM_STAT_VIN_OK = false)) ∧
  (∀ (s : State) (port : Fin 2), s.isManager = false → s.on F.SYS_DOM_STAT_LINK_HELD = true ∨ s.phase = .sensing →
    Completes (.vinDisqualify port) s (fun u => u.on F.SYS_DOM_STAT_VIN_OK = false ∧
      u.get F.SYS_DOM_STAT_VCC5_SRC = 1 + port.val ∧ u.on F.SYS_DOM_STAT_LINK_HELD = true)) ∧
  (∀ (s : State) (port : Fin 2), s.isManager = false → s.on F.SYS_DOM_STAT_LINK_HELD = false → s.phase = .running →
    Completes (.vinDisqualify port) s (fun u => u =
      ({ ((s.put F.SYS_DOM_STAT_VIN_OK 0).showPhantom).put F.SYS_DOM_STAT_VCC5_SRC (1 + port.val) with vinFall := some s.now }
        : State).linkHeldEnter)) ∧
  (∀ s : State, let c := s.passTo (if s.isManager = true then s.now else (s.vinFall.map (fun t => t + 1000000)).getD s.now)
    (c.on F.SYS_DOM_STAT_LINK_HELD = false ∨ c.phase ≠ .running → Completes .vinQualify s (fun u =>
      u.on F.SYS_DOM_STAT_VIN_OK = true ∧ u.get F.SYS_DOM_STAT_VCC5_SRC = 0 ∧ u.on F.SYS_DOM_STAT_LINK_HELD = false)) ∧
    (c.on F.SYS_DOM_STAT_LINK_HELD = true → c.phase = .running → Completes .vinQualify s (fun u => u =
      (((c.put F.SYS_DOM_STAT_VIN_OK 1).put F.SYS_DOM_STAT_VCC5_SRC 0).showPhantom).linkHeldLeave))))

/-- Rest (R428–R431): ENTER schedules the first multiple of 4,000 at least 20,000 ticks after the grant on a manager and on
a worker that has no down frames, also one that has missed five in a row (R433); a worker that has them, or a device already scheduled, is refused. In rest an enabled
source wakes the device (the window monitors only where SYS_REST_MON names a used cell); with the PLL locked it is then fully
active, and a pending access of the test port is made.
Where a rule leaves a choice the model's is meant: log entries 19 and 55. -/
def Obligations.RestAndWake : Prop :=
  (∀ (s : State) (p : Party) (wake : BitVec 6), s.Quiet → s.admits p = true → s.isManager = true →
    s.rest.entry = none →
    Completes (.enter p wake) s (fun u => ∃ c, s.NextCycle c ∧ u.rest.entry = some (ceilTo 4000 (c.tick + 20000)) ∧
      u.get F.SYS_REST_STAT_STATE = 1)) ∧
  (∀ (s : State) (p : Party) (wake : BitVec 6) (e : Nat), s.Quiet → s.admits p = true → s.rest.entry = some e →
    Completes (.enter p wake) s (fun u => u.rest.entry = some e ∧ u.on F.SYS_REST_STAT_REFUSED = true)) ∧
  (∀ (s : State) (p : Party) (wake : BitVec 6), s.Quiet → s.admits p = true → s.isManager = false →
    s.sync = syncSynced → s.outOfContact = false →
    Completes (.enter p wake) s (fun u => u.rest.entry = s.rest.entry ∧ u.on F.SYS_REST_STAT_REFUSED = true)) ∧
  (∀ (s : State) (p : Party) (wake : BitVec 6), s.Quiet → s.admits p = true → s.isManager = false →
    s.sync = syncUnsynced ∨ s.sync = syncCoarse ∨ s.outOfContact = true → s.rest.entry = none → Completes (.enter p wake) s (fun u =>
      ∃ c, s.NextCycle c ∧ u.rest.entry = some (ceilTo 4000 (c.tick + 20000)) ∧ u.get F.SYS_REST_STAT_STATE = 1)) ∧
  (∀ (s : State) (src : BitVec 6) (periods : Nat), s.phase = .resting →
    (src.toNat ||| s.wakePend) &&& s.wakeEnabled ≠ 0 → Completes (.wakeEvent src periods) s (fun u =>
      u.phase = .waking ∧ u.get F.SYS_REST_STAT_STATE = 2 ∧
        u.get F.SYS_REST_STAT_WAKE_SRC = (src.toNat ||| s.wakePend) &&& s.wakeEnabled)) ∧
  (∀ s : State, s.wakeEnabled &&& 0x3B = s.get F.SYS_REST_CTRL &&& 0x3B) ∧
  (∀ (s : State) (e : Nat), s.phase = .running → s.ticking = true → s.rest.entry = some e →
    (s.batchCycle e).phase = .running → (s.batchCycle e).rest.entry = some e → Completes .restEntry s (fun u =>
      (u.phase = .resting ∨ u.phase = .waking) ∧ u.ticking = false ∧ u.rest.entry = none ∧
        u.on F.SYS_CLK_STAT_PLL_LOCK = false ∧ u.on F.SYS_CLK_STAT_HOLDOVER = false)) ∧
  (∀ s : State, Completes .fullyActive s (fun u => u = s.fullyActive.tapPending)) ∧
  (∀ s : State, s.phase = .waking → s.on F.SYS_CLK_STAT_PLL_LOCK = true →
    s.fullyActive.phase = .running ∧ s.fullyActive.get F.SYS_REST_STAT_STATE = 0) ∧
  (∀ s : State, s.phase ≠ .waking ∨ s.on F.SYS_CLK_STAT_PLL_LOCK = false → s.fullyActive = s)

/-! ### Time -/

/-- Time that is past brings nothing. Where nothing else is under way, time that passes to cycle `t` leaves everything but
the clocks and what follows by itself; the tick count runs with the fabric clock (R19, R72). A step with no command waiting
is one fabric cycle (log entry 3). -/
def Obligations.TimePasses : Prop :=
  (∀ (s : State) (t : Nat), t ≤ s.now → s.passTo t = s) ∧
  (∀ (s : State) (t : Nat), s.Quiet → s.now < t →
    ({ s with now := t, tick := if s.ticking then (s.tick + (t - s.now)) % 2 ^ 64 else s.tick, occupied := [] } : State).Aside
      (s.passTo t)) ∧
  (∀ s : State, s.Quiet → s.pending = [] → ∃ c, s.NextCycle c ∧ step s = .next c)

/-! ### The Caliber load (R58–R67) -/

/-- An image source is tried where the device waits for one and none is being read: it issues 0x0B, Fast Read, at the byte
address of the flash slot, and its load begins with no byte received (R60, R61). The checks end with the image accepted, or
with the failure the first fault found gives (R58).
The bytes of an image in flash arrive at the rate of the flash command: 40 SCK cycles of command, address and dummy clocks,
then 8 a byte, 2 in quad mode, of 50 MHz with the PLL locked and of 12.5 MHz before (R61). They are checked as they arrive: the
64 header bytes, after which QUAD_READ makes the rest be read by 0x6B, Quad Output Fast Read; then the directory, then the
stream with its CRC-32 and tag; each check that fails is the failure of the load (R58, R64).
A load that fails sets FAIL_CODE and FAIL_SRC, returns every destination of the image's sections to its reset value, and the
device waits for its next source: slot B after slot A (R58, R60, R64). It makes a CFG record at L1, at L0 for an empty slot.
Where a rule leaves a choice the model's is meant: log entries 11, 20, 47 and 52. -/
def Obligations.FlashLoads : Prop :=
  ((∀ s : State, s.phase = .running → s.calState = calWaiting → s.load.src = 0 → s.load.nextSrc ≠ 0 →
    Completes .imageSourceTry s (fun u => u = { s.put F.CAL_STAT_STATE calLoading with
      load := { src := s.load.nextSrc, bytes := [], stage := 0, lastAt := s.now, nextSrc := 0, command := 0x0B
                address := if s.load.nextSrc = 1 then 0x000000 else 0x080000, began := s.now } })) ∧
  (∀ s : State, s.phase ≠ .running ∨ s.calState ≠ calWaiting ∨ s.load.src ≠ 0 ∨ s.load.nextSrc = 0 →
    Completes .imageSourceTry s (fun u => u = s)) ∧
  (∀ s : State, s.load.src = 0 ∨ s.load.stage ≠ 3 → Completes .imageChecksDone s (fun u => u = s)) ∧
  (∀ s : State, s.load.src ≠ 0 → s.load.src ≠ srcDelivery → s.load.stage = 3 → Completes .imageChecksDone s (fun u =>
    (s.imageCode.1 = 0 → u = s.imageCode.2) ∧ (s.imageCode.1 ≠ 0 → u = s.loadFail s.imageCode.1))) ∧
  (∀ s : State, s.load.src = srcDelivery → s.load.stage = 3 → Completes .imageChecksDone s (fun u =>
    u.deliv.takes = false ∧ u.deliv.outcome = (if u.calState = calLoaded then ansReady else ansRefuse)))) ∧
  ((∀ (s : State) (b : List Byte) (i : Instr) (k : Nat), (i, k) ∈ [(.headerArrived b, 0), (.directoryArrived b, 1),
      (.imageStreamEnd b, 2)] → i.wellFormed = true →
    (s.flashAt k = false → Completes i s (fun u => u = s)) ∧
    (s.flashAt k = true → let c := s.passTo (s.flashDue (s.flashRead b.length))
      Completes i s (fun u => u = if c.flashAt k then c.flashFeed b else c))) ∧
  (∀ (s : State) (n : Nat), let k := 40 + n * (if s.load.command = 0x6B then 2 else 8)
    (s.on F.SYS_CLK_STAT_PLL_LOCK = false → s.flashDue n = s.load.began + 8 * k) ∧
    (s.on F.SYS_CLK_STAT_PLL_LOCK = true → s.pllLockAt ≤ s.load.began → s.flashDue n = s.load.began + 2 * k)) ∧
  (∀ (s : State) (b : List Byte), b.length = 64 → s.flashAt 0 = true → s.load.bytes = [] →
    let c := headerCode s.isManager s.heldNumber (s.get F.SYS_ID_STEP) b
    (c ≠ 0 → s.flashFeed b = ({ s with load := { s.load with bytes := b } } : State).loadFail c) ∧
    (c = 0 → (byteAt b 9).testBit 1 = false → s.flashFeed b = { s with load := { s.load with bytes := b, stage := 1 } }) ∧
    (c = 0 → (byteAt b 9).testBit 1 = true → s.flashFeed b = { s with load := { s.load with
      bytes := b, stage := 1, command := 0x6B, address := (if s.load.src = 1 then 0x000000 else 0x080000) + 64
      began := s.now } })) ∧
  (∀ (s : State) (b : List Byte), b.length = 256 → s.flashAt 1 = true → s.load.bytes.length = 64 →
    320 < leAt (s.load.bytes ++ b) 0xC 4 →
    let img := s.load.bytes ++ b
    (directoryOk img = false → s.flashFeed b = ({ s with load := { s.load with bytes := img } } : State).loadFail 0x08) ∧
    (directoryOk img = true → s.flashFeed b = { s with load := { s.load with bytes := img, stage := 2 } })) ∧
  (∀ (s : State) (b : List Byte), s.flashAt 2 = true → 64 ≤ s.load.bytes.length →
    leAt (s.load.bytes ++ b) 0xC 4 ≤ (s.load.bytes ++ b).length → 16 ≤ leAt (s.load.bytes ++ b) 0xC 4 →
    let img := (s.load.bytes ++ b).take (leAt (s.load.bytes ++ b) 0xC 4)
    let t : State := { s with load := { s.load with bytes := img } }
    let progs := (progRecords (dirEntry img 9).count (sectionBody img 9)).isSome
    (progs = false → (dirEntry img 9).offset + (dirEntry img 9).length ≤ img.length → s.flashFeed b = t.loadFail 0x08) ∧
    (progs = true → s.streamCode img ≠ 0 → s.flashFeed b = t.loadFail (s.streamCode img)) ∧
    (progs = true → s.streamCode img = 0 → s.flashFeed b = { s with load := { s.load with bytes := img, stage := 3 } }))) ∧
  (∀ (s : State) (code : Nat), code < 32 → s.load.src < 8 →
    let u := s.loadFail code
    u.get F.CAL_STAT_FAIL_CODE = code ∧ u.get F.CAL_STAT_FAIL_SRC = s.load.src ∧ u.calState = calWaiting ∧
      u.load = { nextSrc := if s.load.src = 1 then 2 else 0 } ∧
      u.sections = [] ∧ u.hdr = [] ∧ u.cellMap = List.replicate 176 0 ∧ u.curveFlags = List.replicate 24 0 ∧
      (∀ (n : Fin 8) (w : Fin 4096), u.sramPeek (sramKey n w) = 0) ∧ (∀ w : Fin 8192, u.sramPeek (sramKey 9 w) = 0) ∧
      (∀ n : Fin 256, (u.slot n).armed = false) ∧
      (∀ k, blockOf k ∈ [3, 4, 16, 18] → u.reg k = s.reg k) ∧
      (s.collector = true → ∃ l, u.events = l ++ [⟨sourceOf 13 (if code = 1 ∧ s.load.src ≤ 2 then 2 else 1) s.load.src,
        u.reg F.CAL_STAT.base, none, s.tick, true⟩]))

/-- The host's load (R60, R62, R67): START begins a load where no image is loaded, every flash slot has been tried and none runs,
begins a streaming host load again, and with an image loaded is a reload, refused with code 0x10 unless every rail is un-wound
and every channel off; it is ignored with a Notice in restrictive defaults, before the flash slots have been tried and while a
closed load is checked, and with a HOST/L0 record on a worker. An
aperture word carries four bytes. ABORT, or a gap of 100 ms, ends a streaming load with code 0x0E.
Where a rule leaves a choice the model's is meant: log entry 20. -/
def Obligations.HostLoad : Prop :=
  (∀ (s : State) (p : Party), s.isManager = true → s.calState ≠ calRestrict → s.calState ≠ calLoaded →
    s.load.src ≠ 1 → s.load.src ≠ 2 → s.load.nextSrc = 0 → s.load.stage ≠ 3 →
    Grants p (.startLoad p false) s (fun c => (c.put F.CAL_LOAD_CNT_BYTES 0).loadBegin 3)) ∧
  (∀ (s : State) (p : Party), s.isManager = true → s.calState = calLoaded → s.load.src = 0 → s.load.nextSrc = 0 →
    s.load.stage ≠ 3 → s.reloadOk = true →
    Grants p (.startLoad p false) s (fun c => ((c.clearConfig.put F.CAL_LOAD_CNT_BYTES 0).loadBegin 3).stageDiscard)) ∧
  (∀ (s : State) (p : Party), s.isManager = true → s.calState = calLoaded → s.load.src = 0 → s.load.nextSrc = 0 →
    s.load.stage ≠ 3 → s.reloadOk = false → Grants p (.startLoad p false) s (fun c => c.failCode 0x10 3)) ∧
  (∀ (s : State) (p : Party), s.isManager = false → Grants p (.startLoad p false) s (fun c =>
    c.raise 15 0 p.code (BitVec.ofNat 32 (F.CAL_LOAD_CTRL.base * 65536 + p.code)))) ∧
  (∀ (s : State) (p : Party), s.isManager = true → s.calState = calRestrict ∨ s.load.src = 1 ∨ s.load.src = 2 ∨
    s.load.nextSrc ≠ 0 ∨ s.load.stage = 3 → Grants p (.startLoad p false) s (fun c => c.notice p F.CAL_LOAD_CTRL.base)) ∧
  (∀ (s : State) (p : Party), Grants p (.startLoad p true) s (fun c => c.notice p F.CAL_LOAD_CTRL.base)) ∧
  (∀ (s : State) (p : Party), Grants p (.abortLoad p) s (fun c => if s.hostStreams then c.loadFail 0x0E else c)) ∧
  (∀ (s : State) (p : Party) (k : Fin 16) (w : Word), s.hostStreams = true → Grants p (.calLoadAp p k w) s (fun c =>
    ({ c.bump F.CAL_LOAD_CNT_BYTES 0 4 with load := { c.load with lastAt := c.now } }).loadFeed (leBytes w.toNat 4))) ∧
  (∀ (s : State) (p : Party) (k : Fin 16) (w : Word), s.hostStreams = false →
    Grants p (.calLoadAp p k w) s (fun c =>
      c.raise 15 0 p.code (BitVec.ofNat 32 ((F.CAL_LOAD_AP.base + k.val) * 65536 + p.code)))) ∧
  (∀ s : State, Comes .hostLoadGapTimeout s s.streamGap State.gapEnds) ∧
  (∀ s : State, s.deliv.takes = false → s.streamGap = (if s.hostStreams then some (s.load.lastAt + 10000000) else none) ∧
    s.gapEnds = if s.hostStreams then s.loadFail 0x0E else s)

/-! ### The register fabric (R29–R33) -/

/-- Writes that reach the fabric in one cycle (R29): with a rank 1 to 3 write in the block the others wait; among ranks 4 to 14
the lowest rank is granted and the other waits for the next cycle; a reaction, test or strike write is never delayed. A write
that nothing disputes is granted at once. The test port writes nothing with TEST_EN sampled low (R495).
Where a rule leaves a choice the model's is meant: log entries 7 and 13. -/
def Obligations.WritesAreArbitrated : Prop :=
  (∀ (s : State) (p : Party) (a : BitVec 16) (w : Word), s.Quiet → p.urgent = false →
    ∃ c, s.NextCycle c ∧ exec (.registerWrite [(p, a, w)]) s = .next (c.writeReg p a.toNat w).settle) ∧
  (∀ (s : State) (p : Party) (a : BitVec 16) (w : Word), s.Quiet → p.urgent = true → s.admits p = true →
    ∃ c l, s.NextCycle c ∧ exec (.registerWrite [(p, a, w)]) s =
      .next (State.endCycle l (c.writeReg p a.toNat w).reactions).2) ∧
  (∀ (s : State) (p q : Party) (a b : BitVec 16) (v w : Word), s.Quiet → s.admits p = true → p = .strike ∨ p = .test →
    q.urgent = false → a.toNat ≠ F.SYS_RST_CTRL.base → s.grantBlock a.toNat = s.grantBlock b.toNat → ∃ u, exec (.registerWrite [(q, b, w), (p, a, v)]) s = .next u ∧
      { party := q, addr := b.toNat, word := some w } ∈ u.waiting) ∧
  (∀ (s : State) (p q : Party) (a b : BitVec 16) (v w : Word), s.Quiet → p.urgent = false → q.urgent = false →
    p.code < q.code → s.grantBlock a.toNat = s.grantBlock b.toNat →
    ∃ c, s.NextCycle c ∧ exec (.registerWrite [(q, b, w), (p, a, v)]) s =
      .next (({ c with waiting := [{ party := q, addr := b.toNat, word := some w }], barred := [(c.grantBlock a.toNat, p.code, [q.code])] } :
        State).writeReg p a.toNat v).settle) ∧
  (∀ s : State, s.fabricOn = false → ∀ l, exec (.registerWrite l) s = .next s) ∧
  (∀ (s : State) (a : BitVec 16) (w : Word) (l : List (Party × BitVec 16 × Word)), s.tapOn = false →
    exec (.registerWrite ((.test, a, w) :: l)) s = exec (.registerWrite l) s)

/-! ### The escapement: count, strikes, beats (R72–R102) -/

/-- A read of ESC_TICK_LO gives the low 32 bits of the count and latches the high bits in the reader's own ESC_TICK_HI; CLR
clears every field of ESC_CNT (R102). A worker whose error was above 2 ticks in three swings sets its count to the expected
value in the next cycle, sets STEPPED and its direction, counts the step and raises LINK/L1; what the step passes takes effect
as one batch (R74, R75).
Where a rule leaves a choice the model's is meant: log entries 46 and 53. -/
def Obligations.TheCount : Prop :=
  (∀ (s : State) (p : Party), Reads p (.escTickRead p) s (fun c => (BitVec.ofNat 32 c.tick,
    c.setReg (F.ESC_TICK_HI.base + 65536 * p.code) (BitVec.ofNat 32 (c.tick / 2 ^ 32))))) ∧
  (∀ (s : State) (p : Party), Grants p (.escCntClr p) s (fun c => c.setReg F.ESC_CNT.base 0)) ∧
  (∀ s : State, s.stepDue = none → Completes .escStep s (fun u => u = s)) ∧
  (∀ s : State, s.stepDue ≠ none → Completes .escStep s (fun u =>
    u = (s.cycleWith (fun c => (c.stepCount.periodicPassed c.tick).batch)).2)) ∧
  (∀ (s : State) (e : Int), s.stepDue = some e → let d := s.stepCount
    d.tick = ((s.tick : Int) - e / 32).toNat ∧ d.stepDue = none ∧ d.errRun = 0 ∧
      d.on F.ESC_STAT_STEPPED = true ∧ d.on F.ESC_STAT_STEP_DIR = decide (0 < e) ∧
      d.get F.ESC_CNT_STEP = min (s.get F.ESC_CNT_STEP + 1) 255 ∧ d.sram = s.sram ∧ d.slots = s.slots ∧
      (∀ k, k ∉ [F.ESC_STAT.base, F.ESC_CNT.base] → d.reg k = s.reg k) ∧
      d.events = (if s.collector then s.events ++ [⟨sourceOf 11 11 0, d.reg F.ESC_STAT.base, none, d.tick, true⟩]
        else s.events))

/-- Arming by ESC_ARM_CMD (R84, R86–R89). The launch tick is the tick within 2³¹ of the grant whose low bits ESC_ARM_TICK
gives, or the grant tick plus the lead. The first cause of refusal in the order INVALID, SCOPE, NOSYNC, BUSY, LATE is the
result, and the slot stays as it was; a lead of 200 ticks, 12,000 for a manager's hierarchy arming, is accepted. An accepted
local arming arms the slot; an accepted hierarchy arming takes a strike ID, arms the manager's slot and queues one ARM
command to its targets. The unit reads the slot's entry, which finds what the error code finds in its words (R477); it changes
nothing where no word holds an error.
Cancelling by ESC_ARM_CMD (R90) under the same order of refusals, NOT_ARMED in the place of BUSY: the slot is disarmed and
its strike ID closes; for a hierarchy slot a CANCEL command is queued.
Where a rule leaves a choice the model's is meant: log entry 13. -/
def Obligations.SlotsArmAndCancel : Prop :=
  ((∀ (s : State) (slot : Fin 256), s.sramRaw = [] → s.readEntry slot = s) ∧
  ∀ (s : State) (p : Party) (rel hier useMask : Bool) (slot : Fin 256),
    Grants p (if rel then .armRelative p hier useMask slot else .armAbsolute p hier useMask slot) s (fun g =>
      let c := g.readEntry slot
      let v := c.get (F.ESC_ARM_TICK_VALUE.bk p.code)
      let t : Int := if rel then c.tick + v else c.tick + toS 32 (v + 2 ^ 32 - c.tick % 2 ^ 32)
      let e := c.entryBytes slot
      let refuse (r : Nat) : State := c.putArmRes p 0 r slot
      if (!entryValid e || !c.entryOk e) = true then refuse 3
      else if ((entryScope e == 1) != hier || (hier && !c.isManager)) = true then refuse 5
      else if c.sync ≠ syncSynced ∧ c.sync ≠ syncManager then refuse 4
      else if (c.slot slot).armed = true then refuse 2
      else if t - c.tick < (if hier then 12000 else 200) then refuse 1
      else if hier = false then
        ({ c with slots := tset c.slots slot { c.slot slot with
            armed := true, launch := t.toNat, id := 0, targets := 0, ownRun := true } }).putArmRes p 0 0 slot
      else
        let mask := c.get (F.ESC_ARM_MASK_LO.bk p.code) + 2 ^ 32 * c.get (F.ESC_ARM_MASK_HI.bk p.code)
        let targets := if useMask then mask / 2 * 2 else rangeMask (entryFirst e) (entryLast e)
        let id := c.takeId.1
        (((c.takeId.2).setSlot slot { c.slot slot with
            armed := true, launch := t.toNat, id := id, targets := targets, ownRun := entryTflags e % 2 == 1 }).queueCmd 2
          (strikeBody 1 slot id t.toNat targets)).putArmRes p id 0 slot)) ∧
  (∀ (s : State) (p : Party) (hier : Bool) (slot : Fin 256),
    Grants p (.cancelCmd p hier slot) s (fun g =>
      let c := g.readEntry slot
      let k := c.slot slot
      let e := c.entryBytes slot
      let refuse (r : Nat) : State := c.putArmRes p 0 r slot
      if (!entryValid e || !c.entryOk e) = true then refuse 3
      else if ((entryScope e == 1) != hier || (hier && !c.isManager)) = true then refuse 5
      else if c.sync ≠ syncSynced ∧ c.sync ≠ syncManager then refuse 4
      else if k.armed = false then refuse 6
      else if (k.launch : Int) - c.tick < (if hier then 12000 else 200) then refuse 1
      else if k.id = 0 then (c.closeSlot slot).putArmRes p 0 0 slot
      else (({ c.queueCmd 2 (strikeBody 2 slot k.id k.launch k.targets) with
        cancelSent := c.cancelSent ++ [k.id] }).closeSlot slot).putArmRes p 0 0 slot))

/-- At the launch tick of an armed slot its actions take effect in order, each in the bits it names, and the slot closes; slots
launch in ascending launch tick and number, after the beat latch and a commit due in the same tick, in the cycle of that tick
and before its reactions and the grants of ranks 4 to 14 (R29, R32, R81, R92). A slot whose
entry holds an uncorrectable word, or a manager's hierarchy slot without TFLAGS bit 0, closes without an action (R89).
A closed strike ID is quarantined from the tick of its close and may be taken again 16,000 ticks later; ID 0 is never
quarantined (R91). A slot that closes is disarmed and keeps the ID of its last arming. The ID taken is neither open nor
quarantined, nor is the ID of its number's last taking.
Where a rule leaves a choice the model's is meant: log entries 4 and 21. -/
def Obligations.StrikesLaunch : Prop :=
  ((∀ s : State, s.launchDue = none ∨ s.ticking = false → Completes .strikeLaunch s (fun u => u = s)) ∧
  (∀ (s : State) (t : Nat), s.launchDue = some t → s.ticking = true → Completes .strikeLaunch s (fun u =>
    u = if s.tick < t then ((s.passToTick (t - 1)).cycleWith State.batch).2 else s.batch.settle)) ∧
  (∀ s : State, (∀ t, s.beatDue = some t → s.tick < t) → (∀ t, s.stage.armedAt = some t → s.tick < t) →
    s.batch = s.launching.foldl (fun s n => s.trigger 3 n n) (s.launching.foldl (fun s n => s.launchSlot n) s)) ∧
  (∀ (s : State) (n : Fin 256), s.sramRaw = [] → s.launchSlot n =
    (if (s.slot n).ownRun then (entryActions (s.entryBytes n)).foldl (fun s x => s.strikeAction x) s else s).closeSlot n) ∧
  (∀ (s : State) (n : Fin 256), (s.entryRead n).2.1 = true → s.launchSlot n = ((s.entryRead n).2.2).closeSlot n) ∧
  (∀ (s : State) (x : Action), s.strikeAction x = ({ s with occupied := s.occupied ++ [s.grantBlock x.addr] } : State).writeBits
    .strike x.addr (BitVec.ofNat 32 (x.value * 2 ^ x.lsb)) (BitVec.ofNat 32 ((2 ^ x.width - 1) * 2 ^ x.lsb)))) ∧
  ((∀ s : State, ComesAtTick .strikeIdQuarantineEnd s s.quarantineDue (fun c =>
    { c with quarantine := c.quarantine.filter (fun e => decide (c.tick < e.2 + 16000)) })) ∧
  (∀ (s : State) (n : Fin 256), (s.slot n).id ≠ 0 →
    let u := s.closeSlot n
    u.quarantine = s.quarantine ++ [((s.slot n).id, s.tick)] ∧ (u.slot n).armed = false ∧
      (u.slot n).lastId = (s.slot n).id ∧ (u.slot n).lastClose = some s.tick ∧ u.idQuarantined (s.slot n).id = true ∧
      (∀ m : Nat, m ≠ n.val → u.slot m = s.slot m) ∧ u.regs = s.regs ∧ u.sram = s.sram) ∧
  (∀ s : State, s.takeId.1 = 0 ∨ (s.idOpen s.takeId.1 = false ∧ s.idQuarantined s.takeId.1 = false ∧
    s.idBusy (s.lastIdOf (s.takeId.1 % 16384)) = false)))

/-- Beats (R96, R97, R100). At its boundary a beat starts: its number, its start tick and RUN; no bank is latched at beat 0.
Elsewhere the bank of the beat that ends is latched first, every group of STATS_MASK copied and then restarted, every other
word 0; the bank's length is that of the beat that ends, and the boundaries missed before are counted there (R101). The manager
fixes the next boundary BEAT_SWINGS swings later.
The latch reads the live words, copies every statistic of the groups in STATS_MASK as it then stands, whatever the restart of
another group does, and leaves every other word of the bank 0 (R97, R478, R507). The keep clock's error is taken at every
boundary, also at beat 0 and after wake, where no bank is latched (R96, R407).
Where a rule leaves a choice the model's is meant: log entries 5, 22 and 53. -/
def Obligations.BeatsRun : Prop :=
  ((∀ s : State, s.beat.accepted = none ∨ s.ticking = false → Completes .beatZeroStart s (fun u => u = s)) ∧
  (∀ (s : State) (t : Nat), s.beat.accepted = some t → s.ticking = true → Completes .beatZeroStart s (fun u =>
    u = if s.tick < t then ((s.passToTick (t - 1)).cycleWith State.batch).2 else s.batch.settle)) ∧
  (∀ s : State, s.beat.next = none ∨ s.ticking = false → Completes .beatBoundary s (fun u => u = s)) ∧
  (∀ (s : State) (t : Nat), s.beat.next = some t → s.ticking = true → Completes .beatBoundary s (fun u =>
    u = if s.tick < t then ((s.passToTick (t - 1)).cycleWith State.batch).2 else s.batch.settle)) ∧
  (∀ (s : State) (t : Nat), s.beatDue = some t → t ≤ s.tick →
    (∀ a, (s.beatLatch t).stage.armedAt = some a → (s.beatLatch t).tick < a) → (s.beatLatch t).launching = [] →
    s.batch = (s.beatLatch t).fixNextBeat t) ∧
  (∀ (s : State) (b : Nat), s.beat.nextNum = 0 → let u := s.beatLatch b
    u.get F.ESC_BEAT_NUM = 0 ∧ u.get64 F.ESC_BEAT_START_LO = b % 2 ^ 64 ∧ u.on F.ESC_BEAT_STAT_RUN = true ∧
      u.sram = s.sram ∧ u.beat.next = none ∧ u.beat.accepted = none ∧ u.beat.nextNum = 1) ∧
  (∀ (s : State) (b : Nat), s.beat.nextNum ≠ 0 → s.beat.nextNum < 2 ^ 32 → s.beat.afterWake = false →
    let u := s.beatLatch b
    u.get F.ESC_BEAT_NUM = s.beat.nextNum ∧ u.get64 F.ESC_BEAT_START_LO = b % 2 ^ 64 ∧
      u.get F.ESC_BEAT_STAT_COVER = (if s.beat.firstBank then 1 else if s.beat.merged then 2 else 0) ∧
      u.beat.firstBank = false ∧ u.beat.merged = false ∧ u.beat.missed = 0 ∧
      (∀ t, s.endingStart s.beat.nextNum = some t → u.reg F.ESC_BEAT_LEN.base = BitVec.ofNat 32 ((b - t) / 4000))) ∧
  (∀ s : State, s.countMissed.get F.ESC_CNT_BEAT_MISS = min (s.get F.ESC_CNT_BEAT_MISS + s.beat.missed) 255) ∧
  (∀ (s : State) (b : Nat), s.isManager = true → (s.fixNextBeat b).beat.next = some (b + 4000 * s.beatSwings))) ∧
  ((∀ (s : State) (g o a : Nat), g < 9 → s.statsMask.testBit g = true → (o, a) ∈ bankGroup g →
    (s.latchGroups).sramPeek (latchKey o) = (s.ownRead 3 (liveKey 0) (liveKey 783)).reg a) ∧
  (∀ (s : State) (src lo hi : Nat), s.sramRaw = [] → s.ownRead src lo hi = s) ∧
  (∀ (s : State) (b : Nat), s.beat.nextNum = 0 ∨ s.beat.afterWake = true →
    s.beatLatch b = (s.countMissed.keepBeat.beatBegin b s.beat.nextNum).beatEvent s.beat.nextNum) ∧
  (∀ (s : State) (g o a : Nat), g < 9 → s.statsMask.testBit g = false → (o, a) ∈ bankGroup g →
    (s.latchGroups).sramPeek (latchKey o) = 0))

/-! ### Link ports (R105–R120, R138–R144) -/

/-- A port that is down, enabled and on which no other manager was found locks to valid code groups and trains; it sends TRAIN
sets of 20 bytes every 400 ticks, and is in training from the first of them on; an up port sends one where it fits in a swing
whose number is a multiple of 256 (R116, R118, R119).
What stands on a port's transmit pair (R105, R106, R112, R114, R120, R138, R141): the wake burst of 4 µs; /LD/ while the
receiver is down; /HL/ in a heal; a frame or a TRAIN set that leaves; and else /I2/ on the upstream port, /I1/ on any other. The
groups are those of the 8b/10b code (its tables are IEEE 802.3's: log entry 48): a group of a data byte has 4, 5 or 6 ones, and no
two bytes share one at either disparity.
A TRAIN set that passes its check gives the neighbour's number and role and, where it echoes one, a measurement of the
delay C, half the round trip less the neighbour's hold, by the port's own 32-bit counter (R116, R117). A port not yet up is up
once 16 measurements lie within 4 units, or at once where it confirms the values of before rest; a worker whose stored upstream
values do not hold is cold again (R118, R142). A manager that hears another manager takes the port down (R120); a set that fails
its check, or has a code group in error, only counts; code groups in error in the idle before count too (R106).
Where a rule leaves a choice the model's is meant: log entries 6, 9 and 48. -/
def Obligations.PortsTrain : Prop :=
  ((∀ (s : State) (p : Fin 2) (bad : Nat), s.linkOn = true → s.portState p = 0 → s.portEn p = true →
    (s.port p).secondMgr = false → s.on F.SYS_RST_STAT_RDEF = false → Completes (.portTrainStart p bad) s (fun u =>
      u = (((s.codeErrors p bad).put F.LINK_PORT_STAT_STATE 1 p).setPort p { s.port p with
        cs := [], rxT := none, lastSignal := s.now, sentAt := none, sentSwing := none }).clockReturns p)) ∧
  (∀ (s : State) (p : Fin 2) (bad : Nat), s.linkOn = false → Completes (.portTrainStart p bad) s (fun u => u = s)) ∧
  (∀ (s : State) (p : Fin 2) (bad : Nat), s.linkOn = true → s.portState p ≠ 0 ∨ s.portEn p = false ∨ (s.port p).secondMgr = true ∨
    s.on F.SYS_RST_STAT_RDEF = true → Completes (.portTrainStart p bad) s (fun u => u = s.codeErrors p bad)) ∧
  (∀ (s : State) (p : Fin 2), s.linkOn = false ∨ s.portState p = 0 → Completes (.trainSend p) s (fun u => u = s)) ∧
  (∀ (s : State) (p : Fin 2), s.linkOn = true → s.portState p = 2 →
    Comes (.trainSend p) s (some (((s.port p).sentAt.map (fun t => t + 400)).getD s.now)) (State.trainSend p)) ∧
  (∀ (s : State) (p : Fin 2), s.linkOn = true → s.portState p ≠ 2 →
    Completes (.trainSend p) s (fun u => u = s.trainSend p)) ∧
  (∀ (s : State) (p : Fin 2), s.portEn p = true → s.portState p = 1 ∨ s.portState p = 2 → s.trainDue p ≤ s.now →
    let u := s.trainSend p
    (u.port p).sent.length = 20 ∧ crc8 (slice (u.port p).sent 1 18) = byteAt (u.port p).sent 19 ∧
      leAt (u.port p).sent 4 4 = portCount p s.now 0 ∧ byteAt (u.port p).sent 1 % 2 = b2n (!s.isManager) ∧
      (u.port p).sentAt = some s.now ∧ u.portState p = 2 ∧ u.sram = s.sram ∧
      (∀ k, k ≠ F.LINK_PORT_STAT_STATE.addr p → u.reg k = s.reg k)) ∧
  (∀ (s : State) (p : Fin 2), s.portEn p = true → s.portUp p = true →
    (s.trainFits p = false → s.trainSend p = s) ∧
    (s.trainFits p = true → s.swing % 256 = 0 ∧ (s.port p).sentSwing ≠ some s.swing ∧
      ((s.trainSend p).port p).sentSwing = some s.swing ∧ ((s.trainSend p).port p).sentAt = some s.now ∧
      crc8 (slice ((s.trainSend p).port p).sent 1 18) = byteAt ((s.trainSend p).port p).sent 19))) ∧
  ((∀ (s : State) (p : Fin 2), s.linkOn = false → s.lineOut p = .off) ∧
  (∀ (s : State) (p : Fin 2) (t : Nat), s.linkOn = true → s.link.burst = some t → t ≤ s.now → s.now < t + 400 →
    s.lineOut p = .burst) ∧
  (∀ (s : State) (p : Fin 2), s.linkOn = true → s.link.burst = none → s.on F.SYS_RST_STAT_RDEF = false →
    (s.portEn p = false → s.lineOut p = .off) ∧
    (s.portEn p = true → s.portState p = 0 → s.lineOut p = .ld) ∧
    (∀ t, s.portEn p = true → s.portState p ≠ 0 → (s.port p).healEnd = some t → s.now < t → s.lineOut p = .heal) ∧
    (∀ t, s.portEn p = true → s.portUp p = true → (s.port p).healEnd = none → (s.port p).frameAt = some t → t ≤ s.now →
      s.now < t + 10 * (s.port p).frame.length → s.lineOut p = .frame) ∧
    (s.portEn p = true → s.portState p ≠ 0 → (s.port p).healEnd = none → (s.port p).frameAt = none →
      (s.port p).sentAt = none → s.lineOut p = if s.upstream = some p.val then .idle2 else .idle1)) ∧
  (∀ (s : State) (p : Fin 2) (rd : Bool), s.lineOut p = .frame → s.portGroups p rd = lineGroups (s.port p).frame (s.port p).rd) ∧
  (∀ (b : Fin 256) (rd : Bool), 4 ≤ onesIn 10 (dataGroup b rd).1.toNat ∧ onesIn 10 (dataGroup b rd).1.toNat ≤ 6 ∧
    (dataGroup b rd).2 = nextRd 10 (dataGroup b rd).1.toNat rd) ∧
  (∀ (b c : Fin 256) (rd : Bool), (dataGroup b rd).1 = (dataGroup c rd).1 → b = c)) ∧
  ((∀ (s : State) (p : Fin 2) (b : List Byte) (fine : Fin 32) (bad idle : Nat), b.length = 20 → s.linkOn = false →
    Completes (.trainReceive p b fine bad idle) s (fun u => u = s)) ∧
  (∀ (s : State) (p : Fin 2) (b : List Byte) (fine : Fin 32) (bad idle : Nat), b.length = 20 → s.linkOn = true →
    s.portState p = 0 → Completes (.trainReceive p b fine bad idle) s (fun u => u = s.codeErrors p (bad + idle))) ∧
  (∀ (s : State) (p : Fin 2) (b : List Byte) (fine : Fin 32) (bad idle : Nat), b.length = 20 → s.linkOn = true →
    s.portState p ≠ 0 → bad ≠ 0 ∨ crc8 (slice b 1 18) ≠ byteAt b 19 → Completes (.trainReceive p b fine bad idle) s (fun u =>
      u = (s.codeErrors p (bad + idle)).bump F.LINK_CNT0_HCRC_ERR)) ∧
  (∀ (s : State) (p : Fin 2) (n : Nat), let f := if p = 0 then F.LINK_CNT0_CODE_ERR_A else F.LINK_CNT0_CODE_ERR_B
    (s.codeErrors p n).get f = min (s.get f + n) (2 ^ f.width - 1) ∧
      (∀ k, k ≠ F.LINK_CNT0.base → (s.codeErrors p n).reg k = s.reg k)) ∧
  (∀ (s : State) (p : Fin 2) (b : List Byte) (fine : Fin 32) (idle : Nat), b.length = 20 → s.linkOn = true →
    s.portState p ≠ 0 → crc8 (slice b 1 18) = byteAt b 19 → s.isManager = true → byteAt b 1 % 2 = 0 →
    (s.port p).secondMgr = false → Completes (.trainReceive p b fine 0 idle) s (fun u => u.portState p = 0 ∧ (u.port p).secondMgr = true)) ∧
  (∀ (s : State) (p : Fin 2) (b : List Byte) (fine : Fin 32) (idle : Nat), b.length = 20 → s.linkOn = true →
    s.portState p ≠ 0 → crc8 (slice b 1 18) = byteAt b 19 → s.isManager = false ∨ byteAt b 1 % 2 = 1 →
    let t4 := portCount p s.now fine
    let d : Int := toS 32 (t4 + 2 ^ 33 - leAt b 8 4 - leAt b 12 4)
    let same := s.get F.LINK_PORT_STAT_NB_DEV p == byteAt b 2 &&
      (s.port p).hopsThru == (if byteAt b 3 = 0xFF then none else some (byteAt b 3))
    Completes (.trainReceive p b fine 0 idle) s (fun u =>
      u.get F.LINK_PORT_STAT_NB_DEV p = byteAt b 2 ∧ u.get F.LINK_PORT_STAT_NB_ROLE p = byteAt b 1 % 2 ∧
      (u.port p).rxT = some (leAt b 4 4, t4) ∧
      (leAt b 8 4 = 0 ∧ leAt b 12 4 = 0 → (u.port p).cs = (s.port p).cs) ∧
      (¬(leAt b 8 4 = 0 ∧ leAt b 12 4 = 0) → ∃ c : Int, (u.port p).cs = (c :: (s.port p).cs).take 16 ∧
        (d = 2 * c ∨ d = 2 * c + 1 ∨ d = 2 * c - 1)) ∧
      (s.isManager = false → s.upstream = some p.val → (s.port p).warm = true → same = false →
        u.link.coldDone = false ∧ u.link.warmWake = false) ∧
      u.portUp p = (s.portUp p || ((s.port p).warm && same) || (decide ((u.port p).cs.length = 16) &&
        decide ((u.port p).cs.foldl max ((u.port p).cs.headD 0) - (u.port p).cs.foldl min ((u.port p).cs.headD 0) ≤ 4))))))

/-- A cold worker chooses as its upstream the port with fewer hops, then the shorter path, then port A, and switches its PLL to
it: at once with both ports up, with one up when the other has given no valid signal for 10,000 cycles (R112, R118). One that has
chosen does not choose again (R140).
A receiver that loses its signal goes down, and what a passing frame still had to bring on the port is lost, a request
for a slot with it (R115, R129); a worker
whose upstream port was receiving heals to the other port, sends /HL/ there for 200 ticks and counts the heal. /HL/ on the
upstream port heals a worker in turn, the end of a branch without sending it on (R106, R138).
A worker without /I2/ on its downstream port for 1,000 ticks is the end of its branch; /I2/ there ends that, and code groups in
error in the idle before it count (R106, R113).
LINK_CTRL stores the port enables, and its RETRAIN bits take their ports down to train anew; LINK_CNT_CLR.CLR clears the
link counters (R140, R144).
A phantom switch that conducts at its limit for 1 ms opens and closes again 100 ms later; the third trip in a row, with no
more than 1 ms of conduction between, leaves it open with its OFF bit set (R108).
Where a rule leaves a choice the model's is meant: log entries 4, 48 and 54. -/
def Obligations.BranchesFormAndHeal : Prop :=
  ((∀ s : State, s.linkOn = false ∨ s.isManager = true ∨ s.link.coldDone = true →
    Completes .upstreamSelect s (fun u => u = s)) ∧
  (∀ s : State, s.linkOn = true → s.isManager = false → s.link.coldDone = false →
    Comes .upstreamSelect s (if s.portUp 0 && s.portUp 1 then some s.now
      else if s.portUp 0 then some ((s.port 1).lastSignal + 10000)
      else if s.portUp 1 then some ((s.port 0).lastSignal + 10000) else none) State.upstreamSelect) ∧
  (∀ s : State, let u := s.upstreamSelect
    let p := if s.portUp 0 = true ∧ s.portUp 1 = true then s.bestPort else if s.portUp 0 = true then 0 else 1
    u.upstream = some p ∧ u.link.coldDone = true ∧ u.link.healed = false ∧
      (s.refFallback = false → u.get F.SYS_CLK_STAT_REF_SRC = 1 + p)) ∧
  (∀ s : State, s.bestPort = (if s.get F.LINK_PORT_STAT_HOPS_VIA 0 < s.get F.LINK_PORT_STAT_HOPS_VIA 1 then 0
    else if s.get F.LINK_PORT_STAT_HOPS_VIA 1 < s.get F.LINK_PORT_STAT_HOPS_VIA 0 then 1
    else if (s.pathVia 0).getD (2 ^ 21) ≤ (s.pathVia 1).getD (2 ^ 21) then 0 else 1))) ∧
  ((∀ (s : State) (p : Fin 2) (ld : Bool) (bad : Nat), s.linkOn = true →
    Completes (.portRxDown p ld bad) s (fun u => u = (s.codeErrors p bad).portGoesDown p ld)) ∧
  (∀ (s : State) (p : Fin 2) (ld : Bool), let u := s.portGoesDown p ld
    u.portState p = 0 ∧ u.on F.LINK_PORT_STAT_NB_ADOPT p = false ∧ u.on F.LINK_PORT_STAT_LD_RX p = ld ∧
      (u.port p).cs = [] ∧ (∀ e ∈ u.link.lineDue, LineEvent.onPort p e.2 = false) ∧
      (s.isManager = false ∧ s.upstream = some p.val ∧ s.portState p ≠ 0 →
        u.upstream = some (1 - p.val) ∧ (u.port (1 - p.val)).healEnd = some (s.now + 200) ∧ u.link.healed = true ∧
        u.get F.LINK_CNT1_HEAL = min (s.get F.LINK_CNT1_HEAL + 1) (2 ^ F.LINK_CNT1_HEAL.width - 1)) ∧
      (s.isManager = true ∨ s.upstream ≠ some p.val ∨ s.portState p = 0 → u.upstream = s.upstream)) ∧
  (∀ (s : State) (p : Fin 2) (ld : Bool) (bad : Nat), s.linkOn = false →
    Completes (.portRxDown p ld bad) s (fun u => u = s)) ∧
  (∀ (s : State) (p : Fin 2) (bad : Nat), s.linkOn = true → s.isManager = false → s.upstream = some p.val →
    Completes (.healReceive p bad) s (fun u => u.upstream = some (1 - p.val) ∧ u.link.healed = true ∧
      (u.port (1 - p.val)).healEnd = (if s.isEnd then (s.port (1 - p.val)).healEnd else some (s.now + 200)) ∧
      u.get F.LINK_CNT1_HEAL = min (s.get F.LINK_CNT1_HEAL + 1) (2 ^ F.LINK_CNT1_HEAL.width - 1))) ∧
  (∀ (s : State) (p : Fin 2) (bad : Nat), s.linkOn = false → Completes (.healReceive p bad) s (fun u => u = s)) ∧
  (∀ (s : State) (p : Fin 2) (bad : Nat), s.linkOn = true → s.isManager = true ∨ s.upstream ≠ some p.val →
    Completes (.healReceive p bad) s (fun u => u = s.codeErrors p bad)) ∧
  (∀ (s : State) (p : Fin 2) (ld : Bool), s.isManager = false → s.upstream = some p.val →
    (s.portGoesDown p ld).link.header = none ∧ (s.portGoesDown p ld).link.passing = none) ∧
  (∀ (s : State) (p : Fin 2) (ld : Bool) (d : Fin 64), s.isManager = true → (tget s.link.wkr d).lastPort = p →
    (tget (s.portGoesDown p ld).link.wkr d).req = false)) ∧
  ((∀ s : State, s.linkOn = true → Comes .branchEndDetect s (s.downstream.map (fun d =>
    ((s.port d).lastI2.map (fun t => t + 1000)).getD s.now)) State.branchEnd) ∧
  (∀ (s : State) (d : Nat), s.isManager = false → s.downstream = some d →
    s.branchEnd.isEnd = true ∧ s.branchEnd.downstream = some d) ∧
  (∀ s : State, s.linkOn = false → Completes .branchEndDetect s (fun u => u = s)) ∧
  (∀ (s : State) (p : Fin 2) (bad : Nat), s.linkOn = true → s.portUp p = true → Completes (.i2Received p bad) s (fun u =>
    (u.port p).lastI2 = some s.now ∧ u.on F.LINK_PORT_STAT_NB_ADOPT p = true ∧
      (s.downstream = some p.val → u.isEnd = false))) ∧
  (∀ (s : State) (p : Fin 2) (bad : Nat), s.linkOn = true → Completes (.i2Received p bad) s (fun u =>
    u.reg F.LINK_CNT0.base = (s.codeErrors p bad).reg F.LINK_CNT0.base)) ∧
  (∀ (s : State) (p : Fin 2) (bad : Nat), s.linkOn = false → Completes (.i2Received p bad) s (fun u => u = s)) ∧
  (∀ (s : State) (p : Fin 2) (bad : Nat), s.linkOn = true → s.portUp p = false →
    Completes (.i2Received p bad) s (fun u => u = s.codeErrors p bad))) ∧
  ((∀ (s : State) (p : Party) (w : BitVec 4), Grants p (.linkRetrain p w) s (fun c =>
    let t := c.ownedStore p F.LINK_CTRL.base F.LINK_CTRL.base (w.zeroExtend 32) allBits
    let t := if w.getLsbD 2 then t.retrain 0 else t
    if w.getLsbD 3 then t.retrain 1 else t)) ∧
  (∀ (s : State) (p : Fin 2), (s.retrain p).portState p = 0 ∧ ((s.retrain p).port p).secondMgr = false ∧
    (s.retrain p).link.coldDone = false) ∧
  (∀ (s : State) (p : Party), Grants p (.linkCntClr p) s (fun c =>
    ((c.setReg F.LINK_CNT0.base 0).setReg F.LINK_CNT1.base 0).setReg F.LINK_LATE_CNT.base 0))) ∧
  ((∀ (s : State) (w : Fin 3), s.switchConducts w = false → Completes (.phantomSwitchTrip w) s (fun u => u = s)) ∧
  (∀ (s : State) (w : Fin 3), s.switchConducts w = true → Completes (.phantomSwitchTrip w) s (fun u =>
    let x := tget s.link.sw w
    let n := if x.trips = 0 ∨ x.closedAt + 100000 < s.now then 1 else x.trips + 1
    u.on (limFld w) = true ∧ (tget u.link.sw w).trips = n ∧ (tget u.link.sw w).closedAt = x.closedAt ∧
      (tget u.link.sw w).reclose = (if 3 ≤ n then none else some (s.now + 10000000)) ∧
      (3 ≤ n → u.on (offFld w) = true) ∧ (∀ k, k ≠ F.LINK_PH_STAT.base → u.reg k = s.reg k))) ∧
  (∀ (s : State) (w : Fin 3), Comes (.phantomSwitchReclose w) s (tget s.link.sw w).reclose (fun c =>
    (c.setSwitch w { tget c.link.sw w with reclose := none, closedAt := c.now }).showPhantom)))

/-! ### Frames (R114, R115, R122–R137) -/

/-- The manager sends one down frame at each swing start, never twice in a swing: at most 8 commands and 336 bytes, the grants
of the coming up frame, HCRC and CCRC (R122, R154).
Where a rule leaves a choice the model's is meant: log entry 23. -/
def Obligations.DownFramesAreSent : Prop :=
  (∀ s : State, s.sendsFrames = false → Completes .downFrameSend s (fun u => u = s)) ∧
  (∀ s : State, s.sendsFrames = true → (s.passToTick (4000 * s.nextSwing)).sendsFrames = true →
    Completes .downFrameSend s (fun u => u = ((s.passToTick (4000 * s.nextSwing)).downBuild s.nextSwing).settle)) ∧
  (∀ s : State, s.sendsFrames = true → (s.passToTick (4000 * s.nextSwing)).sendsFrames = false →
    Completes .downFrameSend s (fun u => u = s.passToTick (4000 * s.nextSwing))) ∧
  (∀ (s : State) (k : Nat), (s.downBuild k).link.sentSwing = some k ∧ ∃ (g : List Nat) (cmds : List (List Byte)),
    g.length = 3 ∧ cmds.length ≤ 8 ∧ 16 + cmds.flatten.length ≤ 336 ∧
      ∀ p : Fin 2, (s.downBuild k).portSends p = true → ((s.downBuild k).port p).frame = downFrame (4000 * k) g cmds ∧
        ((s.downBuild k).port p).frameAt = some s.now) ∧
  (∀ (t : Nat) (g : List Nat) (cmds : List (List Byte)), g.length = 3 → cmds.length ≤ 8 →
    let f := downFrame t g cmds
    f.length = 16 + cmds.flatten.length ∧ byteAt f 1 = 16 + cmds.length ∧ leAt f 2 8 = t % 2 ^ 64 ∧
      crc8 (slice f 1 12) = byteAt f 13 ∧ crc16 (f.drop 16) = leAt f 14 2)

/-- A worker forwards every down frame of its upstream port out of its downstream port, each byte 24 ticks after it arrived
(R114). It takes, once a swing, one whose HCRC passes and whose stamp is the start of its swing; its grants are kept and, unless
unsynced, the error of the count is judged. A header that fails its check only counts, and what was still to come of a frame taken
before it is lost. After a wake a port with stored values repeats from its receiver's lock on (R142). A manager that receives one, on any
port, has found another manager (R115, R120).
The rest of a taken frame is accepted where its CCRC passes: once the PLL is locked an unsynced worker sets its count, coarse or, woken with
stored values, synced; a coarse one is synced; then the commands act in order. A frame that fails only counts, and its
commands are lost; where its swing is over the loss counts then (R115, R118, R124, R144).
At the end of a swing a worker that accepted no down frame of it counts it lost, and one that took none for five swings
raises LINK/L2 (R137, R144). A taken frame whose last byte is still to come is judged by it.
Where a rule leaves a choice the model's is meant: log entries 5, 23 and 46. -/
def Obligations.DownFramesAreTaken : Prop :=
  ((∀ (s : State) (p : Fin 2) (b : List Byte) (arr bad : Nat), b.length = 14 → s.linkOn = false →
    Completes (.downFrameHeader p b arr bad) s (fun u => u = s)) ∧
  (∀ (s : State) (p : Fin 2) (b : List Byte) (arr bad : Nat), b.length = 14 → s.linkOn = true → s.isManager = true →
    Completes (.downFrameHeader p b arr bad) s (fun u => u = (s.codeErrors p bad).secondManager p ∧
      ((s.port p).secondMgr = false → u.portState p = 0 ∧ (u.port p).secondMgr = true))) ∧
  (∀ (s : State) (p : Fin 2) (b : List Byte) (arr bad : Nat), b.length = 14 → s.linkOn = true → s.isManager = false →
    s.upstream ≠ some p.val ∨ s.portRepeats p = false →
    Completes (.downFrameHeader p b arr bad) s (fun u => u = s.codeErrors p bad)) ∧
  (∀ (s : State) (p : Fin 2) (b : List Byte) (arr bad : Nat), b.length = 14 → s.linkOn = true → s.isManager = false →
    s.upstream = some p.val → s.portRepeats p = true →
    let c := s.codeErrors p bad
    let t := ({ c with link := { c.link with passing := some b, header := none } } : State).downForward b []
    Completes (.downFrameHeader p b arr bad) s (fun u =>
      (bad ≠ 0 ∨ crc8 (slice b 1 12) ≠ byteAt b 13 → u = t.bump F.LINK_CNT0_HCRC_ERR) ∧
      (bad = 0 → crc8 (slice b 1 12) = byteAt b 13 → byteAt b 1 / 16 ≠ 1 ∨ s.link.taken = some (leAt b 2 8 / 4000) ∨
        (s.syncUnder ≠ syncUnsynced ∧ leAt b 2 8 ≠ 4000 * (s.tick / 4000)) → u = t))) ∧
  (∀ (s : State) (p : Fin 2) (b : List Byte) (arr : Nat), b.length = 14 → s.linkOn = true → s.isManager = false →
    s.upstream = some p.val → s.portRepeats p = true → crc8 (slice b 1 12) = byteAt b 13 → byteAt b 1 / 16 = 1 →
    s.link.taken ≠ some (leAt b 2 8 / 4000) → s.syncUnder = syncUnsynced ∨ leAt b 2 8 = 4000 * (s.tick / 4000) →
    let e : Int := (arr : Int) - 32 * leAt b 2 8 - s.pathDelay
    Completes (.downFrameHeader p b arr 0) s (fun u =>
      u.link.taken = some (leAt b 2 8 / 4000) ∧ u.link.header = some b ∧ u.link.passing = some b ∧ u.link.shift = e ∧
      u.link.missed = 0 ∧ u.link.grants = [byteAt b 10, byteAt b 11, byteAt b 12] ∧
      u.link.grantSwing = leAt b 2 8 / 4000 ∧ u.tick = s.tick ∧ u.sram = s.sram ∧
      (s.syncUnder = syncUnsynced → (∀ k, u.reg k = s.reg k) ∧ u.errRun = s.errRun) ∧
      (s.syncUnder ≠ syncUnsynced → u.getS F.ESC_ERR_ERR = clampS 16 e ∧
        u.errRun = (if e.natAbs ≤ 64 then 0 else if 3 ≤ s.errRun + 1 then 0 else s.errRun + 1) ∧
        u.stepDue = (if 64 < e.natAbs ∧ 3 ≤ s.errRun + 1 then some e else s.stepDue)))) ∧
  (∀ (s : State) (p : Nat), s.portRepeats p = (s.linkOn && s.portEn p && (s.portUp p ||
    ((s.port p).warm && decide (s.portState p ≠ 0))))) ∧
  (∀ (s : State) (b : List Byte) (d : Nat), d < 2 → s.downstream = some d → s.portRepeats d = true →
    ((s.downForward b []).port d).frame = b ∧ ((s.downForward b []).port d).frameAt = some (s.now - 116) ∧
      ∀ r, r ≠ [] → ((s.downForward b r).port d).frame = b ++ r)) ∧
  ((∀ (s : State) (b : List Byte) (bad : Nat), s.linkOn = false → Completes (.downFrameAccept b bad) s (fun u => u = s)) ∧
  (∀ (s : State) (b : List Byte) (bad : Nat), s.linkOn = true → s.link.header = none →
    Completes (.downFrameAccept b bad) s (fun u => u = s.downPasses b bad)) ∧
  (∀ (s : State) (b h : List Byte) (bad : Nat), s.linkOn = true → s.link.header = some h →
    let d := s.downPasses b bad
    (bad ≠ 0 ∨ crc16 (b.drop 2) ≠ leAt b 0 2 → Completes (.downFrameAccept b bad) s (fun u =>
      u = (({ d with link := { d.link with header := none } } : State).bump F.LINK_CNT0_CCRC_ERR).lateLoss)) ∧
    (bad = 0 → crc16 (b.drop 2) = leAt b 0 2 → Completes (.downFrameAccept b bad) s (fun u => ∃ t : State,
      u = ((t.syncStep).cmdsAct (byteAt h 1 % 16) (b.drop 2)).settle ∧ t.link.accepted = s.link.taken ∧
      t.link.header = none ∧ t.syncUnder = s.syncUnder ∧ t.tick = s.tick ∧ t.link.shift = s.link.shift ∧
      t.link.warmWake = s.link.warmWake))) ∧
  (∀ s : State, s.refFallback = true ∨ s.on F.SYS_CLK_STAT_PLL_LOCK = false → s.syncStep = s) ∧
  (∀ s : State, s.refFallback = false → s.on F.SYS_CLK_STAT_PLL_LOCK = true → let t := s.syncStep
    (s.syncUnder = syncUnsynced → t.tick = ((s.tick : Int) - s.link.shift / 32).toNat ∧ t.ticking = true ∧
      t.syncUnder = (if s.link.warmWake then syncSynced else syncCoarse)) ∧
    (s.syncUnder = syncCoarse → t.syncUnder = syncSynced ∧ t.tick = s.tick) ∧
    (s.syncUnder ≠ syncUnsynced → s.syncUnder ≠ syncCoarse → t = s)) ∧
  (∀ s : State, s.lateLoss = (match s.link.taken with
    | none => s
    | some k => if k < s.tick / 4000 then s.bump F.LINK_LATE_CNT_DLOST else s)) ∧
  (∀ (s : State) (n : Nat) (b : List Byte), (cmdMeaning (byteAt b 0) = none ∨ cmdLength b = 0 ∨ b.length < cmdLength b) →
    s.cmdsAct (n + 1) b = s.raise 11 9 0)) ∧
  ((∀ s : State, s.isManager = true → Completes .downFrameMissing s (fun u => u = s)) ∧
  (∀ s : State, s.isManager = false →
    ComesAtTick .downFrameMissing s (some (4000 * (s.tick / 4000 + 1))) (State.swingWithout (s.tick / 4000))) ∧
  (∀ (c : State) (k : Nat), c.link.everTaken = false → c.swingWithout k = c) ∧
  (∀ (c : State) (k : Nat), c.link.everTaken = true → let u := c.swingWithout k
    u.get F.LINK_LATE_CNT_DLOST = (if c.link.accepted = some k ∨ k ∈ c.link.acceptedLog ∨
      (c.link.taken = some k ∧ c.link.header ≠ none) then c.get F.LINK_LATE_CNT_DLOST
        else min (c.get F.LINK_LATE_CNT_DLOST + 1) (2 ^ F.LINK_LATE_CNT_DLOST.width - 1)) ∧
    u.link.missed = (if c.link.taken = some k then c.link.missed else c.link.missed + 1) ∧
    u.events = (if c.collector ∧ c.link.taken ≠ some k ∧ c.link.missed + 1 = 5 then
      c.events ++ [⟨sourceOf 11 5 0, 0, none, c.tick, true⟩] else c.events)))

/-- A branch end starts an up frame of 334 bytes at offset 2,200 of a swing: every word 0, the grants those of the down frame
taken in this swing that has not failed, and 0 where there is none. A worker that a frame passes sends it on 24 ticks later; as the first byte of its own word, of a slot
granted to it and of its map byte pass, they take their content (R114, R121, R125–R128, R134, R149).
The manager registers each field of an up frame 2 ticks after its last code group: a worker whose word passes its check is
there, with its error and interrupt state; one that fails counts for a worker of that branch, which then asks for no slot; a header
that fails its check counts, and the fields of its frame stand under their own checks (R126, R127, R144, R173).
A worker without a valid word for five up frames is lost: it leaves LINK_WKR, HIER_WERR and HIER_WIRQ, and its mirror is
stale (R137, R305). A transaction open for 12,000 ticks closes with TIMEOUT counted, and a closed tag number may be taken again
8,000 ticks later (R132).
Where a rule leaves a choice the model's is meant: log entries 24 and 48. -/
def Obligations.UpFrames : Prop :=
  ((∀ s : State, s.sendsUp = false → Completes .upFrameStart s (fun u => u = s)) ∧
  (∀ s : State, s.sendsUp = true → Completes .upFrameStart s (fun u => u = (s.passToTick s.upDue).upStart)) ∧
  (∀ (s : State) (p : Nat), p < 2 → s.upstream = some p → s.portSends p = true → s.link.grants.length = 3 →
    let f := (s.upStart.port p).frame
    f.length = 334 ∧ (s.upStart.port p).frameAt = some s.now ∧ s.upStart.link.upSent = some s.swing ∧
      leAt f 2 2 = s.swing % 65536 ∧ crc8 (slice f 1 6) = byteAt f 7 ∧ (∀ i, 8 ≤ i → i < 134 → byteAt f i = 0) ∧
      (s.link.taken = some s.swing → s.link.header ≠ none ∨ s.link.accepted = some s.swing ∨ s.swing ∈ s.link.acceptedLog →
        ∀ i : Fin 3, byteAt f (4 + i) = s.link.grants.getD i 0 % 256) ∧
      (s.link.taken ≠ some s.swing ∨ (s.link.header = none ∧ s.link.accepted ≠ some s.swing ∧ s.swing ∉ s.link.acceptedLog) →
        ∀ i : Fin 3, byteAt f (4 + i) = 0)) ∧
  (∀ (s : State) (b : List Byte) (bad : List Nat), b.length = 334 → s.isManager = true ∨ s.linkOn = false →
    Completes (.upFrameForward b bad) s (fun u => u = s)) ∧
  (∀ (s : State) (b : List Byte) (bad : List Nat), b.length = 334 → s.isManager = false → s.linkOn = true →
    Completes (.upFrameForward b bad) s (fun u => u = s.upForward b bad)) ∧
  (∀ (s : State) (b : List Byte) (bad : List Nat) (p : Nat), p < 2 → s.upstream = some p → s.portSends p = true →
    let u := s.upForward b bad
    (u.port p).frame = b ∧ (u.port p).frameAt = some (s.now + 24) ∧
      (s.hasNumber = true → ∃ k, (s.now + 24 + 10 * (8 + 2 * (s.devNo - 1)), LineEvent.ownWord p k) ∈ u.link.lineDue ∧
        (s.now + 24 + 10 * (326 + s.devNo / 8), LineEvent.ownMap p k) ∈ u.link.lineDue)) ∧
  (∀ (s : State) (p k : Nat), p < 2 → (s.port p).frame.length = 334 → s.hasNumber = true → s.link.dupStop = false →
    1 ≤ s.devNo → s.devNo ≤ 63 → let f := (s.port p).frame
    let u := s.ownWord p k
    (wordValid (leAt f (8 + 2 * (s.devNo - 1)) 2) = false → (u.port p).frame.length = 334 ∧
      leAt (u.port p).frame (8 + 2 * (s.devNo - 1)) 2 = s.statusWord p k ∧ u.link.alt = !s.link.alt ∧
      (∀ d, 1 ≤ d → d ≤ 63 → d ≠ s.devNo → leAt (u.port p).frame (8 + 2 * (d - 1)) 2 = leAt f (8 + 2 * (d - 1)) 2)) ∧
    (wordValid (leAt f (8 + 2 * (s.devNo - 1)) 2) = true →
      (u.port p).frame = f ∧ u.on F.HIER_STAT_DUP = true ∧ u.link.dupStop = true)) ∧
  (∀ (s : State) (p k : Nat), wordValid (s.statusWord p k) = true ∧
    (s.statusWord p k).testBit 14 = s.errLow ∧ (s.statusWord p k).testBit 5 = !s.link.alt ∧
    (1 ≤ k → (s.statusWord p k).testBit 9 = !(s.link.accepted == some (k - 1) || s.link.acceptedLog.contains (k - 1)))) ∧
  (∀ (s : State) (p k : Nat) (i : Fin 3), p < 2 → (s.port p).frame.length = 334 → s.hasNumber = true →
    s.link.dupStop = false → slice ((s.ownSlot p k i).port p).frame (134 + 64 * i.val) 64 =
      s.link.slotBytes s.devNo k s.tick)) ∧
  ((∀ (s : State) (p : Fin 2) (b : List Byte) (bad : List Nat), b.length = 334 → s.sendsFrames = false ∨ s.portUp p = false →
    Completes (.upFrameReceive p b bad) s (fun u => u = s)) ∧
  (∀ (s : State) (p : Fin 2) (b : List Byte) (bad : List Nat), b.length = 334 → s.sendsFrames = true → s.portUp p = true →
    crc8 (slice b 1 6) ≠ byteAt b 7 ∨ (∃ i ∈ bad, i < 8) → Completes (.upFrameReceive p b bad) s (fun u =>
      u.regs = ((s.codeErrors p bad.length).bump F.LINK_CNT0_HCRC_ERR).regs)) ∧
  (∀ (s : State) (p : Fin 2) (b : List Byte) (bad : List Nat), b.length = 334 → s.sendsFrames = true → s.portUp p = true →
    crc8 (slice b 1 6) = byteAt b 7 → (∀ i ∈ bad, 8 ≤ i) → Completes (.upFrameReceive p b bad) s (fun u =>
      u.regs = (s.codeErrors p bad.length).regs)) ∧
  (∀ (s : State) (p : Fin 2) (b : List Byte) (bad : List Nat), b.length = 334 → s.sendsFrames = true → s.portUp p = true →
    Completes (.upFrameReceive p b bad) s (fun u => ∃ k,
      (∀ d : Fin 64, d ≠ 0 → let o := 8 + 2 * (d.val - 1)
        (s.now + 10 * (o + 2) + 2, LineEvent.word p k d (leAt b o 2) (!bad.contains o && !bad.contains (o + 1))) ∈
          u.link.lineDue) ∧
      (∀ i : Fin 8, 326 + i.val ∉ bad →
        (s.now + 10 * (327 + i.val) + 2, LineEvent.map p k i (byteAt b (326 + i))) ∈ u.link.lineDue) ∧
      (s.now + 3342, LineEvent.last p k) ∈ u.link.lineDue)) ∧
  (∀ s : State, (∀ e ∈ s.link.lineDue, s.now < e.1) → s.lineRun = s) ∧
  (∀ (s : State) (p k w : Nat) (d : Fin 64), wordValid w = true → let t := s.wordSeen p k d w true
    t.maskBit F.LINK_WKR d = true ∧ t.maskBit F.HIER_WERR d = w.testBit 14 ∧ t.maskBit F.HIER_WIRQ d = w.testBit 13) ∧
  (∀ (s : State) (p k w : Nat) (d : Fin 64) (good : Bool), good = false ∨ wordValid w = false →
    (tget s.link.wkr d).lastPort = p → s.maskBit F.LINK_WKR d = true →
    (s.wordSeen p k d w good).get F.LINK_CNT1_STATUS_ERR =
      min (s.get F.LINK_CNT1_STATUS_ERR + 1) (2 ^ F.LINK_CNT1_STATUS_ERR.width - 1) ∧
      (tget (s.wordSeen p k d w good).link.wkr d).req = false) ∧
  (∀ (s : State) (i : Fin 8) (w : Nat) (j : Fin 8), 0 < 8 * i.val + j.val → w.testBit j = true →
    (s.mapTake i w).maskBit F.LINK_ALARM (8 * i.val + j.val) = true)) ∧
  ((∀ s : State, ComesAtTick .workerLost s s.lostDue State.workersLost) ∧
  (∀ (s : State) (d : Fin 64) (t : Nat), s.lostAt d = some t → t ≤ s.tick →
    (s.workersLost).maskBit F.LINK_WKR d = false ∧ (s.workersLost).maskBit F.HIER_WERR d = false ∧
      (s.workersLost).maskBit F.HIER_WIRQ d = false ∧ (s.workersLost).maskBit F.SEQ_MIR_STALE d = true) ∧
  (∀ s : State, ComesAtTick .transactionTimeout s s.txnDue (fun c =>
    (c.link.txns.filter (fun x => decide (x.opened + 12000 ≤ c.tick))).foldl (fun c x =>
      ((c.tagClose x).bump F.LINK_CNT1_TIMEOUT).reqDone x.purpose raTimeout []) c)) ∧
  (∀ (s : State) (x : Txn), (s.tagClose x).link.tagQuar = s.link.tagQuar ++ [(x.tag % 64, s.tick)] ∧
    (∀ y ∈ (s.tagClose x).link.txns, y.tag ≠ x.tag) ∧ (s.tagClose x).tagBusy (x.tag % 64) = true) ∧
  (∀ s : State, ComesAtTick .tagQuarantineEnd s s.tagQuarDue (fun c =>
    { c with link := { c.link with tagQuar := c.link.tagQuar.filter (fun q => decide (c.tick < q.2 + 8000)) } })))

/-! ### Link commands on a worker (R123, R124, R153) -/

/-- SELECT replaces a selection set, without bit 0; RETRAIN retrains the ports it names; PHANTOM writes bits 7:0 of
LINK_PH_CTRL; the first REST at least 200 ticks ahead schedules the entry; ASSIGN gives a worker without a number its base plus
its hops less 1, none above 63 (R123, R124, R146, R428).
A link command acts on the workers it names, by TARGETS or by DEST (R95, R124): a manager, a device in reset or at rest,
and a worker it does not name stay as they were.
Where a rule leaves a choice the model's is meant: log entry 23. -/
def Obligations.ControlCommandsAct : Prop :=
  ((∀ (s : State) (b : List Byte), Hears 0x10 b s → Completes (.select b) s (fun u =>
    u = if byteAt b 5 < 4 then { s with link := { s.link with
        sets := tset s.link.sets (byteAt b 5) (BitVec.ofNat 64 (leAt b 8 8 / 2 * 2)) } } else s)) ∧
  (∀ (s : State) (b : List Byte), Hears 0x11 b s → Completes (.retrain b) s (fun u =>
    let t := if (byteAt b 5).testBit 0 then s.retrain 0 else s
    u = if (byteAt b 5).testBit 1 then t.retrain 1 else t)) ∧
  (∀ (s : State) (b : List Byte), Hears 0x12 b s → Completes (.phantom b) s (fun u =>
    u = s.ownedStore .link F.LINK_PH_CTRL.base F.LINK_PH_CTRL.base (BitVec.ofNat 32 (byteAt b 5)) 0xFF)) ∧
  (∀ (s : State) (b : List Byte), Hears 0x13 b s → Completes (.rest b) s (fun u =>
    (s.rest.entry ≠ none ∨ leAt b 8 8 < s.tick + 200 → u = s) ∧
    (s.rest.entry = none → s.tick + 200 ≤ leAt b 8 8 →
      u.rest.entry = some (leAt b 8 8) ∧ u.get F.SYS_REST_STAT_STATE = 1 ∧
        (∀ k, k ≠ F.SYS_REST_STAT.base → u.reg k = s.reg k)))) ∧
  (∀ (s : State) (b : List Byte), Hears 0x20 b s → s.hasNumber = true ∨ s.upstream = none →
    Completes (.assign b) s (fun u => u = s)) ∧
  (∀ (s : State) (b : List Byte) (p : Nat), Hears 0x20 b s → s.hasNumber = false → s.upstream = some p →
    let n := byteAt b (5 + p) + s.get F.LINK_PORT_STAT_HOPS_VIA p - 1
    Completes (.assign b) s (fun u =>
      (byteAt b (5 + p) = 0 → u = s) ∧
      (byteAt b (5 + p) ≠ 0 → 63 < n → u = (s.put F.HIER_STAT_NONUM 1).raiseReg 11 20 0 F.HIER_STAT) ∧
      (byteAt b (5 + p) ≠ 0 → n ≤ 63 → u.devNo = n ∧ u.hasNumber = true ∧
        (∀ k, k ≠ F.HIER_STAT.base → u.reg k = s.reg k) ∧
        u.load.nextSrc = (if s.calState = calWaiting ∧ s.load.src = 0 ∧ s.phase = .running then 1 else s.load.nextSrc))))) ∧
  ((∀ (s : State) (b : List Byte) (op : Nat) (i : Instr), (op, i) ∈ strikeCommands b → linkForm op b = true →
    s.isManager = true ∨ s.fabricOn = false ∨ s.targeted b = false → Completes i s (fun u => u = s)) ∧
  (∀ (s : State) (b : List Byte) (op : Nat) (i : Instr), (op, i) ∈ destCommands b → linkForm op b = true →
    s.isManager = true ∨ s.fabricOn = false ∨ s.addressed (byteAt b 4) = false → Completes i s (fun u => u = s)) ∧
  (∀ s : State, s.addressed 0xFF = true) ∧
  (∀ (s : State) (d : Nat), 1 ≤ d → d ≤ 63 → s.hasNumber = true → s.link.dupStop = false →
    s.addressed d = decide (d = s.devNo)) ∧
  (∀ (s : State) (b : List Byte), s.hasNumber = true → s.link.dupStop = false →
    s.targeted b = (leAt b 12 8).testBit s.devNo) ∧
  (∀ (s : State) (d : Nat), d ≠ 0xFF → s.hasNumber = false ∨ s.link.dupStop = true → s.addressed d = false))

/-- ARM, CANCEL and BEAT (R88–R91, R101). An ARM whose strike ID is quarantined or open, and a CANCEL whose ID is quarantined or
not the slot's, only count; another refusal is reported. An ARM arms the slot at the carried tick under the carried ID; a CANCEL
closes it; the slot's entry is read for it (R477). BEAT, at least 200 ticks ahead on a synced worker, gives the next boundary and its number; a repeat changes
nothing. The boundaries missed are those between the number expected and the one carried, and the one of a BEAT not taken;
they are counted at the next boundary taken. -/
def Obligations.StrikeCommandsAct : Prop :=
  (∀ (r : State) (b : List Byte), Hears 0x01 b r → Completes (.arm b) r (fun u =>
    let n := byteAt b 1
    let s := r.readEntry n
    let id := leAt b 2 2
    let e := s.entryBytes n
    u = if (s.idQuarantined id || s.idOpen id) = true then s.bump F.ESC_CNT_STALE_ID
      else if (!entryValid e || !s.entryOk e) = true then s.refuseLink n 3 id
      else if entryScope e ≠ 1 then s.refuseLink n 5 id
      else if s.sync ≠ syncSynced ∧ s.sync ≠ syncManager then s.refuseLink n 4 id
      else if (s.slot n).armed = true then s.refuseLink n 2 id
      else if leAt b 4 8 < s.tick + 200 then s.refuseLink n 1 id
      else s.setSlot n { s.slot n with armed := true, launch := leAt b 4 8, id := id, targets := 0, ownRun := true })) ∧
  (∀ (r : State) (b : List Byte), Hears 0x02 b r → Completes (.cancel b) r (fun u =>
    let n := byteAt b 1
    let s := r.readEntry n
    let id := leAt b 2 2
    let e := s.entryBytes n
    u = if (s.idQuarantined id || !((s.slot n).armed && (s.slot n).id == id)) = true then s.bump F.ESC_CNT_STALE_ID
      else if (!entryValid e || !s.entryOk e) = true then s.refuseLink n 3 id
      else if entryScope e ≠ 1 then s.refuseLink n 5 id
      else if s.sync ≠ syncSynced ∧ s.sync ≠ syncManager then s.refuseLink n 4 id
      else if (s.slot n).launch < s.tick + 200 then s.refuseLink n 1 id
      else s.closeSlot n)) ∧
  (∀ (s : State) (b : List Byte), Hears 0x03 b s → s.beat.next ≠ some (leAt b 4 8) → s.on F.ESC_BEAT_STAT_RUN = false →
    s.beat.merged = false → s.sync = syncSynced → s.tick + 200 ≤ leAt b 4 8 → Completes (.beat b) s (fun u =>
      u = { s with beat := { s.beat with
        seen := some (leAt b 20 4, leAt b 4 8), prior := s.beat.seen, next := some (leAt b 4 8), nextNum := leAt b 20 4 } })) ∧
  (∀ (s : State) (b : List Byte), Hears 0x03 b s → s.beat.next ≠ some (leAt b 4 8) → s.on F.ESC_BEAT_STAT_RUN = true →
    s.get F.ESC_BEAT_NUM ≠ leAt b 20 4 → s.beat.merged = false → s.sync = syncSynced → s.tick + 200 ≤ leAt b 4 8 →
    Completes (.beat b) s (fun u => u.beat.next = some (leAt b 4 8) ∧ u.beat.nextNum = leAt b 20 4 ∧
      u.regs = s.regs ∧ u.events = s.events ∧
      (s.beat.next = none → s.beat.nextNum = leAt b 20 4 → u.beat.missed = s.beat.missed ∧ u.beat.merged = false) ∧
      (∀ g : Nat, s.beat.next = none → 0 < g → g < 2 ^ 31 → leAt b 20 4 = s.beat.nextNum + g →
        u.beat.missed = s.beat.missed + g ∧ u.beat.merged = true))) ∧
  (∀ (s : State) (b : List Byte) (g : Nat), Hears 0x03 b s → s.beat.next = none → s.on F.ESC_BEAT_STAT_RUN = true →
    s.get F.ESC_BEAT_NUM ≠ leAt b 20 4 → s.beat.merged = false → s.sync ≠ syncSynced ∨ leAt b 4 8 < s.tick + 200 →
    g < 2 ^ 31 → leAt b 20 4 = s.beat.nextNum + g → Completes (.beat b) s (fun u =>
      u.beat.missed = s.beat.missed + g + 1 ∧ u.beat.merged = true ∧ u.beat.next = none ∧
        u.beat.nextNum = (leAt b 20 4 + 1) % 2 ^ 32 ∧ u.regs = s.regs)) ∧
  (∀ (s : State) (b : List Byte), Hears 0x03 b s → s.beat.next = some (leAt b 4 8) ∨ (s.on F.ESC_BEAT_STAT_RUN = true ∧
    s.get F.ESC_BEAT_NUM = leAt b 20 4) → Completes (.beat b) s (fun u => u = s)) ∧
  (∀ (s : State) (b : List Byte), Hears 0x03 b s → s.beat.next ≠ some (leAt b 4 8) → s.on F.ESC_BEAT_STAT_RUN = false →
    s.beat.merged = false → s.sync ≠ syncSynced ∨ leAt b 4 8 < s.tick + 200 → Completes (.beat b) s (fun u =>
      u.beat.missed = s.beat.missed + 1 ∧ u.beat.merged = true ∧ u.regs = s.regs ∧
        u.beat.next = s.beat.next ∧ u.beat.nextNum = (leAt b 20 4 + 1) % 2 ^ 32))

/-- Remote reads and writes (R156): a count outside 1 to 8 or words outside the space are out of range, an empty point and a
point without the access bit refuse the whole request, the window and the test block are denied; a request refused changes
nothing but its reply, its answer and LINK/L0. A read fetches its words, a write writes them in order, each an access of
rank 13. The records of the points are read first, and what the error code finds in them is found then (R477). A request that carries the tag of a reply still held is ignored (R134).
Where a rule leaves a choice the model's is meant: log entry 25. -/
def Obligations.RemoteAccessesAct : Prop :=
  (∀ (s : State) (b : List Byte) (op : Nat) (i : Instr), (op, i) ∈ [(0x21, .ptRead b), (0x22, .ptWrite b), (0x23, .regRead b),
    (0x24, .regWrite b)] → Hears op b s → wantsReply b = true → s.replyHeld (byteAt b 2) = true →
    Completes i s (fun u => u = s)) ∧
  (∀ (r : State) (b : List Byte), Hears 0x21 b r → r.heldTag b = false → Completes (.ptRead b) r (fun u =>
    let s := r.readAsked b
    (s.pointsOk b false ≠ 0 → u = s.ptDone b (s.pointsOk b false) [] s.tick) ∧
    (s.pointsOk b false = 0 → let r := s.fetch .link 1 (0x9000 + leAt b 5 2 % 2048) (byteAt b 7)
      u = r.2.ptDone b 0 (r.1.map (fun y => y.1)) s.tick))) ∧
  (∀ (r : State) (b : List Byte), Hears 0x22 b r → r.heldTag b = false → Completes (.ptWrite b) r (fun u =>
    let s := r.readAsked b
    (s.pointsOk b true ≠ 0 → u = s.ptDone b (s.pointsOk b true) [] s.tick) ∧
    (s.pointsOk b true = 0 → u = (s.burst .link 1 (0x9000 + leAt b 5 2 % 2048) (cmdWords b)).ptDone b 0 [] s.tick))) ∧
  (∀ (s : State) (b : List Byte), Hears 0x23 b s → s.heldTag b = false → let c := countCheck (byteAt b 7) (regsCheck (leAt b 5 2) (byteAt b 7))
    Completes (.regRead b) s (fun u =>
      (c ≠ 0 → u = s.ptDone b c [] s.tick) ∧
      (c = 0 → let r := s.fetch .link 1 (leAt b 5 2) (byteAt b 7)
        u = r.2.ptDone b 0 (r.1.map (fun y => y.1)) s.tick))) ∧
  (∀ (s : State) (b : List Byte), Hears 0x24 b s → s.heldTag b = false → let c := countCheck (byteAt b 7) (regsCheck (leAt b 5 2) (byteAt b 7))
    Completes (.regWrite b) s (fun u =>
      (c ≠ 0 → u = s.ptDone b c [] s.tick) ∧
      (c = 0 → u = (s.burst .link 1 (leAt b 5 2) (cmdWords b)).ptDone b 0 [] s.tick))) ∧
  (∀ (s : State) (b : List Byte), s.sramRaw = [] → s.readAsked b = s) ∧
  (∀ (s : State) (b : List Byte), s.pointsOk b false = 0 ↔ 1 ≤ byteAt b 7 ∧ byteAt b 7 ≤ 8 ∧
    leAt b 5 2 % 2048 + byteAt b 7 ≤ 2048 ∧ ∀ i, i < byteAt b 7 →
      (s.pointRec (leAt b 5 2 % 2048 + i)).1 ≠ 0 ∧ (s.pointRec (leAt b 5 2 % 2048 + i)).2.2.testBit 0 = true) ∧
  (∀ (s : State) (b : List Byte), s.pointsOk b true = 0 ↔ 1 ≤ byteAt b 7 ∧ byteAt b 7 ≤ 8 ∧
    leAt b 5 2 % 2048 + byteAt b 7 ≤ 2048 ∧ ∀ i, i < byteAt b 7 →
      (s.pointRec (leAt b 5 2 % 2048 + i)).1 ≠ 0 ∧ (s.pointRec (leAt b 5 2 % 2048 + i)).2.2.testBit 1 = true) ∧
  (∀ (s : State) (b : List Byte) (r t : Nat) (ws : List Word), wantsReply b = true → (∀ x ∈ s.link.replies, x.tag ≠ byteAt b 2) →
    (s.ptDone b r ws t).link.replies =
      s.link.replies ++ [⟨byteAt b 2, s.link.accepted.getD (s.tick / 4000), t, leBytes r 4 ++ bytesOf ws⟩]) ∧
  (∀ (s : State) (b : List Byte) (r t : Nat) (ws : List Word), wantsAns b = true →
    (s.ptDone b r ws t).link.answers.head? =
      some (s.link.accepted.getD (s.tick / 4000), if r = 0 then ansReady else ansRefuse)) ∧
  (∀ (s : State) (b : List Byte) (r t : Nat) (ws : List Word), (s.ptDone b r ws t).regs = s.regs ∧
    (s.ptDone b r ws t).sram = s.sram ∧ (s.ptDone b 0 ws t).events = s.events)

/-- The stage of a worker (R159–R165). STG_OPEN opens it, and keeps the chunks of a stage already open under its ID;
STG_DATA stores a chunk and starts the checks once every chunk is there; STG_PREPARE, CMT_CHECK answer in the status word;
COMMIT and ABORT arm a stage for a tick at least 200 ahead and before T_d, a commit only a ready one. A command under another
ID only counts.
An image delivery on a worker (R170, R171). DLV_START makes a worker that waits for an image take part, and one that is
loaded only for a reload that R67 accepts; DLV_DATA takes the chunk expected next, ignores one before it, and breaks off at a
gap with code 0x0E; DLV_QUERY answers the outcome, and ends a delivery whose last chunk has not come (log entry 49).
Where a rule leaves a choice the model's is meant: log entries 26 and 49. -/
def Obligations.StageAndDeliveryCommandsAct : Prop :=
  ((∀ (s : State) (b : List Byte), Hears 0x28 b s → wantsAns b = true → let id := leAt b 8 2
    Completes (.stgOpen b) s (fun u =>
      (s.calState ≠ calLoaded ∨ s.idQuarantined id = true ∨ s.stgState = stgStale ∨ (s.stgState ≠ 0 ∧ s.stgId ≠ id) →
        u = s.setAnswer ansRefuse) ∧
      (s.calState = calLoaded → s.idQuarantined id = false → s.stgState = 0 →
        u.stgState = stgOpen ∧ u.stgId = id ∧ u.openIds = s.openIds ++ [id] ∧
          u.stage = { npar := leAt b 10 2, dead := leAt b 12 8, len := leAt b 20 4 } ∧
          u.link.answers.head? = some (s.link.accepted.getD (s.tick / 4000), ansReady)) ∧
      (s.calState = calLoaded → s.idQuarantined id = false → s.stgState ≠ 0 → s.stgState ≠ stgStale → s.stgId = id →
        u = s.setAnswer ansReady))) ∧
  (∀ (s : State) (b : List Byte), Hears 0x29 b s → Completes (.stgData b) s (fun u =>
    ((s.stgState ≠ stgOpen ∧ s.stgState ≠ stgReady) ∨ chunksOf s.stage.len ≤ leAt b 5 2 → u = s) ∧
    (s.stgState = stgOpen ∨ s.stgState = stgReady → leAt b 5 2 < chunksOf s.stage.len →
      u.stgState = stgOpen ∧ leAt b 5 2 ∈ u.stage.got ∧ (∀ c, c ≠ leAt b 5 2 → (c ∈ u.stage.got ↔ c ∈ s.stage.got)) ∧
      (u.stage.checking = true ↔ ∀ c, c < chunksOf s.stage.len → c = leAt b 5 2 ∨ c ∈ s.stage.got) ∧
      (s.sramRaw = [] → ∀ k, k ≠ F.HIER_STAT.base → u.reg k = s.reg k)))) ∧
  (∀ (s : State) (b : List Byte), Hears 0x2A b s → wantsAns b = true →
    let same := s.stgId = leAt b 8 2 ∧ s.stage.npar = leAt b 10 2 ∧ s.stage.len = leAt b 12 4
    Completes (.stgPrepare b) s (fun u => u = s.setAnswer
      (if (s.stgState ≠ stgOpen ∧ s.stgState ≠ stgReady) ∨ ¬same then ansNone
       else if s.stgState = stgReady then ansReady
       else if s.stageWhole = false then ansStale
       else if s.stage.failed = true then ansRefuse else ansNone))) ∧
  (∀ (s : State) (b : List Byte) (c : Bool), (if c then Hears 0x2B b s else Hears 0x2C b s) →
    let st := s.stgState
    let t := leAt b 12 8
    let ready := st = stgReady ∨ (st = stgStale ∧ s.stage.failed = false ∧ s.stage.checking = false ∧ s.stageWhole = true)
    Completes (if c then .commit b else .abortStage b) s (fun u =>
      (st = 0 ∨ s.stgId ≠ leAt b 8 2 → u = s.bump F.ESC_CNT_STALE_ID) ∧
      (s.stgId = leAt b 8 2 → st = stgCommit ∨ st = stgAbort → u = s) ∧
      (s.stgId = leAt b 8 2 → st ≠ 0 → st ≠ stgCommit → st ≠ stgAbort →
        s.tick + 200 ≤ t ∧ (t < s.stage.dead ∨ st = stgStale) ∧ (c = true → ready) →
        u.stgState = (if c then stgCommit else stgAbort) ∧ u.stage.armedAt = some t ∧ u.stgId = s.stgId) ∧
      (s.stgId = leAt b 8 2 → st ≠ 0 → st ≠ stgCommit → st ≠ stgAbort →
        ¬(s.tick + 200 ≤ t ∧ (t < s.stage.dead ∨ st = stgStale) ∧ (c = true → ready)) →
        u = s.raiseReg 13 4 0 F.HIER_STAT))) ∧
  (∀ (s : State) (b : List Byte), Hears 0x2D b s → wantsAns b = true → Completes (.cmtCheck b) s (fun u => u = s.setAnswer
    (if s.get F.HIER_LAST_OUT = 1 ∧ s.get F.HIER_LAST_ID = leAt b 8 2 then ansReady
     else if s.stgState = stgStale ∧ s.stgId = leAt b 8 2 then ansStale else ansRefuse)))) ∧
  ((∀ (s : State) (b : List Byte), Hears 0x30 b s → s.phase = .running →
    (s.calState = calWaiting ∧ s.load.src = 0 ∧ s.load.nextSrc = 0) ∨ (s.calState ≠ calRestrict ∧
      s.load.src = srcDelivery) → Completes (.dlvStart b) s (fun u => u.calState = calLoading ∧ u.load.src = srcDelivery ∧
      u.load.bytes = [] ∧ u.load.stage = 0 ∧ u.deliv.takes = true ∧ u.deliv.next = 0 ∧ u.stgState = 0)) ∧
  (∀ (s : State) (b : List Byte), Hears 0x30 b s → s.phase ≠ .running ∨ s.calState = calRestrict ∨
    (s.load.src ≠ 0 ∧ s.load.src ≠ srcDelivery) ∨ (s.calState = calWaiting ∧ s.load.src = 0 ∧ s.load.nextSrc ≠ 0) ∨
    (s.calState = calLoaded ∧ s.load.src = 0 ∧ (byteAt b 5).testBit 0 = false) → Completes (.dlvStart b) s (fun u =>
      u = { s with deliv := { s.deliv with takes := false, outcome := 0 } })) ∧
  (∀ (s : State) (b : List Byte), Hears 0x30 b s → s.phase = .running → s.calState = calLoaded → s.load.src = 0 →
    (byteAt b 5).testBit 0 = true → s.reloadOk = false → Completes (.dlvStart b) s (fun u =>
      u = { s.failCode 0x10 srcDelivery with deliv := { s.deliv with takes := false, outcome := ansRefuse } })) ∧
  (∀ (s : State) (b : List Byte), Hears 0x30 b s → s.phase = .running → s.calState = calLoaded → s.load.src = 0 →
    (byteAt b 5).testBit 0 = true → s.reloadOk = true → Completes (.dlvStart b) s (fun u =>
      u.calState = calLoading ∧ u.load.src = srcDelivery ∧ u.deliv.takes = true ∧ u.deliv.next = 0)) ∧
  (∀ (s : State) (b : List Byte), Hears 0x31 b s → s.deliv.takes = true → s.load.src = srcDelivery → s.load.stage ≠ 3 →
    let c := leAt b 5 3
    Completes (.dlvData b) s (fun u =>
      (c < s.deliv.next → u = s) ∧
      (s.deliv.next < c → u = { s.loadFail 0x0E with deliv := { s.deliv with takes := false, outcome := ansStale } }) ∧
      (c = s.deliv.next → let t := ({ s with load := { s.load with lastAt := s.now } } : State).loadFeed (slice b 8 32)
        (t.load.src = 0 → u = { t with deliv := { s.deliv with takes := false, outcome := ansRefuse } }) ∧
        (t.load.src ≠ 0 → u = { t with deliv := { s.deliv with next := s.deliv.next + 1 } })))) ∧
  (∀ (s : State) (b : List Byte), Hears 0x31 b s → s.deliv.takes = false ∨ s.load.src ≠ srcDelivery ∨ s.load.stage = 3 →
    Completes (.dlvData b) s (fun u => u = s)) ∧
  (∀ (s : State) (b : List Byte), Hears 0x32 b s → Completes (.dlvQuery b) s (fun u =>
    let t := s.dlvBroken
    u = if wantsAns b then t.setAnswer t.deliv.outcome else t)) ∧
  (∀ s : State, s.deliv.takes = false ∨ s.load.src ≠ srcDelivery ∨ s.load.stage = 3 → s.dlvBroken = s) ∧
  (∀ s : State, s.deliv.takes = true → s.load.src = srcDelivery → s.load.stage ≠ 3 → let u := s.dlvBroken
    u.deliv.takes = false ∧ u.deliv.outcome = ansStale ∧ u.get F.CAL_STAT_FAIL_CODE = 0x0E ∧ u.calState = calWaiting))

/-! ### The manager of a hierarchy (R154–R171, R305–R307) -/

/-- HIER_RA_CMD on a manager (R155–R157): busy while this party's access runs; a broadcast read and a target outside the
space are out of range, and a worker that is not there is lost. Otherwise BUSY is set: an access to device 0 goes word by word
through the fabric, the records of its points read first (R477), any other is queued as one command, a read with REQ, a write with answer with ANS.
Where a rule leaves a choice the model's is meant: log entry 25. -/
def Obligations.RemoteAccessIsQueued : Prop :=
  ∀ (s : State) (p : Party) (op : Fin 4), op ≠ 0 →
    Grants p (if op = 1 then .raRead p else if op = 2 then .raWrite p else .raWriteAns p) s (fun c =>
      let k := p.code
      let t := c.get (F.HIER_RA_ADDR_TARGET.bk k)
      let n := c.get (F.HIER_RA_ADDR_COUNT.bk k) + 1
      let bcast := c.on (F.HIER_RA_ADDR_BCAST.bk k)
      let regMode := c.on (F.HIER_RA_ADDR_MODE.bk k)
      let dev := if regMode then t / 65536 else t / 2048 % 64
      let a := if regMode then t % 65536 else t % 2048
      let b := c.put (F.HIER_RA_STAT_BUSY.bk k) 1
      let data := (List.range n).map (fun i => c.reg ((F.HIER_RA_DATA.bk k).addr i))
      let l := b.readPoints a n
      let wait (word : Option Word) (a : Nat) (r : RaStep) : State :=
        { l with waiting := l.waiting ++ [{ party := p, addr := a, word := word, ra := some r }] }
      if c.isManager = false ∨ p.urgent = true then c.notice p F.HIER_RA_CMD.base
      else if c.on (F.HIER_RA_STAT_BUSY.bk k) = true then c.put (F.HIER_RA_STAT_RESULT.bk k) raBusy
      else if (bcast = true ∧ op = 1) ∨ (regMode = false ∧ 131072 ≤ t) ∨
          (regMode = true ∧ bcast = false ∧ dev = 0) then c.raDone k raRange
      else if bcast = false ∧ dev = 0 then
        (if l.pointsCheck (op != 1) a n = 0 then
          wait (if op = 1 then none else some (l.reg ((F.HIER_RA_DATA.bk k).addr 0))) (0x9000 + a)
            (.word 0 n (if op = 1 then [] else
              ((List.range n).map (fun i => l.reg ((F.HIER_RA_DATA.bk k).addr i))).drop 1))
        else wait none F.HIER_RA_CMD.base (.done (l.pointsCheck (op != 1) a n)))
      else if bcast = false ∧ c.maskBit F.LINK_WKR dev = false then c.raDone k raLost
      else b.queueCmd 4 (cmdBytes ((if regMode then 0x23 else 0x21) + (if op = 1 then 0 else 1))
          (if op = 1 then flagReq else if op = 3 ∧ bcast = false then flagAns else 0) (if bcast then 0xFF else dev)
          (a % 256) (a / 256) n (if op = 1 then [] else bytesOf data))
        (if op = 2 ∨ (op = 3 ∧ bcast = true) then .bcast k else .ra k))

/-- A write of HIER_STG_DATA writes a word of the stage area and moves WORD on, with wrap; it is ignored while a commit runs or
an own stage stands, and on a worker (R158).
HIER_CMT_CMD on a manager (R158–R167): with a commit under way another party is busy and OPEN is busy for its owner; with
none, every other command is out of order, and so are SEND, PREPARE, COMMIT and ABORT once the commit is decided. On a worker a
command is ignored with a Notice.
Where a rule leaves a choice the model's is meant: log entry 26. -/
def Obligations.CommitsAreStaged : Prop :=
  (∀ (s : State) (p : Party) (w : Word), Grants p (.hierStgData p w) s (fun c =>
    let word := c.get F.HIER_STG_ADDR_WORD
    let next := if word + 1 < 6144 then word + 1 else 0
    if c.isManager = false then c.notice p F.HIER_STG_DATA.base
    else if c.cmtPhase ≠ 0 ∨ c.stgState ≠ 0 then (c.notice p F.HIER_STG_DATA.base).put F.HIER_STG_ADDR_WORD next
    else (c.portWrite p (sramKey 8 (10240 + word)) w).put F.HIER_STG_ADDR_WORD next)) ∧
  ((∀ (s : State) (p : Party) (dev : BitVec 6) (i : Instr), i ∈ [.openCmt p, .sendCmt p, .prepareCmt p, .cmtCommit p,
    .cmtAbort p, .repairCommit p dev, .repairAbort p dev, .close p] → s.isManager = false →
    Grants p i s (fun c => c.notice p F.HIER_CMT_CMD.base)) ∧
  (∀ (s : State) (p : Party) (dev : BitVec 6) (i : Instr), i ∈ [.openCmt p, .sendCmt p, .prepareCmt p, .cmtCommit p,
    .cmtAbort p, .repairCommit p dev, .repairAbort p dev, .close p] → s.isManager = true → s.cmtPhase ≠ 0 →
    s.get F.HIER_CMT_STAT_OWNER ≠ p.code → Grants p i s (fun c => c.put F.HIER_CMT_STAT_RESULT cmtBusy)) ∧
  (∀ (s : State) (p : Party), s.isManager = true → s.cmtPhase ≠ 0 → s.get F.HIER_CMT_STAT_OWNER = p.code →
    Grants p (.openCmt p) s (fun c => c.put F.HIER_CMT_STAT_RESULT cmtBusy)) ∧
  (∀ (s : State) (p : Party) (dev : BitVec 6) (i : Instr), i ∈ [.sendCmt p, .prepareCmt p, .cmtCommit p, .cmtAbort p,
    .repairCommit p dev, .repairAbort p dev, .close p] → s.isManager = true → s.cmtPhase = 0 →
    Grants p i s (fun c => c.put F.HIER_CMT_STAT_RESULT cmtOrder)) ∧
  (∀ (s : State) (p : Party) (i : Instr), i ∈ [.sendCmt p, .prepareCmt p, .cmtCommit p, .cmtAbort p] →
    s.isManager = true → s.cmtPhase ≠ 0 → s.cmtPhase ≠ cmtStaging → s.cmtPhase ≠ cmtPreparing →
    s.get F.HIER_CMT_STAT_OWNER = p.code → Grants p i s (fun c => c.put F.HIER_CMT_STAT_RESULT cmtOrder)))

/-- OPEN takes a strike ID for a commit of its targets, with T_d at least 36,000 ticks ahead, and queues the stage for the
workers; SEND queues every chunk again for the workers not ready; PREPARE asks for readiness again (R158, R160).
COMMIT and ABORT decide (R161): COMMIT needs READY equal to TGT, both a tick at least 12,000 ahead, 200 for the manager
alone, and before T_d. A decision queues the command to the workers and arms the manager's own stage. A repair sends it again
to a stale worker at a tick at least 12,000 ahead, an undecided commit's as an abort (R166; log entry 49); CLOSE closes the ID and returns the unit to idle (R167).
Where a rule leaves a choice the model's is meant: log entries 26 and 49. -/
def Obligations.CommitsOpenAndDecide : Prop :=
  ((∀ (s : State) (p : Party), s.isManager = true → s.cmtPhase = 0 →
    let td (c : State) : Int := c.tickOf (s.get F.HIER_CMT_DEAD_VALUE)
    s.Quiet → s.admits p = true → Completes (.openCmt p) s (fun u => ∃ c, s.NextCycle c ∧
      (td c - c.tick < 36000 ∨ 2 ^ 31 - 1 < td c - c.tick ∨ s.cmtTgt = 0 ∨ s.get F.HIER_CMT_LEN_STAGE_LEN < 20 ∨
        24576 < s.get F.HIER_CMT_LEN_STAGE_LEN ∨ s.get F.HIER_CMT_LEN_NPAR = 0 →
        u = c.put F.HIER_CMT_STAT_RESULT cmtRange) ∧
      (36000 ≤ td c - c.tick → td c - c.tick ≤ 2 ^ 31 - 1 → s.cmtTgt ≠ 0 → 20 ≤ s.get F.HIER_CMT_LEN_STAGE_LEN →
        s.get F.HIER_CMT_LEN_STAGE_LEN ≤ 24576 → s.get F.HIER_CMT_LEN_NPAR ≠ 0 →
        (s.cmtSelf = true ∧ s.stgState ≠ 0 → u = c.put F.HIER_CMT_STAT_RESULT cmtOrder) ∧
        (s.cmtSelf = false ∨ s.stgState = 0 →
          u.get F.HIER_CMT_STAT_RESULT = cmtOk ∧ u.get F.HIER_CMT_STAT_OWNER = p.code ∧ u.cmtId = c.takeId.1 % 65536 ∧
            u.cmtPhase = (if s.cmtWorkers = 0 then cmtPreparing else cmtStaging) ∧ u.commit.dead = td c ∧
            u.get64 F.HIER_CMT_READY = 0 ∧ u.get64 F.HIER_CMT_DONE = 0 ∧
            (s.cmtSelf = true → u.stgState = stgOpen ∧ u.stage.dead = (td c).toNat) ∧
            (s.cmtWorkers = 0 → u.link.queue = c.link.queue) ∧
            (s.cmtWorkers ≠ 0 → u.link.queue.length =
              c.link.queue.length + 2 + chunksOf (s.get F.HIER_CMT_LEN_STAGE_LEN)))))) ∧
  (∀ (s : State) (p : Party), s.isManager = true → s.cmtPhase = cmtStaging ∨ s.cmtPhase = cmtPreparing →
    s.get F.HIER_CMT_STAT_OWNER = p.code → s.Quiet → s.admits p = true → Completes (.sendCmt p) s (fun u =>
      u.get F.HIER_CMT_STAT_RESULT = cmtOk ∧ u.cmtPhase = (if s.cmtWorkers = 0 then cmtPreparing else cmtStaging) ∧ u.commit.prepareTo = s.notReady ∧
        u.link.queue.length = s.link.queue.length + s.notReady.length * chunksOf (s.get F.HIER_CMT_LEN_STAGE_LEN))) ∧
  (∀ (s : State) (p : Party), s.isManager = true → s.cmtPhase = cmtStaging ∨ s.cmtPhase = cmtPreparing →
    s.get F.HIER_CMT_STAT_OWNER = p.code → Grants p (.prepareCmt p) s (fun c =>
      let t := c.put F.HIER_CMT_STAT_RESULT cmtOk
      if s.cmtWorkers = 0 then (t.put F.HIER_CMT_STAT_PHASE cmtPreparing).selfCheck
      else { t with commit := { t.commit with prepareDue := true, prepareTo := [] } }))) ∧
  ((∀ (s : State) (p : Party) (commit : Bool), s.isManager = true → s.cmtPhase = cmtStaging ∨ s.cmtPhase = cmtPreparing →
    s.get F.HIER_CMT_STAT_OWNER = p.code → s.Quiet → s.admits p = true →
    Completes (if commit then .cmtCommit p else .cmtAbort p) s (fun u => ∃ c, s.NextCycle c ∧
      let tc := c.tickOf (s.get F.HIER_CMT_TICK_VALUE)
      let ready := commit = true → s.get64 F.HIER_CMT_READY = s.cmtTgt
      let lead : Int := if s.cmtWorkers = 0 then 200 else 12000
      (¬ready → u = c.put F.HIER_CMT_STAT_RESULT cmtNotReady) ∧
      (ready → tc - c.tick < lead → u = c.put F.HIER_CMT_STAT_RESULT cmtLate) ∧
      (ready → lead ≤ tc - c.tick → s.commit.dead ≤ tc → u = c.put F.HIER_CMT_STAT_RESULT cmtRange) ∧
      (ready → lead ≤ tc - c.tick → tc < s.commit.dead →
        u.get F.HIER_CMT_STAT_RESULT = cmtOk ∧ u.cmtPhase = (if commit then cmtCommit else cmtAborting) ∧
          u.commit.decided = some commit ∧ u.commit.tick = tc.toNat ∧
          u.link.queue = (if s.cmtWorkers = 0 then c.link.queue else c.link.queue ++ [⟨2,
            cmdBytes (if commit then 0x2B else 0x2C) 0 (destSet 3) 0 0 0
              (leBytes s.cmtId 2 ++ [0, 0] ++ leBytes tc.toNat 8), .none⟩]) ∧
          (s.cmtSelf = true → s.stgState ≠ 0 → u.stage.armedAt = some tc.toNat ∧
            u.stgState = (if commit then stgCommit else stgAbort))))) ∧
  (∀ (s : State) (p : Party) (commit : Bool) (dev : BitVec 6), s.isManager = true → s.cmtPhase ≠ 0 →
    s.get F.HIER_CMT_STAT_OWNER = p.code →
    Grants p (if commit then .repairCommit p dev else .repairAbort p dev) s (fun c =>
      let tc := c.tickOf (c.get F.HIER_CMT_TICK_VALUE)
      if c.commit.decided.getD false ≠ commit ∨ c.maskBit F.HIER_CMT_STALE dev.toNat = false then
        c.put F.HIER_CMT_STAT_RESULT cmtOrder
      else if tc - c.tick < 12000 then c.put F.HIER_CMT_STAT_RESULT cmtLate
      else
        let t := (c.put F.HIER_CMT_STAT_RESULT cmtOk).queueCmd 2 (cmdBytes (if commit then 0x2B else 0x2C) 0 dev.toNat 0 0 0
          (leBytes c.cmtId 2 ++ [0, 0] ++ leBytes tc.toNat 8))
        { t with commit := { t.commit with
          decided := some commit
          repairs := t.commit.repairs.filter (fun r => r.1 != dev.toNat) ++ [(dev.toNat, tc.toNat)] } })) ∧
  (∀ (s : State) (p : Party), s.isManager = true → s.cmtPhase ≠ 0 → s.get F.HIER_CMT_STAT_OWNER = p.code → s.Quiet →
    s.admits p = true → Completes (.close p) s (fun u => u.cmtPhase = 0 ∧ u.cmtId = 0 ∧ u.get F.HIER_CMT_STAT_RESULT = cmtOk ∧
      u.commit = {} ∧ (∀ c ∈ u.link.queue, c ∈ s.link.queue ∧ commitPurpose c.purpose = false) ∧
      (s.stgState = stgOpen ∨ s.stgState = stgReady → u.stgState = 0))))

/-- The checks of a whole stage end with the stage ready, or with the code of the first fault, what the error code finds in its words found as they are read (R69, R160, R477). At the armed tick a
commit applies its parcels, and the stage of a commit or abort is freed with its outcome in HIER_LAST (R163). A worker's stage
with nothing armed is stale from T_d on (R164).
Where a rule leaves a choice the model's is meant: log entries 26 and 49. -/
def Obligations.StagesEnd : Prop :=
  (∀ s : State, s.stage.checking = false ∨ (s.stgState ≠ stgOpen ∧ s.stgState ≠ stgStale) → Completes .stageChecksDone s (fun u => u = s)) ∧
  (∀ s : State, s.stage.checking = true → s.stgState = stgOpen → s.isManager = false →
    Completes .stageChecksDone s (fun u =>
      let g := s.readStage s.stage.len
      let k := g.stageCode s.stage.npar s.stage.len
      let t : State := { g with stage := { s.stage with checking := false, failed := k != 0 } }
      u = if k = 0 then t.put F.HIER_STAT_STG_STATE stgReady else t.failCode k 5)) ∧
  (∀ s : State, s.stage.checking = true → s.stgState = stgStale → s.isManager = false →
    Completes .stageChecksDone s (fun u =>
      let g := s.readStage s.stage.len
      let k := g.stageCode s.stage.npar s.stage.len
      let t : State := { g with stage := { s.stage with checking := false, failed := k != 0 } }
      u = if k = 0 then t else t.failCode k 5)) ∧
  (∀ s : State, s.stage.checking = true → s.stgState = stgOpen → s.isManager = true →
    Completes .stageChecksDone s (fun u =>
      let k := (s.readStage s.stage.len).stageCode s.stage.npar s.stage.len
      u.maskBit F.HIER_CMT_READY 0 = decide (k = 0) ∧ u.maskBit F.HIER_CMT_REFUSE 0 = decide (k ≠ 0) ∧
        (k = 0 → u.stgState = stgReady))) ∧
  (∀ s : State, s.stage.armedAt = none ∨ s.ticking = false → Completes .commitApply s (fun u => u = s)) ∧
  (∀ (s : State) (t : Nat), s.stage.armedAt = some t → s.ticking = true → Completes .commitApply s (fun u =>
    u = if s.tick < t then ((s.passToTick (t - 1)).cycleWith State.batch).2 else s.batch.settle)) ∧
  (∀ s : State, s.isManager = false → s.stgState = stgCommit ∨ s.stgState = stgAbort →
    let out := if s.stgState = stgCommit then 1 else 2
    (s.stageApply).stgState = 0 ∧ (s.stageApply).get F.HIER_LAST_OUT = out ∧ (s.stageApply).stage = {}) ∧
  (∀ s : State, s.isManager = false → s.stgState = stgAbort → (s.stageApply).sram = s.sram ∧
    (s.stageApply).get F.HIER_LAST_ID = s.stgId) ∧
  (∀ s : State, s.stgState = 0 → Completes .stageStale s (fun u => u = s)) ∧
  (∀ s : State, s.stgState ≠ 0 → ComesAtTick .stageStale s (some s.stage.dead) State.stageStale) ∧
  (∀ s : State, s.isManager = false → s.stgState = stgOpen ∨ s.stgState = stgReady → s.stage.dead ≤ s.tick →
    (s.stageStale).stgState = stgStale ∧ (s.stageStale).stage = s.stage ∧
      (∀ k, k ≠ F.HIER_STAT.base → (s.stageStale).reg k = s.reg k))

/-- A check of a commit is sent in the first swing at or after the tick from which it is due (R165); DLV_QUERY in the swing in
which it may first ride (R171). Where none is due nothing happens.
HIER_DLV_CMD on a manager (R169): START reads the image in flash; without MAGIC, or while a delivery runs, its result says
so; otherwise it clears OK and FAIL and queues SELECT, DLV_START and every chunk. ABORT stops the sending.
The relay (R305–R307): once both reads of a device are there, its words are taken; without one it moves on. A mirror entry
that has not been written for 256 swings is stale.
Where a rule leaves a choice the model's is meant: log entries 11 and 25. -/
def Obligations.DeliveriesAndRelay : Prop :=
  ((∀ s : State, s.commit.checkAt = none → s.commit.repairs = [] → Completes .cmtCheckSend s (fun u => u = s)) ∧
  (∀ (s : State) (t : Nat), earlier s.commit.checkAt (earliest (s.commit.repairs.map (fun r => some r.2))) = some t →
    Completes .cmtCheckSend s (fun u => u = s.downSendAt ((t + 3999) / 4000))) ∧
  (∀ (s : State) (k : Nat), s.sendsFrames = true → let n := max k s.nextSwing
    (s.passToTick (4000 * n)).sendsFrames = true →
    s.downSendAt k = ((s.passToTick (4000 * n)).downBuild n).settle) ∧
  (∀ (s : State) (k t : Nat), s.commit.checkAt = some t → t ≤ 4000 * k →
    (s.swingCmds k).commit.checkAt = none ∧ (∃ c ∈ (s.swingCmds k).link.queue, c.purpose = .check ∧ c.op = 0x2D)) ∧
  (∀ s : State, s.deliv.queryAt = none → Completes .dlvQuerySend s (fun u => u = s)) ∧
  (∀ (s : State) (q : Nat), s.deliv.queryAt = some q → Completes .dlvQuerySend s (fun u => u = s.downSendAt q)) ∧
  (∀ (s : State) (k q : Nat), s.deliv.queryAt = some q → q ≤ k →
    (s.swingCmds k).deliv.queryAt = none ∧ (∃ c ∈ (s.swingCmds k).link.queue, c.purpose = .dlvQuery ∧ c.op = 0x32))) ∧
  ((∀ (s : State) (p : Party) (flash : List Byte) (reload : Bool), s.fabricOn = false ∨ s.admits p = false →
    exec (if reload then .startReload p flash else .dlvStartOp p flash) s = .next { s with flash := none }) ∧
  (∀ (s : State) (p : Party) (flash : List Byte) (reload : Bool), s.Quiet → s.admits p = true →
    ∃ c, ({ s with flash := some flash } : State).NextCycle c ∧
      exec (if reload then .startReload p flash else .dlvStartOp p flash) s = .next { State.settle (
        if s.isManager = false then c.notice p F.HIER_DLV_CMD.base
        else if s.on F.HIER_DLV_STAT_BUSY then c.put F.HIER_DLV_STAT_RESULT 1
        else if hasMagic flash = false then c.put F.HIER_DLV_STAT_RESULT 2
        else c.dlvBegin reload flash) with flash := none }) ∧
  (∀ (s : State) (reload : Bool) (flash : List Byte), s.on F.HIER_DLV_STAT_BUSY = false → hasMagic flash = true →
    let u := s.dlvBegin reload flash
    u.on F.HIER_DLV_STAT_BUSY = true ∧ u.get F.HIER_DLV_STAT_RESULT = 0 ∧ u.get64 F.HIER_DLV_OK = 0 ∧
      u.get64 F.HIER_DLV_FAIL = 0 ∧
      u.link.queue.length = s.link.queue.length + 2 + chunksOf (min (leAt flash 0xC 4) 524288)) ∧
  (∀ (s : State) (p : Party), s.isManager = true → Grants p (.dlvAbort p) s (fun c =>
    if c.on F.HIER_DLV_STAT_BUSY = false then c
    else
      let t := (c.put F.HIER_DLV_STAT_BUSY 0).put F.HIER_DLV_STAT_RESULT 0
      { t with
        deliv := { t.deliv with queryAt := none }
        link := { t.link with queue := t.link.queue.filter (fun x =>
          x.purpose != .dlvStart && x.purpose != .dlvData && x.purpose != .dlvQuery) } })) ∧
  (∀ (s : State) (p : Party), s.isManager = false → Grants p (.dlvAbort p) s (fun c => c.notice p F.HIER_DLV_CMD.base))) ∧
  ((∀ s : State, (∀ g ∈ s.relay.got, ¬(g.2.1 = 0 ∧ ∃ h ∈ s.relay.got, h.1 = g.1 ∧ h.2.1 = 1)) →
    Completes .relayDeviceUpdate s (fun u => u = s.relayMove)) ∧
  (∀ (s : State) (d : Fin 64) (w0 w1 : List Word), s.relay.got = [(d.val, 0, w0), (d.val, 1, w1)] →
    s.relay.running = true → s.Quiet → s.isManager = true → s.on F.SEQ_CTRL_RLY_EN = true → w0.length = 8 →
    Completes .relayDeviceUpdate s (fun u => (d.val, w0.drop 6 ++ w1) ∈ u.relay.rpar ∧
      ⟨4, regWriteBytes 0xFF (0x3B00 + 6 * d.val) (w0.take 6), .none⟩ ∈ u.link.queue)) ∧
  (∀ s : State, s.isManager = false ∨ s.on F.SEQ_CTRL_RLY_EN = false → (s.relayMove).relay.running = false ∧
    (s.relayMove).relay.todo = [] ∧ (s.relayMove).relay.out = [] ∧ (s.relayMove).relay.got = []) ∧
  (∀ (s : State) (d : Fin 64), Comes (.mirrorStale d) s ((tget s.mirAt d).map (fun t => t + 1024000)) (fun c =>
    { c.setMaskBit F.SEQ_MIR_STALE d true with mirAt := tset c.mirAt d none })))

/-! ### Conversion loops (R181–R234) -/

/-- A carrier boundary comes at its time (R217). At it the active set is the lowest-numbered of the available phases, as many
as NMIN, the shed count and a hint ask for (R181); the demand lies within the ceiling of IMAX_PH, the thermal ceiling and an
overload (R196, R197, R223); where no clock gives a target the period moves toward PERIOD by at most 1 % (R185). A change of
the active set scales the compensator's states by the old count over the new one (R210). The on-times of the cycle start spaced
over it, with the greatest length of DMAX; none starts where it is skipped or the brake is engaged (R183, R189, R190, R219).
Where a rule leaves a choice the model's is meant: log entries 5, 33 and 50. -/
def Obligations.LoopBoundaries : Prop :=
  (∀ (s : State) (n : Fin 8) (x : LoopSample), x.iph.length = 24 → Comes (.carrierBoundary n x) s
    ((s.lp n).bnd.map (fun t => t / 32)) (State.carrierBoundary n x)) ∧
  (∀ (s : State) (n : Fin 8), let t := s.fixActive n
    let av := s.availPhases n
    let req := max (min (s.lf n F.LOOPn_SHED_NMIN) (s.loopNph n)) (max (s.lp n).nShed (s.lp n).nHint)
    t.get F.LOOPn_STAT_NACT n = min req av.length ∧ (t.lp n).nactPrev = min req av.length ∧
      (t.lp n).activePrev = ((av.take (min req av.length)).foldl (fun m p => m + 2 ^ p) 0) ∧
      (∀ p : Fin 24, p.val ∈ av.take (min req av.length) → t.phState p = phActive) ∧
      (∀ p : Fin 24, s.phState p = phDropped → t.phState p = phDropped) ∧
      ((s.lp n).nactPrev = min req av.length → (t.lp n).int = (s.lp n).int ∧ (t.lp n).y1 = (s.lp n).y1 ∧
        (t.lp n).y2 = (s.lp n).y2) ∧
      ((s.lp n).nactPrev ≠ min req av.length → 0 < min req av.length →
        (((min req av.length : Nat) : Int) * (t.lp n).int - (s.lp n).int * (s.lp n).nactPrev).natAbs < min req av.length)) ∧
  (∀ (s : State) (n : Fin 8) (nact : Nat) (e : Int), let t := s.compensate n nact e
    let c := min (s.lf n F.LOOPn_CLAMP_IMAX_PH) (min (s.thermCeil n) (s.ovlCeil n nact))
    t.get F.LOOPn_DEMAND_D n ≤ c ∧ t.on F.LOOPn_STAT_CLAMP_HI n = (t.get F.LOOPn_DEMAND_D n == c) ∧ (t.lp n).ceil = c ∧
      (s.on F.LOOPn_TSTAT_BRAKING n = true → (t.lp n).int = (s.lp n).int)) ∧
  (∀ (s : State) (n : Fin 8) (t d : Nat) (p : Fin 24), p.val ∈ s.loopPhases n →
    let act := (s.loopPhases n).filter (fun q => s.phState q == phActive)
    let going := (s.phs p).starts.filter (fun e => decide (t < e.1 + e.2.1))
    let o := act.idxOf p.val * (s.lp n).per / act.length
    ((s.schedule n t d).phs p).starts =
      if s.phState p ≠ phActive then []
      else if ((s.lp n).skip || s.on F.LOOPn_TSTAT_BRAKING n) = true then going
      else going ++ [(t + o, s.lf n F.LOOPn_FSW_DMAX * (s.lp n).per / 256,
        if 640 ≤ o then s.get F.LOOPn_DEMAND_D n else d)]) ∧
  (∀ (s : State) (n : Fin 8) (t : Nat), s.loopOn n = true → s.loopClock n = 0 →
    let p : Int := s.lf n F.LOOPn_FSW_PERIOD
    let u := s.carrierNext n t
    (u.lp n).bnd = some (t + (u.lp n).per) ∧ ((((s.lp n).per : Int) + clampI (-(p / 100)) (p / 100) (p - (s.lp n).per)).toNat =
      (u.lp n).per))

/-- SYNC_IN (R186): the first edge starts the count; an interval within the limits and 20 % of PERIOD counts an edge, and the
fourth in a row locks a running loop; any other interval, or none within 1.25 times the last one, loses the lock with SYNC_LOST
and CLK_STATE 3. SYNC_OUT is low while no running loop is named, and rises at the named loop's boundary for half a period, rounded
down (R188).
An on-time ends at the earliest of the peak comparator's trip, the cycle-by-cycle limit and its greatest length; neither of the
first two acts in the blanking time (R189, R221). Its end leaves in IPK the code of the peak DAC that the demand of that on-time
asked for (R177, R206); one ended at the limit marks the cycle. Where a loop stands off, or the phase is not active, nothing
follows. PWMp is at mid-Z unless the phase is active in a running loop that does not brake (R179, R180, R219).
Where a rule leaves a choice the model's is meant: log entries 6, 33 and 50. -/
def Obligations.SyncAndOnTimes : Prop :=
  ((∀ (s : State) (t : Nat), s.syncIn.last = none → s.syncEdge t = { s with syncIn := { last := some t, interval := 0 } }) ∧
  (∀ (s : State) (d : Nat), Completes (.syncInEdge d) s (fun u =>
    let t := max (32 * s.now) (s.syncIn.last.getD (32 * s.now) + d)
    u = (s.passTo (t / 32)).syncEdge t)) ∧
  (∀ (s : State) (n : Fin 8) (e d : Nat), s.syncIn.last = some e → n.val ∈ s.syncLoops →
    let per := s.lf n F.LOOPn_FSW_PERIOD
    let ok := 1600 ≤ d ∧ d ≤ 16000 ∧ 8 * per ≤ 10 * d ∧ 10 * d ≤ 12 * per
    let u := s.syncEdge (e + d)
    u.syncIn.last = some (e + d) ∧ u.syncIn.interval = d ∧
      (ok → (u.lp n).edges = (s.lp n).edges + 1 ∧
        (u.lp n).locked = ((s.lp n).locked || (decide (4 ≤ (s.lp n).edges + 1) && s.loopOn n))) ∧
      (¬ok → (u.lp n).edges = 0 ∧ (u.lp n).locked = false ∧
        ((s.lp n).locked = true → u.on F.LOOPn_STAT_SYNC_LOST n = true ∧ u.get F.LOOPn_STAT_CLK_STATE n = 3))) ∧
  (∀ (s : State) (n : Fin 8), Comes (.syncInLost n) s
    (if n.val ∈ s.syncLoops ∧ s.syncIn.interval ≠ 0 then
      s.syncIn.last.map (fun e => (4 * e + 5 * s.syncIn.interval + 127) / 128) else none) (State.syncLoss n)) ∧
  (∀ (s : State) (n : Fin 8), let u := s.syncLoss n
    (u.lp n).locked = false ∧ (u.lp n).edges = 0 ∧
      ((s.lp n).locked = true → u.on F.LOOPn_STAT_SYNC_LOST n = true ∧ u.get F.LOOPn_STAT_CLK_STATE n = 3) ∧
      ((s.lp n).locked = false → u.regs = s.regs ∧ u.events = s.events)) ∧
  (∀ (s : State) (t : Nat), 8 ≤ s.cell 162 ∨ s.loopOn (s.cell 162) = false → s.syncOut t = false) ∧
  (∀ (s : State) (n : Fin 8) (b k : Nat), s.cell 162 = n.val → (s.lp n).bnd = some (b + (s.lp n).per) →
    (s.lp n).vSense ≠ none → k < (s.lp n).per → s.syncOut (b + k) = decide (k < (s.lp n).per / 2))) ∧
  ((∀ (s : State) (p : Fin 24) (xs : List (Nat × Int)), Comes (.onTimeEnd p xs) s
    ((s.onTimeEndAt p xs).map (fun t => t / 32)) (State.onTimeEnd p xs)) ∧
  (∀ (s : State) (p : Fin 24) (xs : List (Nat × Int)) (n t0 mx d : Nat) (tl : List (Nat × Nat × Nat)),
    s.loopOfPhase p = some n → s.loopOn n = true → s.phState p = phActive → (s.phs p).starts = (t0, mx, d) :: tl →
    let r := s.onTimeOf n mx d (xs.map (fun x => (x.1, s.phCurrent n p x.2)))
    let u := s.onTimeEnd p xs
    s.onTimeEndAt p xs = some (t0 + r.2.1) ∧ r.2.1 ≤ mx ∧
      u.get F.PHn_STAT_IPK p = s.peakDac n p d ∧ u.phState p = phActive ∧ (u.phs p).starts = tl ∧
      (u.phs p).on = some (t0, t0 + r.2.1) ∧ (u.lp n).trunc = (decide (r.1 = .limit) || (s.lp n).trunc) ∧
      (∀ k, k ≠ F.PHn_STAT_IPK.addr p → u.reg k = s.reg k)) ∧
  (∀ (s : State) (n t d : Nat) (i : Int), t < 64 + 32 * s.lf n F.LOOPn_PWM_BLANK → s.trips n t d i = none) ∧
  (∀ (s : State) (n t d : Nat) (i : Int), 64 + 32 * s.lf n F.LOOPn_PWM_BLANK ≤ t →
    (s.trips n t d i = some .peak ↔ 32000 * ((d : Int) - 200) ≤ 320 * i + (s.lf n F.LOOPn_PWM_SLOPE : Int) * t) ∧
    (s.trips n t d i = some .limit ↔ 320 * i + (s.lf n F.LOOPn_PWM_SLOPE : Int) * t < 32000 * ((d : Int) - 200) ∧
      100 * ((s.lf n F.LOOPn_OCP_IPK_LIM : Int) - 200) ≤ i)) ∧
  (∀ (s : State) (p : Fin 24) (xs : List (Nat × Int)), s.loopOfPhase p = none ∨
    (∃ n, s.loopOfPhase p = some n ∧ s.loopOn n = false) ∨ s.phState p ≠ phActive ∨ (s.phs p).starts = [] →
    Completes (.onTimeEnd p xs) s (fun u => u = s)) ∧
  (∀ (s : State) (p : Fin 24) (t : Nat), s.loopOfPhase p = none ∨ s.phState p ≠ phActive ∨
    (∃ n, s.loopOfPhase p = some n ∧ (s.loopOn n = false ∨ s.on F.LOOPn_TSTAT_BRAKING n = true)) → s.pwm p t = .midZ))

/-- A loop's own protection (R219, R222, R229): a phase current above ISC sets SC and stops the loop; the brake engages on a
loop past its soft start whose output, by the sense in use since the last boundary (R233), stands above the target by BRK_ON, and puts every phase at
mid-Z; STGLINE follows STGFLTn#, whose third low tick sets STG and stops the loop, once for each fall (R239). A loop stopped so has
no carrier and its phases stand idle; one whose node is at level 3 takes no enable (R349).
What time brings a loop: the end of an overload bin (R223), 50 µs after a stage-fault edge the phases that read 82.3 A are
dropped (R229), the release of THROTTLEn# (R230), and 10 ms after its withdrawal the end of a discharge (R200).
Where a rule leaves a choice the model's is meant: log entries 5, 33 and 34. -/
def Obligations.LoopProtectionAndTimers : Prop :=
  ((∀ (s : State) (n : Fin 8) (p : Fin 24) (i : Int), s.loopOn n = true → p.val ∈ s.loopPhases n →
    100 * ((s.lf n F.LOOPn_OCP_ISC : Int) - 200) < s.phCurrent n p i → Completes (.loopFastShort n p i) s (fun u =>
      u.on F.LOOPn_TSTAT_SC n = true ∧ u.loopOn n = false ∧ (u.lp n).stopped = some (sourceOf 0 4 n) ∧
        u.on F.LOOPn_STAT_EN n = false)) ∧
  (∀ (s : State) (n : Fin 8) (p : Fin 24) (i : Int), s.loopOn n = false ∨ p.val ∉ s.loopPhases n ∨
    s.phCurrent n p i ≤ 100 * ((s.lf n F.LOOPn_OCP_ISC : Int) - 200) →
    Completes (.loopFastShort n p i) s (fun u => u = s)) ∧
  (∀ (s : State) (n : Fin 8) (v vl : Int), s.loopOn n = true → s.lf n F.LOOPn_BRAKE_EN ≠ 0 →
    s.on F.LOOPn_STAT_SS_DONE n = true → (s.lp n).discharge = none → s.on F.LOOPn_TSTAT_BRAKING n = false →
    (s.lp n).vTgt + 64000 * (s.brakeOn n : Int) ≤ s.senseOf n v vl → Completes (.brakeEngage n v vl) s (fun u =>
      u.on F.LOOPn_TSTAT_BRAKING n = true ∧ u.lp n = { s.lp n with brakeCyc := 0, braked := true } ∧
        (∀ p ∈ s.loopPhases n, (u.phs p).starts = [] ∧ (u.phs p).on = none) ∧
        (∀ (p : Fin 24) (t : Nat), s.loopOfPhase p = some n.val → u.pwm p t = .midZ) ∧
        (∀ k, k ≠ F.LOOPn_TSTAT_BRAKING.addr n → k ≠ ((F.LOOPn_TSTATS_V).off 3).addr n → u.reg k = s.reg k))) ∧
  (∀ (s : State) (n : Fin 8) (v vl : Int), s.loopOn n = false ∨ s.lf n F.LOOPn_BRAKE_EN = 0 ∨
    s.on F.LOOPn_STAT_SS_DONE n = false ∨ (s.lp n).discharge ≠ none ∨ s.on F.LOOPn_TSTAT_BRAKING n = true ∨
    s.senseOf n v vl < (s.lp n).vTgt + 64000 * (s.brakeOn n : Int) →
    Completes (.brakeEngage n v vl) s (fun u => u = s)) ∧
  (∀ (s : State) (n : Fin 8) (v vl : Int), ((s.lp n).useLocal = false → s.senseOf n v vl = 320 * v) ∧
    ((s.lp n).useLocal = true → s.senseOf n v vl = 320 * vl + s.localOffset n)) ∧
  (∀ (s : State) (n : Fin 8) (held : Nat), s.loopUsed n = true → (s.lp n).stgSeen = false → 3 ≤ held →
    Completes (.stgfltEdge n held) s (fun u => u.on F.LOOPn_TSTAT_STGLINE n = true ∧ u.on F.LOOPn_TSTAT_STG n = true ∧
      u.loopOn n = false ∧ (u.lp n).stopped = some (sourceOf 1 3 n) ∧ (u.lp n).stgAt = some s.now ∧ (u.lp n).stgSeen = true)) ∧
  (∀ (s : State) (n : Fin 8) (held : Nat), s.loopUsed n = false ∨ (s.lp n).stgSeen = true ∨ held < 3 →
    Completes (.stgfltEdge n held) s (fun u => u = s.put F.LOOPn_TSTAT_STGLINE 1 n)) ∧
  (∀ (s : State) (n : Fin 8), Completes (.stgfltRise n) s (fun u =>
    u = (s.put F.LOOPn_TSTAT_STGLINE 0 n).setLp n { s.lp n with stgSeen := false })) ∧
  (∀ (s : State) (n : Fin 8) (k : Fin 128), s.get F.THM_NODEn_T_LEVEL k = 3 → s.get F.THM_NODEn_ACT_LOOP k = n.val →
    s.loopEnable n = s) ∧
  (∀ (s : State) (n : Fin 8) (src : Nat) (p : Fin 24), p.val ∈ s.loopPhases n → s.phState p ≠ phDropped → s.phState p ≠ phUnused →
    (s.loopStop n src).phState p = phIdle ∧ (s.loopStop n src).get F.LOOPn_STAT_NACT n = 0 ∧
      ((s.loopStop n src).phs p).starts = [] ∧ ((s.loopStop n src).phs p).onEnd = none)) ∧
  ((∀ (s : State) (n : Fin 8), ComesAtTick (.overloadBinEnd n) s
    (some (16000 * max ((s.lp n).binNo + 1) (s.tick / 16000))) (fun c =>
      if c.loopOn n then c.setLp n { c.lp n with binDue := true } else (c.binClose n).draw)) ∧
  (∀ (s : State) (n : Fin 8), s.lf n F.LOOPn_OVLD_OVL_I ≠ 0 → (s.lp n).binCnt = 0 →
    let b := ((s.lp n).b : Int) - 10 * s.lf n F.LOOPn_OVLD_OVL_I
    ((s.binClose n).lp n).b = b.toNat ∧ (b ≤ 0 → (s.binClose n).on F.LOOPn_TSTAT_OVL n = false)) ∧
  (∀ (s : State) (n : Fin 8) (l : List Int), l.length = 24 → Comes (.stageFaultIdentify n l) s
    ((s.lp n).stgAt.map (fun t => t + 5000)) (State.stageIdentify n l)) ∧
  (∀ (s : State) (n : Fin 8) (l : List Int) (p : Fin 24), p.val ∈ s.loopPhases n → 82300 ≤ s.phCurrent n p (l.getD p 0) →
    (s.stageIdentify n l).phState p = phDropped ∧ (s.stageIdentify n l).get F.PHn_FLT_CAUSE p = 4) ∧
  (∀ (s : State) (n : Fin 8), Comes (.throttleRelease n) s (s.lp n).relAt (fun c =>
    (c.put F.LOOPn_TSTAT_THR 0 n).setLp n { c.lp n with relAt := none })) ∧
  (∀ (s : State) (n : Fin 8), Comes (.loopDischargeTimeout n) s ((s.lp n).discharge.map (fun t => t + 1000000)) (fun c =>
    if (c.lp n).discharge.isSome then c.loopOff n else c)) ∧
  (∀ (s : State) (n : Fin 8), ((s.loopOff n).lp n).binDue = false ∧ (s.loopOff n).loopOn n = false ∧ (s.loopOff n).on F.LOOPn_STAT_EN n = false ∧
    (s.loopOff n).on F.LOOPn_STAT_PG n = false ∧ ((s.loopOff n).lp n).discharge = none))

/-- An edge of HINTk registers where the new level has stood for three ticks and a used loop names the pin (R207). A rising one
starts a rise of a loop past its soft start that is idle or unwinds, latching STEP, LEAD, GUARD and FF_ADV; the opposite edge
withdraws a pre-positioning; a falling one starts a release where one is enabled and the step has arrived; the state itself is
entered at the first boundary after the edge; an edge a loop does not take only counts (R208, R212, R213, R217).
Where a rule leaves a choice the model's is meant: log entries 6 and 50. -/
def Obligations.HintEdges : Prop :=
  (∀ (s : State) (k : Fin 4) (r : Bool) (held : Nat), s.phase = .resting ∨ held < 3 ∨ s.hintPin.getLsbD k.val = r ∨
    (∀ n : Fin 8, ¬(s.loopUsed n = true ∧ s.loopHint n = k.val)) →
    Completes (.hintEdge k r held) s (fun u => u = s)) ∧
  (∀ (s : State) (k : Fin 4) (r : Bool) (held : Nat) (n : Fin 8), s.phase ≠ .resting → 3 ≤ held →
    s.hintPin.getLsbD k.val ≠ r → s.loopUsed n = true → s.loopHint n = k.val →
    (∀ m : Fin 8, m < n → ¬(s.loopUsed m = true ∧ s.loopHint m = k.val)) →
    let h := s.get F.LOOPn_TSTAT_HSTATE n
    let ok := s.lf n F.LOOPn_HINT_EN = 1 ∧ s.on F.LOOPn_STAT_EN n = true ∧ s.loopOn n = true ∧
      s.on F.LOOPn_STAT_SS_DONE n = true ∧ s.on F.LOOPn_TSTAT_SC n = false ∧ s.on F.LOOPn_TSTAT_STG n = false
    let wait := s.lf n F.LOOPn_HINT_REL_EN = 1 ∧ s.on F.LOOPn_TSTAT_ARRIVED n = true
    let start := fun (what : Nat) (u : State) => u.regs = s.regs ∧ u.lp n = { s.lp n with
      hStep := s.lf n F.LOOPn_HINT_STEP, hLead := s.lf n F.LOOPn_HINT_LEAD, hGuard := s.lf n F.LOOPn_HINT_GUARD
      hAdv := s.lf n F.LOOPn_HINT2_FF_ADV, tH := s.now, hPend := what, withdrawn := false }
    Completes (.hintEdge k r held) s (fun u => u.hintPin.getLsbD k.val = r ∧
      (¬ok → u.regs = (s.bump ((F.LOOPn_TSTATS_V).off 2) n).regs ∧ u.loop = s.loop) ∧
      (ok → r = true → h = hIdle ∨ h = hUnwind → start 1 u) ∧
      (ok → r = true → h = hRelWait ∨ h = hRelease → u.regs = s.regs ∧ u.lp n = { s.lp n with withdrawn := true }) ∧
      (ok → r = false → h = hAdmit ∨ h = hRise → u.regs = s.regs ∧ u.lp n = { s.lp n with withdrawn := true }) ∧
      (ok → r = false → h = hIdle → wait → start 2 u) ∧
      (ok → r = false → h = hIdle → ¬wait → u.regs = (s.bump ((F.LOOPn_TSTATS_V).off 2) n).regs ∧ u.loop = s.loop) ∧
      (ok → r = false → h = hUnwind → u.regs = (s.bump ((F.LOOPn_TSTATS_V).off 2) n).regs ∧ u.loop = s.loop) ∧
      (ok → (r = true ∧ (h = hAdmit ∨ h = hRise)) ∨ (r = false ∧ (h = hRelWait ∨ h = hRelease)) →
        u.regs = s.regs ∧ u.loop = s.loop)))

/-- A write of the command word of a loop's, phase's, channel's or rail's point (R151, R203, R273, R310): where its record is
of that kind and the writer's ACCESS bit is set, the word is kept and its operand written to the field it names, as a write of
the party. An empty point and one without the bit ignore it with a Notice.
Where a rule leaves a choice the model's is meant: log entry 16. -/
def Obligations.PointCommands : Prop :=
  (∀ (i : Instr) (p : Party) (q : Fin 2048) (kind : Nat) (w : Word) (f : Fld) (s : State), PointRow i p q kind w f →
    s.sramRaw = [] → (s.pointRec q).1 = kind → (s.pointRec q).2.2.testBit (pointBit p) = true →
    Grants p i s (fun c =>
      let j := (s.pointRec q).2.1
      ({ c with pointCmd := SMap.set sramDefault c.pointCmd (kind * 256 + j) w }).ownedStore p (0x9000 + q.val) (f.addr j)
        (withBits 0 f.lo f.width (bitsOf w 0 f.width)) (withBits 0 f.lo f.width (2 ^ f.width - 1)))) ∧
  (∀ (i : Instr) (p : Party) (q : Fin 2048) (kind : Nat) (w : Word) (f : Fld) (s : State), PointRow i p q kind w f →
    s.sramRaw = [] → (s.pointRec q).1 = 0 ∨ (s.pointRec q).2.2.testBit (pointBit p) = false →
    Grants p i s (fun c => c.notice p (0x9000 + q.val)))

/-! ### Distribution channels (R243–R273) -/

/-- A channel samples at each tick that is a multiple of 1,000 (R243). The sample, converted within the ranges of
the shunt's code and the bus (R242, R243), shows I, V_bus and V_out; at or above the curve's first current the accumulator moves
by one sample's part of the trip time (R254); a reading of the sample belongs to its tick.
A trip (R259–R262): a shunt voltage above 0.25 A × ISC × RSH trips a channel that conducts by the fast pull-down; the trip
shows its cause, counts, and leads to Cooling while retries are left, else to Latched with DIST/L2. Causes that meet in one
cycle make one trip, whose CAUSE is the first of them in the order of R260.
Members of a pair (R264–R267): a shunt voltage whose reverse current lies above IREV blocks one in active mode, or rescued, in
Enhance or On, by the fast pull-down; an output below STBY_UV for 200 ticks closes one in Standby whose ON is 1, which is RESCUED with DIST/L1; a
scheduled break sends it to Standby.
Where a rule leaves a choice the model's is meant: log entries 5 and 35. -/
def Obligations.ChannelsSampleAndTrip : Prop :=
  ((∀ (s : State) (n : Fin 24) (x : ChanSample), s.fabricOn = true →
    ComesAtTick (.channelSample n x) s (some (s.sampleDue n)) (State.channelSample n x)) ∧
  (∀ (s : State) (n : Fin 24) (x : ChanSample), s.fabricOn = false → Completes (.channelSample n x) s (fun u => u = s)) ∧
  (∀ (s : State) (n : Fin 24), s.sampleDue n % 1000 = 0 ∧ s.tick ≤ s.sampleDue n ∧ s.sampleDue n ≤ s.tick + 1000 ∧
    ((s.ch n).lastSample = some s.tick → s.tick < s.sampleDue n)) ∧
  (∀ (s : State) (n : Fin 24) (x : ChanSample), s.chUsed n = false → s.channelSample n x = s) ∧
  (∀ (s : State) (n : Fin 24) (x : ChanSample), s.chUsed n = true → let t := s.channelSample n x
    let top : Int := if s.chBus48 n = true then 64000 else 24000
    let i := roundDiv (min 4095 (max (-4096) x.shunt) * 625000) (32 * (max 1 (s.get F.CHn_CFG_RSH n) : Nat))
    let vb := min top (max 0 x.vbus)
    let vo := min top (max 0 x.vout)
    t.getS F.CHn_MEAS_I n = clampS 16 (roundDiv i 100) ∧ t.get F.CHn_VOLT_VBUS n = satU 16 (roundDiv vb 10) ∧
      t.get F.CHn_VOLT_VOUT n = satU 16 (roundDiv vo 10) ∧ (t.ch n).vout = vo ∧ (t.ch n).lastSample = some s.tick ∧
      ((t.ch n).samples.getLast?.map (fun y => y.1)) = some s.tick ∧ (t.ch n).samples.length ≤ 11) ∧
  (∀ (s : State) (n i : Nat), 0 < curveCur (s.curveWord n 0) → curveCur (s.curveWord n 0) ≤ i →
    s.accMove n i = (s.ch n).acc + (2 ^ 76 + max 1 (s.tripTime n i) - 1) / max 1 (s.tripTime n i)) ∧
  (∀ (s : State) (n : Nat), 0 < curveCur (s.curveWord n 0) → (s.ch n).acc = 0 → s.accMove n 0 = 0)) ∧
  ((∀ (s : State) (n : Fin 24) (v : Int), Completes (.channelFastShort n v) s (fun u =>
    u = if chConducts (s.chStateWas n) = true ∧ s.chEff n F.CHn_LIMIT_ISC * s.chEff n F.CHn_CFG_RSH < 4 * v.natAbs then s.chTrip n 1
      else s)) ∧
  (∀ (s : State) (n : Fin 24) (c : Nat), s.chTripped n = true → let u := s.chTrip n c
    (causeRank (s.get F.CHn_STAT_CAUSE n) ≤ causeRank c → u = s) ∧
      (causeRank c < causeRank (s.get F.CHn_STAT_CAUSE n) → u.get F.CHn_STAT_CAUSE n = c ∧ u.chState n = s.chState n ∧
        u.get ((F.CHn_STATS_V).off 2) n = s.get ((F.CHn_STATS_V).off 2) n)) ∧
  (∀ (s : State) (n : Fin 24) (c : Nat), c < 8 → s.chTripped n = false → let u := s.chTrip n c
    u.on F.CHn_STAT_TRIP n = true ∧ u.get F.CHn_STAT_CAUSE n = c ∧ (u.ch n).acc = 0 ∧ (u.ch n).tripAt = s.now ∧
      ((u.ch n).gate = if c = 1 then .fastDown else .normalDown) ∧
      u.chState n = (if s.get F.CHn_STAT_RETRY_CNT n < s.chEff n F.CHn_RETRY_RETRY_N then chCooling else chLatched) ∧
      u.events.length = (if s.get F.CHn_STAT_RETRY_CNT n < s.chEff n F.CHn_RETRY_RETRY_N ∨ s.collector = false then
        s.events.length else s.events.length + 1))) ∧
  ((∀ (s : State) (n : Fin 24) (i : Int), s.member n = true → s.chActive n = true →
    s.chState n = chEnhance ∨ s.chState n = chOn →
    10 * i < -((s.chEff n F.CHn_PAIR_IREV : Int) * s.chEff n F.CHn_CFG_RSH) → Completes (.reverseBlock n i) s (fun u =>
      u.chState n = chBlocked ∧ (u.ch n).gate = .fastDown ∧ (u.ch n).pgBlk = s.on F.CHn_STAT_PG n ∧
        u.get ((F.CHn_STATS_V).off 5) n = min (s.get ((F.CHn_STATS_V).off 5) n + 1) (2 ^ 32 - 1))) ∧
  (∀ (s : State) (n : Fin 24) (i : Int), s.member n = false ∨ s.chActive n = false ∨
    (s.chState n ≠ chEnhance ∧ s.chState n ≠ chOn) ∨
    -((s.chEff n F.CHn_PAIR_IREV : Int) * s.chEff n F.CHn_CFG_RSH) ≤ 10 * i → Completes (.reverseBlock n i) s (fun u => u = s)) ∧
  (∀ (s : State) (n : Fin 24) (v : Int) (held : Nat), s.member n = true → s.on F.CHn_CTRL_ON n = true →
    s.chState n = chStandby → v < 100 * (s.chEff n F.CHn_PAIR2_STBY_UV : Int) → 200 ≤ held →
    Completes (.standbyRescue n v held) s (fun u =>
      u.chState n = (if 100 * (s.chEff n F.CHn_PAIR2_STBY_FLOOR : Int) ≤ v then chEnhance else chRamp) ∧
        (u.ch n).gate = (if 100 * (s.chEff n F.CHn_PAIR2_STBY_FLOOR : Int) ≤ v then .fastClose else .ramp) ∧
        u.on F.CHn_STAT_RESCUED n = true ∧ (u.ch n).rescue = true)) ∧
  (∀ (s : State) (n : Fin 24) (v : Int) (held : Nat), s.member n = false ∨ s.on F.CHn_CTRL_ON n = false ∨
    s.chState n ≠ chStandby ∨ 100 * (s.chEff n F.CHn_PAIR2_STBY_UV : Int) ≤ v ∨ held < 200 →
    Completes (.standbyRescue n v held) s (fun u => u = s)) ∧
  (∀ (s : State) (n : Fin 24), Comes (.pairBreak n) s (s.ch n).breakAt (State.pairBreak n)) ∧
  (∀ (s : State) (n : Fin 24), s.chState n ∈ [chRamp, chEnhance, chOn, chBlocked] → (s.pairBreak n).chState n = chStandby ∧
    (s.pairBreak n).on F.CHn_STAT_BRK_PEND n = false ∧ ((s.pairBreak n).ch n).breakAt = none))

/-- Writes of ON and PMODE (R246–R248, R267) are stored at their grant and take effect in the next cycle: ON 1 takes a used
channel from Off to Ramp, a member to Standby or closed by its PMODE; ON 0 takes any used channel that is not Latched to Off. A
write of PMODE 0 ends a rescue and schedules the break of a member that conducts BRK_DLY after the grant.
Where a rule leaves a choice the model's is meant: log entry 35. -/
def Obligations.ChannelWrites : Prop :=
  (∀ (s : State) (p : Party) (n : Fin 24) (w : Word), Grants p (.channelOnWrite p n w) s (fun c =>
    c.ownedStore p (F.CHn_CTRL_ON.addr n) (F.CHn_CTRL_ON.addr n) w allBits)) ∧
  (∀ (s : State) (p : Party) (n : Fin 24) (w : Word), Grants p (.pmodeWrite p n w) s (fun c =>
    c.ownedStore p (F.CHn_PAIR_PMODE.addr n) (F.CHn_PAIR_PMODE.addr n) w allBits)) ∧
  (∀ (s : State) (p : Party) (n : Fin 24) (w : Word), s.heldBits (F.CHn_CTRL_ON.addr n) = 0 ∨ p = .reaction →
    s.closedBits p (F.CHn_CTRL_ON.addr n) = 0 →
    let u := s.ownedStore p (F.CHn_CTRL_ON.addr n) (F.CHn_CTRL_ON.addr n) w allBits
    u.on F.CHn_CTRL_ON n = w.getLsbD 0 ∧ u.due = s.due ++ [.chanOn n (w.getLsbD 0)] ∧ u.events = s.events ∧
      (∀ k, k ≠ F.CHn_CTRL_ON.addr n → u.reg k = s.reg k)) ∧
  (∀ (s : State) (n : Fin 24), s.chState n = chOff → s.chUsed n = true →
    (s.chOnEffect n true).chState n = (if s.member n = false then chRamp else if s.on F.CHn_PAIR_PMODE n = false then chStandby
      else if 100 * (s.chEff n F.CHn_PAIR2_STBY_FLOOR : Int) ≤ (s.ch n).vout then chEnhance else chRamp)) ∧
  (∀ (s : State) (n : Fin 24), s.chState n ∉ [chUnused, chOff, chLatched] → (s.chOnEffect n false).chState n = chOff ∧
    (s.chOnEffect n false).get F.CHn_STAT_RETRY_CNT n = 0) ∧
  (∀ (s : State) (n : Fin 24) (g : Nat), s.member n = true → s.chState n ∈ [chRamp, chEnhance, chOn, chCooling, chBlocked] →
    s.on F.CHn_STAT_BRK_PEND n = false → ((s.chPmodeEffect n false g).ch n).breakAt =
      some (g + 1000 * s.chEff n F.CHn_PAIR_BRK_DLY) ∧ (s.chPmodeEffect n false g).on F.CHn_STAT_BRK_PEND n = true ∧
      ((s.chPmodeEffect n false g).ch n).rescue = false)

/-- A write by any other party of a field that a fault reaction holds is dropped: the field stays, and SYS_ARB_DROP names the
writer and the address (R31, R33, R357); a channel that a rail targets takes ON from the sequencer and reactions alone
(R247). -/
def Obligations.HeldFieldsDropWrites : Prop :=
  (∀ (s : State) (p : Party) (n : Fin 24) (w : Word), s.held (.chan n) = true → p ≠ .reaction →
    let a := F.CHn_CTRL_ON.addr n
    let u := s.ownedStore p a a w allBits
    u.on F.CHn_CTRL_ON n = s.on F.CHn_CTRL_ON n ∧ u.due = s.due ∧ u.on F.SYS_ARB_DROP_VALID = true ∧
      u.get F.SYS_ARB_DROP_WRITER = p.code ∧ u.get F.SYS_ARB_DROP_ADDR = a) ∧
  (∀ (s : State) (p : Party) (n : Fin 64) (w : Word), s.held (.rail n) = true → p ≠ .reaction →
    let a := F.SEQ_RAILn_CTRL_ON.addr n
    let u := s.ownedStore p a a w allBits
    s.reservedWord a (s.wouldBe p a w allBits) = false → u.on F.SEQ_RAILn_CTRL_ON n = s.on F.SEQ_RAILn_CTRL_ON n ∧ u.on F.SYS_ARB_DROP_VALID = true ∧
      u.get F.SYS_ARB_DROP_WRITER = p.code ∧ u.get F.SYS_ARB_DROP_ADDR = a) ∧
  (∀ (s : State) (p : Party) (n : Fin 24) (w : Word), s.railTargetsChan n = true → p ≠ .seq → p ≠ .reaction →
    let u := s.ownedStore p (F.CHn_CTRL_ON.addr n) (F.CHn_CTRL_ON.addr n) w allBits
    u.on F.CHn_CTRL_ON n = s.on F.CHn_CTRL_ON n ∧ u.due = s.due)

/-! ### Rails (R276–R310) -/

/-- The sequencer evaluates every rail once a tick; each of a rail's timers brings an evaluation at its end, and none where it
does not run, or where the device does not run (R282, R285–R291, R299).
A level of PWRGDk that has stood for three ticks registers and is kept; a write of SEQ_RAILn_CTRL sets ON and MARGIN, and a
loop rail's MARGIN goes to its loop as an access of the sequencer (R276, R281, R303); a margin pin steps its current toward its rail's value (R276, R304).
Where a rule leaves a choice the model's is meant: log entries 4, 5 and 36. -/
def Obligations.RailTimersAndInputs : Prop :=
  ((∀ (s : State) (n : Fin 64) (i : Instr) (due : Option Nat), (i, due) ∈ [(.sequencerEval, some s.now),
      (.railDelayEnd n, s.railDelayDue n), (.runAheadStart n, s.railEarlyDue n), (.railQualified n, s.railQualifyDue n),
      (.railDeadline n, s.railDeadDue n), (.railPgLost n, s.railLostDue n), (.railLdDelayEnd n, s.railLdDue n),
      (.targetStopTimeout n, s.railStopDue n)] →
    (due = none ∨ s.phase ≠ .running → Completes i s (fun u => u = s)) ∧
    ∀ t, due = some t → s.phase = .running → Completes i s (fun u => ∃ c, c = s.passTo (s.seqCycle t) ∧
      u = ({ c with evalAt := some c.now } : State).seqEval)) ∧
  (∀ (s : State) (t : Nat), s.now ≤ s.seqCycle t ∧ t ≤ s.seqCycle t ∧ s.evalAt ≠ some (s.seqCycle t)) ∧
  (∀ (s : State) (n : Fin 64), s.rlState n = rlDelay → s.railDelayDue n = some ((s.rl n).since + s.rlDelayT n)) ∧
  (∀ (s : State) (n : Fin 64), s.rlState n = rlQualify → s.railQualifyDue n = some ((s.rl n).since + s.rlStableT n)) ∧
  (∀ (s : State) (n : Fin 64), s.rlState n = rlRamp ∨ s.rlState n = rlQualify → (s.rl n).noDead = false →
    s.railDeadDue n = some ((s.rl n).enabled + s.rlDeadT n))) ∧
  ((∀ (s : State) (k : Fin 32) (h : Bool) (held : Nat), held < 3 → Completes (.pwrgdEdge k h held) s (fun u => u = s)) ∧
  (∀ (s : State) (k : Fin 32) (h : Bool) (held : Nat), 3 ≤ held → Completes (.pwrgdEdge k h held) s (fun u =>
    u.pwrgd.getLsbD k = h ∧ (∀ j, j < 32 → j ≠ k.val → u.pwrgd.getLsbD j = s.pwrgd.getLsbD j) ∧ u = { s with pwrgd := u.pwrgd })) ∧
  (∀ (s : State) (p : Party) (n : Fin 64) (w : Word), Grants p (.railCtrlWrite p n w) s (fun c =>
    c.ownedStore p (F.SEQ_RAILn_CTRL_ON.addr n) (F.SEQ_RAILn_CTRL_ON.addr n) w allBits)) ∧
  (∀ (s : State) (p : Party) (n : Fin 64) (w : Word), let a := F.SEQ_RAILn_CTRL_ON.addr n
    s.heldBits a = 0 ∨ p = .reaction → s.reservedWord a (s.wouldBe p a w allBits) = false →
    let u := s.ownedStore p a a w allBits
    u.on F.SEQ_RAILn_CTRL_ON n = w.getLsbD 0 ∧ u.get F.SEQ_RAILn_CTRL_MARGIN n = bitsOf w 8 8 ∧ u.events = s.events ∧
      u.waiting = s.waiting ++ (if s.railKind n = 1 then [{
        party := .seq, addr := F.LOOPn_TARGET_MARGIN.addr (s.railTarget n)
        word := some (BitVec.ofNat 32 (bitsOf w 8 8 * 2 ^ F.LOOPn_TARGET_MARGIN.lo))
        mask := BitVec.ofNat 32 (255 * 2 ^ F.LOOPn_TARGET_MARGIN.lo) }] else [])) ∧
  (∀ (s : State) (k : Fin 8), Comes (.marginStep k) s ((tget s.mrg k).current.map (fun _ => (tget s.mrg k).due))
    (State.marginStep k)) ∧
  (∀ (s : State) (k : Fin 8) (n : Nat) (i : Int), (tget s.mrg k).current = some i → s.mrgRail k = some n →
    let m := s.getS F.SEQ_RAILn_CTRL_MARGIN n * s.get (F.SEQ_MRG_CFG_STEP.off k)
    let goal := if s.on (F.SEQ_MRG_CFG_INV.off k) then -m else m
    (tget (s.marginStep k).mrg k).current = some (approach i goal (s.get (F.SEQ_MRG_CFG_STEP.off k))) ∧
      (s.marginStep k).regs = s.regs))

/-- The moves of a rail (R283–R299), `o` holding what its parents held at the end of the tick before: demand takes it from Down
to Wait; with its parents good it starts at once, or after DELAY, unless its target is blocked; power-good takes it to Qualify
and, held for TSTABLE, to Good; a withdrawn demand takes it to Lower. At the end of the tick its levels show the demand, whether it
is good, and whether its target is blocked (R278, R281).
A rail fails (R288–R290, R296): its target stopped by itself or a reaction, its deadline, or power-good bad for LOSS_T in
Good while its channel does not cool; its target is withdrawn, the cause shown and the failure counted. A bad run begins with a
power-good that was good before (R287).
Where a rule leaves a choice the model's is meant: log entry 36. -/
def Obligations.RailsWindAndFail : Prop :=
  ((∀ (o s : State) (n : Fin 64), s.rlState n = rlDown → (State.rlMove o n true s).rlState n = rlWait ∧
    (State.rlMove o n false s).rlState n = rlDown) ∧
  (∀ (o s : State) (n : Fin 64), s.rlState n = rlWait → (o.parents n).all o.parentStarts = true →
    let t := State.rlMove o n true s
    (s.rlDelayT n ≠ 0 → t.rlState n = rlDelay) ∧
    (s.rlDelayT n = 0 → s.railBlocked n = true → t.rlState n = rlWait) ∧
    (s.rlDelayT n = 0 → s.railBlocked n = false → t.rlState n = rlRamp ∧ (t.rl n).enabled = s.now)) ∧
  (∀ (o s : State) (n : Fin 64), s.rlState n = rlDelay → (o.parents n).all o.parentStarts = true →
    s.railBlocked n = false → (s.rl n).since + s.rlDelayT n ≤ s.now → (State.rlMove o n true s).rlState n = rlRamp) ∧
  (∀ (o s : State) (n : Fin 64), s.rlState n = rlWait ∨ s.rlState n = rlDelay →
    (State.rlMove o n false s).rlState n = rlDown) ∧
  (∀ (o s : State) (n : Fin 64), s.rlState n = rlRamp → s.targetLost n = false →
    (s.rl n).noDead = true ∨ s.now < (s.rl n).enabled + s.rlDeadT n → s.on F.SEQ_RAILn_STAT_EARLY n = false →
    (o.parents n).all (o.parentLevel F.SEQ_RAILn_STAT_GOOD 0) = true → (s.railKind n ≠ 3) → s.railPg n = true →
    (State.rlMove o n true s).rlState n = rlQualify ∧ (State.rlMove o n false s).rlState n = rlLower) ∧
  (∀ (o s : State) (n : Fin 64), s.rlState n = rlQualify → s.targetLost n = false →
    (s.rl n).noDead = true ∨ s.now < (s.rl n).enabled + s.rlDeadT n → s.on F.SEQ_RAILn_STAT_EARLY n = false →
    (o.parents n).all (o.parentLevel F.SEQ_RAILn_STAT_GOOD 0) = true → (s.rl n).since + s.rlStableT n ≤ s.now →
    (State.rlMove o n true s).rlState n = rlGood) ∧
  (∀ (o s : State) (n : Fin 64), s.rlState n = rlGood → s.targetLost n = false → s.railPg n = true →
    (s.rl n).badSince = none → s.on F.SEQ_RAILn_STAT_EARLY n = false → (o.parents n).all (o.parentLevel F.SEQ_RAILn_STAT_GOOD 0) = true →
    (State.rlMove o n false s).rlState n = rlLower) ∧
  (∀ (s : State) (n : Fin 64) (d : Bool), let t := s.rlLevels n d
    t.on F.SEQ_RAILn_STAT_DEMAND n = d ∧ t.on F.SEQ_RAILn_STAT_TBLK n = s.railBlocked n ∧ t.rlState n = s.rlState n ∧
      (t.on F.SEQ_RAILn_STAT_GOOD n = true ↔ s.on F.SEQ_RAILn_STAT_EARLY n = false ∧
        (s.rlState n = rlGood ∨ (s.rlState n = rlLower ∧ (s.rl n).fromGood = true)))) ∧
  (∀ (o s : State) (n : Fin 64), s.rlState n = rlStop → s.railStopped n = true → ∀ d, (State.rlMove o n d s).rlState n = rlDown)) ∧
  ((∀ (o s : State) (n : Fin 64) (d : Bool), rlEnabled (s.rlState n) = true → s.targetLost n = true →
    (State.rlMove o n d s).rlState n = rlFailed ∧ (State.rlMove o n d s).get F.SEQ_RAILn_STAT_CAUSE n = rlTargetStopped) ∧
  (∀ (o s : State) (n : Fin 64) (d : Bool), s.rlState n = rlRamp ∨ s.rlState n = rlQualify → s.targetLost n = false →
    (s.rl n).noDead = false → (s.rl n).enabled + s.rlDeadT n ≤ s.now →
    (State.rlMove o n d s).rlState n = rlFailed ∧ (State.rlMove o n d s).get F.SEQ_RAILn_STAT_CAUSE n = rlDeadline) ∧
  (∀ (o s : State) (n : Fin 64) (d : Bool) (b : Nat), s.rlState n = rlGood → s.targetLost n = false → s.railPg n = false →
    s.railKind n ≠ 3 ∨ s.chState (s.railTarget n) ≠ chCooling → (s.rl n).badSince = some b → b + 1000 * s.get F.SEQ_RAILn_CFG_LOSS_T n ≤ s.now →
    (State.rlMove o n d s).rlState n = rlFailed ∧ (State.rlMove o n d s).get F.SEQ_RAILn_STAT_CAUSE n = rlLost) ∧
  (∀ (o s : State) (n : Fin 64), s.rlState n = rlGood → s.targetLost n = false → s.railPg n = false →
    s.railKind n ≠ 3 → 0 < s.get F.SEQ_RAILn_CFG_LOSS_T n → (s.rl n).badSince = none →
    s.on F.SEQ_RAILn_STAT_EARLY n = false → (o.parents n).all (o.parentLevel F.SEQ_RAILn_STAT_GOOD 0) = true →
    ((State.rlMove o n true s).rl n).badSince = (if (s.rl n).pgWas = true then some s.now else none) ∧
      (State.rlMove o n true s).rlState n = rlGood) ∧
  (∀ (s : State) (n : Fin 64) (c : Nat) (e : Option Nat), c < 8 → (s.rlFail n c e).rlState n = rlFailed ∧
    (s.rlFail n c e).get F.SEQ_RAILn_STATS1_FAILS n =
      min (s.get F.SEQ_RAILn_STATS1_FAILS n + 1) (2 ^ F.SEQ_RAILn_STATS1_FAILS.width - 1)))

/-! ### Measurement, window monitors, the thermal model (chapters 10 and 11) -/

/-- Conversions (R314–R322). A conversion ends at its time. Its code is held to 24 bits with OVR, and becomes the entry's
result, valid and stamped; its window takes it; the scan goes on with the next enabled entry. A write of MASK is stored; an
urgent request takes the modulator, or is refused while one is pending or the modulator stopped.
Window monitors (R329–R334). A cell samples at each tick that is a multiple of 2^FILT_K; the pin of a cell under test is not
seen, and in rest the cells that SYS_REST_MON names show their raw levels alone (R430). A used cell whose hold has ended shows
UV and OV as the majority of its filter's last samples; at the end of a hold the raw levels; a rise latches its cause where the
cell's interrupt is enabled. An unused cell shows nothing. A sweep is refused while one runs, on an unused cell and where its rail
is not un-wound; the cell under test sees a code from its response time after the move to it on, and the first change of UV is
recorded with the code; at END the input returns to its pin, and the sweep is done when the refill that follows has ended.
Where a rule leaves a choice the model's is meant: log entries 28, 29 and 56. -/
def Obligations.MeasurementAndMonitors : Prop :=
  ((∀ (s : State) (m : Fin 4) (code : Int), Comes (.conversionEnd m code) s
    (if s.on F.MEASm_STAT_RUN m then some ((s.md m).start + convTicks (s.md m).rate) else none) (State.conversionEnd m code)) ∧
  (∀ (s : State) (m : Fin 4) (code : Int), s.on F.MEASm_STAT_RUN m = true →
    let e := s.get F.MEASm_STAT_CUR m
    let v := clampS 24 code
    let u := s.conversionEnd m code
    u.get ((F.MEASm_RES_RESULT).off e) m = ofS 32 v ∧ bitOf (u.reg (F.MEASm_VALID.addr m)) e = true ∧
      u.get F.MEASm_TSTAMP_TICK m = s.tick % 2 ^ 32 ∧ (v ≠ code → u.on F.MEASm_STAT_OVR m = true) ∧
      (entFlags (s.entWord m e) % 2 = 1 → bitOf (u.reg (F.MEASm_WSTATE.addr m)) e =
        (decide (v < s.getS ((F.MEASm_WLO_LO).off e) m) || decide (s.getS ((F.MEASm_WHI_HI).off e) m < v))) ∧
      ((s.md m).urgRun = false → (s.md m).urgPend = none →
        u.on F.MEASm_STAT_RUN m = (nextEntry (s.measMask m) e).isSome ∧
        (∀ n, nextEntry (s.measMask m) e = some n → u.get F.MEASm_STAT_CUR m = n ∧ (u.md m).start = s.now)) ∧
      ((s.md m).urgRun = true → u.on F.MEASm_STAT_URG_DONE m = true)) ∧
  (∀ (s : State) (p : Party) (m : Fin 4) (w : Word), Grants p (.measMaskWrite p m w) s (fun c =>
    c.ownedStore p (F.MEASm_MASK.addr m) (F.MEASm_MASK.addr m) w allBits)) ∧
  (∀ (s : State) (p : Party) (m : Fin 4) (e : BitVec 5), Grants p (.urg p m e) s (fun c => c.urgent m e.toNat)) ∧
  (∀ (s : State) (m : Fin 4) (e : Fin 32), (s.md m).stopped = true ∨ s.on F.MEASm_STAT_URG_PEND m = true →
    s.urgent m e = s.put F.MEASm_STAT_URG_BUSY 1 m) ∧
  (∀ (s : State) (m : Fin 4) (e : Fin 32), (s.md m).stopped = false → s.on F.MEASm_STAT_URG_PEND m = false →
    (s.urgent m e).on F.MEASm_STAT_URG_PEND m = true ∧
    (s.on F.MEASm_STAT_RUN m = false → (s.urgent m e).on F.MEASm_STAT_RUN m = true ∧
      (s.urgent m e).get F.MEASm_STAT_CUR m = e ∧ ((s.urgent m e).md m).start = s.now + 1 ∧
      ((s.urgent m e).md m).urgRun = true))) ∧
  ((∀ (s : State) (n : Fin 64) (l : List Int), Completes (.monitorLevelChange n l) s (fun u =>
    u = if s.on F.MONn_STAT_TEST n = true then s else l.foldl (fun (t : State) v =>
      if t.phase = .resting then
        (if bitOf (t.reg (F.SYS_REST_MON.addr (n / 32))) (n % 32) = true ∧ t.monUsed n = true then t.monRaws n (t.monRaw n v) else t)
      else if t.ticking = true then
        State.monSample n v ((t.boundaryFirst (t.now + t.untilTick (t.monSampleDue n))).passToTick (t.monSampleDue n))
      else t) s)) ∧
  (∀ (s : State) (n : Fin 64), s.monSampleDue n % 2 ^ s.get F.MONn_CFG_FILT_K n = 0 ∧ s.tick ≤ s.monSampleDue n ∧
    s.monSampleDue n ≤ s.tick + 2 ^ s.get F.MONn_CFG_FILT_K n) ∧
  (∀ (s : State) (n : Fin 64) (v : Int), s.monUsed n = false → s.monSample n v = s) ∧
  (∀ (s : State) (n : Fin 64) (v : Int), s.monUsed n = true → s.on F.MONn_STAT_SETTLE n = false →
    let len := filterLen (s.get F.MONn_CFG_FILT_N n)
    let u := s.monSample n v
    u.on F.MONn_STAT_UV_RAW n = (s.monRaw n v).1 ∧ u.on F.MONn_STAT_OV_RAW n = (s.monRaw n v).2 ∧
      u.on F.MONn_STAT_UV n = majority len (((s.monRaw n v).1 :: (s.mc n).histU).take 15) ∧
      u.on F.MONn_STAT_OV n = majority len (((s.monRaw n v).2 :: (s.mc n).histO).take 15) ∧
      (u.on F.MONn_STAT_UV n = true → s.on F.MONn_STAT_UV n = false → s.on F.MONn_CFG_IRQ_UV n = true →
        u.maskBit F.MON_UVC n = true)) ∧
  (∀ (s : State) (n : Fin 64) (v : Int), s.phase = .resting → Completes (.monitorSettleEnd n v) s (fun u => u = s)) ∧
  (∀ (s : State) (n : Fin 64) (v : Int), s.phase ≠ .resting →
    Comes (.monitorSettleEnd n v) s (s.mc n).settleEnd (State.monSettleEnd n v)) ∧
  (∀ (s : State) (n : Fin 64) (v : Int), s.on F.MONn_STAT_SETTLE n = true →
    (s.monSettleEnd n v).on F.MONn_STAT_SETTLE n = false ∧ (s.monSettleEnd n v).on F.MONn_STAT_UV n = (s.cellRaw n v).1 ∧
      (s.monSettleEnd n v).on F.MONn_STAT_OV n = (s.cellRaw n v).2 ∧ ((s.monSettleEnd n v).mc n).settleEnd = none ∧
      ((s.mc n).doneDue = true → (s.monSettleEnd n v).on F.MON_TEST_STAT_DONE = true)) ∧
  (∀ (s : State) (p : Party) (cell : BitVec 6) (first last : BitVec 10), Grants p (.monTestGo p cell first last) s (fun c =>
    (c.ownedStore p F.MON_TEST_GO.base F.MON_TEST_GO.base
      (BitVec.ofNat 32 (2 ^ 31 + last.toNat * 2 ^ 20 + first.toNat * 2 ^ 10 + cell.toNat)) allBits).sweepGo)) ∧
  (∀ s : State, s.sweep.isSome = true ∨ s.monUsed (s.get F.MON_TEST_CELL) = false →
    s.sweepGo = s.put F.MON_TEST_STAT_REFUSED 1) ∧
  (∀ s : State, s.sweep = none → s.monUsed (s.get F.MON_TEST_CELL) = true →
    s.get F.MONn_ROUTE_RAIL (s.get F.MON_TEST_CELL) = 0xFF → s.sweepGo.on F.MON_TEST_STAT_BUSY = true ∧
      s.sweepGo.on F.MONn_STAT_TEST (s.get F.MON_TEST_CELL) = true ∧ ∃ w, s.sweepGo.sweep = some w ∧
        w.cell = s.get F.MON_TEST_CELL ∧ w.code = s.get F.MON_TEST_START ∧ w.moves = [(s.now, w.code)] ∧
        w.due = s.now + 1000 * max 1 (s.get F.MON_TEST_DW_DWELL)) ∧
  (∀ s : State, s.sweep = none → Completes .sweepStep s (fun u => u = s)) ∧
  (∀ s : State, Completes .sweepStep s (fun u =>
    (s.sweepDwell.sweep = none → u = s.sweepDwell) ∧
    ∀ w, s.sweepDwell.sweep = some w → u = State.sweepStep ((s.sweepDwell.boundaryFirst w.due).passTo w.due))) ∧
  (∀ (s : State) (w : SweepSt) (m : Nat × Nat) (l : List (Nat × Nat)), w.moves = m :: l →
    m.1 + monResponse (s.monMode w.cell) ≤ s.now → s.sweepRaw w = s.monRaw w.cell ((m.2 : Int) * s.monLsb w.cell)) ∧
  (∀ (s : State) (w : SweepSt), s.sweep = some w → w.cell < 64 → s.monUsed w.cell = true →
    s.on F.MONn_STAT_SETTLE w.cell = false → let u := s.sweepSample
    u.on F.MONn_STAT_UV_RAW w.cell = (s.sweepRaw w).1 ∧ u.on F.MONn_STAT_OV_RAW w.cell = (s.sweepRaw w).2 ∧
    (u.on F.MONn_STAT_UV w.cell ≠ w.uv → s.on F.MON_TEST_STAT_UV_SEEN = false →
      u.on F.MON_TEST_STAT_UV_SEEN = true ∧ u.get F.MON_TEST_STAT_UV_AT = w.code % 1024)) ∧
  (∀ (s : State) (w : SweepSt), s.sweep = some w → w.code = s.get F.MON_TEST_END → w.cell < 64 →
    let u := s.sweepStep
    u.sweep = none ∧ u.on F.MON_TEST_STAT_BUSY = false ∧ u.on F.MONn_STAT_TEST w.cell = false ∧
      (u.mc w.cell).doneDue = true ∧ (s.monUsed w.cell = true → u.on F.MONn_STAT_SETTLE w.cell = true)) ∧
  (∀ (s : State) (w : SweepSt), s.sweep = some w → w.code ≠ s.get F.MON_TEST_END →
    s.sweepStep = { s with sweep := some { w with
      code := if w.code < s.get F.MON_TEST_END then w.code + 1 else w.code - 1
      due := s.now + 1000 * max 1 (s.get F.MON_TEST_DW_DWELL)
      moves := (s.now, if w.code < s.get F.MON_TEST_END then w.code + 1 else w.code - 1) :: w.moves.take 3 } }))

/-- The thermal model (R340, R350). It updates at the multiples of 10,000 ticks, once each, in all the time that the
device runs; a hot node's steps shed one group each, from 7 down.
Where a rule leaves a choice the model's is meant: log entries 30 and 32. -/
def Obligations.ThermalUpdates : Prop :=
  (∀ (s : State) (pdev : Nat), ComesAtTick (.thermalUpdate pdev) s (some s.thermalDue) (State.thermalTick pdev)) ∧
  (∀ s : State, s.thermalDue % 10000 = 0 ∧ s.tick ≤ s.thermalDue ∧ s.thermalDue ≤ s.tick + 10000 ∧
    (s.thermalAt = some s.tick → s.tick < s.thermalDue)) ∧
  (∀ (s : State) (pdev : Nat), s.phase ≠ .running → s.thermalTick pdev = s) ∧
  (∀ (s : State) (pdev : Nat), s.phase = .running →
    s.thermalTick pdev = ({ s with thermalAt := some s.tick } : State).thermalUpdate pdev) ∧
  (∀ s : State, Comes .shedStep s (earliest (s.sheds.map (fun x => some x.due))) State.shedsDue) ∧
  (∀ (s : State) (x : ShedSt), let u := s.shedNext x
    (x.next ≤ s.shedLast x.node → ∀ y ∈ u.sheds, y.node ≠ x.node) ∧
    (s.shedLast x.node < x.next → ∃ y ∈ u.sheds, y.node = x.node ∧ y.next = x.next - 1 ∧
      y.due = s.now + 1000000 * max 1 (s.get F.THM_CTRL_SHED_STEP)))

/-- The level of a node (R348). At each update the new level of a used node is the greater of the highest level whose threshold
its temperature has reached, and the highest one at or below its present level that it has not left by HYS; a threshold code of
0xFF is off. The parameters are those before the tick of the update (R353). A write that gives a HYS outside 2 K to 20 K, thresholds that do not ascend, or one less HYS below code 0, is ignored
with a Notice. -/
def Obligations.ThermalLevels : Prop :=
  (∀ (s : State) (pdev : Nat) (n : Fin 128), (∀ x ∈ s.parOld.2.1, x.1 ≠ F.THM_NODEn_T_LEVEL.addr n) →
    let p := min pdev 65535
    let a := (s.paramsBefore.nodesStep p).put F.THM_PDEV_P_DEV p
    let b := a.sensorsStep
    (s.thermalUpdate pdev).nodeLevel n = if b.nodeUsed n then b.newLevel n else 0) ∧
  (∀ (s : State) (n : Nat),
    let up (l : Nat) : Prop := 1 ≤ l ∧ l ≤ 3 ∧ ∃ x, s.threshold n l = some x ∧ x ≤ s.temp n
    let hold (l : Nat) : Prop := 1 ≤ l ∧ l ≤ 3 ∧ l ≤ s.nodeLevel n ∧
      ∃ x, s.threshold n l = some x ∧ x - 65536 * (s.get F.THM_NODEn_TH_HYS n : Int) ≤ s.temp n
    (∀ l, up l ∨ hold l → l ≤ s.newLevel n) ∧ (s.newLevel n = 0 ∨ up (s.newLevel n) ∨ hold (s.newLevel n)) ∧
    (∀ l, 1 ≤ l → l ≤ 3 → s.threshold n l =
      let c := s.get (if l = 1 then F.THM_NODEn_TH_WARN else if l = 2 then F.THM_NODEn_TH_THROT else F.THM_NODEn_TH_SHUT) n
      if c = 255 then none else some (65536 * ((c : Int) - 50)))) ∧
  (∀ (s : State) (p : Party) (n : Fin 128) (w : Word), let a := F.THM_NODEn_TH_HYS.addr n
    let h := bitsOf w 0 5
    let on := [bitsOf w 8 8, bitsOf w 16 8, bitsOf w 24 8].filter (fun v => v != 255)
    (h < 2 ∨ 20 < h ∨ ¬on.Pairwise (fun x y => x < y) ∨ ∃ v ∈ on, v < h) → s.ownedStore p a a w allBits = s.notice p a)

/-! ### Faults and interrupts (chapter 12) -/

/-- The fault collector (R361–R368). An event of no standing record takes the lowest free slot; a record at L0 changes nothing
but the table. ACK, CLEAR, ACK_CLASS and CLEAR_L0 act as R368 says, each with its result in the party's own FLT_CMD_RES; a record
that is cleared leaves its slot and all its holds; the unit reads its table with the error correction that an error left there needs (R478). A latch that a full table drops at L0 still writes its channel's ON 0 and holds
it (R262, R366).
What the status follows: FLT_STAT counts the records of the table and shows whether any stands at L1 or above, at L3, at L4
(R375); a bit of IRQ_SUMMARY is 1 exactly while its group has a cause (R374).
Where a rule leaves a choice the model's is meant: log entries 27 and 51. -/
def Obligations.FaultsAndStatus : Prop :=
  ((∀ s : State, s.events = [] → Completes .faultRecord s (fun u => u = s)) ∧
  (∀ s : State, s.events ≠ [] → Completes .faultRecord s (fun u => u = s.cycleOnce.2)) ∧
  (∀ (s : State) (e : Event) (i : Nat), s.slotOfSource e.source = none →
    (List.range 256).find? (fun i => !s.recUsed i) = some i →
    let base := s.mapLevel e.source
    let t := s.bump (if srcClass e.source % 2 = 0 then F.FLT_CNT_CNT_LO else F.FLT_CNT_CNT_HI) (srcClass e.source / 2)
    let esc := decide (1 ≤ base ∧ base ≤ 3) && t.escalates (srcClass e.source)
    s.processEvent e = t.makeRecord i e (if esc then base + 1 else base) base esc) ∧
  (∀ (s : State) (p : Party) (slot : Fin 256), Grants p (.ack p slot) s (fun c =>
    let res (r : Nat) (t : State) : State := t.setReg (F.FLT_CMD_RES.bk p.code).base (BitVec.ofNat 32 (r * 16 + 1))
    let d := c.tableRead
    if d.recUsed slot = false then res 1 d
    else if d.recSeq slot ≠ d.get (F.FLT_CMD_ARG_SEQ.bk p.code) then res 2 d
    else res 0 (d.recPut slot 9 1 1))) ∧
  (∀ (s : State) (p : Party) (slot : Fin 256), Grants p (.clear p slot) s (fun c =>
    let res (r : Nat) (t : State) : State := t.setReg (F.FLT_CMD_RES.bk p.code).base (BitVec.ofNat 32 (r * 16 + 2))
    let d := c.tableRead
    if d.recUsed slot = false then res 1 d
    else if d.recSeq slot ≠ d.get (F.FLT_CMD_ARG_SEQ.bk p.code) ∨
        d.recCount slot % 256 ≠ d.get (F.FLT_CMD_ARG_CNT.bk p.code) then res 2 d
    else if d.condStands (d.recSource slot) = true then res 3 d
    else if isEngine p = true ∧ 3 ≤ d.recLevel slot then res 4 d
    else res 0 (d.dropRecord slot 0))) ∧
  (∀ (s : State) (p : Party) (cls : Fin 16), Grants p (.ackClass p cls) s (fun c =>
    (c.tableRead.recSlots.foldl (fun t i => if srcClass (t.recSource i) = cls.val then t.recPut i 9 1 1 else t) c.tableRead).setReg
      (F.FLT_CMD_RES.bk p.code).base 3)) ∧
  (∀ (s : State) (p : Party), Grants p (.clearL0 p) s (fun c =>
    (c.tableRead.recSlots.foldl (fun t i => if t.recLevel i = 0 ∧ t.thermStands (t.recSource i) = false then t.dropRecord i 0
      else t) c.tableRead).setReg (F.FLT_CMD_RES.bk p.code).base 4)) ∧
  (∀ (s : State) (e : Event) (n : Fin 24) (base : Nat) (esc : Bool), e.source = sourceOf 3 2 n →
    (s.atFull e 0 base esc).on F.CHn_CTRL_ON n = false ∧ (s.atFull e 0 base esc).held (.chan n) = true) ∧
  (∀ (s : State) (i : Fin 256) (why : Nat), (s.dropRecord i why).recUsed i = false ∧
    ∀ h ∈ (s.dropRecord i why).holds, h.1 ≠ i.val) ∧
  (∀ s : State, s.sramRaw = [] → s.tableRead = s)) ∧
  ((∀ s : State, let u := s.showFlt
    u.get F.FLT_STAT_NREC = s.recSlots.length % 2 ^ F.FLT_STAT_NREC.width ∧ (u.on F.FLT_STAT_ERR = true ↔
      ∃ i ∈ s.recSlots, 1 ≤ s.recLevel i) ∧ (u.on F.FLT_STAT_SAFE = true ↔ ∃ i ∈ s.recSlots, s.recLevel i = 3) ∧
      (u.on F.FLT_STAT_HALT = true ↔ ∃ i ∈ s.recSlots, s.recLevel i = 4)) ∧
  (∀ (s : State) (g : Nat), g < 25 → bitOf (s.irqUpdate.reg F.IRQ_SUMMARY.base) g = s.irqSub.irqGroup g))

/-! ### The reserve power path and the charger (chapter 13) -/

/-- The power path (R378–R386, R395, R396), where its cells are fitted: a lost source hands over to an available reserve, and
back after a source qualified for 50 ms; a depleted reserve returns to Source; a reverse current blocks the source switch; each
comparator acts once it has seen its condition for its time, and before it nothing but the sample follows. SHIP opens both paths from
Source, and is ignored with a Notice while the reserve carries the load; a press of SHIP# of 100 ms to 8 s ends it.
Where a rule leaves a choice the model's is meant: log entries 4 and 37. -/
def Obligations.PowerPathMoves : Prop :=
  (∀ (s : State) (x : PathSample) (h : Nat) (i : Instr), s.pp.fitted = false → i ∈ [.sourceLost x h, .sourceGood x,
    .handoverComplete x, .handbackComplete x, .sourceReverseBlock x, .sourceBlockRelease x, .depletion x h, .supplementStart x h,
    .supplementStop x h, .packRemoved x h, .prechargeEnd x, .chargeConditionChange x, .shipPress h] →
    Completes i s (fun u => u = s)) ∧
  (∀ (s : State) (x : PathSample) (h : Nat), s.pp.fitted = true →
    (h < 200 → Completes (.sourceLost x h) s (fun u => u = (s.ppSample x).showAvail.chgEval)) ∧
    (h < 1000000 → Completes (.depletion x h) s (fun u => u = (s.ppSample x).showAvail.chgEval)) ∧
    (h < 100000 → Completes (.supplementStart x h) s (fun u => u = (s.ppSample x).showAvail.chgEval) ∧
      Completes (.supplementStop x h) s (fun u => u = (s.ppSample x).showAvail.chgEval))) ∧
  (∀ (s : State) (x : PathSample) (h : Nat), s.pp.fitted = true → 200 ≤ h → x.vsrc < 100 * (s.get F.PWRP_SW_SRC_UV : Int) →
    s.on F.PWRP_STAT_SRC_GOOD = true → Completes (.sourceLost x h) s (fun u =>
      u.on F.PWRP_STAT_SRC_GOOD = false ∧
      (s.path = ppSource → (s.ppSample x).on F.PWRP_STAT_AVAIL = true → u.path = ppHandover ∧ u.pp.src = .off ∧
        u.pp.bat = .on ∧ u.get F.PWRP_CNT_HANDOVERS =
          min (s.get F.PWRP_CNT_HANDOVERS + 1) (2 ^ F.PWRP_CNT_HANDOVERS.width - 1)) ∧
      (s.path = ppSource → (s.ppSample x).on F.PWRP_STAT_AVAIL = false → u.path = ppSource ∧ u.pp.src = .off) ∧
      (s.path = ppShip → u.path = ppShip ∧ u.pp.src = .off) ∧
      (s.path = ppHandback → u.path = ppReserve ∧ u.pp.src = .off ∧ u.pp.bat = .on))) ∧
  (∀ (s : State) (x : PathSample), s.pp.fitted = true →
    100 * ((s.get F.PWRP_SW_SRC_UV : Int) + s.get F.PWRP_SW_SRC_HYS) ≤ x.vsrc → Completes (.sourceGood x) s (fun u =>
      u.on F.PWRP_STAT_SRC_GOOD = true ∧ u.path = s.path ∧ u.pp.goodSince = some (s.pp.goodSince.getD s.now) ∧
      (s.path = ppSource ∨ s.path = ppShip → s.pp.src = .off → u.pp.src = .ramp))) ∧
  (∀ (s : State) (x : PathSample), s.pp.fitted = true → s.path = ppHandover → Completes (.handoverComplete x) s (fun u =>
    u.path = ppReserve ∧ u.pp.handDone = s.now)) ∧
  (∀ (s : State) (x : PathSample), Comes (.sourceQualified x) s s.qualifiedDue (State.sourceQualified x)) ∧
  (∀ (s : State) (x : PathSample) (q : Nat), s.pp.fitted = true → s.qualifiedDue = some q → q ≤ s.now →
    (s.sourceQualified x).path = ppHandback ∧ (s.sourceQualified x).pp.src = .ramp ∧ (s.sourceQualified x).pp.bat = .diode) ∧
  (∀ (s : State) (x : PathSample), s.pp.fitted = true → s.path = ppHandback → s.pp.src = .ramp →
    Completes (.handbackComplete x) s (fun u =>
      u.path = ppSource ∧ u.on F.PWRP_CAUSE_HANDBACK = true ∧ u.pp.src ≠ .ramp)) ∧
  (∀ (s : State) (x : PathSample), s.pp.fitted = true → x.isrc < -500 → s.pp.src = .on ∨ s.pp.src = .limit ∨ s.pp.src = .ramp →
    Completes (.sourceReverseBlock x) s (fun u => u.pp.src = .blocked ∧ u.path = s.path)) ∧
  (∀ (s : State) (x : PathSample), s.pp.fitted = true → x.vsys + 50 < x.vsrc → s.pp.src = .blocked →
    Completes (.sourceBlockRelease x) s (fun u => u.pp.src = .ramp ∧ u.path = s.path)) ∧
  (∀ (s : State) (x : PathSample) (h : Nat), s.pp.fitted = true → 1000000 ≤ h →
    s.path = ppReserve ∨ (s.path = ppHandback ∧ s.pp.backAt = some s.now) →
    x.vbat < s.ncell * (10 * s.get F.PWRP_VCELL_VCUT : Nat) → Completes (.depletion x h) s (fun u =>
      u.path = ppSource ∧ u.on F.PWRP_CAUSE_DEPLETE = true ∧ (u.on F.PWRP_STAT_DEPLETED = true ∨ u.chg = chgFast) ∧
        u.pp.src = (if s.on F.PWRP_STAT_SRC_GOOD then .ramp else .off))) ∧
  (∀ (s : State) (x : PathSample) (h : Nat), s.pp.fitted = true → 100000 ≤ h → s.path = ppSource → x.ibat < -100 →
    s.on F.PWRP_STAT_SUPPL = false → Completes (.supplementStart x h) s (fun u =>
      u.on F.PWRP_STAT_SUPPL = true ∧ u.on F.PWRP_CAUSE_SUPPL = true ∧ u.path = ppSource)) ∧
  (∀ (s : State) (x : PathSample) (h : Nat), s.pp.fitted = true → 100000 ≤ h → -100 ≤ x.ibat →
    Completes (.supplementStop x h) s (fun u => u.on F.PWRP_STAT_SUPPL = false ∧ u.path = s.path)) ∧
  (∀ (s : State) (p : Party) (en : Bool), Grants p (.ship p en) s (fun c =>
    (c.ownedStore p F.PWRP_CTRL.base F.PWRP_CTRL.base (BitVec.ofNat 32 (2 ^ 31 + b2n en)) allBits).chgEval.shipCmd p)) ∧
  (∀ (s : State) (p : Party), s.pp.fitted = false → s.shipCmd p = s ∧ s.shipExit = s) ∧
  (∀ (s : State) (p : Party), s.pp.fitted = true → s.path = ppSource → (s.shipCmd p).path = ppShip ∧ (s.shipCmd p).pp.bat = .off ∧
    (s.shipCmd p).on F.PWRP_STAT_AVAIL = false) ∧
  (∀ (s : State) (p : Party), s.pp.fitted = true → s.path = ppHandover ∨ s.path = ppReserve ∨ s.path = ppHandback →
    s.shipCmd p = s.notice p F.PWRP_CTRL.base) ∧
  (∀ (s : State) (p : Party), s.pp.fitted = true → s.path = ppSource → (s.shipCmd p).chg = chgIdle) ∧
  (∀ (s : State) (p : Party) (en : Bool), Grants p (.shipExit p en) s (fun c =>
    (c.ownedStore p F.PWRP_CTRL.base F.PWRP_CTRL.base (BitVec.ofNat 32 (2 ^ 30 + b2n en)) allBits).chgEval.shipExit)) ∧
  (∀ s : State, s.pp.fitted = true → s.path = ppShip → s.shipExit.path = ppSource ∧ s.shipExit.on F.PWRP_CAUSE_SHIP_EXIT = true) ∧
  (∀ s : State, s.path ≠ ppShip → s.shipExit = s) ∧
  (∀ (s : State) (h : Nat), h < 20 ∨ s.shipCounts h = false → Completes (.shipPress h) s (fun u => u = s)) ∧
  (∀ (s : State) (h : Nat), s.pp.fitted = true → 20 ≤ h → s.shipCounts h = true → Completes (.shipPress h) s (fun u =>
    u = (if 100 ≤ h ∧ h < 8000 then s.shipExit else s).wakeBy 5)) ∧
  (∀ s : State, Comes .offCycleEnd s (if s.path = ppOff then some s.pp.offEnd else none) State.offCycleEnd) ∧
  (∀ s : State, s.path = ppOff → s.offCycleEnd.path = ppSource ∧ s.offCycleEnd.pp.bat =
    (if s.pp.fitted = true ∧ s.offCycleEnd.on F.PWRP_STAT_AVAIL = false then .off else .diode) ∧
    s.offCycleEnd.pp.src = (if s.on F.PWRP_STAT_SRC_GOOD then .ramp else .off))

/-- The pack (R387–R389). A probe begins where a pack is suspected or its repetition is due; after 100 ms it judges: shorted
below 0.20 V a cell at 40 mA, else missing above 1.60 V a cell or with the pin open, else present. A pack removed in charge is
missing, and an end of charge of that very cycle is undone (R398); one below 0.20 V a cell for 1 s in Precharge is shorted.
The charger (R390–R393), while its conditions hold: Precharge ends in Fast at VPRE, Top-off in Done at TTOP, Done in a new
charge below VRECHG; a timer or a pack above TMAX ends it in Fault. Where they stop holding, and where a reaction holds it, it
returns to Qualify, Precharge and Fast with their time (R357, R391); without CHG_EN, out of Source, in rest and link-held it is in
Idle (R390, R397). A write of
PWRP_CFG is stored and restarts it; CHG_GO takes it from Qualify, and from Done.
Where a rule leaves a choice the model's is meant: log entries 4 and 37. -/
def Obligations.PacksAndCharger : Prop :=
  ((∀ (s : State) (x : PathSample) (h : Nat), Comes (.packProbeStart x h) s (some (s.probeDue.getD s.now))
    (State.probeStart x h)) ∧
  (∀ (s : State) (x : PathSample) (h : Nat), s.pp.fitted = true → (s.ppSample x).probeMay = true →
    s.on F.PWRP_STAT_BAT_MISSING = false → 10000000 ≤ h → s.packSuspect x = true →
    (s.probeStart x h).pp.probe = some s.now) ∧
  (∀ (s : State) (x : PathSample), Comes (.packProbeEnd x) s (s.pp.probe.map (fun t => t + 10000000)) (State.probeEnd x)) ∧
  (∀ (s : State) (x : PathSample) (b : Nat), s.pp.fitted = true → s.pp.probe = some b → b + 10000000 ≤ s.now →
    let u := s.probeEnd x
    (x.vbat < s.ncell * 200 ∧ 40 ≤ x.ibat → u.on F.PWRP_STAT_SHORTED = true ∧ u.on F.PWRP_CAUSE_SHORT = true) ∧
    (¬(x.vbat < s.ncell * 200 ∧ 40 ≤ x.ibat) → s.ncell * 1600 ≤ x.vbat ∨ 2450000 < x.pth →
      u.on F.PWRP_STAT_BAT_MISSING = true) ∧
    (¬(x.vbat < s.ncell * 200 ∧ 40 ≤ x.ibat) → ¬(s.ncell * 1600 ≤ x.vbat ∨ 2450000 < x.pth) →
      u.on F.PWRP_STAT_BAT_MISSING = false ∧ u.on F.PWRP_CAUSE_PRESENT = true ∧ u.chg ≠ chgFault)) ∧
  (∀ (s : State) (x : PathSample) (h : Nat), s.pp.fitted = true → s.charging = true →
    (s.ncell * 1800 < x.vbat ∧ 200 ≤ h) ∨ (2450000 < x.pth ∧ 1000 ≤ h) → Completes (.packRemoved x h) s (fun u =>
      u.on F.PWRP_STAT_BAT_MISSING = true ∧ u.chg = chgIdle ∧ u.pp.lastProbe = some s.now)) ∧
  (∀ (s : State) (x : PathSample) (h : Nat) (cause cnt : Word), s.pp.fitted = true → s.chg = chgDone →
    s.pp.doneAt = some (s.now, cause, cnt) → s.ncell * 1800 < x.vbat → 200 ≤ h → Completes (.packRemoved x h) s (fun u =>
      u.on F.PWRP_STAT_BAT_MISSING = true ∧ u.chg = chgIdle ∧ u.reg F.PWRP_CNT_CYCLES.base = cnt ∧
        u.get F.PWRP_CAUSE_CHG_DONE = bitsOf cause F.PWRP_CAUSE_CHG_DONE.lo 1)) ∧
  (∀ (s : State) (x : PathSample) (h : Nat), Comes (.packShorted x h) s
    (if s.chg = chgPre then s.chgReaches 100000000 else none) (State.packShorted x h)) ∧
  (∀ (s : State) (x : PathSample) (h : Nat), s.pp.fitted = true → s.chg = chgPre → 100000000 ≤ h → x.vbat < s.ncell * 200 →
    100000000 ≤ (s.ppSample x).chgTime → (s.packShorted x h).on F.PWRP_STAT_SHORTED = true)) ∧
  ((∀ (s : State) (x : PathSample), s.ChargeHolds x → s.chg = chgPre → s.ncell * (10 * s.get F.PWRP_VCELL_VPRE : Nat) ≤ x.vbat →
    Completes (.prechargeEnd x) s (fun u => u.chg = chgFast ∧ u.pp.second = some (s.now + 100000000))) ∧
  (∀ (s : State) (v t : Int), Comes (.chargeSecond v t) s s.pp.second (State.chargeSecond v t)) ∧
  (∀ (s : State) (v t : Int) (e : Nat), s.pp.second = some e → e ≤ s.now → s.chg = chgFast →
    minuteTicks * s.get F.PWRP_EOC_THOLD ≤ s.chgTime → s.get F.PWRP_EOC_DV ≠ 0 → s.pp.secHeld = false →
    v + s.ncell * (s.get F.PWRP_EOC_DV : Int) ≤ s.pp.vpk.getD v →
    (s.chargeSecond v t).chg = (if s.get F.PWRP_CHG2_TTOP = 0 then chgDone else chgTop)) ∧
  (∀ (s : State) (x : PathSample), Comes (.chargerTimerFault x) s (if s.chgHot x then some s.now else s.chgTimerDue)
    (State.chargerFault x)) ∧
  (∀ (s : State) (x : PathSample), s.pp.fitted = true → s.chgHot x = true → (s.chargerFault x).chg =
      (if s.chgMay = true ∧ s.on F.PWRP_CTRL_CHG_EN = true ∧ s.path = ppSource ∧ s.on F.PWRP_STAT_BAT_MISSING = false ∧
        s.on F.PWRP_STAT_SHORTED = false then chgFault else chgIdle) ∧
    (s.chargerFault x).on F.PWRP_CAUSE_CHG_FAULT = true) ∧
  (∀ (s : State) (x : PathSample), Comes (.topoffEnd x) s s.topoffDue (State.topoffEnd x)) ∧
  (∀ (s : State) (x : PathSample) (t : Nat), s.ChargeHolds x → (s.ppSample x).topoffDue = some t → t ≤ s.now →
    (s.topoffEnd x).chg = chgDone ∧ (s.topoffEnd x).on F.PWRP_CAUSE_CHG_DONE = true) ∧
  (∀ (s : State) (x : PathSample) (h : Nat), Comes (.rechargeStart x h) s
    (if s.chg = chgDone then s.chgReaches minuteTicks else none) (State.rechargeStart x h)) ∧
  (∀ (s : State) (x : PathSample) (h : Nat), s.ChargeHolds x → s.chg = chgDone → minuteTicks ≤ h →
    minuteTicks ≤ (s.ppSample x).chgTime →
    x.vbat < s.ncell * (10 * s.get F.PWRP_VCELL_VRECHG : Nat) → (s.rechargeStart x h).chg =
      (if x.vbat < s.ncell * (10 * s.get F.PWRP_VCELL_VPRE : Nat) then chgPre else chgFast)) ∧
  (∀ (s : State) (x : PathSample), s.pp.fitted = true → Completes (.chargeConditionChange x) s (fun u =>
    u = ((s.ppSample x).showAvail).chgEval)) ∧
  (∀ s : State, s.pp.fitted = true → s.chgMay = true → s.on F.PWRP_CTRL_CHG_EN = true → s.path = ppSource →
    s.on F.PWRP_STAT_BAT_MISSING = false → s.on F.PWRP_STAT_SHORTED = false → s.pp.probe = none → s.charging = true →
    s.chgHot s.ppX = false → s.chgOk = false → s.chgEval.chg = chgQualify) ∧
  (∀ s : State, s.pp.fitted = true → s.on F.PWRP_CTRL_CHG_EN = false ∨ s.chgMay = false ∨ s.path ≠ ppSource ∨
    s.on F.PWRP_STAT_BAT_MISSING = true ∨ s.on F.PWRP_STAT_SHORTED = true → s.chgEval.chg = chgIdle) ∧
  (∀ s : State, s.chgHeld.chg = (if s.charging = true then chgQualify else s.chg) ∧ s.chgHeld.pp.probe = none ∧
    (s.chg = chgPre ∨ s.chg = chgFast → s.chgHeld.pp.kept = some (s.chg, s.chgTime))) ∧
  (∀ (s : State) (p : Party) (en : Bool), Grants p (.chgGo p en) s (fun c =>
    (c.ownedStore p F.PWRP_CTRL.base F.PWRP_CTRL.base (BitVec.ofNat 32 (2 ^ 29 + b2n en)) allBits).chgEval.chgGoCmd)) ∧
  (∀ s : State, s.chg ≠ chgDone → s.chg ≠ chgQualify → s.chgGoCmd = s) ∧
  (∀ (s : State) (p : Party) (w : Word), Grants p (.pwrpCfgWrite p w) s (fun c =>
    c.ownedStore p F.PWRP_CFG.base F.PWRP_CFG.base w allBits)))

/-! ### The keep domain (chapter 14) -/

/-- Supply, crystal and calendar (R403–R410). A keep reset leaves the keep words at their reset values with KRST; a switch-over
counts and stamps where no stamp stands, but moves the live levels alone while a keep reset stands; a stopped crystal invalidates the time. A calendar second carries the calendar to its
next second, a trim addition comes at the next multiple of 2^20 periods; the measured window is kept while the device is
synchronised, and at a beat boundary ERR takes its error, VALID with it, and TRIM_AUTO commits the trim of it.
Where a rule leaves a choice the model's is meant: log entry 38. -/
def Obligations.KeepClock : Prop :=
  (∀ s : State, Completes .keepReset s (fun u => u.keep.inReset = true ∧ u.keep.held = none ∧
    u.on F.KEEP_STAT_KRST = true ∧ u.on F.KEEP_STAT_TIME_VALID = false ∧ (∀ j : Fin 16, u.reg (F.KEEP_MEM.addr j) = 0) ∧
    (∀ k, k ∉ keepWords → k ≠ F.KEEP_STAT.base → u.reg k = s.reg k) ∧ u.keep.queue = s.keep.queue)) ∧
  (∀ s : State, Completes .keepResetRelease s (fun u => u = { s with keep := { s.keep with inReset := false } })) ∧
  (∀ s : State, s.on F.KEEP_STAT_ON_CELL = true → Completes .switchOver s (fun u => u = s)) ∧
  (∀ s : State, s.on F.KEEP_STAT_ON_CELL = false → s.keep.inReset = true → Completes .switchOver s (fun u =>
    u = (s.putB F.KEEP_STAT_ON_CELL true).putB F.SYS_DOM_STAT_KEEP_ON_CELL true)) ∧
  (∀ s : State, s.on F.KEEP_STAT_ON_CELL = false → s.keep.inReset = false → Completes .switchOver s (fun u =>
    u.on F.KEEP_STAT_ON_CELL = true ∧ u.on F.SYS_DOM_STAT_KEEP_ON_CELL = true ∧
      u.get F.KEEP_SWCNT_COUNT = min (s.get F.KEEP_SWCNT_COUNT + 1) (2 ^ F.KEEP_SWCNT_COUNT.width - 1) ∧
      (s.on F.KEEP_SWSTAMP_DATE_VALID = true → u.reg F.KEEP_SWSTAMP_DATE.base = s.reg F.KEEP_SWSTAMP_DATE.base ∧
        u.reg F.KEEP_SWSTAMP_TIME.base = s.reg F.KEEP_SWSTAMP_TIME.base) ∧
      (s.on F.KEEP_SWSTAMP_DATE_VALID = false → u.on F.KEEP_SWSTAMP_DATE_VALID = true ∧ u.on F.KEEP_STAT_SWITCH = true ∧
        u.reg F.KEEP_SWSTAMP_TIME.base = s.reg F.KEEP_TIME.base))) ∧
  (∀ s : State, Completes .mainBranchReturn s (fun u =>
    u = (s.putB F.KEEP_STAT_ON_CELL false).putB F.SYS_DOM_STAT_KEEP_ON_CELL false)) ∧
  (∀ s : State, s.on F.KEEP_STAT_XTAL_OK = true → Completes .xtalStop s (fun u =>
    u.on F.KEEP_STAT_XTAL_OK = false ∧ u.on F.SYS_CLK_STAT_KEEP_XTAL_OK = false ∧ u.on F.KEEP_STAT_OSC_STOP = true ∧
      u.on F.KEEP_STAT_TIME_VALID = false ∧ (∀ k, k ≠ F.KEEP_STAT.base → k ≠ F.SYS_CLK_STAT.base → u.reg k = s.reg k))) ∧
  (∀ s : State, s.on F.KEEP_STAT_XTAL_OK = false → Completes .xtalStop s (fun u => u = s)) ∧
  (∀ s : State, Completes .keepCrystalRestart s (fun u =>
    u = (s.put F.KEEP_STAT_XTAL_OK 1).put F.SYS_CLK_STAT_KEEP_XTAL_OK 1)) ∧
  (∀ s : State, s.keepCounts = false → Completes .calendarSecond s (fun u => u = s) ∧ Completes .trimAdd s (fun u => u = s)) ∧
  (∀ s : State, s.keepCounts = true → s.toSecond < s.toMultiple → s.calSec + 1 < calSpan → Completes .calendarSecond s (fun u =>
    u.reg F.KEEP_DATE.base = calDateWord (s.calSec + 1) ∧ u.reg F.KEEP_TIME.base = calTimeWord (s.calSec + 1) 0)) ∧
  (∀ s : State, s.keepCounts = true → s.toMultiple ≤ s.toSecond → Completes .trimAdd s (fun u =>
    u = s.keepRun s.toMultiple)) ∧
  (∀ s : State, s.keepCounts = true → Completes .trimAdd s (fun u => u.keep.periods = 0)) ∧
  (∀ (s : State) (n : Nat), Completes (.keepCalWindow n) s (fun u => u = if s.keepMeasured = true ∧ n ≠ 0 then
    { s with keep := { s.keep with window := some n } } else s)) ∧
  (∀ (s : State) (n : Nat), s.keepMeasured = true → s.keep.window = some n → 0 < n →
    let a : Int := (100000000 - (n : Int)) * 100000000
    s.keepBeat.on F.KEEP_CAL_VALID = true ∧
      (a.natAbs < 2 ^ 23 * n → ((n : Int) * s.keepBeat.getS F.KEEP_CAL_ERR - a).natAbs ≤ n) ∧
      (s.on F.KEEP_CFG_TRIM_AUTO = true → s.keep.queue.length < 8 → s.keepBeat.keep.queue = s.keep.queue ++
        [.trim (ofS 8 (clampI (-127) 127 (-(roundDiv ((100000000 - (n : Int)) * 2 ^ 20) n))))])) ∧
  (∀ s : State, s.keepMeasured = false → s.keepUnsync.on F.KEEP_CAL_VALID = false ∧ s.keepUnsync.keep.window = none)

/-- Keep commits (R411–R417). A command takes its party's copies into the queue, with QUEUED as its result, or FULL where eight
wait; a write of KEEP_CFG, of KEEP_STAT's causes and of a keep-memory point is queued too. At a keep edge the first is applied
whole: a time that the calendar does not admit is rejected and leaves it; a commit that a reset of the main domain found marked is
applied then, and reports to no party (R414); one that entry to rest found marked reports as ever (R424). A read of KEEP_DATE latches KEEP_TIME for its
reader.
Where a rule leaves a choice the model's is meant: log entry 38. -/
def Obligations.KeepCommits : Prop :=
  (∀ s : State, s.keep.inReset = true → Completes .keepCommitApply s (fun u => u = s)) ∧
  (∀ s : State, s.keep.inReset = false → s.keep.held = none → Completes .keepCommitApply s (fun u =>
    let t := if s.keepCounts = true then s.keepRun 1 else s
    match s.keep.queue with
    | [] => u = t
    | c :: q => u = (({ t with keep := { t.keep with queue := q } } : State).showQueue).keepApply c)) ∧
  (∀ (s : State) (c : KeepCommit), s.keep.inReset = false → s.keep.held = some c → Completes .keepCommitApply s (fun u =>
    let t := if s.keepCounts = true then s.keepRun 1 else s
    u = ({ t with keep := { t.keep with held := none } } : State).keepApplyHeld c)) ∧
  (∀ (s : State) (c : KeepCommit), s.keep.heldSilent = false → s.keepApplyHeld c = s.keepApply c) ∧
  (∀ (s : State) (c : KeepCommit) (k : Nat), (∀ p, p < 14 → k ≠ (F.KEEP_CMD_RES.bk p).base) →
    (s.keepApplyHeld c).reg k = (s.keepApply c).reg k) ∧
  (∀ (s : State) (c : KeepCommit) (p : Nat), s.keep.heldSilent = true → p < 14 →
    (s.keepApplyHeld c).reg (F.KEEP_CMD_RES.bk p).base = s.reg (F.KEEP_CMD_RES.bk p).base) ∧
  (∀ (s : State) (p : Party) (i : Instr) (op : Nat), (i, op) ∈ [(.setTime p, 1), (.hourAdd p, 2), (.hourSub p, 3),
    (.memCommit p, 4), (.alarmSet p, 5)] → Grants p i s (fun c => c.keepCmd p op)) ∧
  (∀ (s : State) (p : Party) (op : Nat), 1 ≤ op → op ≤ 5 → let u := s.keepCmd p op
    u.get (F.KEEP_CMD_RES_OP.bk p.code) = op ∧
    (s.keep.queue.length < 8 → u.get (F.KEEP_CMD_RES_RESULT.bk p.code) = 1 ∧ u.keep.queue.length = s.keep.queue.length + 1 ∧
      ∃ c, u.keep.queue = s.keep.queue ++ [c] ∧
        (op = 1 → c = .setTime p.code (s.reg (F.KEEP_SET_DATE.bk p.code).base) (s.reg (F.KEEP_SET_TIME.bk p.code).base))) ∧
    (8 ≤ s.keep.queue.length → u.get (F.KEEP_CMD_RES_RESULT.bk p.code) = 4 ∧ u.keep = s.keep)) ∧
  (∀ (s : State) (p : Party) (w : Word), Grants p (.keepCfgWrite p w) s (fun c =>
    if c.reservedWord F.KEEP_CFG.base w = true then c.notice p F.KEEP_CFG.base else c.keepWrite p (.cfg w))) ∧
  (∀ (s : State) (p : Party) (w : Word), Grants p (.keepStatClear p w) s (fun c =>
    if w &&& 0x1FC = 0 then c else c.keepWrite p (.clear (w &&& 0x1FC)))) ∧
  (∀ (s : State) (p : Party) (q : Fin 2048) (v : BitVec 8), s.sramRaw = [] → (s.pointRec q).1 = 9 →
    (s.pointRec q).2.2.testBit (pointBit p) = true → Grants p (.pointKeepByteWrite p q v) s (fun c =>
      c.keepByte p (0x9000 + q.val) (s.pointRec q).2.1 v.toNat)) ∧
  (∀ (s : State) (p : Party), Reads p (.keepDateRead p) s (fun c =>
    (c.reg F.KEEP_DATE.base, c.setReg (F.KEEP_TIME.bk p.code).base (c.reg F.KEEP_TIME.base)))) ∧
  (∀ (s : State) (k : Nat) (d t : Word), calOk (calWords d t) = true →
    (s.keepApply (.setTime k d t)).on F.KEEP_STAT_TIME_VALID = true ∧
    (s.keepApply (.setTime k d t)).reg F.KEEP_DATE.base = calDateWord (calWords d t).seconds ∧
    (s.keepApply (.setTime k d t)).reg F.KEEP_TIME.base = calTimeWord (calWords d t).seconds 0) ∧
  (∀ (s : State) (k : Nat) (d t : Word), k < 16 → calOk (calWords d t) = false →
    (s.keepApply (.setTime k d t)).on F.KEEP_STAT_DATE_REJECT = true ∧
    (s.keepApply (.setTime k d t)).get (F.KEEP_CMD_RES_RESULT.bk k) = 3 ∧
    (s.keepApply (.setTime k d t)).reg F.KEEP_DATE.base = s.reg F.KEEP_DATE.base) ∧
  (∀ (s : State) (w : Word), s.keepApply (.cfg w) = s.setReg F.KEEP_CFG.base (w &&& 0xF00000FF)) ∧
  (∀ (s : State) (b : Fin 64) (v : Nat), v < 256 → (s.keepApply (.byte b v)).on F.KEEP_STAT_MEM_VALID = true ∧
    bitsOf ((s.keepApply (.byte b v)).reg (F.KEEP_MEM.addr (b / 4))) (8 * (b % 4)) 8 = v)

/-- The calendar (R409, R410) is the Gregorian one of the 400 years from 2000-01-01, a Saturday: every date and time it admits is
that of its own number of seconds. From 2399-12-31 23:59:59 it advances to 2000-01-01 00:00:00 and sets YEAR_WRAP, TIME_VALID
as it was. The 400 years hold 146,097 days, a whole number of weeks, so the weekday runs on. -/
def Obligations.CalendarIsGregorian : Prop :=
  (∀ c : CalTime, calOk c = true → calOf c.seconds = c ∧ c.seconds < calSpan) ∧
  (∀ t : Nat, t < calSpan → calOk (calOf t) = true ∧ (calOf t).seconds = t) ∧
  (∀ y : Nat, leapYear y = true ↔ (y % 4 = 0 ∧ y % 100 ≠ 0) ∨ y % 400 = 0) ∧ weekday 0 = 6 ∧
  (∀ t : Nat, weekday (t + 86400) = (weekday t + 1) % 7) ∧ calSpan = 146097 * 86400 ∧ 146097 % 7 = 0 ∧
  (∀ t : Nat, weekday (t + calSpan) = weekday t) ∧
  calOf (calSpan - 1) = ⟨399, 12, 31, 23, 59, 59⟩ ∧ calOf 0 = ⟨0, 1, 1, 0, 0, 0⟩ ∧
  (∀ s : State, s.keepCounts = true → s.toSecond < s.toMultiple → s.calSec = calSpan - 1 → Completes .calendarSecond s (fun u =>
    u.reg F.KEEP_DATE.base = calDateWord 0 ∧ u.reg F.KEEP_TIME.base = calTimeWord 0 0 ∧
      u.on F.KEEP_STAT_YEAR_WRAP = true ∧ u.on F.KEEP_STAT_TIME_VALID = s.on F.KEEP_STAT_TIME_VALID))

/-! ### The host bus (chapter 16) -/

/-- Host transactions (R437–R450). A START first ends the transaction that stands open. The address byte of one that is to another
address, or that comes while the device does not run or words of an applied write are still being granted, is not acknowledged,
and wakes the device at rest. A reserved OPCODE is not acknowledged. A write with too few bytes, or without a PEC that is
required, is discarded with FRAME_ERR, one with a wrong PEC with PEC_ERR, a NACK and HOST/L1; a good one is applied, its words
going to consecutive words, or to one, in order. A read whose first word is not granted within a byte is not acknowledged at its
address+R; another sends the words it fetches and their PEC. A line held low for 30 ms makes its HOST record, once in an episode,
and what stands open ends, a write with FRAME_ERR.
Where a rule leaves a choice the model's is meant: log entry 39. -/
def Obligations.HostTransactions : Prop :=
  (∀ (s : State) (t : BitVec 7) (n : Fin 16) (a : BitVec 16) (b : List Byte) (m : Option Nat) (op : BitVec 8) (stop : Bool)
    (i : Instr), op.toNat < 0x20 ∨ 0x50 ≤ op.toNat →
    i ∈ [.hostWrite t op a b stop, .hostRead t n a m stop, .writeFix t n a b stop, .readFix t n a m stop] →
    (s.hostStart t.toNat).1 = none → Completes i s (fun u => u = (s.hostStart t.toNat).2)) ∧
  (∀ (s : State) (t : BitVec 7) (op : BitVec 8) (a : BitVec 16) (b : List Byte) (stop : Bool), 0x20 ≤ op.toNat → op.toNat < 0x50 →
    exec (.hostWrite t op a b stop) s = .fault .illFormed) ∧
  (∀ (s : State) (t : Nat), s.hostStart t = s.hostEnd.hostStart t) ∧
  (∀ (s : State) (t : Nat), s.hostOpen = none →
    let v : State := { s with hostScl := false, hostSda := false, hostAcks := [false] }
    (s.hostMatch t = none ∨ s.phase = .inReset → s.hostStart t = (none, v)) ∧
    (s.hostMatch t ≠ none → s.phase = .sensing ∨ s.phase = .waking ∨ (s.phase = .running ∧ s.hostBurst = true) →
      s.hostStart t = (none, v.bump F.HOST_CNT_BUSY_NACK)) ∧
    (s.hostMatch t ≠ none → s.phase = .resting → s.hostStart t = (none, v.wakeBy 1)) ∧
    (s.phase = .running → s.hostBurst = false → s.hostStart t = (s.hostMatch t, v))) ∧
  (∀ s : State, s.hostOpen = none → s.hostEnd = s) ∧
  (∀ (s : State) (k t op a step : Nat) (b : List Byte), s.hostOpen = some (.write k t op a step b) →
    (b.length ≠ 4 * (op % 16 + 1) ∨ s.on F.HOST_CFG_PEC_REQ = true → s.hostEnd.on F.HOST_STAT_FRAME_ERR = true ∧
      s.hostEnd.hostOpen = none ∧ s.hostEnd.waiting = s.waiting ∧ ∀ j, j ≠ F.HOST_STAT.base → s.hostEnd.reg j = s.reg j) ∧
    (b.length = 4 * (op % 16 + 1) → s.on F.HOST_CFG_PEC_REQ = false → s.hostEnd = State.hostApply k op a step (wordsOf b)
      { s.put F.HOST_STAT_BUSY (b2n s.hostBurst) with hostOpen := none })) ∧
  (∀ (s : State) (k op a : Nat) (data : Bool), s.hostOpen = some (.read k op a data) → s.hostEnd.hostOpen = none ∧
    s.hostEnd.get F.HOST_CNT_TRANS = (if data then min (s.get F.HOST_CNT_TRANS + 1) (2 ^ F.HOST_CNT_TRANS.width - 1)
      else s.get F.HOST_CNT_TRANS)) ∧
  (∀ (s : State) (t : BitVec 7) (n : Fin 16) (a : BitVec 16) (b : List Byte) (stop : Bool) (i : Instr) (op step k : Nat),
    (i, op, step) ∈ [(.hostWrite t (BitVec.ofNat 8 (0x10 + n.val)) a b stop, 0x10 + n.val, 1),
      (.writeFix t n a b stop, 0x30 + n.val, 0)] → (s.hostStart t.toNat).1 = some k →
    let len := 4 * (n.val + 1)
    let v := (s.hostStart t.toNat).2.put F.HOST_STAT_AIDX k
    let w : State := { v.put F.HOST_STAT_BUSY 1 with
      hostOpen := some (.write k t.toNat op a.toNat step b), hostAcks := List.replicate (4 + b.length) true }
    let good := decide (crc8 (hostHead t.toNat op a.toNat ++ b.take len) = byteAt b len)
    let x : State := { v with
      hostAcks := List.replicate (4 + len) true ++ good :: v.freeAcks (b.length - (len + 1))
      free := v.free + (b.length - (len + 1)) }
    Completes i s (fun u =>
      (b.length ≤ len → u = if stop then w.hostEnd else w) ∧
      (len < b.length → good = true → u = x.hostApply k op a.toNat step (wordsOf (b.take len))) ∧
      (len < b.length → good = false → u = ((x.put F.HOST_STAT_PEC_ERR 1).bump F.HOST_CNT_PEC_FAIL).raise 15 3 0))) ∧
  (∀ (step a : Nat) (ws : List Word), (hostAccesses step a ws).length = ws.length ∧ (a < 65536 → ∀ j w, ws[j]? = some w →
    (hostAccesses step a ws)[j]? = some ({ party := .host, addr := (a + step * j) % 65536, word := some w } : Access))) ∧
  (∀ s : State, s.hostBurst = true → (∀ x ∈ s.waiting, x.party ≠ .host) → s.hostGranted.hostBurst = false ∧
    s.hostGranted.on F.HOST_STAT_BUSY = false) ∧
  (∀ (s : State) (t : BitVec 7) (op : BitVec 8) (a : BitVec 16) (b : List Byte) (stop : Bool) (k : Nat),
    (s.hostStart t.toNat).1 = some k → op.toNat < 0x10 ∨ 0x50 ≤ op.toNat → Completes (.hostWrite t op a b stop) s (fun u =>
      u = ({ (((s.hostStart t.toNat).2.put F.HOST_STAT_AIDX k).put F.HOST_STAT_FRAME_ERR 1) with hostAcks := [true, false] } : State))) ∧
  (∀ (s : State) (t : BitVec 7) (n : Fin 16) (a : BitVec 16) (m : Option Nat) (stop : Bool) (i : Instr) (op step k : Nat),
    (i, op, step) ∈ [(.hostRead t n a m stop, 0x20 + n.val, 1), (.readFix t n a m stop, 0x40 + n.val, 0)] →
    (s.hostStart t.toNat).1 = some k →
    let v := (s.hostStart t.toNat).2.put F.HOST_STAT_AIDX k
    let f := State.fetch .host step a.toNat 1
      { v.put F.HOST_STAT_BUSY 1 with hostTx := [], hostAcks := List.replicate 4 true }
    let ended (data : Bool) (y : State) : State :=
      if stop then State.hostEnd { y with hostOpen := some (.read k op a.toNat data) }
      else { y with hostOpen := some (.read k op a.toNat data) }
    Completes i s (fun u =>
      (f.2.phase ≠ v.phase → u = f.2) ∧
      (f.2.phase = v.phase → m = none → u = ended false f.2) ∧
      (∀ l, f.2.phase = v.phase → m = some l → (∃ x ∈ f.1, 900 < x.2) →
        u = (({ f.2 with hostAcks := [true, true, true, true, false] } : State).put F.HOST_STAT_BUSY 0).bump F.HOST_CNT_BUSY_NACK) ∧
      (∀ l, f.2.phase = v.phase → m = some l → (∀ x ∈ f.1, x.2 ≤ 900) →
        let got := if l = 0 then 1 else min (n.val + 1) ((l + 3) / 4 + 1)
        let g := f.2.fetch .host step ((a.toNat + step) % 65536) (got - 1)
        let late := ∃ (j : Nat) (x : Word × Nat), g.1[j]? = some x ∧ 3600 < x.2 ∧ 4 * (j + 1) < l
        let data := bytesOf ((f.1 ++ g.1).map (fun x => x.1))
        (g.2.phase ≠ v.phase → u = g.2) ∧
        (g.2.phase = v.phase →
          u.hostTx.length = l ∧ u.hostAcks = List.replicate 5 true ∧ u.waiting = g.2.waiting ∧ u.sram = g.2.sram ∧
          (late → u.on F.HOST_STAT_LATE_RD = true) ∧
          (¬late → u.on F.HOST_STAT_LATE_RD = g.2.on F.HOST_STAT_LATE_RD ∧
            (∀ j : Nat, j < l → j < 4 * got → byteAt u.hostTx j = byteAt data j) ∧
            (4 * (n.val + 1) < l → byteAt u.hostTx (4 * (n.val + 1)) =
              crc8 (hostHead t.toNat op a.toNat ++ leBytes (2 * t.toNat + 1) 1 ++ data))) ∧
          (stop = true → u.hostOpen = none ∧ u.get F.HOST_LAST_OPCODE = op ∧ u.get F.HOST_LAST_ADDR = a.toNat ∧
            u.get F.HOST_CNT_TRANS = min (g.2.get F.HOST_CNT_TRANS + 1) (2 ^ F.HOST_CNT_TRANS.width - 1)) ∧
          (stop = false → u.hostOpen = some (.read k op a.toNat true)))))) ∧
  (∀ (s : State) (again : Bool), s.fabricOn = false → Completes (.sclTimeout again) s (fun u => u = s) ∧
    Completes (.sdaTimeout again) s (fun u => u = s)) ∧
  (∀ s : State, (s.hostScl = true → Completes (.sclTimeout false) s (fun u => u = s)) ∧
    (s.hostSda = true → Completes (.sdaTimeout false) s (fun u => u = s))) ∧
  (∀ (s : State) (again : Bool), s.fabricOn = true → let v := s.hostAbandon
    (again = true ∨ s.hostScl = false → Completes (.sclTimeout again) s (fun u =>
      u = (({ v with hostScl := true } : State).put F.HOST_STAT_SCL_TO 1).raise 15 1 0)) ∧
    (again = true ∨ s.hostSda = false → Completes (.sdaTimeout again) s (fun u =>
      u = (({ v with hostSda := true } : State).put F.HOST_STAT_SDA_TO 1).raise 15 2 0))) ∧
  (∀ s : State, s.hostAbandon.hostOpen = none ∧ (∀ j, j ≠ F.HOST_STAT.base → s.hostAbandon.reg j = s.reg j) ∧
    (∀ k t op a step b, s.hostOpen = some (.write k t op a step b) → s.hostAbandon.on F.HOST_STAT_FRAME_ERR = true) ∧
    (∀ k op a data, s.hostOpen = some (.read k op a data) →
      s.hostAbandon.on F.HOST_STAT_FRAME_ERR = s.on F.HOST_STAT_FRAME_ERR)) ∧
  (∀ (s : State) (t : BitVec 7), s.on F.HOST_MASK_MODE = false → s.hostMatch t.toNat =
    (List.range 4).find? (fun k => bitOf (s.reg F.HOST_ADDR.base) (8 * k + 7) &&
      bitsOf (s.reg F.HOST_ADDR.base) (8 * k) 7 == t.toNat)) ∧
  (∀ (s : State) (t : BitVec 7), s.on F.HOST_MASK_MODE = true → (s.hostMatch t.toNat = some 0 ↔
    ∀ j, j < 7 → (s.get F.HOST_MASK_MASK).testBit j = false → (s.get F.HOST_ADDR_ADDR0).testBit j = t.toNat.testBit j) ∧
    (s.hostMatch t.toNat = some 0 ∨ s.hostMatch t.toNat = none))

/-! ### Policy engines (chapter 17) -/

/-- Arithmetic of the engines (R456): each instruction, in the cycles of the table, writes its result to rd and goes on to the
next PC; nothing else of the block changes but the cycle counts. -/
def Obligations.EngineArithmetic : Prop :=
  (∀ (s : State) (n : Fin 8) (rd a b : XReg) (i : Instr) (op k : Nat) (v : Word → Word → Word), (i, op, k, v) ∈ rowsR n rd a b →
    Executes i n (encR op rd a b) k s (State.wrote n rd (v (s.xreg n a) (s.xreg n b)))) ∧
  (∀ (s : State) (n : Fin 8) (rd a : XReg) (imm : BitVec 18) (up : BitVec 16) (sh : BitVec 5) (i : Instr) (w : Word)
    (v : Word → Word), (i, w, v) ∈ rowsI n rd a imm up sh → Executes i n w 1 s (State.wrote n rd (v (s.xreg n a)))) ∧
  (∀ (s : State) (n : Fin 8) (rd r : XReg) (v : Word), let u := s.wrote n rd v
    (r = rd → r ≠ 0 → u.xreg n r = v) ∧ (r ≠ rd → u.xreg n r = s.xreg n r) ∧
    (∀ m : Fin 8, m ≠ n → u.pe m = s.pe m) ∧ (s.pc n < 4095 → u.pc n = s.pc n + 1) ∧
    (∀ k, k ≠ F.PEn_STAT_PC.addr n → u.reg k = s.reg k) ∧ u.sram = s.sram)

/-- Division (R457) has a result in every case and never faults: a divisor of 0 gives the quotient 0xFFFFFFFF and the dividend as
remainder, −2^31 by −1 gives −2^31 and 0, any other truncates toward zero. x0 keeps 0 through every write of an instruction. -/
def Obligations.DivisionIsDefined : Prop :=
  (∀ (s : State) (n : Fin 8) (rd a b : XReg) (i : Instr) (op : Nat) (v : Word → Word → Word), (i, op, v) ∈ rowsDiv n rd a b →
    Executes i n (encR op rd a b) 18 s (State.wrote n rd (v (s.xreg n a) (s.xreg n b)))) ∧
  divS 0x80000000 0xFFFFFFFF = 0x80000000 ∧ remS 0x80000000 0xFFFFFFFF = 0 ∧
  (∀ x : Word, divS x 0 = 0xFFFFFFFF ∧ divU x 0 = 0xFFFFFFFF ∧ remS x 0 = x ∧ remU x 0 = x) ∧
  (∀ x y : Word, y ≠ 0 → (x = 0x80000000 ∧ y = 0xFFFFFFFF) ∨
    ((divS x y).toInt = x.toInt.tdiv y.toInt ∧ (remS x y).toInt = x.toInt.tmod y.toInt)) ∧
  (∀ (s : State) (n : Fin 8) (v : Word), s.setXreg n 0 v = s ∧ s.xreg n 0 = 0)

/-- Branches, jumps and the instructions of format SYS (R456, R459). A target outside 0 to 4,095 is a fetch out of range, and so
is a PC past the program. WAITT waits two cycles a tick. HALT ends the run: the engine is idle, or stopped where STOP was written.
Where a rule leaves a choice the model's is meant: log entries 8 and 40. -/
def Obligations.EngineControl : Prop :=
  (∀ (s : State) (n : Fin 8) (a b : XReg) (off : BitVec 18) (i : Instr) (w : Word) (p : Word → Word → Bool),
    (i, w, p) ∈ rowsB n a b off → let t : Int := (s.pc n : Int) + off.toInt
    (p (s.xreg n a) (s.xreg n b) = false → Executes i n w 1 s (State.pcNext n)) ∧
    (p (s.xreg n a) (s.xreg n b) = true → 0 ≤ t → t ≤ 4095 →
      Executes i n w 2 s (fun u => u.put F.PEn_STAT_PC t.toNat n)) ∧
    (p (s.xreg n a) (s.xreg n b) = true → ¬(0 ≤ t ∧ t ≤ 4095) → EngineFaults i n w 3 s)) ∧
  (∀ (s : State) (n : Fin 8) (rd : XReg) (off : BitVec 22), let t : Int := (s.pc n : Int) + off.toInt
    (0 ≤ t → t ≤ 4095 → Executes (.jal n rd off) n (encJ 0x3E rd off) 2 s (fun u =>
      (u.setXreg n rd (BitVec.ofNat 32 (s.pc n + 1))).put F.PEn_STAT_PC t.toNat n)) ∧
    (¬(0 ≤ t ∧ t ≤ 4095) → EngineFaults (.jal n rd off) n (encJ 0x3E rd off) 3 s)) ∧
  (∀ (s : State) (n : Fin 8) (rd a : XReg) (imm : BitVec 18), let t := (s.xreg n a + imm.signExtend 32).toNat
    (t ≤ 4095 → Executes (.jalr n rd a imm) n (encI 0x3F rd a imm) 2 s (fun u =>
      (u.setXreg n rd (BitVec.ofNat 32 (s.pc n + 1))).put F.PEn_STAT_PC t n)) ∧
    (4095 < t → EngineFaults (.jalr n rd a imm) n (encI 0x3F rd a imm) 3 s)) ∧
  (∀ (s : State) (n : Fin 8), Executes (.nop n) n (encSys 0 0 0) 1 s (State.pcNext n)) ∧
  (∀ (s : State) (n : Fin 8), Executes (.halt n) n (encSys 1 0 0) 1 s (State.runEnd n) (halts := true)) ∧
  (∀ (s : State) (n : Fin 8), (s.pe n).stopReq = false → (s.runEnd n).peState n = peIdle ∧
    (s.runEnd n).pe n = { s.pe n with
      nextAt := if s.get F.PEn_PEND_PEND n = 0 then none else some ((s.pe n).runStart + (s.pe n).cycles) }) ∧
  (∀ (s : State) (n : Fin 8), (s.pe n).stopReq = true → (s.runEnd n).peState n = peStopped ∧
    (s.runEnd n).get F.PEn_PEND_PEND n = 0) ∧
  (∀ (s : State) (n : Fin 8) (rd : XReg), Executes (.tickl n rd) n (encSys 2 rd 0) 1 s (fun u =>
    State.wrote n rd (BitVec.ofNat 32 u.tick)
      (u.setPe n { u.pe n with tickH := BitVec.ofNat 32 (u.tick / 2 ^ 32) }))) ∧
  (∀ (s : State) (n : Fin 8) (rd : XReg), Executes (.tickh n rd) n (encSys 3 rd 0) 1 s (State.wrote n rd (s.pe n).tickH)) ∧
  (∀ (s : State) (n : Fin 8) (rd : XReg), Executes (.cyc n rd) n (encSys 4 rd 0) 1 s
    (State.wrote n rd (BitVec.ofNat 32 ((s.pe n).cycles - (s.pe n).ahead)))) ∧
  (∀ (s : State) (n : Fin 8) (rd : XReg), Executes (.evt n rd) n (encSys 5 rd 0) 1 s (State.wrote n rd (s.pe n).evt)) ∧
  (∀ (s : State) (n : Fin 8) (a : XReg) (d : Nat), s.waitTicks n a = some d →
    Executes (.waitt n a) n (encSys 6 0 a) 1 s (State.pcNext n) (wait := 2 * d)
      (same := fun c => c.waitTicks n a = s.waitTicks n a)) ∧
  (∀ (s : State) (n : Fin 8) (a : XReg), s.waitTicks n a = none → Completes (.waitt n a) s (fun u => u = s)) ∧
  (∀ (s : State) (n : Fin 8), let c := s.engineThen n 0
    s.peState n = peRunning → s.peBarred n = false → s.inBudget n → (s.pe n).codeLen / 4 ≤ s.pc n →
    c.peState n = peRunning → c.peBarred n = false → (c.pe n).codeLen / 4 ≤ c.pc n →
    Completes (.nop n) s (fun u => u = c.peFault n 3))

/-- Memory and fabric accesses of the engines (R453, R456, R458). A data address that is no multiple of 4, or outside 0 to
65,535, and a fabric address outside 0 to 0xFFFF, is a data address fault; one in the stage area is none. LDW and STW reach the
data word; FRD and FWR are an access of the engine's party, and go on once it is granted.
Where a rule leaves a choice the model's is meant: log entries 8 and 40. -/
def Obligations.EngineAccesses : Prop :=
  (∀ (s : State) (n : Fin 8) (r a : XReg) (imm : BitVec 18), let d := (s.xreg n a + imm.signExtend 32).toNat
    (d % 4 ≠ 0 ∨ 65536 ≤ d → EngineFaults (.ldw n r a imm) n (encI 0x30 r a imm) 4 s ∧
      EngineFaults (.stw n r a imm) n (encI 0x31 r a imm) 4 s) ∧
    (d % 4 = 0 → d < stageBase → Executes (.ldw n r a imm) n (encI 0x30 r a imm) 2 s
      (fun u => State.wrote n r (u.sramPeek (sramKey 8 (d / 4))) u) (wait := s.portWait n) ∧
      Executes (.stw n r a imm) n (encI 0x31 r a imm) 2 s (fun u =>
        (u.portWrite (.pe n) (sramKey 8 (d / 4)) (s.xreg n r)).pcNext n) (wait := s.portWait n)) ∧
    (d % 4 = 0 → stageBase ≤ d → d < 65536 → Executes (.ldw n r a imm) n (encI 0x30 r a imm) 2 s
      (State.wrote n r 0) (wait := s.portWait n) ∧ Executes (.stw n r a imm) n (encI 0x31 r a imm) 2 s (fun u =>
        (u.raise 14 0 (4 + n) (BitVec.ofNat 32 (d / 4 * 65536 + 4 + n))).pcNext n) (wait := s.portWait n)) ∧
    (65536 ≤ d → EngineFaults (.frd n r a imm) n (encI 0x34 r a imm) 4 s ∧
      EngineFaults (.fwr n r a imm) n (encI 0x35 r a imm) 4 s) ∧
    (d < 65536 → Executes (.frd n r a imm) n (encI 0x34 r a imm) 4 s (fun u =>
        u.engAccess n d none (fun v t => State.wrote n r v t)) (same := s.SameBegin n) ∧
      Executes (.fwr n r a imm) n (encI 0x35 r a imm) 4 s (fun u =>
        u.engAccess n d (some (s.xreg n r)) (fun _ t => t.pcNext n)) (same := s.SameBegin n))) ∧
  (∀ (s : State) (p : Party) (k : Nat) (w : Word), s.portWrite p k w = if s.portMay p k = true then
    { s.sramWrite k w with portLog := (k, s.now, p.code) :: s.portLog.filter (fun e => e.2.1 == s.now) } else s) ∧
  (∀ (s : State) (k : Fin 16384) (w : Word), s.sramRaw = [] → (s.sramWrite (sramKey 8 k) w).sramPeek (sramKey 8 k) = w ∧
    (∀ j, j ≠ sramKey 8 k → (s.sramWrite (sramKey 8 k) w).sramPeek j = s.sramPeek j) ∧
    (s.sramWrite (sramKey 8 k) w).regs = s.regs)

/-- Encodings of the engines (R455, R456): every word of an instruction is legal, and the formats drop no bit of their fields.
A word outside the table is an illegal instruction: cause 2. -/
def Obligations.EngineEncodings : Prop :=
  (∀ (op : Nat) (rd a b : XReg), op ∈ opsR → legalWord (encR op rd a b) = true ∧ bitsOf (encR op rd a b) 26 6 = op ∧
    bitsOf (encR op rd a b) 22 4 = rd.val ∧ bitsOf (encR op rd a b) 18 4 = a.val ∧ bitsOf (encR op rd a b) 14 4 = b.val) ∧
  (∀ (op : Nat) (rd a : XReg) (imm : BitVec 18), op ∈ opsFull → legalWord (encI op rd a imm) = true ∧
    bitsOf (encI op rd a imm) 26 6 = op ∧ bitsOf (encI op rd a imm) 22 4 = rd.val ∧ bitsOf (encI op rd a imm) 18 4 = a.val ∧
    bitsOf (encI op rd a imm) 0 18 = imm.toNat) ∧
  (∀ (op : Nat) (rd a : XReg) (sh : BitVec 5), op ∈ [0x24, 0x25, 0x26] → legalWord (encI op rd a (sh.zeroExtend 18)) = true) ∧
  (∀ (rd : XReg) (off : BitVec 22), bitsOf (encJ 0x3E rd off) 26 6 = 0x3E ∧ bitsOf (encJ 0x3E rd off) 22 4 = rd.val ∧
    bitsOf (encJ 0x3E rd off) 0 22 = off.toNat) ∧
  (∀ (rd : XReg) (imm : BitVec 16), legalWord (encU 0x28 rd imm) = true ∧ bitsOf (encU 0x28 rd imm) 0 16 = imm.toNat) ∧
  (∀ (f : Fin 16) (rd a : XReg), legalWord (encSys f rd a) = true ↔ f.val ≤ 6) ∧
  (∀ (f : Fin 7) (rd a : XReg), usedBits (encSys f rd a) =
    encSys f (if 2 ≤ f.val ∧ f.val ≤ 5 then rd else 0) (if f.val = 6 then a else 0)) ∧
  legalWord 0 = false ∧
  (∀ (s : State) (n : Fin 8) (w : Word), legalWord w = false → EngineFaults (.nop n) n w 2 s)

/-- Runs and control (R459–R473). An idle engine begins the run of its lowest pending slot two cycles on, from the end of the HALT
where that fell in this fabric cycle; a run that reaches its budget overruns once and goes on, but where its watchdog expires no
later that comes with it; one that reaches the watchdog's limit restarts with LAST cause 1. A restart stops the engine, checks
its memory by tick F + 2,049 and runs it from address 0 at F + 5,000. GO, STOP and RESTART act as R471 says; mailboxes and
PE_NOTIFY take what is written.
Where a rule leaves a choice the model's is meant: log entries 8 and 40. -/
def Obligations.EngineRuns : Prop :=
  (∀ (s : State) (n : Fin 8), s.peState n ≠ peIdle ∨ s.peBarred n = true ∨ s.peNext n = none →
    Completes (.runStart n) s (fun u => u = s)) ∧
  (∀ (s : State) (n h : Fin 8), s.peState n = peIdle → s.peBarred n = false → s.peNext n = some h.val →
    Completes (.runStart n) s (fun u => u.peState n = peRunning ∧ u.get F.PEn_STAT_SLOT n = h ∧
      u.pc n = s.get ((F.PEn_HCFG_ENTRY).off (2 * h.val)) n ∧ (u.get F.PEn_PEND_PEND n).testBit h = false ∧
      (∀ j : Fin 8, j ≠ h → (u.get F.PEn_PEND_PEND n).testBit j = (s.get F.PEn_PEND_PEND n).testBit j) ∧
      (u.pe n).runStart = 2 + (match (s.pe n).nextAt with
        | some c => if (c + 1) / 2 = s.now then c else 2 * s.now
        | none => 2 * s.now) ∧ (u.pe n).cycles = 0 ∧ (u.pe n).x = (s.pe n).x)) ∧
  (∀ (s : State) (n : Fin 8), s.budgetAhead n = false → Completes (.budgetOverrun n) s (fun u => u = s)) ∧
  (∀ (s : State) (n : Fin 8), s.budgetAhead n = true → s.runLimit n ≤ s.runBudget n →
    exec (.budgetOverrun n) s = exec (.watchdogExpiry n) s) ∧
  (∀ (s : State) (n : Fin 8), s.budgetAhead n = true → s.runBudget n < s.runLimit n → Completes (.budgetOverrun n) s (fun u =>
    ∃ c, c = s.passTo ((s.runTo n (s.runBudget n)).engNow n) ∧ (c.budgetAhead n = false → u = c) ∧
      (c.budgetAhead n = true → u = c.runTo n (c.runBudget n) ∧ (u.pe n).overDone = true ∧
        (u.pe n).cycles = max (c.pe n).cycles (c.runBudget n) ∧ bitOf (u.reg F.PE_CAUSE.base) (8 + n) = true))) ∧
  (∀ (s : State) (n : Fin 8), s.peState n ≠ peRunning → Completes (.watchdogExpiry n) s (fun u => u = s)) ∧
  (∀ (s : State) (n : Fin 8), s.peState n = peRunning → Completes (.watchdogExpiry n) s (fun u =>
    let b := if s.budgetAhead n = true ∧ s.runBudget n < max (s.pe n).cycles (s.runLimit n) then s.reachBudget n else s
    ∃ c, c = b.passTo ((State.expire n b).engNow n) ∧ (c.peState n ≠ peRunning → u = c) ∧
      (c.peState n = peRunning → (u.pe n).cycles = max (c.pe n).cycles (c.runLimit n) ∧ u.get F.PEn_LAST_CAUSE n = 1 ∧ u.get F.PEn_PEND_PEND n = 0 ∧
        u.peState n = (if u.peBarred n then peStopped else peRestarting) ∧
        ∀ x ∈ u.waiting, x.party.code = 4 + n → x.ra.isSome = true))) ∧
  (∀ (s : State) (n h : Fin 8), ComesAtTick (.periodicTrigger n h) s (s.periodicDue n h) (State.periodicEvent n h)) ∧
  (∀ (s : State) (p : Party) (n : Fin 8), Grants p (.restart p n) s (fun c =>
    if c.peState n = peStopped ∨ c.peState n = peIdle ∨ c.peState n = peRunning then c.peRestart n 0 else c)) ∧
  (∀ (s : State) (n : Fin 8) (k : Nat), k < 16 → s.peBarred n = false → let u := s.peRestart n k
    u.peState n = peRestarting ∧ (u.pe n).failAt = some s.now ∧ u.get F.PEn_LAST_CAUSE n = k ∧
      u.get F.PEn_LAST_PC n = s.pc n ∧ u.get F.PEn_PEND_PEND n = 0 ∧ u.sram = s.sram) ∧
  (∀ (s : State) (n : Fin 8), Comes (.restartCheckDone n) s ((s.pe n).failAt.map (fun t => t + 2049)) (State.restartCheck n)) ∧
  (∀ (s : State) (n : Fin 8), s.peState n = peRestarting → (s.pe n).checked = false → s.sramRaw = [] →
    (s.restartCheck n).pc n = 0 ∧ ((s.restartCheck n).pe n).checked = true ∧ ∀ r, (s.restartCheck n).xreg n r = 0) ∧
  (∀ (s : State) (n : Fin 8), Comes (.initRunStart n) s ((s.pe n).failAt.map (fun t => t + 5000)) (State.initRun n)) ∧
  (∀ (s : State) (n : Fin 8), s.peState n = peRestarting → s.sramRaw = [] → (s.initRun n).peState n = peRunning ∧
    (s.initRun n).on F.PEn_STAT_INIT n = true ∧ (s.initRun n).pc n = 0 ∧ ∀ r, (s.initRun n).xreg n r = 0) ∧
  (∀ (s : State) (p : Party) (n : Fin 8), Grants p (.go p n) s (fun c => c.peGo n p)) ∧
  (∀ (s : State) (p : Party) (n : Fin 8), s.peState n = peIdle ∨ s.peState n = peRunning ∨ s.peState n = peHeld ∨
    s.peState n = peCodeErr → s.peGo n p = s.notice p (F.PEn_CTRL.addr n)) ∧
  (∀ (s : State) (p : Party) (n : Fin 8), s.peState n = peStopped → s.peBarred n = false → s.peGo n p = s.peRestart n 0) ∧
  (∀ (s : State) (p : Party) (n : Fin 8), s.peState n = peNone ∨ s.peState n = peRestarting ∨
    (s.peState n = peStopped ∧ (s.pe n).halted = true ∧ s.peBarred n = true) → s.peGo n p = s) ∧
  (∀ (s : State) (p : Party) (n : Fin 8), Grants p (.stop p n) s (fun c => c.peStopCmd n)) ∧
  (∀ (s : State) (n : Fin 8), s.peState n = peIdle → (s.peStopCmd n).peState n = peStopped ∧
    (s.peStopCmd n).get F.PEn_PEND_PEND n = 0) ∧
  (∀ (s : State) (n : Fin 8), s.peState n = peRunning → ((s.peStopCmd n).pe n).stopReq = true ∧
    (s.peStopCmd n).regs = s.regs) ∧
  (∀ (s : State) (n : Fin 8), s.peState n ≠ peIdle → s.peState n ≠ peRunning → s.peStopCmd n = s) ∧
  (∀ (s : State) (p : Party) (n : Fin 8) (k : Fin 4) (w : Word), Grants p (.mboxWrite p n k w) s (fun c =>
    (c.put ((F.PEn_MBOX_DATA).off k) w.toNat n).triggerMbox n k (w.toNat % 65536))) ∧
  (∀ (s : State) (p : Party) (set : BitVec 8), Grants p (.peNotify p set) s (fun c =>
    c.put F.PE_CAUSE_NOTIFY (c.get F.PE_CAUSE_NOTIFY ||| set.toNat)))

/-! ### Memory integrity, OTP, the test port (chapter 18) -/

/-- Memory integrity (R477–R484). A corrected word is written back; one whose verify read errs again moves to the lowest free
spare. The scrubber reads word after word, PACED at its interval, in IDLE where no port has the word; after the last its lap is counted. MEM_SCRUB takes no write once LOCK is set, and no
reserved encoding. The raw accesses need their key, the host or the test port, and every output off.
Where a rule leaves a choice the model's is meant: log entry 41. -/
def Obligations.MemoryIsScrubbed : Prop :=
  (∀ (s : State) (again : Bool), s.writeBack = [] → Completes (.writebackVerify again) s (fun u => u = s)) ∧
  (∀ (s : State) (again : Bool) (k : Nat) (rest : List Nat), s.writeBack = k :: rest → again = false ∨ s.remapped k = true →
    Completes (.writebackVerify again) s (fun u =>
      u = ({ s with writeBack := rest } : State).sramWrite k (s.sramPeek k))) ∧
  (∀ (s : State) (k : Nat) (rest : List Nat) (i : Fin 8), s.writeBack = k :: rest → s.remapped k = false → k < 12 * 16384 →
    s.on F.MEM_REMAP_VALID i = false → (∀ j : Fin 8, j < i → s.on F.MEM_REMAP_VALID j = true) →
    Completes (.writebackVerify true) s (fun u => k ∉ u.writeBack ∧ u.remapped k = true ∧
      u.on F.MEM_REMAP_VALID i = true ∧ u.get F.MEM_REMAP_REGION i = k / 16384 ∧ u.get F.MEM_REMAP_WORD i = k % 16384 ∧
      u.on F.MEM_CAUSE_REMAP = true ∧ (∀ j : Fin 8, j ≠ i → u.reg (F.MEM_REMAP.addr j) = s.reg (F.MEM_REMAP.addr j)))) ∧
  (∀ (s : State) (k : Nat) (rest : List Nat), s.writeBack = k :: rest → s.remapped k = false →
    (∀ j : Fin 8, s.on F.MEM_REMAP_VALID j = true) → Completes (.writebackVerify true) s (fun u =>
      u = (({ s with writeBack := rest } : State).put F.MEM_CAUSE_FULL 1).raise 12 4 0)) ∧
  (∀ (s : State) (busy : Nat), s.fabricOn = false → Completes (.scrubRead busy) s (fun u => u = s) ∧
    Completes .scrubLapStarved s (fun u => u = s)) ∧
  (∀ (s : State) (busy : Nat), s.fabricOn = true → Comes (.scrubRead busy) s (some (s.scrubDue busy)) State.scrubRead ∧
    Comes .scrubLapStarved s s.starvedDue State.lapStarved) ∧
  (∀ (s : State) (busy : Nat), (s.get F.MEM_SCRUB_MODE = 0 →
      s.scrubDue busy = s.scrub.last + max 1 (s.get F.MEM_SCRUB_INTERVAL)) ∧
    (s.get F.MEM_SCRUB_MODE ≠ 0 → s.now + 1 + busy ≤ s.scrubDue busy ∧
      ∀ e ∈ s.portLog, e.1 = scrubKey s.scrub.pos → e.2.1 + 2 ≤ s.scrubDue busy)) ∧
  (∀ s : State, let u := s.scrubRead
    u.scrub.last = s.now ∧ u.scrub.pos = (if s.scrub.pos + 1 < lapWords then s.scrub.pos + 1 else 0) ∧
      (lapWords ≤ s.scrub.pos + 1 → u.on F.MEM_CAUSE_LAP = true ∧ u.scrub.lapStart = s.now ∧
        u.get F.MEM_STAT_LAPS = min (s.get F.MEM_STAT_LAPS + 1) 65535)) ∧
  (∀ (s : State) (p : Party) (w : Word), Grants p (.memScrubWrite p w) s (fun c =>
    if c.on F.MEM_SCRUB_LOCK = true ∨ 1 < bitsOf w 30 2 ∨ bitsOf w 16 8 = 0 ∨ bitsOf w 0 16 = 0 then
      c.notice p F.MEM_SCRUB.base
    else
      let t := c.setReg F.MEM_SCRUB.base (w &&& 0xE0FFFFFF)
      t.put F.MEM_STAT_MODE_ACT (t.get F.MEM_SCRUB_MODE))) ∧
  (∀ (s : State) (p : Party) (write : Bool) (key : BitVec 8), Grants p (if write then .writeRaw p key else .readRaw p key) s
    (fun c =>
      let k := sramKey (c.get F.MEM_CHK_ADDR_REGION) (c.get F.MEM_CHK_ADDR_WORD)
      let d := c.reg F.MEM_CHK_DATA.base
      let e := BitVec.ofNat 7 (c.get F.MEM_CHK_ECC_ECC)
      if key ≠ 0xC3 ∨ (p ≠ .host ∧ p ≠ .test) then c.notice p F.MEM_CHK_CMD.base
      else if c.allOff = false then c.put F.MEM_CHK_ECC_RESULT 2
      else if write = false then
        ((c.put F.MEM_CHK_DATA_DATA (c.rawWord k).1.toNat).put F.MEM_CHK_ECC_ECC (c.rawWord k).2.toNat).put
          F.MEM_CHK_ECC_RESULT 1
      else
        let t := c.portWrite p k d
        let t := if c.portMay p k = true ∧ e ≠ hsiao d then { t with sramRaw := t.sramRaw ++ [(k, d, e)] } else t
        let t := match liveReg k with
          | some a => if c.portMay p k = true then t.setReg a (t.eccRead k).1 else t
          | none => t
        t.put F.MEM_CHK_ECC_RESULT 1)) ∧
  (∀ (s : State) (p : Party), s.Quiet → s.admits p = true → Completes (.memCntClr p) s (fun u => ∃ c, s.NextCycle c ∧
    (∀ j : Fin 12, u.reg (F.MEM_ECC.addr j) = 0) ∧ (∀ k, (∀ j : Fin 12, k ≠ F.MEM_ECC.addr j) → u.reg k = c.reg k)))

/-- OTP (R486–R494). A command needs its key, and the host or the test port, an engine for CTR_INC; while an operation runs it
is busy, without VIN or with an output on it is refused, and so is a locked region; CTR_INC programs the lowest bit that is
not. An operation pulses cell after cell, 22 µs
each; a cell that reads programmed is followed by the next, and the last ends it as done. The window shows the shadow, but of a
read-locked region to the test port alone.
Where a rule leaves a choice the model's is meant: log entries 9 and 41. -/
def Obligations.OtpOperations : Prop :=
  (∀ (s : State) (p : Party) (key : BitVec 8) (i : Instr) (op : Nat), (i, op) ∈ [(.program p key, 1), (.wlock p key, 2),
    (.rlock p key, 3), (.ctrInc p key, 4)] →
    Grants p i s (fun c =>
      let region := if op = 4 then 4 else c.get F.OTP_PGM_ADDR_REGION
      let word := c.get F.OTP_PGM_ADDR_WORD
      let free := c.counterFree (word % 8)
      let stop (r : Nat) : State := c.setReg F.OTP_RES.base (BitVec.ofNat 32 (r * 2 ^ 28 + op))
      if key ≠ 0xA5 ∨ ¬(p = .host ∨ p = .test ∨ (isEngine p = true ∧ op = 4)) then c.notice p F.OTP_CMD.base
      else if c.otpOp.isSome = true then c.put F.OTP_RES_RESULT 6
      else if c.on F.SYS_DOM_STAT_VIN_OK = false ∨ (op ≠ 4 ∧ c.allOff = false) then stop 5
      else if c.wlocked region = true ∨ (op = 4 ∧ free = none) then stop 4
      else if op = 1 then
        c.otpBegin 1 region word ((List.range 32).filter (fun b => (c.reg F.OTP_PGM_DATA.base).getLsbD b))
      else if op = 4 then c.otpBegin 4 4 (8 * (word % 8) + free.getD 0 / 32) [free.getD 0 % 32]
      else c.otpBegin op region word [(if op = 2 then 0 else 16) + 2 * region, (if op = 2 then 0 else 16) + 2 * region + 1])) ∧
  (∀ (s : State) (k i : Nat), s.counterFree k = some i → i < 256 ∧ (s.otpWord 4 (8 * k + i / 32)).getLsbD (i % 32) = false ∧
    ∀ j, j < i → (s.otpWord 4 (8 * k + j / 32)).getLsbD (j % 32) = true) ∧
  (∀ (s : State) (region word b : Nat), region < 8 → word < 64 → b < 32 →
    (SMap.get otpDefault s.otp (otpKey region word)).getLsbD b = false →
    (s.otpBegin 1 region word [b]).on F.OTP_STAT_BUSY = true ∧ (s.otpBegin 1 region word [b]).otp = s.otp ∧
      ∃ o, (s.otpBegin 1 region word [b]).otpOp = some o ∧ o.bits = [b] ∧ o.due = s.now + 2200 ∧ o.tries = 0) ∧
  (∀ (s : State) (seen : Word), Comes (.otpPulseEnd seen) s (s.otpOp.map (fun o => o.due)) (State.otpPulse seen)) ∧
  (∀ (s : State) (o : OtpOp) (b : Nat) (rest : List Nat), s.otpOp = some o → o.bits = b :: rest → o.op = 1 → b < 32 →
    let cells := SMap.get otpDefault s.otp (otpKey o.region o.word)
    let u := s.otpPulse (withBits cells b 1 1)
    o.target.contains b = true → (SMap.get otpDefault u.otp (otpKey o.region o.word)) = withBits cells b 1 1 ∧
      (rest = [] → u.otpOp = none ∧ u.get F.OTP_RES_RESULT = 2 ∧ u.on F.OTP_STAT_BUSY = false ∧
        u.on F.OTP_CAUSE_PROG_DONE = true) ∧
      (rest ≠ [] → ∃ q, u.otpOp = some q ∧ q.bits = rest ∧ q.due = s.now + 2200)) ∧
  (∀ (s : State) (p : Party) (k : Fin 512), Reads p (.otpWindowRead p k) s (fun c =>
    if c.rlocked (k.val / 64) = true ∧ p ≠ .test then (0, c.notice p (0x6C00 + k.val))
    else (c.otpWord (k.val / 64) (k.val % 64), c)))

/-- The test port (R495–R498). While it is disabled nothing of it acts and TDO is high-impedance. An instruction shows its opcode, and PINCTL under EXTEST,
HIGHZ and CLAMP; SAMPLE/PRELOAD captures the pins, DEVID SYS_ID, FABRIC idle. While PINCTL is 0 the pins are the device's, under HIGHZ
high-impedance, else the boundary register's. A FABRIC access is one of the test port's own, granted in the next
cycle, and captures its data; while the fabric stands it stays pending, and is served when the fabric runs again.
Where a rule leaves a choice the model's is meant: log entries 7 and 42. -/
def Obligations.TestPortActs : Prop :=
  (∀ (s : State) (ins : List Bool) (d : Option (List Bool)) (op : BitVec 8) (write : Bool) (a : BitVec 16) (w : Word) (i : Instr),
    s.on F.TEST_STAT_ENABLED = false → i ∈ [.extest d, .samplePreload ins d, .highz, .clamp, .devid, .fabric, .bypass op,
      .fabricAccess write a w] → Completes i s (fun u => u = s)) ∧
  (∀ (s : State) (ins : List Bool) (d : Option (List Bool)) (b : BitVec 8) (i : Instr) (op : Nat), s.on F.TEST_STAT_ENABLED = true →
    (i, op) ∈ [(.extest d, 0x00), (.samplePreload ins d, 0x01), (.highz, 0x02), (.clamp, 0x03), (.devid, 0x10), (.fabric, 0x20),
      (.bypass b, b.toNat)] → Completes i s (fun u =>
      u.get F.TEST_STAT_IR = op ∧ u.on F.TEST_STAT_PINCTL = (op == 0 || op == 2 || op == 3) ∧
      (∀ k, k ≠ F.TEST_STAT.base → u.reg k = s.reg k) ∧ u.sram = s.sram ∧ u.tap.logicReset = false ∧ u.tap.irOut = some 1 ∧
      (i = .devid → u.tap.dr = (s.reg F.SYS_ID.base).toNat) ∧ (i = .fabric → u.tap.dr = 0) ∧
      (i = .samplePreload ins d → u.tap.dr = bitsNat (s.sampled ins)) ∧
      (∀ l, d = some l → i = .extest d ∨ i = .samplePreload ins d → u.tap.boundary = l))) ∧
  (∀ s : State, s.on F.TEST_STAT_PINCTL = false → s.pins = s.devicePins) ∧
  (∀ s : State, s.on F.TEST_STAT_PINCTL = true → s.get F.TEST_STAT_IR = 2 → s.pins.length = 73 ∧ ∀ x ∈ s.pins, x = none) ∧
  (∀ (s : State) (k : Fin 49), s.on F.TEST_STAT_PINCTL = true → s.get F.TEST_STAT_IR ≠ 2 →
    s.pins[24 + k.val]? = some (some (s.tap.boundary.getD (48 + k.val) false))) ∧
  (∀ (s : State) (k : Fin 32), s.devicePins.length = 73 ∧ s.devicePins[24 + k.val]? = some (some (s.pwren.getLsbD k))) ∧
  (∀ s : State, s.on F.TEST_STAT_ENABLED = false → s.tdo = none) ∧
  (∀ (s : State) (write : Bool) (a : BitVec 16) (w : Word), s.on F.TEST_STAT_ENABLED = true → s.get F.TEST_STAT_IR ≠ 0x20 →
    Completes (.fabricAccess write a w) s (fun u => u = s)) ∧
  (∀ (s : State) (write : Bool) (a : BitVec 16) (w : Word), s.on F.TEST_STAT_ENABLED = true → s.get F.TEST_STAT_IR = 0x20 →
    s.fabricOn = false → Completes (.fabricAccess write a w) s (fun u =>
      u = { s with tap := { s.tap with dr := fabricDr 1 w.toNat a.toNat (b2n write), ask := some (write, a.toNat, w) } })) ∧
  (∀ (s : State) (write : Bool) (a : Nat) (w : Word), s.tap.ask = some (write, a, w) → s.tapPending = s.fabricAccess write a w) ∧
  (∀ s : State, s.tap.ask = none → s.tapPending = s) ∧
  (∀ (s : State) (write : Bool) (a : BitVec 16) (w : Word), s.on F.TEST_STAT_ENABLED = true → s.get F.TEST_STAT_IR = 0x20 →
    s.fabricOn = true → Completes (.fabricAccess write a w) s (fun u => ∃ r,
      r = ({ s with tap := { s.tap with ask := none } } : State).urgentAccess .test a.toNat (if write then some w else none) ∧
      u = r.2.tapCapture (fabricDr 2 r.1.toNat a.toNat (b2n write)))) ∧
  (∀ st d a w : Nat, st < 4 → d < 2 ^ 32 → a < 65536 → w < 2 → fabricDr st d a w / 2 ^ 49 = st ∧
    fabricDr st d a w / 2 ^ 17 % 2 ^ 32 = d ∧ fabricDr st d a w / 2 % 65536 = a ∧ fabricDr st d a w % 2 = w)

/-! ### Invariants of every step -/

/-- Every step keeps the canonical form of every sparse store, from every state: equal contents stay equal data. -/
def Obligations.StepsKeepTheCanonicalForm : Prop :=
  ∀ s t : State, s.canonical = true → step s = .next t → t.canonical = true
end

