-- ==== Sys2Proof/Laws/Maps.lean ====
section
/-! SUPPORT. Laws of the sparse maps: a word read after a write, and the canonical form kept by every write. -/

namespace Sys2Proof.Machine

theorem SMap.get_erase (d : Nat → Word) (m : SMap) (k j : Nat) :
    SMap.get d (SMap.erase m k) j = if j = k then d k else SMap.get d m j := by
  induction m with
  | nil => by_cases h : j = k <;> simp [SMap.erase, SMap.get, h]
  | cons e m ih =>
    obtain ⟨k', w⟩ := e
    by_cases hk : k' = k
    · subst hk
      have : SMap.erase ((k', w) :: m) k' = SMap.erase m k' := by simp [SMap.erase]
      rw [this, ih]
      by_cases hj : j = k' <;> simp [SMap.get, hj]
    · have : SMap.erase ((k', w) :: m) k = (k', w) :: SMap.erase m k := by simp [SMap.erase, hk]
      rw [this]
      by_cases hj : j = k'
      · subst hj; simp [SMap.get, hk]
      · simp [SMap.get, hj, ih]

theorem SMap.get_insert (d : Nat → Word) (m : SMap) (k : Nat) (w : Word) (j : Nat) (h : ∀ e ∈ m, e.1 ≠ k) :
    SMap.get d (SMap.insert m k w) j = if j = k then w else SMap.get d m j := by
  induction m with
  | nil => by_cases hj : j = k <;> simp [SMap.insert, SMap.get, hj]
  | cons e m ih =>
    obtain ⟨k', w'⟩ := e
    have hk : k' ≠ k := h (k', w') (by simp)
    have ih := ih (fun e he => h e (by simp [he]))
    by_cases hlt : k < k'
    · simp [SMap.insert, hlt, SMap.get]
    · by_cases hj : j = k'
      · subst hj; simp [SMap.insert, hlt, SMap.get, hk]
      · simp [SMap.insert, hlt, SMap.get, hj, ih]

theorem SMap.erase_ne (m : SMap) (k : Nat) : ∀ e ∈ SMap.erase m k, e.1 ≠ k := by
  intro e he; simpa [SMap.erase] using (List.mem_filter.mp he).2

/-- A word read after a write: the one written, or what was there before. -/
theorem SMap.get_set (d : Nat → Word) (m : SMap) (k : Nat) (w : Word) (j : Nat) :
    SMap.get d (SMap.set d m k w) j = if j = k then w else SMap.get d m j := by
  unfold SMap.set
  split
  · next h => rw [SMap.get_erase]; split <;> simp_all
  · rw [SMap.get_insert _ _ _ _ _ (SMap.erase_ne m k), SMap.get_erase]
    split <;> simp_all

/-- Keys strictly rise, said of the list of keys. -/
theorem SMap.sorted_iff (m : SMap) : SMap.sorted m = true ↔ m.Pairwise (fun a b => a.1 < b.1) := by
  induction m with
  | nil => simp [SMap.sorted]
  | cons a m ih =>
    cases m with
    | nil => simp [SMap.sorted]
    | cons b m =>
      simp only [SMap.sorted, Bool.and_eq_true, decide_eq_true_eq, ih]
      constructor
      · rintro ⟨h, hp⟩
        refine List.pairwise_cons.mpr ⟨fun x hx => ?_, hp⟩
        rcases List.mem_cons.mp hx with rfl | hx
        · exact h
        · exact Nat.lt_trans h (List.rel_of_pairwise_cons hp hx)
      · intro hp
        exact ⟨List.rel_of_pairwise_cons hp (by simp), (List.pairwise_cons.mp hp).2⟩

theorem SMap.mem_insert (m : SMap) (k : Nat) (w : Word) (e : Nat × Word) :
    e ∈ SMap.insert m k w ↔ e = (k, w) ∨ e ∈ m := by
  induction m with
  | nil => simp [SMap.insert]
  | cons x m ih =>
    unfold SMap.insert
    split
    · simp
    · simp only [List.mem_cons, ih, Prod.eta, or_left_comm]

theorem SMap.insert_sorted (m : SMap) (k : Nat) (w : Word) (h : m.Pairwise (fun a b => a.1 < b.1))
    (hk : ∀ e ∈ m, e.1 ≠ k) : (SMap.insert m k w).Pairwise (fun a b => a.1 < b.1) := by
  induction m with
  | nil => simp [SMap.insert]
  | cons x m ih =>
    have hx := List.pairwise_cons.mp h
    unfold SMap.insert
    split
    · next hlt =>
      refine List.pairwise_cons.mpr ⟨fun e he => ?_, h⟩
      rcases List.mem_cons.mp he with rfl | he
      · exact hlt
      · exact Nat.lt_trans hlt (hx.1 e he)
    · next hlt =>
      refine List.pairwise_cons.mpr ⟨fun e he => ?_, ih hx.2 (fun e he => hk e (by simp [he]))⟩
      rcases (SMap.mem_insert _ _ _ _).mp he with rfl | he
      · have := hk x (by simp)
        show x.1 < k
        omega
      · exact hx.1 e he

/-- A write keeps the canonical form. -/
theorem SMap.wf_set (d : Nat → Word) (m : SMap) (k : Nat) (w : Word) (h : SMap.wf d m = true) :
    SMap.wf d (SMap.set d m k w) = true := by
  simp only [SMap.wf, Bool.and_eq_true, SMap.sorted_iff, List.all_eq_true, decide_eq_true_eq] at h ⊢
  have he : (SMap.erase m k).Pairwise (fun a b => a.1 < b.1) := h.1.sublist List.filter_sublist
  have hm : ∀ e ∈ SMap.erase m k, e.2 ≠ d e.1 := fun e hx => h.2 e (List.mem_filter.mp hx).1
  unfold SMap.set
  split
  · exact ⟨he, hm⟩
  · next hw =>
    refine ⟨SMap.insert_sorted _ _ _ he (SMap.erase_ne m k), fun e hx => ?_⟩
    rcases (SMap.mem_insert _ _ _ _).mp hx with rfl | hx
    · exact hw
    · exact hm e hx

theorem SMap.wf_erase (d : Nat → Word) (m : SMap) (k : Nat) (h : SMap.wf d m = true) :
    SMap.wf d (SMap.erase m k) = true := by
  simp only [SMap.wf, Bool.and_eq_true, SMap.sorted_iff, List.all_eq_true, decide_eq_true_eq] at h ⊢
  exact ⟨h.1.sublist List.filter_sublist, fun e hx => h.2 e (List.mem_filter.mp hx).1⟩

theorem SMap.wf_filter (d : Nat → Word) (m : SMap) (p : Nat × Word → Bool) (h : SMap.wf d m = true) :
    SMap.wf d (m.filter p) = true := by
  simp only [SMap.wf, Bool.and_eq_true, SMap.sorted_iff, List.all_eq_true, decide_eq_true_eq] at h ⊢
  exact ⟨h.1.sublist List.filter_sublist, fun e hx => h.2 e (List.mem_filter.mp hx).1⟩

end Sys2Proof.Machine
end

