-- ==== Sys2Proof/Laws/State.lean ====
section
/-! SUPPORT. One law per field per update of the state: what the named updates write, and that they leave every other
field as it was. -/

namespace Sys2Proof.Machine

variable (s : State)

/-! ### A register word -/

/-- A register reads as the word stored, every other as before. -/
theorem State.reg_setReg (k j : Nat) (w : Word) : (s.setReg k w).reg j = if j = k then w else s.reg j :=
  SMap.get_set regReset s.regs k w j

@[simp] theorem State.reg_setReg_same (k : Nat) (w : Word) : (s.setReg k w).reg k = w := by
  simp [State.reg_setReg]

theorem State.reg_setReg_ne {k j : Nat} (h : j ≠ k) (w : Word) : (s.setReg k w).reg j = s.reg j := by
  simp [State.reg_setReg, h]

theorem State.reg_put (f : Fld) (v i j : Nat) : (s.put f v i).reg j =
    if j = f.addr i then withBits (s.reg (f.addr i)) f.lo f.width v else s.reg j :=
  State.reg_setReg s _ _ _

theorem State.reg_put_ne {f : Fld} {i j : Nat} (h : j ≠ f.addr i) (v : Nat) : (s.put f v i).reg j = s.reg j := by
  simp [State.reg_put, h]

/-! ### `setReg` -/

@[simp] theorem State.setReg_pending (k : Nat) (w : Word) : (s.setReg k w).pending = s.pending := rfl
@[simp] theorem State.setReg_phase (k : Nat) (w : Word) : (s.setReg k w).phase = s.phase := rfl
@[simp] theorem State.setReg_now (k : Nat) (w : Word) : (s.setReg k w).now = s.now := rfl
@[simp] theorem State.setReg_tick (k : Nat) (w : Word) : (s.setReg k w).tick = s.tick := rfl
@[simp] theorem State.setReg_ticking (k : Nat) (w : Word) : (s.setReg k w).ticking = s.ticking := rfl
@[simp] theorem State.setReg_sram (k : Nat) (w : Word) : (s.setReg k w).sram = s.sram := rfl
@[simp] theorem State.setReg_sramRaw (k : Nat) (w : Word) : (s.setReg k w).sramRaw = s.sramRaw := rfl
@[simp] theorem State.setReg_writeBack (k : Nat) (w : Word) : (s.setReg k w).writeBack = s.writeBack := rfl
@[simp] theorem State.setReg_free (k : Nat) (w : Word) : (s.setReg k w).free = s.free := rfl
@[simp] theorem State.setReg_events (k : Nat) (w : Word) : (s.setReg k w).events = s.events := rfl
@[simp] theorem State.setReg_collector (k : Nat) (w : Word) : (s.setReg k w).collector = s.collector := rfl
@[simp] theorem State.setReg_seqNext (k : Nat) (w : Word) : (s.setReg k w).seqNext = s.seqNext := rfl
@[simp] theorem State.setReg_recUse (k : Nat) (w : Word) : (s.setReg k w).recUse = s.recUse := rfl
@[simp] theorem State.setReg_merged (k : Nat) (w : Word) : (s.setReg k w).merged = s.merged := rfl
@[simp] theorem State.setReg_holds (k : Nat) (w : Word) : (s.setReg k w).holds = s.holds := rfl
@[simp] theorem State.setReg_irqSeen (k : Nat) (w : Word) : (s.setReg k w).irqSeen = s.irqSeen := rfl
@[simp] theorem State.setReg_waiting (k : Nat) (w : Word) : (s.setReg k w).waiting = s.waiting := rfl
@[simp] theorem State.setReg_barred (k : Nat) (w : Word) : (s.setReg k w).barred = s.barred := rfl
@[simp] theorem State.setReg_occupied (k : Nat) (w : Word) : (s.setReg k w).occupied = s.occupied := rfl
@[simp] theorem State.setReg_holdWait (k : Nat) (w : Word) : (s.setReg k w).holdWait = s.holdWait := rfl
@[simp] theorem State.setReg_flash (k : Nat) (w : Word) : (s.setReg k w).flash = s.flash := rfl
@[simp] theorem State.setReg_busWord (k : Nat) (w : Word) : (s.setReg k w).busWord = s.busWord := rfl
@[simp] theorem State.setReg_hdr (k : Nat) (w : Word) : (s.setReg k w).hdr = s.hdr := rfl
@[simp] theorem State.setReg_sections (k : Nat) (w : Word) : (s.setReg k w).sections = s.sections := rfl
@[simp] theorem State.setReg_cellMap (k : Nat) (w : Word) : (s.setReg k w).cellMap = s.cellMap := rfl
@[simp] theorem State.setReg_loopMap (k : Nat) (w : Word) : (s.setReg k w).loopMap = s.loopMap := rfl
@[simp] theorem State.setReg_railGraph (k : Nat) (w : Word) : (s.setReg k w).railGraph = s.railGraph := rfl
@[simp] theorem State.setReg_curveFlags (k : Nat) (w : Word) : (s.setReg k w).curveFlags = s.curveFlags := rfl
@[simp] theorem State.setReg_load (k : Nat) (w : Word) : (s.setReg k w).load = s.load := rfl
@[simp] theorem State.setReg_chan (k : Nat) (w : Word) : (s.setReg k w).chan = s.chan := rfl
@[simp] theorem State.setReg_due (k : Nat) (w : Word) : (s.setReg k w).due = s.due := rfl
@[simp] theorem State.setReg_loop (k : Nat) (w : Word) : (s.setReg k w).loop = s.loop := rfl
@[simp] theorem State.setReg_phCell (k : Nat) (w : Word) : (s.setReg k w).phCell = s.phCell := rfl
@[simp] theorem State.setReg_syncIn (k : Nat) (w : Word) : (s.setReg k w).syncIn = s.syncIn := rfl
@[simp] theorem State.setReg_hintPin (k : Nat) (w : Word) : (s.setReg k w).hintPin = s.hintPin := rfl
@[simp] theorem State.setReg_pointCmd (k : Nat) (w : Word) : (s.setReg k w).pointCmd = s.pointCmd := rfl
@[simp] theorem State.setReg_slots (k : Nat) (w : Word) : (s.setReg k w).slots = s.slots := rfl
@[simp] theorem State.setReg_strikeNext (k : Nat) (w : Word) : (s.setReg k w).strikeNext = s.strikeNext := rfl
@[simp] theorem State.setReg_strikeTaken (k : Nat) (w : Word) : (s.setReg k w).strikeTaken = s.strikeTaken := rfl
@[simp] theorem State.setReg_quarantine (k : Nat) (w : Word) : (s.setReg k w).quarantine = s.quarantine := rfl
@[simp] theorem State.setReg_cancelSent (k : Nat) (w : Word) : (s.setReg k w).cancelSent = s.cancelSent := rfl
@[simp] theorem State.setReg_openIds (k : Nat) (w : Word) : (s.setReg k w).openIds = s.openIds := rfl
@[simp] theorem State.setReg_errRun (k : Nat) (w : Word) : (s.setReg k w).errRun = s.errRun := rfl
@[simp] theorem State.setReg_pllPhase (k : Nat) (w : Word) : (s.setReg k w).pllPhase = s.pllPhase := rfl
@[simp] theorem State.setReg_stepDue (k : Nat) (w : Word) : (s.setReg k w).stepDue = s.stepDue := rfl
@[simp] theorem State.setReg_beat (k : Nat) (w : Word) : (s.setReg k w).beat = s.beat := rfl
@[simp] theorem State.setReg_link (k : Nat) (w : Word) : (s.setReg k w).link = s.link := rfl
@[simp] theorem State.setReg_stage (k : Nat) (w : Word) : (s.setReg k w).stage = s.stage := rfl
@[simp] theorem State.setReg_commit (k : Nat) (w : Word) : (s.setReg k w).commit = s.commit := rfl
@[simp] theorem State.setReg_deliv (k : Nat) (w : Word) : (s.setReg k w).deliv = s.deliv := rfl
@[simp] theorem State.setReg_modl (k : Nat) (w : Word) : (s.setReg k w).modl = s.modl := rfl
@[simp] theorem State.setReg_meter (k : Nat) (w : Word) : (s.setReg k w).meter = s.meter := rfl
@[simp] theorem State.setReg_refBad (k : Nat) (w : Word) : (s.setReg k w).refBad = s.refBad := rfl
@[simp] theorem State.setReg_mon (k : Nat) (w : Word) : (s.setReg k w).mon = s.mon := rfl
@[simp] theorem State.setReg_sweep (k : Nat) (w : Word) : (s.setReg k w).sweep = s.sweep := rfl
@[simp] theorem State.setReg_nodeT (k : Nat) (w : Word) : (s.setReg k w).nodeT = s.nodeT := rfl
@[simp] theorem State.setReg_sens (k : Nat) (w : Word) : (s.setReg k w).sens = s.sens := rfl
@[simp] theorem State.setReg_sheds (k : Nat) (w : Word) : (s.setReg k w).sheds = s.sheds := rfl
@[simp] theorem State.setReg_nodeKept (k : Nat) (w : Word) : (s.setReg k w).nodeKept = s.nodeKept := rfl
@[simp] theorem State.setReg_thermalAt (k : Nat) (w : Word) : (s.setReg k w).thermalAt = s.thermalAt := rfl
@[simp] theorem State.setReg_parOld (k : Nat) (w : Word) : (s.setReg k w).parOld = s.parOld := rfl
@[simp] theorem State.setReg_rail (k : Nat) (w : Word) : (s.setReg k w).rail = s.rail := rfl
@[simp] theorem State.setReg_pwren (k : Nat) (w : Word) : (s.setReg k w).pwren = s.pwren := rfl
@[simp] theorem State.setReg_pwrgd (k : Nat) (w : Word) : (s.setReg k w).pwrgd = s.pwrgd := rfl
@[simp] theorem State.setReg_mrg (k : Nat) (w : Word) : (s.setReg k w).mrg = s.mrg := rfl
@[simp] theorem State.setReg_mirAt (k : Nat) (w : Word) : (s.setReg k w).mirAt = s.mirAt := rfl
@[simp] theorem State.setReg_relay (k : Nat) (w : Word) : (s.setReg k w).relay = s.relay := rfl
@[simp] theorem State.setReg_evalAt (k : Nat) (w : Word) : (s.setReg k w).evalAt = s.evalAt := rfl
@[simp] theorem State.setReg_pp (k : Nat) (w : Word) : (s.setReg k w).pp = s.pp := rfl
@[simp] theorem State.setReg_wakePend (k : Nat) (w : Word) : (s.setReg k w).wakePend = s.wakePend := rfl
@[simp] theorem State.setReg_keep (k : Nat) (w : Word) : (s.setReg k w).keep = s.keep := rfl
@[simp] theorem State.setReg_rstHold (k : Nat) (w : Word) : (s.setReg k w).rstHold = s.rstHold := rfl
@[simp] theorem State.setReg_senseEnd (k : Nat) (w : Word) : (s.setReg k w).senseEnd = s.senseEnd := rfl
@[simp] theorem State.setReg_rest (k : Nat) (w : Word) : (s.setReg k w).rest = s.rest := rfl
@[simp] theorem State.setReg_refFallback (k : Nat) (w : Word) : (s.setReg k w).refFallback = s.refFallback := rfl
@[simp] theorem State.setReg_vinFall (k : Nat) (w : Word) : (s.setReg k w).vinFall = s.vinFall := rfl
@[simp] theorem State.setReg_syncBefore (k : Nat) (w : Word) : (s.setReg k w).syncBefore = s.syncBefore := rfl
@[simp] theorem State.setReg_holdEnd (k : Nat) (w : Word) : (s.setReg k w).holdEnd = s.holdEnd := rfl
@[simp] theorem State.setReg_hostTx (k : Nat) (w : Word) : (s.setReg k w).hostTx = s.hostTx := rfl
@[simp] theorem State.setReg_hostAcks (k : Nat) (w : Word) : (s.setReg k w).hostAcks = s.hostAcks := rfl
@[simp] theorem State.setReg_hostOpen (k : Nat) (w : Word) : (s.setReg k w).hostOpen = s.hostOpen := rfl
@[simp] theorem State.setReg_hostBurst (k : Nat) (w : Word) : (s.setReg k w).hostBurst = s.hostBurst := rfl
@[simp] theorem State.setReg_hostScl (k : Nat) (w : Word) : (s.setReg k w).hostScl = s.hostScl := rfl
@[simp] theorem State.setReg_hostSda (k : Nat) (w : Word) : (s.setReg k w).hostSda = s.hostSda := rfl
@[simp] theorem State.setReg_trigs (k : Nat) (w : Word) : (s.setReg k w).trigs = s.trigs := rfl
@[simp] theorem State.setReg_eng (k : Nat) (w : Word) : (s.setReg k w).eng = s.eng := rfl
@[simp] theorem State.setReg_pllLockAt (k : Nat) (w : Word) : (s.setReg k w).pllLockAt = s.pllLockAt := rfl
@[simp] theorem State.setReg_memHit (k : Nat) (w : Word) : (s.setReg k w).memHit = s.memHit := rfl
@[simp] theorem State.setReg_portLog (k : Nat) (w : Word) : (s.setReg k w).portLog = s.portLog := rfl
@[simp] theorem State.setReg_scrub (k : Nat) (w : Word) : (s.setReg k w).scrub = s.scrub := rfl
@[simp] theorem State.setReg_otp (k : Nat) (w : Word) : (s.setReg k w).otp = s.otp := rfl
@[simp] theorem State.setReg_otpShadow (k : Nat) (w : Word) : (s.setReg k w).otpShadow = s.otpShadow := rfl
@[simp] theorem State.setReg_otpLocks (k : Nat) (w : Word) : (s.setReg k w).otpLocks = s.otpLocks := rfl
@[simp] theorem State.setReg_otpOp (k : Nat) (w : Word) : (s.setReg k w).otpOp = s.otpOp := rfl
@[simp] theorem State.setReg_tap (k : Nat) (w : Word) : (s.setReg k w).tap = s.tap := rfl

/-! ### `put` -/

@[simp] theorem State.put_pending (f : Fld) (v i : Nat) : (s.put f v i).pending = s.pending := rfl
@[simp] theorem State.put_phase (f : Fld) (v i : Nat) : (s.put f v i).phase = s.phase := rfl
@[simp] theorem State.put_now (f : Fld) (v i : Nat) : (s.put f v i).now = s.now := rfl
@[simp] theorem State.put_tick (f : Fld) (v i : Nat) : (s.put f v i).tick = s.tick := rfl
@[simp] theorem State.put_ticking (f : Fld) (v i : Nat) : (s.put f v i).ticking = s.ticking := rfl
@[simp] theorem State.put_sram (f : Fld) (v i : Nat) : (s.put f v i).sram = s.sram := rfl
@[simp] theorem State.put_sramRaw (f : Fld) (v i : Nat) : (s.put f v i).sramRaw = s.sramRaw := rfl
@[simp] theorem State.put_writeBack (f : Fld) (v i : Nat) : (s.put f v i).writeBack = s.writeBack := rfl
@[simp] theorem State.put_free (f : Fld) (v i : Nat) : (s.put f v i).free = s.free := rfl
@[simp] theorem State.put_events (f : Fld) (v i : Nat) : (s.put f v i).events = s.events := rfl
@[simp] theorem State.put_collector (f : Fld) (v i : Nat) : (s.put f v i).collector = s.collector := rfl
@[simp] theorem State.put_seqNext (f : Fld) (v i : Nat) : (s.put f v i).seqNext = s.seqNext := rfl
@[simp] theorem State.put_recUse (f : Fld) (v i : Nat) : (s.put f v i).recUse = s.recUse := rfl
@[simp] theorem State.put_merged (f : Fld) (v i : Nat) : (s.put f v i).merged = s.merged := rfl
@[simp] theorem State.put_holds (f : Fld) (v i : Nat) : (s.put f v i).holds = s.holds := rfl
@[simp] theorem State.put_irqSeen (f : Fld) (v i : Nat) : (s.put f v i).irqSeen = s.irqSeen := rfl
@[simp] theorem State.put_waiting (f : Fld) (v i : Nat) : (s.put f v i).waiting = s.waiting := rfl
@[simp] theorem State.put_barred (f : Fld) (v i : Nat) : (s.put f v i).barred = s.barred := rfl
@[simp] theorem State.put_occupied (f : Fld) (v i : Nat) : (s.put f v i).occupied = s.occupied := rfl
@[simp] theorem State.put_holdWait (f : Fld) (v i : Nat) : (s.put f v i).holdWait = s.holdWait := rfl
@[simp] theorem State.put_flash (f : Fld) (v i : Nat) : (s.put f v i).flash = s.flash := rfl
@[simp] theorem State.put_busWord (f : Fld) (v i : Nat) : (s.put f v i).busWord = s.busWord := rfl
@[simp] theorem State.put_hdr (f : Fld) (v i : Nat) : (s.put f v i).hdr = s.hdr := rfl
@[simp] theorem State.put_sections (f : Fld) (v i : Nat) : (s.put f v i).sections = s.sections := rfl
@[simp] theorem State.put_cellMap (f : Fld) (v i : Nat) : (s.put f v i).cellMap = s.cellMap := rfl
@[simp] theorem State.put_loopMap (f : Fld) (v i : Nat) : (s.put f v i).loopMap = s.loopMap := rfl
@[simp] theorem State.put_railGraph (f : Fld) (v i : Nat) : (s.put f v i).railGraph = s.railGraph := rfl
@[simp] theorem State.put_curveFlags (f : Fld) (v i : Nat) : (s.put f v i).curveFlags = s.curveFlags := rfl
@[simp] theorem State.put_load (f : Fld) (v i : Nat) : (s.put f v i).load = s.load := rfl
@[simp] theorem State.put_chan (f : Fld) (v i : Nat) : (s.put f v i).chan = s.chan := rfl
@[simp] theorem State.put_due (f : Fld) (v i : Nat) : (s.put f v i).due = s.due := rfl
@[simp] theorem State.put_loop (f : Fld) (v i : Nat) : (s.put f v i).loop = s.loop := rfl
@[simp] theorem State.put_phCell (f : Fld) (v i : Nat) : (s.put f v i).phCell = s.phCell := rfl
@[simp] theorem State.put_syncIn (f : Fld) (v i : Nat) : (s.put f v i).syncIn = s.syncIn := rfl
@[simp] theorem State.put_hintPin (f : Fld) (v i : Nat) : (s.put f v i).hintPin = s.hintPin := rfl
@[simp] theorem State.put_pointCmd (f : Fld) (v i : Nat) : (s.put f v i).pointCmd = s.pointCmd := rfl
@[simp] theorem State.put_slots (f : Fld) (v i : Nat) : (s.put f v i).slots = s.slots := rfl
@[simp] theorem State.put_strikeNext (f : Fld) (v i : Nat) : (s.put f v i).strikeNext = s.strikeNext := rfl
@[simp] theorem State.put_strikeTaken (f : Fld) (v i : Nat) : (s.put f v i).strikeTaken = s.strikeTaken := rfl
@[simp] theorem State.put_quarantine (f : Fld) (v i : Nat) : (s.put f v i).quarantine = s.quarantine := rfl
@[simp] theorem State.put_cancelSent (f : Fld) (v i : Nat) : (s.put f v i).cancelSent = s.cancelSent := rfl
@[simp] theorem State.put_openIds (f : Fld) (v i : Nat) : (s.put f v i).openIds = s.openIds := rfl
@[simp] theorem State.put_errRun (f : Fld) (v i : Nat) : (s.put f v i).errRun = s.errRun := rfl
@[simp] theorem State.put_pllPhase (f : Fld) (v i : Nat) : (s.put f v i).pllPhase = s.pllPhase := rfl
@[simp] theorem State.put_stepDue (f : Fld) (v i : Nat) : (s.put f v i).stepDue = s.stepDue := rfl
@[simp] theorem State.put_beat (f : Fld) (v i : Nat) : (s.put f v i).beat = s.beat := rfl
@[simp] theorem State.put_link (f : Fld) (v i : Nat) : (s.put f v i).link = s.link := rfl
@[simp] theorem State.put_stage (f : Fld) (v i : Nat) : (s.put f v i).stage = s.stage := rfl
@[simp] theorem State.put_commit (f : Fld) (v i : Nat) : (s.put f v i).commit = s.commit := rfl
@[simp] theorem State.put_deliv (f : Fld) (v i : Nat) : (s.put f v i).deliv = s.deliv := rfl
@[simp] theorem State.put_modl (f : Fld) (v i : Nat) : (s.put f v i).modl = s.modl := rfl
@[simp] theorem State.put_meter (f : Fld) (v i : Nat) : (s.put f v i).meter = s.meter := rfl
@[simp] theorem State.put_refBad (f : Fld) (v i : Nat) : (s.put f v i).refBad = s.refBad := rfl
@[simp] theorem State.put_mon (f : Fld) (v i : Nat) : (s.put f v i).mon = s.mon := rfl
@[simp] theorem State.put_sweep (f : Fld) (v i : Nat) : (s.put f v i).sweep = s.sweep := rfl
@[simp] theorem State.put_nodeT (f : Fld) (v i : Nat) : (s.put f v i).nodeT = s.nodeT := rfl
@[simp] theorem State.put_sens (f : Fld) (v i : Nat) : (s.put f v i).sens = s.sens := rfl
@[simp] theorem State.put_sheds (f : Fld) (v i : Nat) : (s.put f v i).sheds = s.sheds := rfl
@[simp] theorem State.put_nodeKept (f : Fld) (v i : Nat) : (s.put f v i).nodeKept = s.nodeKept := rfl
@[simp] theorem State.put_thermalAt (f : Fld) (v i : Nat) : (s.put f v i).thermalAt = s.thermalAt := rfl
@[simp] theorem State.put_parOld (f : Fld) (v i : Nat) : (s.put f v i).parOld = s.parOld := rfl
@[simp] theorem State.put_rail (f : Fld) (v i : Nat) : (s.put f v i).rail = s.rail := rfl
@[simp] theorem State.put_pwren (f : Fld) (v i : Nat) : (s.put f v i).pwren = s.pwren := rfl
@[simp] theorem State.put_pwrgd (f : Fld) (v i : Nat) : (s.put f v i).pwrgd = s.pwrgd := rfl
@[simp] theorem State.put_mrg (f : Fld) (v i : Nat) : (s.put f v i).mrg = s.mrg := rfl
@[simp] theorem State.put_mirAt (f : Fld) (v i : Nat) : (s.put f v i).mirAt = s.mirAt := rfl
@[simp] theorem State.put_relay (f : Fld) (v i : Nat) : (s.put f v i).relay = s.relay := rfl
@[simp] theorem State.put_evalAt (f : Fld) (v i : Nat) : (s.put f v i).evalAt = s.evalAt := rfl
@[simp] theorem State.put_pp (f : Fld) (v i : Nat) : (s.put f v i).pp = s.pp := rfl
@[simp] theorem State.put_wakePend (f : Fld) (v i : Nat) : (s.put f v i).wakePend = s.wakePend := rfl
@[simp] theorem State.put_keep (f : Fld) (v i : Nat) : (s.put f v i).keep = s.keep := rfl
@[simp] theorem State.put_rstHold (f : Fld) (v i : Nat) : (s.put f v i).rstHold = s.rstHold := rfl
@[simp] theorem State.put_senseEnd (f : Fld) (v i : Nat) : (s.put f v i).senseEnd = s.senseEnd := rfl
@[simp] theorem State.put_rest (f : Fld) (v i : Nat) : (s.put f v i).rest = s.rest := rfl
@[simp] theorem State.put_refFallback (f : Fld) (v i : Nat) : (s.put f v i).refFallback = s.refFallback := rfl
@[simp] theorem State.put_vinFall (f : Fld) (v i : Nat) : (s.put f v i).vinFall = s.vinFall := rfl
@[simp] theorem State.put_syncBefore (f : Fld) (v i : Nat) : (s.put f v i).syncBefore = s.syncBefore := rfl
@[simp] theorem State.put_holdEnd (f : Fld) (v i : Nat) : (s.put f v i).holdEnd = s.holdEnd := rfl
@[simp] theorem State.put_hostTx (f : Fld) (v i : Nat) : (s.put f v i).hostTx = s.hostTx := rfl
@[simp] theorem State.put_hostAcks (f : Fld) (v i : Nat) : (s.put f v i).hostAcks = s.hostAcks := rfl
@[simp] theorem State.put_hostOpen (f : Fld) (v i : Nat) : (s.put f v i).hostOpen = s.hostOpen := rfl
@[simp] theorem State.put_hostBurst (f : Fld) (v i : Nat) : (s.put f v i).hostBurst = s.hostBurst := rfl
@[simp] theorem State.put_hostScl (f : Fld) (v i : Nat) : (s.put f v i).hostScl = s.hostScl := rfl
@[simp] theorem State.put_hostSda (f : Fld) (v i : Nat) : (s.put f v i).hostSda = s.hostSda := rfl
@[simp] theorem State.put_trigs (f : Fld) (v i : Nat) : (s.put f v i).trigs = s.trigs := rfl
@[simp] theorem State.put_eng (f : Fld) (v i : Nat) : (s.put f v i).eng = s.eng := rfl
@[simp] theorem State.put_pllLockAt (f : Fld) (v i : Nat) : (s.put f v i).pllLockAt = s.pllLockAt := rfl
@[simp] theorem State.put_memHit (f : Fld) (v i : Nat) : (s.put f v i).memHit = s.memHit := rfl
@[simp] theorem State.put_portLog (f : Fld) (v i : Nat) : (s.put f v i).portLog = s.portLog := rfl
@[simp] theorem State.put_scrub (f : Fld) (v i : Nat) : (s.put f v i).scrub = s.scrub := rfl
@[simp] theorem State.put_otp (f : Fld) (v i : Nat) : (s.put f v i).otp = s.otp := rfl
@[simp] theorem State.put_otpShadow (f : Fld) (v i : Nat) : (s.put f v i).otpShadow = s.otpShadow := rfl
@[simp] theorem State.put_otpLocks (f : Fld) (v i : Nat) : (s.put f v i).otpLocks = s.otpLocks := rfl
@[simp] theorem State.put_otpOp (f : Fld) (v i : Nat) : (s.put f v i).otpOp = s.otpOp := rfl
@[simp] theorem State.put_tap (f : Fld) (v i : Nat) : (s.put f v i).tap = s.tap := rfl

/-! ### `sramWrite` -/

@[simp] theorem State.sramWrite_pending (k : Nat) (w : Word) : (s.sramWrite k w).pending = s.pending := rfl
@[simp] theorem State.sramWrite_phase (k : Nat) (w : Word) : (s.sramWrite k w).phase = s.phase := rfl
@[simp] theorem State.sramWrite_now (k : Nat) (w : Word) : (s.sramWrite k w).now = s.now := rfl
@[simp] theorem State.sramWrite_tick (k : Nat) (w : Word) : (s.sramWrite k w).tick = s.tick := rfl
@[simp] theorem State.sramWrite_ticking (k : Nat) (w : Word) : (s.sramWrite k w).ticking = s.ticking := rfl
@[simp] theorem State.sramWrite_regs (k : Nat) (w : Word) : (s.sramWrite k w).regs = s.regs := rfl
@[simp] theorem State.sramWrite_free (k : Nat) (w : Word) : (s.sramWrite k w).free = s.free := rfl
@[simp] theorem State.sramWrite_events (k : Nat) (w : Word) : (s.sramWrite k w).events = s.events := rfl
@[simp] theorem State.sramWrite_collector (k : Nat) (w : Word) : (s.sramWrite k w).collector = s.collector := rfl
@[simp] theorem State.sramWrite_seqNext (k : Nat) (w : Word) : (s.sramWrite k w).seqNext = s.seqNext := rfl
@[simp] theorem State.sramWrite_recUse (k : Nat) (w : Word) : (s.sramWrite k w).recUse = s.recUse := rfl
@[simp] theorem State.sramWrite_merged (k : Nat) (w : Word) : (s.sramWrite k w).merged = s.merged := rfl
@[simp] theorem State.sramWrite_holds (k : Nat) (w : Word) : (s.sramWrite k w).holds = s.holds := rfl
@[simp] theorem State.sramWrite_irqSeen (k : Nat) (w : Word) : (s.sramWrite k w).irqSeen = s.irqSeen := rfl
@[simp] theorem State.sramWrite_waiting (k : Nat) (w : Word) : (s.sramWrite k w).waiting = s.waiting := rfl
@[simp] theorem State.sramWrite_barred (k : Nat) (w : Word) : (s.sramWrite k w).barred = s.barred := rfl
@[simp] theorem State.sramWrite_occupied (k : Nat) (w : Word) : (s.sramWrite k w).occupied = s.occupied := rfl
@[simp] theorem State.sramWrite_holdWait (k : Nat) (w : Word) : (s.sramWrite k w).holdWait = s.holdWait := rfl
@[simp] theorem State.sramWrite_flash (k : Nat) (w : Word) : (s.sramWrite k w).flash = s.flash := rfl
@[simp] theorem State.sramWrite_busWord (k : Nat) (w : Word) : (s.sramWrite k w).busWord = s.busWord := rfl
@[simp] theorem State.sramWrite_hdr (k : Nat) (w : Word) : (s.sramWrite k w).hdr = s.hdr := rfl
@[simp] theorem State.sramWrite_sections (k : Nat) (w : Word) : (s.sramWrite k w).sections = s.sections := rfl
@[simp] theorem State.sramWrite_cellMap (k : Nat) (w : Word) : (s.sramWrite k w).cellMap = s.cellMap := rfl
@[simp] theorem State.sramWrite_loopMap (k : Nat) (w : Word) : (s.sramWrite k w).loopMap = s.loopMap := rfl
@[simp] theorem State.sramWrite_railGraph (k : Nat) (w : Word) : (s.sramWrite k w).railGraph = s.railGraph := rfl
@[simp] theorem State.sramWrite_curveFlags (k : Nat) (w : Word) : (s.sramWrite k w).curveFlags = s.curveFlags := rfl
@[simp] theorem State.sramWrite_load (k : Nat) (w : Word) : (s.sramWrite k w).load = s.load := rfl
@[simp] theorem State.sramWrite_chan (k : Nat) (w : Word) : (s.sramWrite k w).chan = s.chan := rfl
@[simp] theorem State.sramWrite_due (k : Nat) (w : Word) : (s.sramWrite k w).due = s.due := rfl
@[simp] theorem State.sramWrite_loop (k : Nat) (w : Word) : (s.sramWrite k w).loop = s.loop := rfl
@[simp] theorem State.sramWrite_phCell (k : Nat) (w : Word) : (s.sramWrite k w).phCell = s.phCell := rfl
@[simp] theorem State.sramWrite_syncIn (k : Nat) (w : Word) : (s.sramWrite k w).syncIn = s.syncIn := rfl
@[simp] theorem State.sramWrite_hintPin (k : Nat) (w : Word) : (s.sramWrite k w).hintPin = s.hintPin := rfl
@[simp] theorem State.sramWrite_pointCmd (k : Nat) (w : Word) : (s.sramWrite k w).pointCmd = s.pointCmd := rfl
@[simp] theorem State.sramWrite_slots (k : Nat) (w : Word) : (s.sramWrite k w).slots = s.slots := rfl
@[simp] theorem State.sramWrite_strikeNext (k : Nat) (w : Word) : (s.sramWrite k w).strikeNext = s.strikeNext := rfl
@[simp] theorem State.sramWrite_strikeTaken (k : Nat) (w : Word) : (s.sramWrite k w).strikeTaken = s.strikeTaken := rfl
@[simp] theorem State.sramWrite_quarantine (k : Nat) (w : Word) : (s.sramWrite k w).quarantine = s.quarantine := rfl
@[simp] theorem State.sramWrite_cancelSent (k : Nat) (w : Word) : (s.sramWrite k w).cancelSent = s.cancelSent := rfl
@[simp] theorem State.sramWrite_openIds (k : Nat) (w : Word) : (s.sramWrite k w).openIds = s.openIds := rfl
@[simp] theorem State.sramWrite_errRun (k : Nat) (w : Word) : (s.sramWrite k w).errRun = s.errRun := rfl
@[simp] theorem State.sramWrite_pllPhase (k : Nat) (w : Word) : (s.sramWrite k w).pllPhase = s.pllPhase := rfl
@[simp] theorem State.sramWrite_stepDue (k : Nat) (w : Word) : (s.sramWrite k w).stepDue = s.stepDue := rfl
@[simp] theorem State.sramWrite_beat (k : Nat) (w : Word) : (s.sramWrite k w).beat = s.beat := rfl
@[simp] theorem State.sramWrite_link (k : Nat) (w : Word) : (s.sramWrite k w).link = s.link := rfl
@[simp] theorem State.sramWrite_stage (k : Nat) (w : Word) : (s.sramWrite k w).stage = s.stage := rfl
@[simp] theorem State.sramWrite_commit (k : Nat) (w : Word) : (s.sramWrite k w).commit = s.commit := rfl
@[simp] theorem State.sramWrite_deliv (k : Nat) (w : Word) : (s.sramWrite k w).deliv = s.deliv := rfl
@[simp] theorem State.sramWrite_modl (k : Nat) (w : Word) : (s.sramWrite k w).modl = s.modl := rfl
@[simp] theorem State.sramWrite_meter (k : Nat) (w : Word) : (s.sramWrite k w).meter = s.meter := rfl
@[simp] theorem State.sramWrite_refBad (k : Nat) (w : Word) : (s.sramWrite k w).refBad = s.refBad := rfl
@[simp] theorem State.sramWrite_mon (k : Nat) (w : Word) : (s.sramWrite k w).mon = s.mon := rfl
@[simp] theorem State.sramWrite_sweep (k : Nat) (w : Word) : (s.sramWrite k w).sweep = s.sweep := rfl
@[simp] theorem State.sramWrite_nodeT (k : Nat) (w : Word) : (s.sramWrite k w).nodeT = s.nodeT := rfl
@[simp] theorem State.sramWrite_sens (k : Nat) (w : Word) : (s.sramWrite k w).sens = s.sens := rfl
@[simp] theorem State.sramWrite_sheds (k : Nat) (w : Word) : (s.sramWrite k w).sheds = s.sheds := rfl
@[simp] theorem State.sramWrite_nodeKept (k : Nat) (w : Word) : (s.sramWrite k w).nodeKept = s.nodeKept := rfl
@[simp] theorem State.sramWrite_thermalAt (k : Nat) (w : Word) : (s.sramWrite k w).thermalAt = s.thermalAt := rfl
@[simp] theorem State.sramWrite_parOld (k : Nat) (w : Word) : (s.sramWrite k w).parOld = s.parOld := rfl
@[simp] theorem State.sramWrite_rail (k : Nat) (w : Word) : (s.sramWrite k w).rail = s.rail := rfl
@[simp] theorem State.sramWrite_pwren (k : Nat) (w : Word) : (s.sramWrite k w).pwren = s.pwren := rfl
@[simp] theorem State.sramWrite_pwrgd (k : Nat) (w : Word) : (s.sramWrite k w).pwrgd = s.pwrgd := rfl
@[simp] theorem State.sramWrite_mrg (k : Nat) (w : Word) : (s.sramWrite k w).mrg = s.mrg := rfl
@[simp] theorem State.sramWrite_mirAt (k : Nat) (w : Word) : (s.sramWrite k w).mirAt = s.mirAt := rfl
@[simp] theorem State.sramWrite_relay (k : Nat) (w : Word) : (s.sramWrite k w).relay = s.relay := rfl
@[simp] theorem State.sramWrite_evalAt (k : Nat) (w : Word) : (s.sramWrite k w).evalAt = s.evalAt := rfl
@[simp] theorem State.sramWrite_pp (k : Nat) (w : Word) : (s.sramWrite k w).pp = s.pp := rfl
@[simp] theorem State.sramWrite_wakePend (k : Nat) (w : Word) : (s.sramWrite k w).wakePend = s.wakePend := rfl
@[simp] theorem State.sramWrite_keep (k : Nat) (w : Word) : (s.sramWrite k w).keep = s.keep := rfl
@[simp] theorem State.sramWrite_rstHold (k : Nat) (w : Word) : (s.sramWrite k w).rstHold = s.rstHold := rfl
@[simp] theorem State.sramWrite_senseEnd (k : Nat) (w : Word) : (s.sramWrite k w).senseEnd = s.senseEnd := rfl
@[simp] theorem State.sramWrite_rest (k : Nat) (w : Word) : (s.sramWrite k w).rest = s.rest := rfl
@[simp] theorem State.sramWrite_refFallback (k : Nat) (w : Word) : (s.sramWrite k w).refFallback = s.refFallback := rfl
@[simp] theorem State.sramWrite_vinFall (k : Nat) (w : Word) : (s.sramWrite k w).vinFall = s.vinFall := rfl
@[simp] theorem State.sramWrite_syncBefore (k : Nat) (w : Word) : (s.sramWrite k w).syncBefore = s.syncBefore := rfl
@[simp] theorem State.sramWrite_holdEnd (k : Nat) (w : Word) : (s.sramWrite k w).holdEnd = s.holdEnd := rfl
@[simp] theorem State.sramWrite_hostTx (k : Nat) (w : Word) : (s.sramWrite k w).hostTx = s.hostTx := rfl
@[simp] theorem State.sramWrite_hostAcks (k : Nat) (w : Word) : (s.sramWrite k w).hostAcks = s.hostAcks := rfl
@[simp] theorem State.sramWrite_hostOpen (k : Nat) (w : Word) : (s.sramWrite k w).hostOpen = s.hostOpen := rfl
@[simp] theorem State.sramWrite_hostBurst (k : Nat) (w : Word) : (s.sramWrite k w).hostBurst = s.hostBurst := rfl
@[simp] theorem State.sramWrite_hostScl (k : Nat) (w : Word) : (s.sramWrite k w).hostScl = s.hostScl := rfl
@[simp] theorem State.sramWrite_hostSda (k : Nat) (w : Word) : (s.sramWrite k w).hostSda = s.hostSda := rfl
@[simp] theorem State.sramWrite_trigs (k : Nat) (w : Word) : (s.sramWrite k w).trigs = s.trigs := rfl
@[simp] theorem State.sramWrite_eng (k : Nat) (w : Word) : (s.sramWrite k w).eng = s.eng := rfl
@[simp] theorem State.sramWrite_pllLockAt (k : Nat) (w : Word) : (s.sramWrite k w).pllLockAt = s.pllLockAt := rfl
@[simp] theorem State.sramWrite_memHit (k : Nat) (w : Word) : (s.sramWrite k w).memHit = s.memHit := rfl
@[simp] theorem State.sramWrite_portLog (k : Nat) (w : Word) : (s.sramWrite k w).portLog = s.portLog := rfl
@[simp] theorem State.sramWrite_scrub (k : Nat) (w : Word) : (s.sramWrite k w).scrub = s.scrub := rfl
@[simp] theorem State.sramWrite_otp (k : Nat) (w : Word) : (s.sramWrite k w).otp = s.otp := rfl
@[simp] theorem State.sramWrite_otpShadow (k : Nat) (w : Word) : (s.sramWrite k w).otpShadow = s.otpShadow := rfl
@[simp] theorem State.sramWrite_otpLocks (k : Nat) (w : Word) : (s.sramWrite k w).otpLocks = s.otpLocks := rfl
@[simp] theorem State.sramWrite_otpOp (k : Nat) (w : Word) : (s.sramWrite k w).otpOp = s.otpOp := rfl
@[simp] theorem State.sramWrite_tap (k : Nat) (w : Word) : (s.sramWrite k w).tap = s.tap := rfl

/-! ### `draw` -/

@[simp] theorem State.draw_pending : (s.draw).pending = s.pending := rfl
@[simp] theorem State.draw_phase : (s.draw).phase = s.phase := rfl
@[simp] theorem State.draw_now : (s.draw).now = s.now := rfl
@[simp] theorem State.draw_tick : (s.draw).tick = s.tick := rfl
@[simp] theorem State.draw_ticking : (s.draw).ticking = s.ticking := rfl
@[simp] theorem State.draw_regs : (s.draw).regs = s.regs := rfl
@[simp] theorem State.draw_sram : (s.draw).sram = s.sram := rfl
@[simp] theorem State.draw_sramRaw : (s.draw).sramRaw = s.sramRaw := rfl
@[simp] theorem State.draw_writeBack : (s.draw).writeBack = s.writeBack := rfl
@[simp] theorem State.draw_events : (s.draw).events = s.events := rfl
@[simp] theorem State.draw_collector : (s.draw).collector = s.collector := rfl
@[simp] theorem State.draw_seqNext : (s.draw).seqNext = s.seqNext := rfl
@[simp] theorem State.draw_recUse : (s.draw).recUse = s.recUse := rfl
@[simp] theorem State.draw_merged : (s.draw).merged = s.merged := rfl
@[simp] theorem State.draw_holds : (s.draw).holds = s.holds := rfl
@[simp] theorem State.draw_irqSeen : (s.draw).irqSeen = s.irqSeen := rfl
@[simp] theorem State.draw_waiting : (s.draw).waiting = s.waiting := rfl
@[simp] theorem State.draw_barred : (s.draw).barred = s.barred := rfl
@[simp] theorem State.draw_occupied : (s.draw).occupied = s.occupied := rfl
@[simp] theorem State.draw_holdWait : (s.draw).holdWait = s.holdWait := rfl
@[simp] theorem State.draw_flash : (s.draw).flash = s.flash := rfl
@[simp] theorem State.draw_busWord : (s.draw).busWord = s.busWord := rfl
@[simp] theorem State.draw_hdr : (s.draw).hdr = s.hdr := rfl
@[simp] theorem State.draw_sections : (s.draw).sections = s.sections := rfl
@[simp] theorem State.draw_cellMap : (s.draw).cellMap = s.cellMap := rfl
@[simp] theorem State.draw_loopMap : (s.draw).loopMap = s.loopMap := rfl
@[simp] theorem State.draw_railGraph : (s.draw).railGraph = s.railGraph := rfl
@[simp] theorem State.draw_curveFlags : (s.draw).curveFlags = s.curveFlags := rfl
@[simp] theorem State.draw_load : (s.draw).load = s.load := rfl
@[simp] theorem State.draw_chan : (s.draw).chan = s.chan := rfl
@[simp] theorem State.draw_due : (s.draw).due = s.due := rfl
@[simp] theorem State.draw_loop : (s.draw).loop = s.loop := rfl
@[simp] theorem State.draw_phCell : (s.draw).phCell = s.phCell := rfl
@[simp] theorem State.draw_syncIn : (s.draw).syncIn = s.syncIn := rfl
@[simp] theorem State.draw_hintPin : (s.draw).hintPin = s.hintPin := rfl
@[simp] theorem State.draw_pointCmd : (s.draw).pointCmd = s.pointCmd := rfl
@[simp] theorem State.draw_slots : (s.draw).slots = s.slots := rfl
@[simp] theorem State.draw_strikeNext : (s.draw).strikeNext = s.strikeNext := rfl
@[simp] theorem State.draw_strikeTaken : (s.draw).strikeTaken = s.strikeTaken := rfl
@[simp] theorem State.draw_quarantine : (s.draw).quarantine = s.quarantine := rfl
@[simp] theorem State.draw_cancelSent : (s.draw).cancelSent = s.cancelSent := rfl
@[simp] theorem State.draw_openIds : (s.draw).openIds = s.openIds := rfl
@[simp] theorem State.draw_errRun : (s.draw).errRun = s.errRun := rfl
@[simp] theorem State.draw_pllPhase : (s.draw).pllPhase = s.pllPhase := rfl
@[simp] theorem State.draw_stepDue : (s.draw).stepDue = s.stepDue := rfl
@[simp] theorem State.draw_beat : (s.draw).beat = s.beat := rfl
@[simp] theorem State.draw_link : (s.draw).link = s.link := rfl
@[simp] theorem State.draw_stage : (s.draw).stage = s.stage := rfl
@[simp] theorem State.draw_commit : (s.draw).commit = s.commit := rfl
@[simp] theorem State.draw_deliv : (s.draw).deliv = s.deliv := rfl
@[simp] theorem State.draw_modl : (s.draw).modl = s.modl := rfl
@[simp] theorem State.draw_meter : (s.draw).meter = s.meter := rfl
@[simp] theorem State.draw_refBad : (s.draw).refBad = s.refBad := rfl
@[simp] theorem State.draw_mon : (s.draw).mon = s.mon := rfl
@[simp] theorem State.draw_sweep : (s.draw).sweep = s.sweep := rfl
@[simp] theorem State.draw_nodeT : (s.draw).nodeT = s.nodeT := rfl
@[simp] theorem State.draw_sens : (s.draw).sens = s.sens := rfl
@[simp] theorem State.draw_sheds : (s.draw).sheds = s.sheds := rfl
@[simp] theorem State.draw_nodeKept : (s.draw).nodeKept = s.nodeKept := rfl
@[simp] theorem State.draw_thermalAt : (s.draw).thermalAt = s.thermalAt := rfl
@[simp] theorem State.draw_parOld : (s.draw).parOld = s.parOld := rfl
@[simp] theorem State.draw_rail : (s.draw).rail = s.rail := rfl
@[simp] theorem State.draw_pwren : (s.draw).pwren = s.pwren := rfl
@[simp] theorem State.draw_pwrgd : (s.draw).pwrgd = s.pwrgd := rfl
@[simp] theorem State.draw_mrg : (s.draw).mrg = s.mrg := rfl
@[simp] theorem State.draw_mirAt : (s.draw).mirAt = s.mirAt := rfl
@[simp] theorem State.draw_relay : (s.draw).relay = s.relay := rfl
@[simp] theorem State.draw_evalAt : (s.draw).evalAt = s.evalAt := rfl
@[simp] theorem State.draw_pp : (s.draw).pp = s.pp := rfl
@[simp] theorem State.draw_wakePend : (s.draw).wakePend = s.wakePend := rfl
@[simp] theorem State.draw_keep : (s.draw).keep = s.keep := rfl
@[simp] theorem State.draw_rstHold : (s.draw).rstHold = s.rstHold := rfl
@[simp] theorem State.draw_senseEnd : (s.draw).senseEnd = s.senseEnd := rfl
@[simp] theorem State.draw_rest : (s.draw).rest = s.rest := rfl
@[simp] theorem State.draw_refFallback : (s.draw).refFallback = s.refFallback := rfl
@[simp] theorem State.draw_vinFall : (s.draw).vinFall = s.vinFall := rfl
@[simp] theorem State.draw_syncBefore : (s.draw).syncBefore = s.syncBefore := rfl
@[simp] theorem State.draw_holdEnd : (s.draw).holdEnd = s.holdEnd := rfl
@[simp] theorem State.draw_hostTx : (s.draw).hostTx = s.hostTx := rfl
@[simp] theorem State.draw_hostAcks : (s.draw).hostAcks = s.hostAcks := rfl
@[simp] theorem State.draw_hostOpen : (s.draw).hostOpen = s.hostOpen := rfl
@[simp] theorem State.draw_hostBurst : (s.draw).hostBurst = s.hostBurst := rfl
@[simp] theorem State.draw_hostScl : (s.draw).hostScl = s.hostScl := rfl
@[simp] theorem State.draw_hostSda : (s.draw).hostSda = s.hostSda := rfl
@[simp] theorem State.draw_trigs : (s.draw).trigs = s.trigs := rfl
@[simp] theorem State.draw_eng : (s.draw).eng = s.eng := rfl
@[simp] theorem State.draw_pllLockAt : (s.draw).pllLockAt = s.pllLockAt := rfl
@[simp] theorem State.draw_memHit : (s.draw).memHit = s.memHit := rfl
@[simp] theorem State.draw_portLog : (s.draw).portLog = s.portLog := rfl
@[simp] theorem State.draw_scrub : (s.draw).scrub = s.scrub := rfl
@[simp] theorem State.draw_otp : (s.draw).otp = s.otp := rfl
@[simp] theorem State.draw_otpShadow : (s.draw).otpShadow = s.otpShadow := rfl
@[simp] theorem State.draw_otpLocks : (s.draw).otpLocks = s.otpLocks := rfl
@[simp] theorem State.draw_otpOp : (s.draw).otpOp = s.otpOp := rfl
@[simp] theorem State.draw_tap : (s.draw).tap = s.tap := rfl

/-! ### `setCh` -/

@[simp] theorem State.setCh_pending (n : Nat) (c : ChanSt) : (s.setCh n c).pending = s.pending := rfl
@[simp] theorem State.setCh_phase (n : Nat) (c : ChanSt) : (s.setCh n c).phase = s.phase := rfl
@[simp] theorem State.setCh_now (n : Nat) (c : ChanSt) : (s.setCh n c).now = s.now := rfl
@[simp] theorem State.setCh_tick (n : Nat) (c : ChanSt) : (s.setCh n c).tick = s.tick := rfl
@[simp] theorem State.setCh_ticking (n : Nat) (c : ChanSt) : (s.setCh n c).ticking = s.ticking := rfl
@[simp] theorem State.setCh_regs (n : Nat) (c : ChanSt) : (s.setCh n c).regs = s.regs := rfl
@[simp] theorem State.setCh_sram (n : Nat) (c : ChanSt) : (s.setCh n c).sram = s.sram := rfl
@[simp] theorem State.setCh_sramRaw (n : Nat) (c : ChanSt) : (s.setCh n c).sramRaw = s.sramRaw := rfl
@[simp] theorem State.setCh_writeBack (n : Nat) (c : ChanSt) : (s.setCh n c).writeBack = s.writeBack := rfl
@[simp] theorem State.setCh_free (n : Nat) (c : ChanSt) : (s.setCh n c).free = s.free := rfl
@[simp] theorem State.setCh_events (n : Nat) (c : ChanSt) : (s.setCh n c).events = s.events := rfl
@[simp] theorem State.setCh_collector (n : Nat) (c : ChanSt) : (s.setCh n c).collector = s.collector := rfl
@[simp] theorem State.setCh_seqNext (n : Nat) (c : ChanSt) : (s.setCh n c).seqNext = s.seqNext := rfl
@[simp] theorem State.setCh_recUse (n : Nat) (c : ChanSt) : (s.setCh n c).recUse = s.recUse := rfl
@[simp] theorem State.setCh_merged (n : Nat) (c : ChanSt) : (s.setCh n c).merged = s.merged := rfl
@[simp] theorem State.setCh_holds (n : Nat) (c : ChanSt) : (s.setCh n c).holds = s.holds := rfl
@[simp] theorem State.setCh_irqSeen (n : Nat) (c : ChanSt) : (s.setCh n c).irqSeen = s.irqSeen := rfl
@[simp] theorem State.setCh_waiting (n : Nat) (c : ChanSt) : (s.setCh n c).waiting = s.waiting := rfl
@[simp] theorem State.setCh_barred (n : Nat) (c : ChanSt) : (s.setCh n c).barred = s.barred := rfl
@[simp] theorem State.setCh_occupied (n : Nat) (c : ChanSt) : (s.setCh n c).occupied = s.occupied := rfl
@[simp] theorem State.setCh_holdWait (n : Nat) (c : ChanSt) : (s.setCh n c).holdWait = s.holdWait := rfl
@[simp] theorem State.setCh_flash (n : Nat) (c : ChanSt) : (s.setCh n c).flash = s.flash := rfl
@[simp] theorem State.setCh_busWord (n : Nat) (c : ChanSt) : (s.setCh n c).busWord = s.busWord := rfl
@[simp] theorem State.setCh_hdr (n : Nat) (c : ChanSt) : (s.setCh n c).hdr = s.hdr := rfl
@[simp] theorem State.setCh_sections (n : Nat) (c : ChanSt) : (s.setCh n c).sections = s.sections := rfl
@[simp] theorem State.setCh_cellMap (n : Nat) (c : ChanSt) : (s.setCh n c).cellMap = s.cellMap := rfl
@[simp] theorem State.setCh_loopMap (n : Nat) (c : ChanSt) : (s.setCh n c).loopMap = s.loopMap := rfl
@[simp] theorem State.setCh_railGraph (n : Nat) (c : ChanSt) : (s.setCh n c).railGraph = s.railGraph := rfl
@[simp] theorem State.setCh_curveFlags (n : Nat) (c : ChanSt) : (s.setCh n c).curveFlags = s.curveFlags := rfl
@[simp] theorem State.setCh_load (n : Nat) (c : ChanSt) : (s.setCh n c).load = s.load := rfl
@[simp] theorem State.setCh_due (n : Nat) (c : ChanSt) : (s.setCh n c).due = s.due := rfl
@[simp] theorem State.setCh_loop (n : Nat) (c : ChanSt) : (s.setCh n c).loop = s.loop := rfl
@[simp] theorem State.setCh_phCell (n : Nat) (c : ChanSt) : (s.setCh n c).phCell = s.phCell := rfl
@[simp] theorem State.setCh_syncIn (n : Nat) (c : ChanSt) : (s.setCh n c).syncIn = s.syncIn := rfl
@[simp] theorem State.setCh_hintPin (n : Nat) (c : ChanSt) : (s.setCh n c).hintPin = s.hintPin := rfl
@[simp] theorem State.setCh_pointCmd (n : Nat) (c : ChanSt) : (s.setCh n c).pointCmd = s.pointCmd := rfl
@[simp] theorem State.setCh_slots (n : Nat) (c : ChanSt) : (s.setCh n c).slots = s.slots := rfl
@[simp] theorem State.setCh_strikeNext (n : Nat) (c : ChanSt) : (s.setCh n c).strikeNext = s.strikeNext := rfl
@[simp] theorem State.setCh_strikeTaken (n : Nat) (c : ChanSt) : (s.setCh n c).strikeTaken = s.strikeTaken := rfl
@[simp] theorem State.setCh_quarantine (n : Nat) (c : ChanSt) : (s.setCh n c).quarantine = s.quarantine := rfl
@[simp] theorem State.setCh_cancelSent (n : Nat) (c : ChanSt) : (s.setCh n c).cancelSent = s.cancelSent := rfl
@[simp] theorem State.setCh_openIds (n : Nat) (c : ChanSt) : (s.setCh n c).openIds = s.openIds := rfl
@[simp] theorem State.setCh_errRun (n : Nat) (c : ChanSt) : (s.setCh n c).errRun = s.errRun := rfl
@[simp] theorem State.setCh_pllPhase (n : Nat) (c : ChanSt) : (s.setCh n c).pllPhase = s.pllPhase := rfl
@[simp] theorem State.setCh_stepDue (n : Nat) (c : ChanSt) : (s.setCh n c).stepDue = s.stepDue := rfl
@[simp] theorem State.setCh_beat (n : Nat) (c : ChanSt) : (s.setCh n c).beat = s.beat := rfl
@[simp] theorem State.setCh_link (n : Nat) (c : ChanSt) : (s.setCh n c).link = s.link := rfl
@[simp] theorem State.setCh_stage (n : Nat) (c : ChanSt) : (s.setCh n c).stage = s.stage := rfl
@[simp] theorem State.setCh_commit (n : Nat) (c : ChanSt) : (s.setCh n c).commit = s.commit := rfl
@[simp] theorem State.setCh_deliv (n : Nat) (c : ChanSt) : (s.setCh n c).deliv = s.deliv := rfl
@[simp] theorem State.setCh_modl (n : Nat) (c : ChanSt) : (s.setCh n c).modl = s.modl := rfl
@[simp] theorem State.setCh_meter (n : Nat) (c : ChanSt) : (s.setCh n c).meter = s.meter := rfl
@[simp] theorem State.setCh_refBad (n : Nat) (c : ChanSt) : (s.setCh n c).refBad = s.refBad := rfl
@[simp] theorem State.setCh_mon (n : Nat) (c : ChanSt) : (s.setCh n c).mon = s.mon := rfl
@[simp] theorem State.setCh_sweep (n : Nat) (c : ChanSt) : (s.setCh n c).sweep = s.sweep := rfl
@[simp] theorem State.setCh_nodeT (n : Nat) (c : ChanSt) : (s.setCh n c).nodeT = s.nodeT := rfl
@[simp] theorem State.setCh_sens (n : Nat) (c : ChanSt) : (s.setCh n c).sens = s.sens := rfl
@[simp] theorem State.setCh_sheds (n : Nat) (c : ChanSt) : (s.setCh n c).sheds = s.sheds := rfl
@[simp] theorem State.setCh_nodeKept (n : Nat) (c : ChanSt) : (s.setCh n c).nodeKept = s.nodeKept := rfl
@[simp] theorem State.setCh_thermalAt (n : Nat) (c : ChanSt) : (s.setCh n c).thermalAt = s.thermalAt := rfl
@[simp] theorem State.setCh_parOld (n : Nat) (c : ChanSt) : (s.setCh n c).parOld = s.parOld := rfl
@[simp] theorem State.setCh_rail (n : Nat) (c : ChanSt) : (s.setCh n c).rail = s.rail := rfl
@[simp] theorem State.setCh_pwren (n : Nat) (c : ChanSt) : (s.setCh n c).pwren = s.pwren := rfl
@[simp] theorem State.setCh_pwrgd (n : Nat) (c : ChanSt) : (s.setCh n c).pwrgd = s.pwrgd := rfl
@[simp] theorem State.setCh_mrg (n : Nat) (c : ChanSt) : (s.setCh n c).mrg = s.mrg := rfl
@[simp] theorem State.setCh_mirAt (n : Nat) (c : ChanSt) : (s.setCh n c).mirAt = s.mirAt := rfl
@[simp] theorem State.setCh_relay (n : Nat) (c : ChanSt) : (s.setCh n c).relay = s.relay := rfl
@[simp] theorem State.setCh_evalAt (n : Nat) (c : ChanSt) : (s.setCh n c).evalAt = s.evalAt := rfl
@[simp] theorem State.setCh_pp (n : Nat) (c : ChanSt) : (s.setCh n c).pp = s.pp := rfl
@[simp] theorem State.setCh_wakePend (n : Nat) (c : ChanSt) : (s.setCh n c).wakePend = s.wakePend := rfl
@[simp] theorem State.setCh_keep (n : Nat) (c : ChanSt) : (s.setCh n c).keep = s.keep := rfl
@[simp] theorem State.setCh_rstHold (n : Nat) (c : ChanSt) : (s.setCh n c).rstHold = s.rstHold := rfl
@[simp] theorem State.setCh_senseEnd (n : Nat) (c : ChanSt) : (s.setCh n c).senseEnd = s.senseEnd := rfl
@[simp] theorem State.setCh_rest (n : Nat) (c : ChanSt) : (s.setCh n c).rest = s.rest := rfl
@[simp] theorem State.setCh_refFallback (n : Nat) (c : ChanSt) : (s.setCh n c).refFallback = s.refFallback := rfl
@[simp] theorem State.setCh_vinFall (n : Nat) (c : ChanSt) : (s.setCh n c).vinFall = s.vinFall := rfl
@[simp] theorem State.setCh_syncBefore (n : Nat) (c : ChanSt) : (s.setCh n c).syncBefore = s.syncBefore := rfl
@[simp] theorem State.setCh_holdEnd (n : Nat) (c : ChanSt) : (s.setCh n c).holdEnd = s.holdEnd := rfl
@[simp] theorem State.setCh_hostTx (n : Nat) (c : ChanSt) : (s.setCh n c).hostTx = s.hostTx := rfl
@[simp] theorem State.setCh_hostAcks (n : Nat) (c : ChanSt) : (s.setCh n c).hostAcks = s.hostAcks := rfl
@[simp] theorem State.setCh_hostOpen (n : Nat) (c : ChanSt) : (s.setCh n c).hostOpen = s.hostOpen := rfl
@[simp] theorem State.setCh_hostBurst (n : Nat) (c : ChanSt) : (s.setCh n c).hostBurst = s.hostBurst := rfl
@[simp] theorem State.setCh_hostScl (n : Nat) (c : ChanSt) : (s.setCh n c).hostScl = s.hostScl := rfl
@[simp] theorem State.setCh_hostSda (n : Nat) (c : ChanSt) : (s.setCh n c).hostSda = s.hostSda := rfl
@[simp] theorem State.setCh_trigs (n : Nat) (c : ChanSt) : (s.setCh n c).trigs = s.trigs := rfl
@[simp] theorem State.setCh_eng (n : Nat) (c : ChanSt) : (s.setCh n c).eng = s.eng := rfl
@[simp] theorem State.setCh_pllLockAt (n : Nat) (c : ChanSt) : (s.setCh n c).pllLockAt = s.pllLockAt := rfl
@[simp] theorem State.setCh_memHit (n : Nat) (c : ChanSt) : (s.setCh n c).memHit = s.memHit := rfl
@[simp] theorem State.setCh_portLog (n : Nat) (c : ChanSt) : (s.setCh n c).portLog = s.portLog := rfl
@[simp] theorem State.setCh_scrub (n : Nat) (c : ChanSt) : (s.setCh n c).scrub = s.scrub := rfl
@[simp] theorem State.setCh_otp (n : Nat) (c : ChanSt) : (s.setCh n c).otp = s.otp := rfl
@[simp] theorem State.setCh_otpShadow (n : Nat) (c : ChanSt) : (s.setCh n c).otpShadow = s.otpShadow := rfl
@[simp] theorem State.setCh_otpLocks (n : Nat) (c : ChanSt) : (s.setCh n c).otpLocks = s.otpLocks := rfl
@[simp] theorem State.setCh_otpOp (n : Nat) (c : ChanSt) : (s.setCh n c).otpOp = s.otpOp := rfl
@[simp] theorem State.setCh_tap (n : Nat) (c : ChanSt) : (s.setCh n c).tap = s.tap := rfl

/-! ### `setLp` -/

@[simp] theorem State.setLp_pending (n : Nat) (x : LoopSt) : (s.setLp n x).pending = s.pending := rfl
@[simp] theorem State.setLp_phase (n : Nat) (x : LoopSt) : (s.setLp n x).phase = s.phase := rfl
@[simp] theorem State.setLp_now (n : Nat) (x : LoopSt) : (s.setLp n x).now = s.now := rfl
@[simp] theorem State.setLp_tick (n : Nat) (x : LoopSt) : (s.setLp n x).tick = s.tick := rfl
@[simp] theorem State.setLp_ticking (n : Nat) (x : LoopSt) : (s.setLp n x).ticking = s.ticking := rfl
@[simp] theorem State.setLp_regs (n : Nat) (x : LoopSt) : (s.setLp n x).regs = s.regs := rfl
@[simp] theorem State.setLp_sram (n : Nat) (x : LoopSt) : (s.setLp n x).sram = s.sram := rfl
@[simp] theorem State.setLp_sramRaw (n : Nat) (x : LoopSt) : (s.setLp n x).sramRaw = s.sramRaw := rfl
@[simp] theorem State.setLp_writeBack (n : Nat) (x : LoopSt) : (s.setLp n x).writeBack = s.writeBack := rfl
@[simp] theorem State.setLp_free (n : Nat) (x : LoopSt) : (s.setLp n x).free = s.free := rfl
@[simp] theorem State.setLp_events (n : Nat) (x : LoopSt) : (s.setLp n x).events = s.events := rfl
@[simp] theorem State.setLp_collector (n : Nat) (x : LoopSt) : (s.setLp n x).collector = s.collector := rfl
@[simp] theorem State.setLp_seqNext (n : Nat) (x : LoopSt) : (s.setLp n x).seqNext = s.seqNext := rfl
@[simp] theorem State.setLp_recUse (n : Nat) (x : LoopSt) : (s.setLp n x).recUse = s.recUse := rfl
@[simp] theorem State.setLp_merged (n : Nat) (x : LoopSt) : (s.setLp n x).merged = s.merged := rfl
@[simp] theorem State.setLp_holds (n : Nat) (x : LoopSt) : (s.setLp n x).holds = s.holds := rfl
@[simp] theorem State.setLp_irqSeen (n : Nat) (x : LoopSt) : (s.setLp n x).irqSeen = s.irqSeen := rfl
@[simp] theorem State.setLp_waiting (n : Nat) (x : LoopSt) : (s.setLp n x).waiting = s.waiting := rfl
@[simp] theorem State.setLp_barred (n : Nat) (x : LoopSt) : (s.setLp n x).barred = s.barred := rfl
@[simp] theorem State.setLp_occupied (n : Nat) (x : LoopSt) : (s.setLp n x).occupied = s.occupied := rfl
@[simp] theorem State.setLp_holdWait (n : Nat) (x : LoopSt) : (s.setLp n x).holdWait = s.holdWait := rfl
@[simp] theorem State.setLp_flash (n : Nat) (x : LoopSt) : (s.setLp n x).flash = s.flash := rfl
@[simp] theorem State.setLp_busWord (n : Nat) (x : LoopSt) : (s.setLp n x).busWord = s.busWord := rfl
@[simp] theorem State.setLp_hdr (n : Nat) (x : LoopSt) : (s.setLp n x).hdr = s.hdr := rfl
@[simp] theorem State.setLp_sections (n : Nat) (x : LoopSt) : (s.setLp n x).sections = s.sections := rfl
@[simp] theorem State.setLp_cellMap (n : Nat) (x : LoopSt) : (s.setLp n x).cellMap = s.cellMap := rfl
@[simp] theorem State.setLp_loopMap (n : Nat) (x : LoopSt) : (s.setLp n x).loopMap = s.loopMap := rfl
@[simp] theorem State.setLp_railGraph (n : Nat) (x : LoopSt) : (s.setLp n x).railGraph = s.railGraph := rfl
@[simp] theorem State.setLp_curveFlags (n : Nat) (x : LoopSt) : (s.setLp n x).curveFlags = s.curveFlags := rfl
@[simp] theorem State.setLp_load (n : Nat) (x : LoopSt) : (s.setLp n x).load = s.load := rfl
@[simp] theorem State.setLp_chan (n : Nat) (x : LoopSt) : (s.setLp n x).chan = s.chan := rfl
@[simp] theorem State.setLp_due (n : Nat) (x : LoopSt) : (s.setLp n x).due = s.due := rfl
@[simp] theorem State.setLp_phCell (n : Nat) (x : LoopSt) : (s.setLp n x).phCell = s.phCell := rfl
@[simp] theorem State.setLp_syncIn (n : Nat) (x : LoopSt) : (s.setLp n x).syncIn = s.syncIn := rfl
@[simp] theorem State.setLp_hintPin (n : Nat) (x : LoopSt) : (s.setLp n x).hintPin = s.hintPin := rfl
@[simp] theorem State.setLp_pointCmd (n : Nat) (x : LoopSt) : (s.setLp n x).pointCmd = s.pointCmd := rfl
@[simp] theorem State.setLp_slots (n : Nat) (x : LoopSt) : (s.setLp n x).slots = s.slots := rfl
@[simp] theorem State.setLp_strikeNext (n : Nat) (x : LoopSt) : (s.setLp n x).strikeNext = s.strikeNext := rfl
@[simp] theorem State.setLp_strikeTaken (n : Nat) (x : LoopSt) : (s.setLp n x).strikeTaken = s.strikeTaken := rfl
@[simp] theorem State.setLp_quarantine (n : Nat) (x : LoopSt) : (s.setLp n x).quarantine = s.quarantine := rfl
@[simp] theorem State.setLp_cancelSent (n : Nat) (x : LoopSt) : (s.setLp n x).cancelSent = s.cancelSent := rfl
@[simp] theorem State.setLp_openIds (n : Nat) (x : LoopSt) : (s.setLp n x).openIds = s.openIds := rfl
@[simp] theorem State.setLp_errRun (n : Nat) (x : LoopSt) : (s.setLp n x).errRun = s.errRun := rfl
@[simp] theorem State.setLp_pllPhase (n : Nat) (x : LoopSt) : (s.setLp n x).pllPhase = s.pllPhase := rfl
@[simp] theorem State.setLp_stepDue (n : Nat) (x : LoopSt) : (s.setLp n x).stepDue = s.stepDue := rfl
@[simp] theorem State.setLp_beat (n : Nat) (x : LoopSt) : (s.setLp n x).beat = s.beat := rfl
@[simp] theorem State.setLp_link (n : Nat) (x : LoopSt) : (s.setLp n x).link = s.link := rfl
@[simp] theorem State.setLp_stage (n : Nat) (x : LoopSt) : (s.setLp n x).stage = s.stage := rfl
@[simp] theorem State.setLp_commit (n : Nat) (x : LoopSt) : (s.setLp n x).commit = s.commit := rfl
@[simp] theorem State.setLp_deliv (n : Nat) (x : LoopSt) : (s.setLp n x).deliv = s.deliv := rfl
@[simp] theorem State.setLp_modl (n : Nat) (x : LoopSt) : (s.setLp n x).modl = s.modl := rfl
@[simp] theorem State.setLp_meter (n : Nat) (x : LoopSt) : (s.setLp n x).meter = s.meter := rfl
@[simp] theorem State.setLp_refBad (n : Nat) (x : LoopSt) : (s.setLp n x).refBad = s.refBad := rfl
@[simp] theorem State.setLp_mon (n : Nat) (x : LoopSt) : (s.setLp n x).mon = s.mon := rfl
@[simp] theorem State.setLp_sweep (n : Nat) (x : LoopSt) : (s.setLp n x).sweep = s.sweep := rfl
@[simp] theorem State.setLp_nodeT (n : Nat) (x : LoopSt) : (s.setLp n x).nodeT = s.nodeT := rfl
@[simp] theorem State.setLp_sens (n : Nat) (x : LoopSt) : (s.setLp n x).sens = s.sens := rfl
@[simp] theorem State.setLp_sheds (n : Nat) (x : LoopSt) : (s.setLp n x).sheds = s.sheds := rfl
@[simp] theorem State.setLp_nodeKept (n : Nat) (x : LoopSt) : (s.setLp n x).nodeKept = s.nodeKept := rfl
@[simp] theorem State.setLp_thermalAt (n : Nat) (x : LoopSt) : (s.setLp n x).thermalAt = s.thermalAt := rfl
@[simp] theorem State.setLp_parOld (n : Nat) (x : LoopSt) : (s.setLp n x).parOld = s.parOld := rfl
@[simp] theorem State.setLp_rail (n : Nat) (x : LoopSt) : (s.setLp n x).rail = s.rail := rfl
@[simp] theorem State.setLp_pwren (n : Nat) (x : LoopSt) : (s.setLp n x).pwren = s.pwren := rfl
@[simp] theorem State.setLp_pwrgd (n : Nat) (x : LoopSt) : (s.setLp n x).pwrgd = s.pwrgd := rfl
@[simp] theorem State.setLp_mrg (n : Nat) (x : LoopSt) : (s.setLp n x).mrg = s.mrg := rfl
@[simp] theorem State.setLp_mirAt (n : Nat) (x : LoopSt) : (s.setLp n x).mirAt = s.mirAt := rfl
@[simp] theorem State.setLp_relay (n : Nat) (x : LoopSt) : (s.setLp n x).relay = s.relay := rfl
@[simp] theorem State.setLp_evalAt (n : Nat) (x : LoopSt) : (s.setLp n x).evalAt = s.evalAt := rfl
@[simp] theorem State.setLp_pp (n : Nat) (x : LoopSt) : (s.setLp n x).pp = s.pp := rfl
@[simp] theorem State.setLp_wakePend (n : Nat) (x : LoopSt) : (s.setLp n x).wakePend = s.wakePend := rfl
@[simp] theorem State.setLp_keep (n : Nat) (x : LoopSt) : (s.setLp n x).keep = s.keep := rfl
@[simp] theorem State.setLp_rstHold (n : Nat) (x : LoopSt) : (s.setLp n x).rstHold = s.rstHold := rfl
@[simp] theorem State.setLp_senseEnd (n : Nat) (x : LoopSt) : (s.setLp n x).senseEnd = s.senseEnd := rfl
@[simp] theorem State.setLp_rest (n : Nat) (x : LoopSt) : (s.setLp n x).rest = s.rest := rfl
@[simp] theorem State.setLp_refFallback (n : Nat) (x : LoopSt) : (s.setLp n x).refFallback = s.refFallback := rfl
@[simp] theorem State.setLp_vinFall (n : Nat) (x : LoopSt) : (s.setLp n x).vinFall = s.vinFall := rfl
@[simp] theorem State.setLp_syncBefore (n : Nat) (x : LoopSt) : (s.setLp n x).syncBefore = s.syncBefore := rfl
@[simp] theorem State.setLp_holdEnd (n : Nat) (x : LoopSt) : (s.setLp n x).holdEnd = s.holdEnd := rfl
@[simp] theorem State.setLp_hostTx (n : Nat) (x : LoopSt) : (s.setLp n x).hostTx = s.hostTx := rfl
@[simp] theorem State.setLp_hostAcks (n : Nat) (x : LoopSt) : (s.setLp n x).hostAcks = s.hostAcks := rfl
@[simp] theorem State.setLp_hostOpen (n : Nat) (x : LoopSt) : (s.setLp n x).hostOpen = s.hostOpen := rfl
@[simp] theorem State.setLp_hostBurst (n : Nat) (x : LoopSt) : (s.setLp n x).hostBurst = s.hostBurst := rfl
@[simp] theorem State.setLp_hostScl (n : Nat) (x : LoopSt) : (s.setLp n x).hostScl = s.hostScl := rfl
@[simp] theorem State.setLp_hostSda (n : Nat) (x : LoopSt) : (s.setLp n x).hostSda = s.hostSda := rfl
@[simp] theorem State.setLp_trigs (n : Nat) (x : LoopSt) : (s.setLp n x).trigs = s.trigs := rfl
@[simp] theorem State.setLp_eng (n : Nat) (x : LoopSt) : (s.setLp n x).eng = s.eng := rfl
@[simp] theorem State.setLp_pllLockAt (n : Nat) (x : LoopSt) : (s.setLp n x).pllLockAt = s.pllLockAt := rfl
@[simp] theorem State.setLp_memHit (n : Nat) (x : LoopSt) : (s.setLp n x).memHit = s.memHit := rfl
@[simp] theorem State.setLp_portLog (n : Nat) (x : LoopSt) : (s.setLp n x).portLog = s.portLog := rfl
@[simp] theorem State.setLp_scrub (n : Nat) (x : LoopSt) : (s.setLp n x).scrub = s.scrub := rfl
@[simp] theorem State.setLp_otp (n : Nat) (x : LoopSt) : (s.setLp n x).otp = s.otp := rfl
@[simp] theorem State.setLp_otpShadow (n : Nat) (x : LoopSt) : (s.setLp n x).otpShadow = s.otpShadow := rfl
@[simp] theorem State.setLp_otpLocks (n : Nat) (x : LoopSt) : (s.setLp n x).otpLocks = s.otpLocks := rfl
@[simp] theorem State.setLp_otpOp (n : Nat) (x : LoopSt) : (s.setLp n x).otpOp = s.otpOp := rfl
@[simp] theorem State.setLp_tap (n : Nat) (x : LoopSt) : (s.setLp n x).tap = s.tap := rfl

/-! ### `setPhs` -/

@[simp] theorem State.setPhs_pending (p : Nat) (x : PhaseSt) : (s.setPhs p x).pending = s.pending := rfl
@[simp] theorem State.setPhs_phase (p : Nat) (x : PhaseSt) : (s.setPhs p x).phase = s.phase := rfl
@[simp] theorem State.setPhs_now (p : Nat) (x : PhaseSt) : (s.setPhs p x).now = s.now := rfl
@[simp] theorem State.setPhs_tick (p : Nat) (x : PhaseSt) : (s.setPhs p x).tick = s.tick := rfl
@[simp] theorem State.setPhs_ticking (p : Nat) (x : PhaseSt) : (s.setPhs p x).ticking = s.ticking := rfl
@[simp] theorem State.setPhs_regs (p : Nat) (x : PhaseSt) : (s.setPhs p x).regs = s.regs := rfl
@[simp] theorem State.setPhs_sram (p : Nat) (x : PhaseSt) : (s.setPhs p x).sram = s.sram := rfl
@[simp] theorem State.setPhs_sramRaw (p : Nat) (x : PhaseSt) : (s.setPhs p x).sramRaw = s.sramRaw := rfl
@[simp] theorem State.setPhs_writeBack (p : Nat) (x : PhaseSt) : (s.setPhs p x).writeBack = s.writeBack := rfl
@[simp] theorem State.setPhs_free (p : Nat) (x : PhaseSt) : (s.setPhs p x).free = s.free := rfl
@[simp] theorem State.setPhs_events (p : Nat) (x : PhaseSt) : (s.setPhs p x).events = s.events := rfl
@[simp] theorem State.setPhs_collector (p : Nat) (x : PhaseSt) : (s.setPhs p x).collector = s.collector := rfl
@[simp] theorem State.setPhs_seqNext (p : Nat) (x : PhaseSt) : (s.setPhs p x).seqNext = s.seqNext := rfl
@[simp] theorem State.setPhs_recUse (p : Nat) (x : PhaseSt) : (s.setPhs p x).recUse = s.recUse := rfl
@[simp] theorem State.setPhs_merged (p : Nat) (x : PhaseSt) : (s.setPhs p x).merged = s.merged := rfl
@[simp] theorem State.setPhs_holds (p : Nat) (x : PhaseSt) : (s.setPhs p x).holds = s.holds := rfl
@[simp] theorem State.setPhs_irqSeen (p : Nat) (x : PhaseSt) : (s.setPhs p x).irqSeen = s.irqSeen := rfl
@[simp] theorem State.setPhs_waiting (p : Nat) (x : PhaseSt) : (s.setPhs p x).waiting = s.waiting := rfl
@[simp] theorem State.setPhs_barred (p : Nat) (x : PhaseSt) : (s.setPhs p x).barred = s.barred := rfl
@[simp] theorem State.setPhs_occupied (p : Nat) (x : PhaseSt) : (s.setPhs p x).occupied = s.occupied := rfl
@[simp] theorem State.setPhs_holdWait (p : Nat) (x : PhaseSt) : (s.setPhs p x).holdWait = s.holdWait := rfl
@[simp] theorem State.setPhs_flash (p : Nat) (x : PhaseSt) : (s.setPhs p x).flash = s.flash := rfl
@[simp] theorem State.setPhs_busWord (p : Nat) (x : PhaseSt) : (s.setPhs p x).busWord = s.busWord := rfl
@[simp] theorem State.setPhs_hdr (p : Nat) (x : PhaseSt) : (s.setPhs p x).hdr = s.hdr := rfl
@[simp] theorem State.setPhs_sections (p : Nat) (x : PhaseSt) : (s.setPhs p x).sections = s.sections := rfl
@[simp] theorem State.setPhs_cellMap (p : Nat) (x : PhaseSt) : (s.setPhs p x).cellMap = s.cellMap := rfl
@[simp] theorem State.setPhs_loopMap (p : Nat) (x : PhaseSt) : (s.setPhs p x).loopMap = s.loopMap := rfl
@[simp] theorem State.setPhs_railGraph (p : Nat) (x : PhaseSt) : (s.setPhs p x).railGraph = s.railGraph := rfl
@[simp] theorem State.setPhs_curveFlags (p : Nat) (x : PhaseSt) : (s.setPhs p x).curveFlags = s.curveFlags := rfl
@[simp] theorem State.setPhs_load (p : Nat) (x : PhaseSt) : (s.setPhs p x).load = s.load := rfl
@[simp] theorem State.setPhs_chan (p : Nat) (x : PhaseSt) : (s.setPhs p x).chan = s.chan := rfl
@[simp] theorem State.setPhs_due (p : Nat) (x : PhaseSt) : (s.setPhs p x).due = s.due := rfl
@[simp] theorem State.setPhs_loop (p : Nat) (x : PhaseSt) : (s.setPhs p x).loop = s.loop := rfl
@[simp] theorem State.setPhs_syncIn (p : Nat) (x : PhaseSt) : (s.setPhs p x).syncIn = s.syncIn := rfl
@[simp] theorem State.setPhs_hintPin (p : Nat) (x : PhaseSt) : (s.setPhs p x).hintPin = s.hintPin := rfl
@[simp] theorem State.setPhs_pointCmd (p : Nat) (x : PhaseSt) : (s.setPhs p x).pointCmd = s.pointCmd := rfl
@[simp] theorem State.setPhs_slots (p : Nat) (x : PhaseSt) : (s.setPhs p x).slots = s.slots := rfl
@[simp] theorem State.setPhs_strikeNext (p : Nat) (x : PhaseSt) : (s.setPhs p x).strikeNext = s.strikeNext := rfl
@[simp] theorem State.setPhs_strikeTaken (p : Nat) (x : PhaseSt) : (s.setPhs p x).strikeTaken = s.strikeTaken := rfl
@[simp] theorem State.setPhs_quarantine (p : Nat) (x : PhaseSt) : (s.setPhs p x).quarantine = s.quarantine := rfl
@[simp] theorem State.setPhs_cancelSent (p : Nat) (x : PhaseSt) : (s.setPhs p x).cancelSent = s.cancelSent := rfl
@[simp] theorem State.setPhs_openIds (p : Nat) (x : PhaseSt) : (s.setPhs p x).openIds = s.openIds := rfl
@[simp] theorem State.setPhs_errRun (p : Nat) (x : PhaseSt) : (s.setPhs p x).errRun = s.errRun := rfl
@[simp] theorem State.setPhs_pllPhase (p : Nat) (x : PhaseSt) : (s.setPhs p x).pllPhase = s.pllPhase := rfl
@[simp] theorem State.setPhs_stepDue (p : Nat) (x : PhaseSt) : (s.setPhs p x).stepDue = s.stepDue := rfl
@[simp] theorem State.setPhs_beat (p : Nat) (x : PhaseSt) : (s.setPhs p x).beat = s.beat := rfl
@[simp] theorem State.setPhs_link (p : Nat) (x : PhaseSt) : (s.setPhs p x).link = s.link := rfl
@[simp] theorem State.setPhs_stage (p : Nat) (x : PhaseSt) : (s.setPhs p x).stage = s.stage := rfl
@[simp] theorem State.setPhs_commit (p : Nat) (x : PhaseSt) : (s.setPhs p x).commit = s.commit := rfl
@[simp] theorem State.setPhs_deliv (p : Nat) (x : PhaseSt) : (s.setPhs p x).deliv = s.deliv := rfl
@[simp] theorem State.setPhs_modl (p : Nat) (x : PhaseSt) : (s.setPhs p x).modl = s.modl := rfl
@[simp] theorem State.setPhs_meter (p : Nat) (x : PhaseSt) : (s.setPhs p x).meter = s.meter := rfl
@[simp] theorem State.setPhs_refBad (p : Nat) (x : PhaseSt) : (s.setPhs p x).refBad = s.refBad := rfl
@[simp] theorem State.setPhs_mon (p : Nat) (x : PhaseSt) : (s.setPhs p x).mon = s.mon := rfl
@[simp] theorem State.setPhs_sweep (p : Nat) (x : PhaseSt) : (s.setPhs p x).sweep = s.sweep := rfl
@[simp] theorem State.setPhs_nodeT (p : Nat) (x : PhaseSt) : (s.setPhs p x).nodeT = s.nodeT := rfl
@[simp] theorem State.setPhs_sens (p : Nat) (x : PhaseSt) : (s.setPhs p x).sens = s.sens := rfl
@[simp] theorem State.setPhs_sheds (p : Nat) (x : PhaseSt) : (s.setPhs p x).sheds = s.sheds := rfl
@[simp] theorem State.setPhs_nodeKept (p : Nat) (x : PhaseSt) : (s.setPhs p x).nodeKept = s.nodeKept := rfl
@[simp] theorem State.setPhs_thermalAt (p : Nat) (x : PhaseSt) : (s.setPhs p x).thermalAt = s.thermalAt := rfl
@[simp] theorem State.setPhs_parOld (p : Nat) (x : PhaseSt) : (s.setPhs p x).parOld = s.parOld := rfl
@[simp] theorem State.setPhs_rail (p : Nat) (x : PhaseSt) : (s.setPhs p x).rail = s.rail := rfl
@[simp] theorem State.setPhs_pwren (p : Nat) (x : PhaseSt) : (s.setPhs p x).pwren = s.pwren := rfl
@[simp] theorem State.setPhs_pwrgd (p : Nat) (x : PhaseSt) : (s.setPhs p x).pwrgd = s.pwrgd := rfl
@[simp] theorem State.setPhs_mrg (p : Nat) (x : PhaseSt) : (s.setPhs p x).mrg = s.mrg := rfl
@[simp] theorem State.setPhs_mirAt (p : Nat) (x : PhaseSt) : (s.setPhs p x).mirAt = s.mirAt := rfl
@[simp] theorem State.setPhs_relay (p : Nat) (x : PhaseSt) : (s.setPhs p x).relay = s.relay := rfl
@[simp] theorem State.setPhs_evalAt (p : Nat) (x : PhaseSt) : (s.setPhs p x).evalAt = s.evalAt := rfl
@[simp] theorem State.setPhs_pp (p : Nat) (x : PhaseSt) : (s.setPhs p x).pp = s.pp := rfl
@[simp] theorem State.setPhs_wakePend (p : Nat) (x : PhaseSt) : (s.setPhs p x).wakePend = s.wakePend := rfl
@[simp] theorem State.setPhs_keep (p : Nat) (x : PhaseSt) : (s.setPhs p x).keep = s.keep := rfl
@[simp] theorem State.setPhs_rstHold (p : Nat) (x : PhaseSt) : (s.setPhs p x).rstHold = s.rstHold := rfl
@[simp] theorem State.setPhs_senseEnd (p : Nat) (x : PhaseSt) : (s.setPhs p x).senseEnd = s.senseEnd := rfl
@[simp] theorem State.setPhs_rest (p : Nat) (x : PhaseSt) : (s.setPhs p x).rest = s.rest := rfl
@[simp] theorem State.setPhs_refFallback (p : Nat) (x : PhaseSt) : (s.setPhs p x).refFallback = s.refFallback := rfl
@[simp] theorem State.setPhs_vinFall (p : Nat) (x : PhaseSt) : (s.setPhs p x).vinFall = s.vinFall := rfl
@[simp] theorem State.setPhs_syncBefore (p : Nat) (x : PhaseSt) : (s.setPhs p x).syncBefore = s.syncBefore := rfl
@[simp] theorem State.setPhs_holdEnd (p : Nat) (x : PhaseSt) : (s.setPhs p x).holdEnd = s.holdEnd := rfl
@[simp] theorem State.setPhs_hostTx (p : Nat) (x : PhaseSt) : (s.setPhs p x).hostTx = s.hostTx := rfl
@[simp] theorem State.setPhs_hostAcks (p : Nat) (x : PhaseSt) : (s.setPhs p x).hostAcks = s.hostAcks := rfl
@[simp] theorem State.setPhs_hostOpen (p : Nat) (x : PhaseSt) : (s.setPhs p x).hostOpen = s.hostOpen := rfl
@[simp] theorem State.setPhs_hostBurst (p : Nat) (x : PhaseSt) : (s.setPhs p x).hostBurst = s.hostBurst := rfl
@[simp] theorem State.setPhs_hostScl (p : Nat) (x : PhaseSt) : (s.setPhs p x).hostScl = s.hostScl := rfl
@[simp] theorem State.setPhs_hostSda (p : Nat) (x : PhaseSt) : (s.setPhs p x).hostSda = s.hostSda := rfl
@[simp] theorem State.setPhs_trigs (p : Nat) (x : PhaseSt) : (s.setPhs p x).trigs = s.trigs := rfl
@[simp] theorem State.setPhs_eng (p : Nat) (x : PhaseSt) : (s.setPhs p x).eng = s.eng := rfl
@[simp] theorem State.setPhs_pllLockAt (p : Nat) (x : PhaseSt) : (s.setPhs p x).pllLockAt = s.pllLockAt := rfl
@[simp] theorem State.setPhs_memHit (p : Nat) (x : PhaseSt) : (s.setPhs p x).memHit = s.memHit := rfl
@[simp] theorem State.setPhs_portLog (p : Nat) (x : PhaseSt) : (s.setPhs p x).portLog = s.portLog := rfl
@[simp] theorem State.setPhs_scrub (p : Nat) (x : PhaseSt) : (s.setPhs p x).scrub = s.scrub := rfl
@[simp] theorem State.setPhs_otp (p : Nat) (x : PhaseSt) : (s.setPhs p x).otp = s.otp := rfl
@[simp] theorem State.setPhs_otpShadow (p : Nat) (x : PhaseSt) : (s.setPhs p x).otpShadow = s.otpShadow := rfl
@[simp] theorem State.setPhs_otpLocks (p : Nat) (x : PhaseSt) : (s.setPhs p x).otpLocks = s.otpLocks := rfl
@[simp] theorem State.setPhs_otpOp (p : Nat) (x : PhaseSt) : (s.setPhs p x).otpOp = s.otpOp := rfl
@[simp] theorem State.setPhs_tap (p : Nat) (x : PhaseSt) : (s.setPhs p x).tap = s.tap := rfl

/-! ### `setRl` -/

@[simp] theorem State.setRl_pending (n : Nat) (x : RailSt) : (s.setRl n x).pending = s.pending := rfl
@[simp] theorem State.setRl_phase (n : Nat) (x : RailSt) : (s.setRl n x).phase = s.phase := rfl
@[simp] theorem State.setRl_now (n : Nat) (x : RailSt) : (s.setRl n x).now = s.now := rfl
@[simp] theorem State.setRl_tick (n : Nat) (x : RailSt) : (s.setRl n x).tick = s.tick := rfl
@[simp] theorem State.setRl_ticking (n : Nat) (x : RailSt) : (s.setRl n x).ticking = s.ticking := rfl
@[simp] theorem State.setRl_regs (n : Nat) (x : RailSt) : (s.setRl n x).regs = s.regs := rfl
@[simp] theorem State.setRl_sram (n : Nat) (x : RailSt) : (s.setRl n x).sram = s.sram := rfl
@[simp] theorem State.setRl_sramRaw (n : Nat) (x : RailSt) : (s.setRl n x).sramRaw = s.sramRaw := rfl
@[simp] theorem State.setRl_writeBack (n : Nat) (x : RailSt) : (s.setRl n x).writeBack = s.writeBack := rfl
@[simp] theorem State.setRl_free (n : Nat) (x : RailSt) : (s.setRl n x).free = s.free := rfl
@[simp] theorem State.setRl_events (n : Nat) (x : RailSt) : (s.setRl n x).events = s.events := rfl
@[simp] theorem State.setRl_collector (n : Nat) (x : RailSt) : (s.setRl n x).collector = s.collector := rfl
@[simp] theorem State.setRl_seqNext (n : Nat) (x : RailSt) : (s.setRl n x).seqNext = s.seqNext := rfl
@[simp] theorem State.setRl_recUse (n : Nat) (x : RailSt) : (s.setRl n x).recUse = s.recUse := rfl
@[simp] theorem State.setRl_merged (n : Nat) (x : RailSt) : (s.setRl n x).merged = s.merged := rfl
@[simp] theorem State.setRl_holds (n : Nat) (x : RailSt) : (s.setRl n x).holds = s.holds := rfl
@[simp] theorem State.setRl_irqSeen (n : Nat) (x : RailSt) : (s.setRl n x).irqSeen = s.irqSeen := rfl
@[simp] theorem State.setRl_waiting (n : Nat) (x : RailSt) : (s.setRl n x).waiting = s.waiting := rfl
@[simp] theorem State.setRl_barred (n : Nat) (x : RailSt) : (s.setRl n x).barred = s.barred := rfl
@[simp] theorem State.setRl_occupied (n : Nat) (x : RailSt) : (s.setRl n x).occupied = s.occupied := rfl
@[simp] theorem State.setRl_holdWait (n : Nat) (x : RailSt) : (s.setRl n x).holdWait = s.holdWait := rfl
@[simp] theorem State.setRl_flash (n : Nat) (x : RailSt) : (s.setRl n x).flash = s.flash := rfl
@[simp] theorem State.setRl_busWord (n : Nat) (x : RailSt) : (s.setRl n x).busWord = s.busWord := rfl
@[simp] theorem State.setRl_hdr (n : Nat) (x : RailSt) : (s.setRl n x).hdr = s.hdr := rfl
@[simp] theorem State.setRl_sections (n : Nat) (x : RailSt) : (s.setRl n x).sections = s.sections := rfl
@[simp] theorem State.setRl_cellMap (n : Nat) (x : RailSt) : (s.setRl n x).cellMap = s.cellMap := rfl
@[simp] theorem State.setRl_loopMap (n : Nat) (x : RailSt) : (s.setRl n x).loopMap = s.loopMap := rfl
@[simp] theorem State.setRl_railGraph (n : Nat) (x : RailSt) : (s.setRl n x).railGraph = s.railGraph := rfl
@[simp] theorem State.setRl_curveFlags (n : Nat) (x : RailSt) : (s.setRl n x).curveFlags = s.curveFlags := rfl
@[simp] theorem State.setRl_load (n : Nat) (x : RailSt) : (s.setRl n x).load = s.load := rfl
@[simp] theorem State.setRl_chan (n : Nat) (x : RailSt) : (s.setRl n x).chan = s.chan := rfl
@[simp] theorem State.setRl_due (n : Nat) (x : RailSt) : (s.setRl n x).due = s.due := rfl
@[simp] theorem State.setRl_loop (n : Nat) (x : RailSt) : (s.setRl n x).loop = s.loop := rfl
@[simp] theorem State.setRl_phCell (n : Nat) (x : RailSt) : (s.setRl n x).phCell = s.phCell := rfl
@[simp] theorem State.setRl_syncIn (n : Nat) (x : RailSt) : (s.setRl n x).syncIn = s.syncIn := rfl
@[simp] theorem State.setRl_hintPin (n : Nat) (x : RailSt) : (s.setRl n x).hintPin = s.hintPin := rfl
@[simp] theorem State.setRl_pointCmd (n : Nat) (x : RailSt) : (s.setRl n x).pointCmd = s.pointCmd := rfl
@[simp] theorem State.setRl_slots (n : Nat) (x : RailSt) : (s.setRl n x).slots = s.slots := rfl
@[simp] theorem State.setRl_strikeNext (n : Nat) (x : RailSt) : (s.setRl n x).strikeNext = s.strikeNext := rfl
@[simp] theorem State.setRl_strikeTaken (n : Nat) (x : RailSt) : (s.setRl n x).strikeTaken = s.strikeTaken := rfl
@[simp] theorem State.setRl_quarantine (n : Nat) (x : RailSt) : (s.setRl n x).quarantine = s.quarantine := rfl
@[simp] theorem State.setRl_cancelSent (n : Nat) (x : RailSt) : (s.setRl n x).cancelSent = s.cancelSent := rfl
@[simp] theorem State.setRl_openIds (n : Nat) (x : RailSt) : (s.setRl n x).openIds = s.openIds := rfl
@[simp] theorem State.setRl_errRun (n : Nat) (x : RailSt) : (s.setRl n x).errRun = s.errRun := rfl
@[simp] theorem State.setRl_pllPhase (n : Nat) (x : RailSt) : (s.setRl n x).pllPhase = s.pllPhase := rfl
@[simp] theorem State.setRl_stepDue (n : Nat) (x : RailSt) : (s.setRl n x).stepDue = s.stepDue := rfl
@[simp] theorem State.setRl_beat (n : Nat) (x : RailSt) : (s.setRl n x).beat = s.beat := rfl
@[simp] theorem State.setRl_link (n : Nat) (x : RailSt) : (s.setRl n x).link = s.link := rfl
@[simp] theorem State.setRl_stage (n : Nat) (x : RailSt) : (s.setRl n x).stage = s.stage := rfl
@[simp] theorem State.setRl_commit (n : Nat) (x : RailSt) : (s.setRl n x).commit = s.commit := rfl
@[simp] theorem State.setRl_deliv (n : Nat) (x : RailSt) : (s.setRl n x).deliv = s.deliv := rfl
@[simp] theorem State.setRl_modl (n : Nat) (x : RailSt) : (s.setRl n x).modl = s.modl := rfl
@[simp] theorem State.setRl_meter (n : Nat) (x : RailSt) : (s.setRl n x).meter = s.meter := rfl
@[simp] theorem State.setRl_refBad (n : Nat) (x : RailSt) : (s.setRl n x).refBad = s.refBad := rfl
@[simp] theorem State.setRl_mon (n : Nat) (x : RailSt) : (s.setRl n x).mon = s.mon := rfl
@[simp] theorem State.setRl_sweep (n : Nat) (x : RailSt) : (s.setRl n x).sweep = s.sweep := rfl
@[simp] theorem State.setRl_nodeT (n : Nat) (x : RailSt) : (s.setRl n x).nodeT = s.nodeT := rfl
@[simp] theorem State.setRl_sens (n : Nat) (x : RailSt) : (s.setRl n x).sens = s.sens := rfl
@[simp] theorem State.setRl_sheds (n : Nat) (x : RailSt) : (s.setRl n x).sheds = s.sheds := rfl
@[simp] theorem State.setRl_nodeKept (n : Nat) (x : RailSt) : (s.setRl n x).nodeKept = s.nodeKept := rfl
@[simp] theorem State.setRl_thermalAt (n : Nat) (x : RailSt) : (s.setRl n x).thermalAt = s.thermalAt := rfl
@[simp] theorem State.setRl_parOld (n : Nat) (x : RailSt) : (s.setRl n x).parOld = s.parOld := rfl
@[simp] theorem State.setRl_pwren (n : Nat) (x : RailSt) : (s.setRl n x).pwren = s.pwren := rfl
@[simp] theorem State.setRl_pwrgd (n : Nat) (x : RailSt) : (s.setRl n x).pwrgd = s.pwrgd := rfl
@[simp] theorem State.setRl_mrg (n : Nat) (x : RailSt) : (s.setRl n x).mrg = s.mrg := rfl
@[simp] theorem State.setRl_mirAt (n : Nat) (x : RailSt) : (s.setRl n x).mirAt = s.mirAt := rfl
@[simp] theorem State.setRl_relay (n : Nat) (x : RailSt) : (s.setRl n x).relay = s.relay := rfl
@[simp] theorem State.setRl_evalAt (n : Nat) (x : RailSt) : (s.setRl n x).evalAt = s.evalAt := rfl
@[simp] theorem State.setRl_pp (n : Nat) (x : RailSt) : (s.setRl n x).pp = s.pp := rfl
@[simp] theorem State.setRl_wakePend (n : Nat) (x : RailSt) : (s.setRl n x).wakePend = s.wakePend := rfl
@[simp] theorem State.setRl_keep (n : Nat) (x : RailSt) : (s.setRl n x).keep = s.keep := rfl
@[simp] theorem State.setRl_rstHold (n : Nat) (x : RailSt) : (s.setRl n x).rstHold = s.rstHold := rfl
@[simp] theorem State.setRl_senseEnd (n : Nat) (x : RailSt) : (s.setRl n x).senseEnd = s.senseEnd := rfl
@[simp] theorem State.setRl_rest (n : Nat) (x : RailSt) : (s.setRl n x).rest = s.rest := rfl
@[simp] theorem State.setRl_refFallback (n : Nat) (x : RailSt) : (s.setRl n x).refFallback = s.refFallback := rfl
@[simp] theorem State.setRl_vinFall (n : Nat) (x : RailSt) : (s.setRl n x).vinFall = s.vinFall := rfl
@[simp] theorem State.setRl_syncBefore (n : Nat) (x : RailSt) : (s.setRl n x).syncBefore = s.syncBefore := rfl
@[simp] theorem State.setRl_holdEnd (n : Nat) (x : RailSt) : (s.setRl n x).holdEnd = s.holdEnd := rfl
@[simp] theorem State.setRl_hostTx (n : Nat) (x : RailSt) : (s.setRl n x).hostTx = s.hostTx := rfl
@[simp] theorem State.setRl_hostAcks (n : Nat) (x : RailSt) : (s.setRl n x).hostAcks = s.hostAcks := rfl
@[simp] theorem State.setRl_hostOpen (n : Nat) (x : RailSt) : (s.setRl n x).hostOpen = s.hostOpen := rfl
@[simp] theorem State.setRl_hostBurst (n : Nat) (x : RailSt) : (s.setRl n x).hostBurst = s.hostBurst := rfl
@[simp] theorem State.setRl_hostScl (n : Nat) (x : RailSt) : (s.setRl n x).hostScl = s.hostScl := rfl
@[simp] theorem State.setRl_hostSda (n : Nat) (x : RailSt) : (s.setRl n x).hostSda = s.hostSda := rfl
@[simp] theorem State.setRl_trigs (n : Nat) (x : RailSt) : (s.setRl n x).trigs = s.trigs := rfl
@[simp] theorem State.setRl_eng (n : Nat) (x : RailSt) : (s.setRl n x).eng = s.eng := rfl
@[simp] theorem State.setRl_pllLockAt (n : Nat) (x : RailSt) : (s.setRl n x).pllLockAt = s.pllLockAt := rfl
@[simp] theorem State.setRl_memHit (n : Nat) (x : RailSt) : (s.setRl n x).memHit = s.memHit := rfl
@[simp] theorem State.setRl_portLog (n : Nat) (x : RailSt) : (s.setRl n x).portLog = s.portLog := rfl
@[simp] theorem State.setRl_scrub (n : Nat) (x : RailSt) : (s.setRl n x).scrub = s.scrub := rfl
@[simp] theorem State.setRl_otp (n : Nat) (x : RailSt) : (s.setRl n x).otp = s.otp := rfl
@[simp] theorem State.setRl_otpShadow (n : Nat) (x : RailSt) : (s.setRl n x).otpShadow = s.otpShadow := rfl
@[simp] theorem State.setRl_otpLocks (n : Nat) (x : RailSt) : (s.setRl n x).otpLocks = s.otpLocks := rfl
@[simp] theorem State.setRl_otpOp (n : Nat) (x : RailSt) : (s.setRl n x).otpOp = s.otpOp := rfl
@[simp] theorem State.setRl_tap (n : Nat) (x : RailSt) : (s.setRl n x).tap = s.tap := rfl

/-! ### `setPe` -/

@[simp] theorem State.setPe_pending (n : Nat) (e : EngSt) : (s.setPe n e).pending = s.pending := rfl
@[simp] theorem State.setPe_phase (n : Nat) (e : EngSt) : (s.setPe n e).phase = s.phase := rfl
@[simp] theorem State.setPe_now (n : Nat) (e : EngSt) : (s.setPe n e).now = s.now := rfl
@[simp] theorem State.setPe_tick (n : Nat) (e : EngSt) : (s.setPe n e).tick = s.tick := rfl
@[simp] theorem State.setPe_ticking (n : Nat) (e : EngSt) : (s.setPe n e).ticking = s.ticking := rfl
@[simp] theorem State.setPe_regs (n : Nat) (e : EngSt) : (s.setPe n e).regs = s.regs := rfl
@[simp] theorem State.setPe_sram (n : Nat) (e : EngSt) : (s.setPe n e).sram = s.sram := rfl
@[simp] theorem State.setPe_sramRaw (n : Nat) (e : EngSt) : (s.setPe n e).sramRaw = s.sramRaw := rfl
@[simp] theorem State.setPe_writeBack (n : Nat) (e : EngSt) : (s.setPe n e).writeBack = s.writeBack := rfl
@[simp] theorem State.setPe_free (n : Nat) (e : EngSt) : (s.setPe n e).free = s.free := rfl
@[simp] theorem State.setPe_events (n : Nat) (e : EngSt) : (s.setPe n e).events = s.events := rfl
@[simp] theorem State.setPe_collector (n : Nat) (e : EngSt) : (s.setPe n e).collector = s.collector := rfl
@[simp] theorem State.setPe_seqNext (n : Nat) (e : EngSt) : (s.setPe n e).seqNext = s.seqNext := rfl
@[simp] theorem State.setPe_recUse (n : Nat) (e : EngSt) : (s.setPe n e).recUse = s.recUse := rfl
@[simp] theorem State.setPe_merged (n : Nat) (e : EngSt) : (s.setPe n e).merged = s.merged := rfl
@[simp] theorem State.setPe_holds (n : Nat) (e : EngSt) : (s.setPe n e).holds = s.holds := rfl
@[simp] theorem State.setPe_irqSeen (n : Nat) (e : EngSt) : (s.setPe n e).irqSeen = s.irqSeen := rfl
@[simp] theorem State.setPe_waiting (n : Nat) (e : EngSt) : (s.setPe n e).waiting = s.waiting := rfl
@[simp] theorem State.setPe_barred (n : Nat) (e : EngSt) : (s.setPe n e).barred = s.barred := rfl
@[simp] theorem State.setPe_occupied (n : Nat) (e : EngSt) : (s.setPe n e).occupied = s.occupied := rfl
@[simp] theorem State.setPe_holdWait (n : Nat) (e : EngSt) : (s.setPe n e).holdWait = s.holdWait := rfl
@[simp] theorem State.setPe_flash (n : Nat) (e : EngSt) : (s.setPe n e).flash = s.flash := rfl
@[simp] theorem State.setPe_busWord (n : Nat) (e : EngSt) : (s.setPe n e).busWord = s.busWord := rfl
@[simp] theorem State.setPe_hdr (n : Nat) (e : EngSt) : (s.setPe n e).hdr = s.hdr := rfl
@[simp] theorem State.setPe_sections (n : Nat) (e : EngSt) : (s.setPe n e).sections = s.sections := rfl
@[simp] theorem State.setPe_cellMap (n : Nat) (e : EngSt) : (s.setPe n e).cellMap = s.cellMap := rfl
@[simp] theorem State.setPe_loopMap (n : Nat) (e : EngSt) : (s.setPe n e).loopMap = s.loopMap := rfl
@[simp] theorem State.setPe_railGraph (n : Nat) (e : EngSt) : (s.setPe n e).railGraph = s.railGraph := rfl
@[simp] theorem State.setPe_curveFlags (n : Nat) (e : EngSt) : (s.setPe n e).curveFlags = s.curveFlags := rfl
@[simp] theorem State.setPe_load (n : Nat) (e : EngSt) : (s.setPe n e).load = s.load := rfl
@[simp] theorem State.setPe_chan (n : Nat) (e : EngSt) : (s.setPe n e).chan = s.chan := rfl
@[simp] theorem State.setPe_due (n : Nat) (e : EngSt) : (s.setPe n e).due = s.due := rfl
@[simp] theorem State.setPe_loop (n : Nat) (e : EngSt) : (s.setPe n e).loop = s.loop := rfl
@[simp] theorem State.setPe_phCell (n : Nat) (e : EngSt) : (s.setPe n e).phCell = s.phCell := rfl
@[simp] theorem State.setPe_syncIn (n : Nat) (e : EngSt) : (s.setPe n e).syncIn = s.syncIn := rfl
@[simp] theorem State.setPe_hintPin (n : Nat) (e : EngSt) : (s.setPe n e).hintPin = s.hintPin := rfl
@[simp] theorem State.setPe_pointCmd (n : Nat) (e : EngSt) : (s.setPe n e).pointCmd = s.pointCmd := rfl
@[simp] theorem State.setPe_slots (n : Nat) (e : EngSt) : (s.setPe n e).slots = s.slots := rfl
@[simp] theorem State.setPe_strikeNext (n : Nat) (e : EngSt) : (s.setPe n e).strikeNext = s.strikeNext := rfl
@[simp] theorem State.setPe_strikeTaken (n : Nat) (e : EngSt) : (s.setPe n e).strikeTaken = s.strikeTaken := rfl
@[simp] theorem State.setPe_quarantine (n : Nat) (e : EngSt) : (s.setPe n e).quarantine = s.quarantine := rfl
@[simp] theorem State.setPe_cancelSent (n : Nat) (e : EngSt) : (s.setPe n e).cancelSent = s.cancelSent := rfl
@[simp] theorem State.setPe_openIds (n : Nat) (e : EngSt) : (s.setPe n e).openIds = s.openIds := rfl
@[simp] theorem State.setPe_errRun (n : Nat) (e : EngSt) : (s.setPe n e).errRun = s.errRun := rfl
@[simp] theorem State.setPe_pllPhase (n : Nat) (e : EngSt) : (s.setPe n e).pllPhase = s.pllPhase := rfl
@[simp] theorem State.setPe_stepDue (n : Nat) (e : EngSt) : (s.setPe n e).stepDue = s.stepDue := rfl
@[simp] theorem State.setPe_beat (n : Nat) (e : EngSt) : (s.setPe n e).beat = s.beat := rfl
@[simp] theorem State.setPe_link (n : Nat) (e : EngSt) : (s.setPe n e).link = s.link := rfl
@[simp] theorem State.setPe_stage (n : Nat) (e : EngSt) : (s.setPe n e).stage = s.stage := rfl
@[simp] theorem State.setPe_commit (n : Nat) (e : EngSt) : (s.setPe n e).commit = s.commit := rfl
@[simp] theorem State.setPe_deliv (n : Nat) (e : EngSt) : (s.setPe n e).deliv = s.deliv := rfl
@[simp] theorem State.setPe_modl (n : Nat) (e : EngSt) : (s.setPe n e).modl = s.modl := rfl
@[simp] theorem State.setPe_meter (n : Nat) (e : EngSt) : (s.setPe n e).meter = s.meter := rfl
@[simp] theorem State.setPe_refBad (n : Nat) (e : EngSt) : (s.setPe n e).refBad = s.refBad := rfl
@[simp] theorem State.setPe_mon (n : Nat) (e : EngSt) : (s.setPe n e).mon = s.mon := rfl
@[simp] theorem State.setPe_sweep (n : Nat) (e : EngSt) : (s.setPe n e).sweep = s.sweep := rfl
@[simp] theorem State.setPe_nodeT (n : Nat) (e : EngSt) : (s.setPe n e).nodeT = s.nodeT := rfl
@[simp] theorem State.setPe_sens (n : Nat) (e : EngSt) : (s.setPe n e).sens = s.sens := rfl
@[simp] theorem State.setPe_sheds (n : Nat) (e : EngSt) : (s.setPe n e).sheds = s.sheds := rfl
@[simp] theorem State.setPe_nodeKept (n : Nat) (e : EngSt) : (s.setPe n e).nodeKept = s.nodeKept := rfl
@[simp] theorem State.setPe_thermalAt (n : Nat) (e : EngSt) : (s.setPe n e).thermalAt = s.thermalAt := rfl
@[simp] theorem State.setPe_parOld (n : Nat) (e : EngSt) : (s.setPe n e).parOld = s.parOld := rfl
@[simp] theorem State.setPe_rail (n : Nat) (e : EngSt) : (s.setPe n e).rail = s.rail := rfl
@[simp] theorem State.setPe_pwren (n : Nat) (e : EngSt) : (s.setPe n e).pwren = s.pwren := rfl
@[simp] theorem State.setPe_pwrgd (n : Nat) (e : EngSt) : (s.setPe n e).pwrgd = s.pwrgd := rfl
@[simp] theorem State.setPe_mrg (n : Nat) (e : EngSt) : (s.setPe n e).mrg = s.mrg := rfl
@[simp] theorem State.setPe_mirAt (n : Nat) (e : EngSt) : (s.setPe n e).mirAt = s.mirAt := rfl
@[simp] theorem State.setPe_relay (n : Nat) (e : EngSt) : (s.setPe n e).relay = s.relay := rfl
@[simp] theorem State.setPe_evalAt (n : Nat) (e : EngSt) : (s.setPe n e).evalAt = s.evalAt := rfl
@[simp] theorem State.setPe_pp (n : Nat) (e : EngSt) : (s.setPe n e).pp = s.pp := rfl
@[simp] theorem State.setPe_wakePend (n : Nat) (e : EngSt) : (s.setPe n e).wakePend = s.wakePend := rfl
@[simp] theorem State.setPe_keep (n : Nat) (e : EngSt) : (s.setPe n e).keep = s.keep := rfl
@[simp] theorem State.setPe_rstHold (n : Nat) (e : EngSt) : (s.setPe n e).rstHold = s.rstHold := rfl
@[simp] theorem State.setPe_senseEnd (n : Nat) (e : EngSt) : (s.setPe n e).senseEnd = s.senseEnd := rfl
@[simp] theorem State.setPe_rest (n : Nat) (e : EngSt) : (s.setPe n e).rest = s.rest := rfl
@[simp] theorem State.setPe_refFallback (n : Nat) (e : EngSt) : (s.setPe n e).refFallback = s.refFallback := rfl
@[simp] theorem State.setPe_vinFall (n : Nat) (e : EngSt) : (s.setPe n e).vinFall = s.vinFall := rfl
@[simp] theorem State.setPe_syncBefore (n : Nat) (e : EngSt) : (s.setPe n e).syncBefore = s.syncBefore := rfl
@[simp] theorem State.setPe_holdEnd (n : Nat) (e : EngSt) : (s.setPe n e).holdEnd = s.holdEnd := rfl
@[simp] theorem State.setPe_hostTx (n : Nat) (e : EngSt) : (s.setPe n e).hostTx = s.hostTx := rfl
@[simp] theorem State.setPe_hostAcks (n : Nat) (e : EngSt) : (s.setPe n e).hostAcks = s.hostAcks := rfl
@[simp] theorem State.setPe_hostOpen (n : Nat) (e : EngSt) : (s.setPe n e).hostOpen = s.hostOpen := rfl
@[simp] theorem State.setPe_hostBurst (n : Nat) (e : EngSt) : (s.setPe n e).hostBurst = s.hostBurst := rfl
@[simp] theorem State.setPe_hostScl (n : Nat) (e : EngSt) : (s.setPe n e).hostScl = s.hostScl := rfl
@[simp] theorem State.setPe_hostSda (n : Nat) (e : EngSt) : (s.setPe n e).hostSda = s.hostSda := rfl
@[simp] theorem State.setPe_trigs (n : Nat) (e : EngSt) : (s.setPe n e).trigs = s.trigs := rfl
@[simp] theorem State.setPe_pllLockAt (n : Nat) (e : EngSt) : (s.setPe n e).pllLockAt = s.pllLockAt := rfl
@[simp] theorem State.setPe_memHit (n : Nat) (e : EngSt) : (s.setPe n e).memHit = s.memHit := rfl
@[simp] theorem State.setPe_portLog (n : Nat) (e : EngSt) : (s.setPe n e).portLog = s.portLog := rfl
@[simp] theorem State.setPe_scrub (n : Nat) (e : EngSt) : (s.setPe n e).scrub = s.scrub := rfl
@[simp] theorem State.setPe_otp (n : Nat) (e : EngSt) : (s.setPe n e).otp = s.otp := rfl
@[simp] theorem State.setPe_otpShadow (n : Nat) (e : EngSt) : (s.setPe n e).otpShadow = s.otpShadow := rfl
@[simp] theorem State.setPe_otpLocks (n : Nat) (e : EngSt) : (s.setPe n e).otpLocks = s.otpLocks := rfl
@[simp] theorem State.setPe_otpOp (n : Nat) (e : EngSt) : (s.setPe n e).otpOp = s.otpOp := rfl
@[simp] theorem State.setPe_tap (n : Nat) (e : EngSt) : (s.setPe n e).tap = s.tap := rfl

/-! ### `setSlot` -/

@[simp] theorem State.setSlot_pending (n : Nat) (k : StrikeSlot) : (s.setSlot n k).pending = s.pending := rfl
@[simp] theorem State.setSlot_phase (n : Nat) (k : StrikeSlot) : (s.setSlot n k).phase = s.phase := rfl
@[simp] theorem State.setSlot_now (n : Nat) (k : StrikeSlot) : (s.setSlot n k).now = s.now := rfl
@[simp] theorem State.setSlot_tick (n : Nat) (k : StrikeSlot) : (s.setSlot n k).tick = s.tick := rfl
@[simp] theorem State.setSlot_ticking (n : Nat) (k : StrikeSlot) : (s.setSlot n k).ticking = s.ticking := rfl
@[simp] theorem State.setSlot_regs (n : Nat) (k : StrikeSlot) : (s.setSlot n k).regs = s.regs := rfl
@[simp] theorem State.setSlot_sram (n : Nat) (k : StrikeSlot) : (s.setSlot n k).sram = s.sram := rfl
@[simp] theorem State.setSlot_sramRaw (n : Nat) (k : StrikeSlot) : (s.setSlot n k).sramRaw = s.sramRaw := rfl
@[simp] theorem State.setSlot_writeBack (n : Nat) (k : StrikeSlot) : (s.setSlot n k).writeBack = s.writeBack := rfl
@[simp] theorem State.setSlot_free (n : Nat) (k : StrikeSlot) : (s.setSlot n k).free = s.free := rfl
@[simp] theorem State.setSlot_events (n : Nat) (k : StrikeSlot) : (s.setSlot n k).events = s.events := rfl
@[simp] theorem State.setSlot_collector (n : Nat) (k : StrikeSlot) : (s.setSlot n k).collector = s.collector := rfl
@[simp] theorem State.setSlot_seqNext (n : Nat) (k : StrikeSlot) : (s.setSlot n k).seqNext = s.seqNext := rfl
@[simp] theorem State.setSlot_recUse (n : Nat) (k : StrikeSlot) : (s.setSlot n k).recUse = s.recUse := rfl
@[simp] theorem State.setSlot_merged (n : Nat) (k : StrikeSlot) : (s.setSlot n k).merged = s.merged := rfl
@[simp] theorem State.setSlot_holds (n : Nat) (k : StrikeSlot) : (s.setSlot n k).holds = s.holds := rfl
@[simp] theorem State.setSlot_irqSeen (n : Nat) (k : StrikeSlot) : (s.setSlot n k).irqSeen = s.irqSeen := rfl
@[simp] theorem State.setSlot_waiting (n : Nat) (k : StrikeSlot) : (s.setSlot n k).waiting = s.waiting := rfl
@[simp] theorem State.setSlot_barred (n : Nat) (k : StrikeSlot) : (s.setSlot n k).barred = s.barred := rfl
@[simp] theorem State.setSlot_occupied (n : Nat) (k : StrikeSlot) : (s.setSlot n k).occupied = s.occupied := rfl
@[simp] theorem State.setSlot_holdWait (n : Nat) (k : StrikeSlot) : (s.setSlot n k).holdWait = s.holdWait := rfl
@[simp] theorem State.setSlot_flash (n : Nat) (k : StrikeSlot) : (s.setSlot n k).flash = s.flash := rfl
@[simp] theorem State.setSlot_busWord (n : Nat) (k : StrikeSlot) : (s.setSlot n k).busWord = s.busWord := rfl
@[simp] theorem State.setSlot_hdr (n : Nat) (k : StrikeSlot) : (s.setSlot n k).hdr = s.hdr := rfl
@[simp] theorem State.setSlot_sections (n : Nat) (k : StrikeSlot) : (s.setSlot n k).sections = s.sections := rfl
@[simp] theorem State.setSlot_cellMap (n : Nat) (k : StrikeSlot) : (s.setSlot n k).cellMap = s.cellMap := rfl
@[simp] theorem State.setSlot_loopMap (n : Nat) (k : StrikeSlot) : (s.setSlot n k).loopMap = s.loopMap := rfl
@[simp] theorem State.setSlot_railGraph (n : Nat) (k : StrikeSlot) : (s.setSlot n k).railGraph = s.railGraph := rfl
@[simp] theorem State.setSlot_curveFlags (n : Nat) (k : StrikeSlot) : (s.setSlot n k).curveFlags = s.curveFlags := rfl
@[simp] theorem State.setSlot_load (n : Nat) (k : StrikeSlot) : (s.setSlot n k).load = s.load := rfl
@[simp] theorem State.setSlot_chan (n : Nat) (k : StrikeSlot) : (s.setSlot n k).chan = s.chan := rfl
@[simp] theorem State.setSlot_due (n : Nat) (k : StrikeSlot) : (s.setSlot n k).due = s.due := rfl
@[simp] theorem State.setSlot_loop (n : Nat) (k : StrikeSlot) : (s.setSlot n k).loop = s.loop := rfl
@[simp] theorem State.setSlot_phCell (n : Nat) (k : StrikeSlot) : (s.setSlot n k).phCell = s.phCell := rfl
@[simp] theorem State.setSlot_syncIn (n : Nat) (k : StrikeSlot) : (s.setSlot n k).syncIn = s.syncIn := rfl
@[simp] theorem State.setSlot_hintPin (n : Nat) (k : StrikeSlot) : (s.setSlot n k).hintPin = s.hintPin := rfl
@[simp] theorem State.setSlot_pointCmd (n : Nat) (k : StrikeSlot) : (s.setSlot n k).pointCmd = s.pointCmd := rfl
@[simp] theorem State.setSlot_strikeNext (n : Nat) (k : StrikeSlot) : (s.setSlot n k).strikeNext = s.strikeNext := rfl
@[simp] theorem State.setSlot_strikeTaken (n : Nat) (k : StrikeSlot) : (s.setSlot n k).strikeTaken = s.strikeTaken := rfl
@[simp] theorem State.setSlot_quarantine (n : Nat) (k : StrikeSlot) : (s.setSlot n k).quarantine = s.quarantine := rfl
@[simp] theorem State.setSlot_cancelSent (n : Nat) (k : StrikeSlot) : (s.setSlot n k).cancelSent = s.cancelSent := rfl
@[simp] theorem State.setSlot_openIds (n : Nat) (k : StrikeSlot) : (s.setSlot n k).openIds = s.openIds := rfl
@[simp] theorem State.setSlot_errRun (n : Nat) (k : StrikeSlot) : (s.setSlot n k).errRun = s.errRun := rfl
@[simp] theorem State.setSlot_pllPhase (n : Nat) (k : StrikeSlot) : (s.setSlot n k).pllPhase = s.pllPhase := rfl
@[simp] theorem State.setSlot_stepDue (n : Nat) (k : StrikeSlot) : (s.setSlot n k).stepDue = s.stepDue := rfl
@[simp] theorem State.setSlot_beat (n : Nat) (k : StrikeSlot) : (s.setSlot n k).beat = s.beat := rfl
@[simp] theorem State.setSlot_link (n : Nat) (k : StrikeSlot) : (s.setSlot n k).link = s.link := rfl
@[simp] theorem State.setSlot_stage (n : Nat) (k : StrikeSlot) : (s.setSlot n k).stage = s.stage := rfl
@[simp] theorem State.setSlot_commit (n : Nat) (k : StrikeSlot) : (s.setSlot n k).commit = s.commit := rfl
@[simp] theorem State.setSlot_deliv (n : Nat) (k : StrikeSlot) : (s.setSlot n k).deliv = s.deliv := rfl
@[simp] theorem State.setSlot_modl (n : Nat) (k : StrikeSlot) : (s.setSlot n k).modl = s.modl := rfl
@[simp] theorem State.setSlot_meter (n : Nat) (k : StrikeSlot) : (s.setSlot n k).meter = s.meter := rfl
@[simp] theorem State.setSlot_refBad (n : Nat) (k : StrikeSlot) : (s.setSlot n k).refBad = s.refBad := rfl
@[simp] theorem State.setSlot_mon (n : Nat) (k : StrikeSlot) : (s.setSlot n k).mon = s.mon := rfl
@[simp] theorem State.setSlot_sweep (n : Nat) (k : StrikeSlot) : (s.setSlot n k).sweep = s.sweep := rfl
@[simp] theorem State.setSlot_nodeT (n : Nat) (k : StrikeSlot) : (s.setSlot n k).nodeT = s.nodeT := rfl
@[simp] theorem State.setSlot_sens (n : Nat) (k : StrikeSlot) : (s.setSlot n k).sens = s.sens := rfl
@[simp] theorem State.setSlot_sheds (n : Nat) (k : StrikeSlot) : (s.setSlot n k).sheds = s.sheds := rfl
@[simp] theorem State.setSlot_nodeKept (n : Nat) (k : StrikeSlot) : (s.setSlot n k).nodeKept = s.nodeKept := rfl
@[simp] theorem State.setSlot_thermalAt (n : Nat) (k : StrikeSlot) : (s.setSlot n k).thermalAt = s.thermalAt := rfl
@[simp] theorem State.setSlot_parOld (n : Nat) (k : StrikeSlot) : (s.setSlot n k).parOld = s.parOld := rfl
@[simp] theorem State.setSlot_rail (n : Nat) (k : StrikeSlot) : (s.setSlot n k).rail = s.rail := rfl
@[simp] theorem State.setSlot_pwren (n : Nat) (k : StrikeSlot) : (s.setSlot n k).pwren = s.pwren := rfl
@[simp] theorem State.setSlot_pwrgd (n : Nat) (k : StrikeSlot) : (s.setSlot n k).pwrgd = s.pwrgd := rfl
@[simp] theorem State.setSlot_mrg (n : Nat) (k : StrikeSlot) : (s.setSlot n k).mrg = s.mrg := rfl
@[simp] theorem State.setSlot_mirAt (n : Nat) (k : StrikeSlot) : (s.setSlot n k).mirAt = s.mirAt := rfl
@[simp] theorem State.setSlot_relay (n : Nat) (k : StrikeSlot) : (s.setSlot n k).relay = s.relay := rfl
@[simp] theorem State.setSlot_evalAt (n : Nat) (k : StrikeSlot) : (s.setSlot n k).evalAt = s.evalAt := rfl
@[simp] theorem State.setSlot_pp (n : Nat) (k : StrikeSlot) : (s.setSlot n k).pp = s.pp := rfl
@[simp] theorem State.setSlot_wakePend (n : Nat) (k : StrikeSlot) : (s.setSlot n k).wakePend = s.wakePend := rfl
@[simp] theorem State.setSlot_keep (n : Nat) (k : StrikeSlot) : (s.setSlot n k).keep = s.keep := rfl
@[simp] theorem State.setSlot_rstHold (n : Nat) (k : StrikeSlot) : (s.setSlot n k).rstHold = s.rstHold := rfl
@[simp] theorem State.setSlot_senseEnd (n : Nat) (k : StrikeSlot) : (s.setSlot n k).senseEnd = s.senseEnd := rfl
@[simp] theorem State.setSlot_rest (n : Nat) (k : StrikeSlot) : (s.setSlot n k).rest = s.rest := rfl
@[simp] theorem State.setSlot_refFallback (n : Nat) (k : StrikeSlot) : (s.setSlot n k).refFallback = s.refFallback := rfl
@[simp] theorem State.setSlot_vinFall (n : Nat) (k : StrikeSlot) : (s.setSlot n k).vinFall = s.vinFall := rfl
@[simp] theorem State.setSlot_syncBefore (n : Nat) (k : StrikeSlot) : (s.setSlot n k).syncBefore = s.syncBefore := rfl
@[simp] theorem State.setSlot_holdEnd (n : Nat) (k : StrikeSlot) : (s.setSlot n k).holdEnd = s.holdEnd := rfl
@[simp] theorem State.setSlot_hostTx (n : Nat) (k : StrikeSlot) : (s.setSlot n k).hostTx = s.hostTx := rfl
@[simp] theorem State.setSlot_hostAcks (n : Nat) (k : StrikeSlot) : (s.setSlot n k).hostAcks = s.hostAcks := rfl
@[simp] theorem State.setSlot_hostOpen (n : Nat) (k : StrikeSlot) : (s.setSlot n k).hostOpen = s.hostOpen := rfl
@[simp] theorem State.setSlot_hostBurst (n : Nat) (k : StrikeSlot) : (s.setSlot n k).hostBurst = s.hostBurst := rfl
@[simp] theorem State.setSlot_hostScl (n : Nat) (k : StrikeSlot) : (s.setSlot n k).hostScl = s.hostScl := rfl
@[simp] theorem State.setSlot_hostSda (n : Nat) (k : StrikeSlot) : (s.setSlot n k).hostSda = s.hostSda := rfl
@[simp] theorem State.setSlot_trigs (n : Nat) (k : StrikeSlot) : (s.setSlot n k).trigs = s.trigs := rfl
@[simp] theorem State.setSlot_eng (n : Nat) (k : StrikeSlot) : (s.setSlot n k).eng = s.eng := rfl
@[simp] theorem State.setSlot_pllLockAt (n : Nat) (k : StrikeSlot) : (s.setSlot n k).pllLockAt = s.pllLockAt := rfl
@[simp] theorem State.setSlot_memHit (n : Nat) (k : StrikeSlot) : (s.setSlot n k).memHit = s.memHit := rfl
@[simp] theorem State.setSlot_portLog (n : Nat) (k : StrikeSlot) : (s.setSlot n k).portLog = s.portLog := rfl
@[simp] theorem State.setSlot_scrub (n : Nat) (k : StrikeSlot) : (s.setSlot n k).scrub = s.scrub := rfl
@[simp] theorem State.setSlot_otp (n : Nat) (k : StrikeSlot) : (s.setSlot n k).otp = s.otp := rfl
@[simp] theorem State.setSlot_otpShadow (n : Nat) (k : StrikeSlot) : (s.setSlot n k).otpShadow = s.otpShadow := rfl
@[simp] theorem State.setSlot_otpLocks (n : Nat) (k : StrikeSlot) : (s.setSlot n k).otpLocks = s.otpLocks := rfl
@[simp] theorem State.setSlot_otpOp (n : Nat) (k : StrikeSlot) : (s.setSlot n k).otpOp = s.otpOp := rfl
@[simp] theorem State.setSlot_tap (n : Nat) (k : StrikeSlot) : (s.setSlot n k).tap = s.tap := rfl

/-! ### `setMd` -/

@[simp] theorem State.setMd_pending (m : Nat) (x : ModSt) : (s.setMd m x).pending = s.pending := rfl
@[simp] theorem State.setMd_phase (m : Nat) (x : ModSt) : (s.setMd m x).phase = s.phase := rfl
@[simp] theorem State.setMd_now (m : Nat) (x : ModSt) : (s.setMd m x).now = s.now := rfl
@[simp] theorem State.setMd_tick (m : Nat) (x : ModSt) : (s.setMd m x).tick = s.tick := rfl
@[simp] theorem State.setMd_ticking (m : Nat) (x : ModSt) : (s.setMd m x).ticking = s.ticking := rfl
@[simp] theorem State.setMd_regs (m : Nat) (x : ModSt) : (s.setMd m x).regs = s.regs := rfl
@[simp] theorem State.setMd_sram (m : Nat) (x : ModSt) : (s.setMd m x).sram = s.sram := rfl
@[simp] theorem State.setMd_sramRaw (m : Nat) (x : ModSt) : (s.setMd m x).sramRaw = s.sramRaw := rfl
@[simp] theorem State.setMd_writeBack (m : Nat) (x : ModSt) : (s.setMd m x).writeBack = s.writeBack := rfl
@[simp] theorem State.setMd_free (m : Nat) (x : ModSt) : (s.setMd m x).free = s.free := rfl
@[simp] theorem State.setMd_events (m : Nat) (x : ModSt) : (s.setMd m x).events = s.events := rfl
@[simp] theorem State.setMd_collector (m : Nat) (x : ModSt) : (s.setMd m x).collector = s.collector := rfl
@[simp] theorem State.setMd_seqNext (m : Nat) (x : ModSt) : (s.setMd m x).seqNext = s.seqNext := rfl
@[simp] theorem State.setMd_recUse (m : Nat) (x : ModSt) : (s.setMd m x).recUse = s.recUse := rfl
@[simp] theorem State.setMd_merged (m : Nat) (x : ModSt) : (s.setMd m x).merged = s.merged := rfl
@[simp] theorem State.setMd_holds (m : Nat) (x : ModSt) : (s.setMd m x).holds = s.holds := rfl
@[simp] theorem State.setMd_irqSeen (m : Nat) (x : ModSt) : (s.setMd m x).irqSeen = s.irqSeen := rfl
@[simp] theorem State.setMd_waiting (m : Nat) (x : ModSt) : (s.setMd m x).waiting = s.waiting := rfl
@[simp] theorem State.setMd_barred (m : Nat) (x : ModSt) : (s.setMd m x).barred = s.barred := rfl
@[simp] theorem State.setMd_occupied (m : Nat) (x : ModSt) : (s.setMd m x).occupied = s.occupied := rfl
@[simp] theorem State.setMd_holdWait (m : Nat) (x : ModSt) : (s.setMd m x).holdWait = s.holdWait := rfl
@[simp] theorem State.setMd_flash (m : Nat) (x : ModSt) : (s.setMd m x).flash = s.flash := rfl
@[simp] theorem State.setMd_busWord (m : Nat) (x : ModSt) : (s.setMd m x).busWord = s.busWord := rfl
@[simp] theorem State.setMd_hdr (m : Nat) (x : ModSt) : (s.setMd m x).hdr = s.hdr := rfl
@[simp] theorem State.setMd_sections (m : Nat) (x : ModSt) : (s.setMd m x).sections = s.sections := rfl
@[simp] theorem State.setMd_cellMap (m : Nat) (x : ModSt) : (s.setMd m x).cellMap = s.cellMap := rfl
@[simp] theorem State.setMd_loopMap (m : Nat) (x : ModSt) : (s.setMd m x).loopMap = s.loopMap := rfl
@[simp] theorem State.setMd_railGraph (m : Nat) (x : ModSt) : (s.setMd m x).railGraph = s.railGraph := rfl
@[simp] theorem State.setMd_curveFlags (m : Nat) (x : ModSt) : (s.setMd m x).curveFlags = s.curveFlags := rfl
@[simp] theorem State.setMd_load (m : Nat) (x : ModSt) : (s.setMd m x).load = s.load := rfl
@[simp] theorem State.setMd_chan (m : Nat) (x : ModSt) : (s.setMd m x).chan = s.chan := rfl
@[simp] theorem State.setMd_due (m : Nat) (x : ModSt) : (s.setMd m x).due = s.due := rfl
@[simp] theorem State.setMd_loop (m : Nat) (x : ModSt) : (s.setMd m x).loop = s.loop := rfl
@[simp] theorem State.setMd_phCell (m : Nat) (x : ModSt) : (s.setMd m x).phCell = s.phCell := rfl
@[simp] theorem State.setMd_syncIn (m : Nat) (x : ModSt) : (s.setMd m x).syncIn = s.syncIn := rfl
@[simp] theorem State.setMd_hintPin (m : Nat) (x : ModSt) : (s.setMd m x).hintPin = s.hintPin := rfl
@[simp] theorem State.setMd_pointCmd (m : Nat) (x : ModSt) : (s.setMd m x).pointCmd = s.pointCmd := rfl
@[simp] theorem State.setMd_slots (m : Nat) (x : ModSt) : (s.setMd m x).slots = s.slots := rfl
@[simp] theorem State.setMd_strikeNext (m : Nat) (x : ModSt) : (s.setMd m x).strikeNext = s.strikeNext := rfl
@[simp] theorem State.setMd_strikeTaken (m : Nat) (x : ModSt) : (s.setMd m x).strikeTaken = s.strikeTaken := rfl
@[simp] theorem State.setMd_quarantine (m : Nat) (x : ModSt) : (s.setMd m x).quarantine = s.quarantine := rfl
@[simp] theorem State.setMd_cancelSent (m : Nat) (x : ModSt) : (s.setMd m x).cancelSent = s.cancelSent := rfl
@[simp] theorem State.setMd_openIds (m : Nat) (x : ModSt) : (s.setMd m x).openIds = s.openIds := rfl
@[simp] theorem State.setMd_errRun (m : Nat) (x : ModSt) : (s.setMd m x).errRun = s.errRun := rfl
@[simp] theorem State.setMd_pllPhase (m : Nat) (x : ModSt) : (s.setMd m x).pllPhase = s.pllPhase := rfl
@[simp] theorem State.setMd_stepDue (m : Nat) (x : ModSt) : (s.setMd m x).stepDue = s.stepDue := rfl
@[simp] theorem State.setMd_beat (m : Nat) (x : ModSt) : (s.setMd m x).beat = s.beat := rfl
@[simp] theorem State.setMd_link (m : Nat) (x : ModSt) : (s.setMd m x).link = s.link := rfl
@[simp] theorem State.setMd_stage (m : Nat) (x : ModSt) : (s.setMd m x).stage = s.stage := rfl
@[simp] theorem State.setMd_commit (m : Nat) (x : ModSt) : (s.setMd m x).commit = s.commit := rfl
@[simp] theorem State.setMd_deliv (m : Nat) (x : ModSt) : (s.setMd m x).deliv = s.deliv := rfl
@[simp] theorem State.setMd_meter (m : Nat) (x : ModSt) : (s.setMd m x).meter = s.meter := rfl
@[simp] theorem State.setMd_refBad (m : Nat) (x : ModSt) : (s.setMd m x).refBad = s.refBad := rfl
@[simp] theorem State.setMd_mon (m : Nat) (x : ModSt) : (s.setMd m x).mon = s.mon := rfl
@[simp] theorem State.setMd_sweep (m : Nat) (x : ModSt) : (s.setMd m x).sweep = s.sweep := rfl
@[simp] theorem State.setMd_nodeT (m : Nat) (x : ModSt) : (s.setMd m x).nodeT = s.nodeT := rfl
@[simp] theorem State.setMd_sens (m : Nat) (x : ModSt) : (s.setMd m x).sens = s.sens := rfl
@[simp] theorem State.setMd_sheds (m : Nat) (x : ModSt) : (s.setMd m x).sheds = s.sheds := rfl
@[simp] theorem State.setMd_nodeKept (m : Nat) (x : ModSt) : (s.setMd m x).nodeKept = s.nodeKept := rfl
@[simp] theorem State.setMd_thermalAt (m : Nat) (x : ModSt) : (s.setMd m x).thermalAt = s.thermalAt := rfl
@[simp] theorem State.setMd_parOld (m : Nat) (x : ModSt) : (s.setMd m x).parOld = s.parOld := rfl
@[simp] theorem State.setMd_rail (m : Nat) (x : ModSt) : (s.setMd m x).rail = s.rail := rfl
@[simp] theorem State.setMd_pwren (m : Nat) (x : ModSt) : (s.setMd m x).pwren = s.pwren := rfl
@[simp] theorem State.setMd_pwrgd (m : Nat) (x : ModSt) : (s.setMd m x).pwrgd = s.pwrgd := rfl
@[simp] theorem State.setMd_mrg (m : Nat) (x : ModSt) : (s.setMd m x).mrg = s.mrg := rfl
@[simp] theorem State.setMd_mirAt (m : Nat) (x : ModSt) : (s.setMd m x).mirAt = s.mirAt := rfl
@[simp] theorem State.setMd_relay (m : Nat) (x : ModSt) : (s.setMd m x).relay = s.relay := rfl
@[simp] theorem State.setMd_evalAt (m : Nat) (x : ModSt) : (s.setMd m x).evalAt = s.evalAt := rfl
@[simp] theorem State.setMd_pp (m : Nat) (x : ModSt) : (s.setMd m x).pp = s.pp := rfl
@[simp] theorem State.setMd_wakePend (m : Nat) (x : ModSt) : (s.setMd m x).wakePend = s.wakePend := rfl
@[simp] theorem State.setMd_keep (m : Nat) (x : ModSt) : (s.setMd m x).keep = s.keep := rfl
@[simp] theorem State.setMd_rstHold (m : Nat) (x : ModSt) : (s.setMd m x).rstHold = s.rstHold := rfl
@[simp] theorem State.setMd_senseEnd (m : Nat) (x : ModSt) : (s.setMd m x).senseEnd = s.senseEnd := rfl
@[simp] theorem State.setMd_rest (m : Nat) (x : ModSt) : (s.setMd m x).rest = s.rest := rfl
@[simp] theorem State.setMd_refFallback (m : Nat) (x : ModSt) : (s.setMd m x).refFallback = s.refFallback := rfl
@[simp] theorem State.setMd_vinFall (m : Nat) (x : ModSt) : (s.setMd m x).vinFall = s.vinFall := rfl
@[simp] theorem State.setMd_syncBefore (m : Nat) (x : ModSt) : (s.setMd m x).syncBefore = s.syncBefore := rfl
@[simp] theorem State.setMd_holdEnd (m : Nat) (x : ModSt) : (s.setMd m x).holdEnd = s.holdEnd := rfl
@[simp] theorem State.setMd_hostTx (m : Nat) (x : ModSt) : (s.setMd m x).hostTx = s.hostTx := rfl
@[simp] theorem State.setMd_hostAcks (m : Nat) (x : ModSt) : (s.setMd m x).hostAcks = s.hostAcks := rfl
@[simp] theorem State.setMd_hostOpen (m : Nat) (x : ModSt) : (s.setMd m x).hostOpen = s.hostOpen := rfl
@[simp] theorem State.setMd_hostBurst (m : Nat) (x : ModSt) : (s.setMd m x).hostBurst = s.hostBurst := rfl
@[simp] theorem State.setMd_hostScl (m : Nat) (x : ModSt) : (s.setMd m x).hostScl = s.hostScl := rfl
@[simp] theorem State.setMd_hostSda (m : Nat) (x : ModSt) : (s.setMd m x).hostSda = s.hostSda := rfl
@[simp] theorem State.setMd_trigs (m : Nat) (x : ModSt) : (s.setMd m x).trigs = s.trigs := rfl
@[simp] theorem State.setMd_eng (m : Nat) (x : ModSt) : (s.setMd m x).eng = s.eng := rfl
@[simp] theorem State.setMd_pllLockAt (m : Nat) (x : ModSt) : (s.setMd m x).pllLockAt = s.pllLockAt := rfl
@[simp] theorem State.setMd_memHit (m : Nat) (x : ModSt) : (s.setMd m x).memHit = s.memHit := rfl
@[simp] theorem State.setMd_portLog (m : Nat) (x : ModSt) : (s.setMd m x).portLog = s.portLog := rfl
@[simp] theorem State.setMd_scrub (m : Nat) (x : ModSt) : (s.setMd m x).scrub = s.scrub := rfl
@[simp] theorem State.setMd_otp (m : Nat) (x : ModSt) : (s.setMd m x).otp = s.otp := rfl
@[simp] theorem State.setMd_otpShadow (m : Nat) (x : ModSt) : (s.setMd m x).otpShadow = s.otpShadow := rfl
@[simp] theorem State.setMd_otpLocks (m : Nat) (x : ModSt) : (s.setMd m x).otpLocks = s.otpLocks := rfl
@[simp] theorem State.setMd_otpOp (m : Nat) (x : ModSt) : (s.setMd m x).otpOp = s.otpOp := rfl
@[simp] theorem State.setMd_tap (m : Nat) (x : ModSt) : (s.setMd m x).tap = s.tap := rfl

/-! ### `setMtr` -/

@[simp] theorem State.setMtr_pending (k : Nat) (x : MeterSt) : (s.setMtr k x).pending = s.pending := rfl
@[simp] theorem State.setMtr_phase (k : Nat) (x : MeterSt) : (s.setMtr k x).phase = s.phase := rfl
@[simp] theorem State.setMtr_now (k : Nat) (x : MeterSt) : (s.setMtr k x).now = s.now := rfl
@[simp] theorem State.setMtr_tick (k : Nat) (x : MeterSt) : (s.setMtr k x).tick = s.tick := rfl
@[simp] theorem State.setMtr_ticking (k : Nat) (x : MeterSt) : (s.setMtr k x).ticking = s.ticking := rfl
@[simp] theorem State.setMtr_regs (k : Nat) (x : MeterSt) : (s.setMtr k x).regs = s.regs := rfl
@[simp] theorem State.setMtr_sram (k : Nat) (x : MeterSt) : (s.setMtr k x).sram = s.sram := rfl
@[simp] theorem State.setMtr_sramRaw (k : Nat) (x : MeterSt) : (s.setMtr k x).sramRaw = s.sramRaw := rfl
@[simp] theorem State.setMtr_writeBack (k : Nat) (x : MeterSt) : (s.setMtr k x).writeBack = s.writeBack := rfl
@[simp] theorem State.setMtr_free (k : Nat) (x : MeterSt) : (s.setMtr k x).free = s.free := rfl
@[simp] theorem State.setMtr_events (k : Nat) (x : MeterSt) : (s.setMtr k x).events = s.events := rfl
@[simp] theorem State.setMtr_collector (k : Nat) (x : MeterSt) : (s.setMtr k x).collector = s.collector := rfl
@[simp] theorem State.setMtr_seqNext (k : Nat) (x : MeterSt) : (s.setMtr k x).seqNext = s.seqNext := rfl
@[simp] theorem State.setMtr_recUse (k : Nat) (x : MeterSt) : (s.setMtr k x).recUse = s.recUse := rfl
@[simp] theorem State.setMtr_merged (k : Nat) (x : MeterSt) : (s.setMtr k x).merged = s.merged := rfl
@[simp] theorem State.setMtr_holds (k : Nat) (x : MeterSt) : (s.setMtr k x).holds = s.holds := rfl
@[simp] theorem State.setMtr_irqSeen (k : Nat) (x : MeterSt) : (s.setMtr k x).irqSeen = s.irqSeen := rfl
@[simp] theorem State.setMtr_waiting (k : Nat) (x : MeterSt) : (s.setMtr k x).waiting = s.waiting := rfl
@[simp] theorem State.setMtr_barred (k : Nat) (x : MeterSt) : (s.setMtr k x).barred = s.barred := rfl
@[simp] theorem State.setMtr_occupied (k : Nat) (x : MeterSt) : (s.setMtr k x).occupied = s.occupied := rfl
@[simp] theorem State.setMtr_holdWait (k : Nat) (x : MeterSt) : (s.setMtr k x).holdWait = s.holdWait := rfl
@[simp] theorem State.setMtr_flash (k : Nat) (x : MeterSt) : (s.setMtr k x).flash = s.flash := rfl
@[simp] theorem State.setMtr_busWord (k : Nat) (x : MeterSt) : (s.setMtr k x).busWord = s.busWord := rfl
@[simp] theorem State.setMtr_hdr (k : Nat) (x : MeterSt) : (s.setMtr k x).hdr = s.hdr := rfl
@[simp] theorem State.setMtr_sections (k : Nat) (x : MeterSt) : (s.setMtr k x).sections = s.sections := rfl
@[simp] theorem State.setMtr_cellMap (k : Nat) (x : MeterSt) : (s.setMtr k x).cellMap = s.cellMap := rfl
@[simp] theorem State.setMtr_loopMap (k : Nat) (x : MeterSt) : (s.setMtr k x).loopMap = s.loopMap := rfl
@[simp] theorem State.setMtr_railGraph (k : Nat) (x : MeterSt) : (s.setMtr k x).railGraph = s.railGraph := rfl
@[simp] theorem State.setMtr_curveFlags (k : Nat) (x : MeterSt) : (s.setMtr k x).curveFlags = s.curveFlags := rfl
@[simp] theorem State.setMtr_load (k : Nat) (x : MeterSt) : (s.setMtr k x).load = s.load := rfl
@[simp] theorem State.setMtr_chan (k : Nat) (x : MeterSt) : (s.setMtr k x).chan = s.chan := rfl
@[simp] theorem State.setMtr_due (k : Nat) (x : MeterSt) : (s.setMtr k x).due = s.due := rfl
@[simp] theorem State.setMtr_loop (k : Nat) (x : MeterSt) : (s.setMtr k x).loop = s.loop := rfl
@[simp] theorem State.setMtr_phCell (k : Nat) (x : MeterSt) : (s.setMtr k x).phCell = s.phCell := rfl
@[simp] theorem State.setMtr_syncIn (k : Nat) (x : MeterSt) : (s.setMtr k x).syncIn = s.syncIn := rfl
@[simp] theorem State.setMtr_hintPin (k : Nat) (x : MeterSt) : (s.setMtr k x).hintPin = s.hintPin := rfl
@[simp] theorem State.setMtr_pointCmd (k : Nat) (x : MeterSt) : (s.setMtr k x).pointCmd = s.pointCmd := rfl
@[simp] theorem State.setMtr_slots (k : Nat) (x : MeterSt) : (s.setMtr k x).slots = s.slots := rfl
@[simp] theorem State.setMtr_strikeNext (k : Nat) (x : MeterSt) : (s.setMtr k x).strikeNext = s.strikeNext := rfl
@[simp] theorem State.setMtr_strikeTaken (k : Nat) (x : MeterSt) : (s.setMtr k x).strikeTaken = s.strikeTaken := rfl
@[simp] theorem State.setMtr_quarantine (k : Nat) (x : MeterSt) : (s.setMtr k x).quarantine = s.quarantine := rfl
@[simp] theorem State.setMtr_cancelSent (k : Nat) (x : MeterSt) : (s.setMtr k x).cancelSent = s.cancelSent := rfl
@[simp] theorem State.setMtr_openIds (k : Nat) (x : MeterSt) : (s.setMtr k x).openIds = s.openIds := rfl
@[simp] theorem State.setMtr_errRun (k : Nat) (x : MeterSt) : (s.setMtr k x).errRun = s.errRun := rfl
@[simp] theorem State.setMtr_pllPhase (k : Nat) (x : MeterSt) : (s.setMtr k x).pllPhase = s.pllPhase := rfl
@[simp] theorem State.setMtr_stepDue (k : Nat) (x : MeterSt) : (s.setMtr k x).stepDue = s.stepDue := rfl
@[simp] theorem State.setMtr_beat (k : Nat) (x : MeterSt) : (s.setMtr k x).beat = s.beat := rfl
@[simp] theorem State.setMtr_link (k : Nat) (x : MeterSt) : (s.setMtr k x).link = s.link := rfl
@[simp] theorem State.setMtr_stage (k : Nat) (x : MeterSt) : (s.setMtr k x).stage = s.stage := rfl
@[simp] theorem State.setMtr_commit (k : Nat) (x : MeterSt) : (s.setMtr k x).commit = s.commit := rfl
@[simp] theorem State.setMtr_deliv (k : Nat) (x : MeterSt) : (s.setMtr k x).deliv = s.deliv := rfl
@[simp] theorem State.setMtr_modl (k : Nat) (x : MeterSt) : (s.setMtr k x).modl = s.modl := rfl
@[simp] theorem State.setMtr_refBad (k : Nat) (x : MeterSt) : (s.setMtr k x).refBad = s.refBad := rfl
@[simp] theorem State.setMtr_mon (k : Nat) (x : MeterSt) : (s.setMtr k x).mon = s.mon := rfl
@[simp] theorem State.setMtr_sweep (k : Nat) (x : MeterSt) : (s.setMtr k x).sweep = s.sweep := rfl
@[simp] theorem State.setMtr_nodeT (k : Nat) (x : MeterSt) : (s.setMtr k x).nodeT = s.nodeT := rfl
@[simp] theorem State.setMtr_sens (k : Nat) (x : MeterSt) : (s.setMtr k x).sens = s.sens := rfl
@[simp] theorem State.setMtr_sheds (k : Nat) (x : MeterSt) : (s.setMtr k x).sheds = s.sheds := rfl
@[simp] theorem State.setMtr_nodeKept (k : Nat) (x : MeterSt) : (s.setMtr k x).nodeKept = s.nodeKept := rfl
@[simp] theorem State.setMtr_thermalAt (k : Nat) (x : MeterSt) : (s.setMtr k x).thermalAt = s.thermalAt := rfl
@[simp] theorem State.setMtr_parOld (k : Nat) (x : MeterSt) : (s.setMtr k x).parOld = s.parOld := rfl
@[simp] theorem State.setMtr_rail (k : Nat) (x : MeterSt) : (s.setMtr k x).rail = s.rail := rfl
@[simp] theorem State.setMtr_pwren (k : Nat) (x : MeterSt) : (s.setMtr k x).pwren = s.pwren := rfl
@[simp] theorem State.setMtr_pwrgd (k : Nat) (x : MeterSt) : (s.setMtr k x).pwrgd = s.pwrgd := rfl
@[simp] theorem State.setMtr_mrg (k : Nat) (x : MeterSt) : (s.setMtr k x).mrg = s.mrg := rfl
@[simp] theorem State.setMtr_mirAt (k : Nat) (x : MeterSt) : (s.setMtr k x).mirAt = s.mirAt := rfl
@[simp] theorem State.setMtr_relay (k : Nat) (x : MeterSt) : (s.setMtr k x).relay = s.relay := rfl
@[simp] theorem State.setMtr_evalAt (k : Nat) (x : MeterSt) : (s.setMtr k x).evalAt = s.evalAt := rfl
@[simp] theorem State.setMtr_pp (k : Nat) (x : MeterSt) : (s.setMtr k x).pp = s.pp := rfl
@[simp] theorem State.setMtr_wakePend (k : Nat) (x : MeterSt) : (s.setMtr k x).wakePend = s.wakePend := rfl
@[simp] theorem State.setMtr_keep (k : Nat) (x : MeterSt) : (s.setMtr k x).keep = s.keep := rfl
@[simp] theorem State.setMtr_rstHold (k : Nat) (x : MeterSt) : (s.setMtr k x).rstHold = s.rstHold := rfl
@[simp] theorem State.setMtr_senseEnd (k : Nat) (x : MeterSt) : (s.setMtr k x).senseEnd = s.senseEnd := rfl
@[simp] theorem State.setMtr_rest (k : Nat) (x : MeterSt) : (s.setMtr k x).rest = s.rest := rfl
@[simp] theorem State.setMtr_refFallback (k : Nat) (x : MeterSt) : (s.setMtr k x).refFallback = s.refFallback := rfl
@[simp] theorem State.setMtr_vinFall (k : Nat) (x : MeterSt) : (s.setMtr k x).vinFall = s.vinFall := rfl
@[simp] theorem State.setMtr_syncBefore (k : Nat) (x : MeterSt) : (s.setMtr k x).syncBefore = s.syncBefore := rfl
@[simp] theorem State.setMtr_holdEnd (k : Nat) (x : MeterSt) : (s.setMtr k x).holdEnd = s.holdEnd := rfl
@[simp] theorem State.setMtr_hostTx (k : Nat) (x : MeterSt) : (s.setMtr k x).hostTx = s.hostTx := rfl
@[simp] theorem State.setMtr_hostAcks (k : Nat) (x : MeterSt) : (s.setMtr k x).hostAcks = s.hostAcks := rfl
@[simp] theorem State.setMtr_hostOpen (k : Nat) (x : MeterSt) : (s.setMtr k x).hostOpen = s.hostOpen := rfl
@[simp] theorem State.setMtr_hostBurst (k : Nat) (x : MeterSt) : (s.setMtr k x).hostBurst = s.hostBurst := rfl
@[simp] theorem State.setMtr_hostScl (k : Nat) (x : MeterSt) : (s.setMtr k x).hostScl = s.hostScl := rfl
@[simp] theorem State.setMtr_hostSda (k : Nat) (x : MeterSt) : (s.setMtr k x).hostSda = s.hostSda := rfl
@[simp] theorem State.setMtr_trigs (k : Nat) (x : MeterSt) : (s.setMtr k x).trigs = s.trigs := rfl
@[simp] theorem State.setMtr_eng (k : Nat) (x : MeterSt) : (s.setMtr k x).eng = s.eng := rfl
@[simp] theorem State.setMtr_pllLockAt (k : Nat) (x : MeterSt) : (s.setMtr k x).pllLockAt = s.pllLockAt := rfl
@[simp] theorem State.setMtr_memHit (k : Nat) (x : MeterSt) : (s.setMtr k x).memHit = s.memHit := rfl
@[simp] theorem State.setMtr_portLog (k : Nat) (x : MeterSt) : (s.setMtr k x).portLog = s.portLog := rfl
@[simp] theorem State.setMtr_scrub (k : Nat) (x : MeterSt) : (s.setMtr k x).scrub = s.scrub := rfl
@[simp] theorem State.setMtr_otp (k : Nat) (x : MeterSt) : (s.setMtr k x).otp = s.otp := rfl
@[simp] theorem State.setMtr_otpShadow (k : Nat) (x : MeterSt) : (s.setMtr k x).otpShadow = s.otpShadow := rfl
@[simp] theorem State.setMtr_otpLocks (k : Nat) (x : MeterSt) : (s.setMtr k x).otpLocks = s.otpLocks := rfl
@[simp] theorem State.setMtr_otpOp (k : Nat) (x : MeterSt) : (s.setMtr k x).otpOp = s.otpOp := rfl
@[simp] theorem State.setMtr_tap (k : Nat) (x : MeterSt) : (s.setMtr k x).tap = s.tap := rfl

/-! ### `setMc` -/

@[simp] theorem State.setMc_pending (n : Nat) (x : MonSt) : (s.setMc n x).pending = s.pending := rfl
@[simp] theorem State.setMc_phase (n : Nat) (x : MonSt) : (s.setMc n x).phase = s.phase := rfl
@[simp] theorem State.setMc_now (n : Nat) (x : MonSt) : (s.setMc n x).now = s.now := rfl
@[simp] theorem State.setMc_tick (n : Nat) (x : MonSt) : (s.setMc n x).tick = s.tick := rfl
@[simp] theorem State.setMc_ticking (n : Nat) (x : MonSt) : (s.setMc n x).ticking = s.ticking := rfl
@[simp] theorem State.setMc_regs (n : Nat) (x : MonSt) : (s.setMc n x).regs = s.regs := rfl
@[simp] theorem State.setMc_sram (n : Nat) (x : MonSt) : (s.setMc n x).sram = s.sram := rfl
@[simp] theorem State.setMc_sramRaw (n : Nat) (x : MonSt) : (s.setMc n x).sramRaw = s.sramRaw := rfl
@[simp] theorem State.setMc_writeBack (n : Nat) (x : MonSt) : (s.setMc n x).writeBack = s.writeBack := rfl
@[simp] theorem State.setMc_free (n : Nat) (x : MonSt) : (s.setMc n x).free = s.free := rfl
@[simp] theorem State.setMc_events (n : Nat) (x : MonSt) : (s.setMc n x).events = s.events := rfl
@[simp] theorem State.setMc_collector (n : Nat) (x : MonSt) : (s.setMc n x).collector = s.collector := rfl
@[simp] theorem State.setMc_seqNext (n : Nat) (x : MonSt) : (s.setMc n x).seqNext = s.seqNext := rfl
@[simp] theorem State.setMc_recUse (n : Nat) (x : MonSt) : (s.setMc n x).recUse = s.recUse := rfl
@[simp] theorem State.setMc_merged (n : Nat) (x : MonSt) : (s.setMc n x).merged = s.merged := rfl
@[simp] theorem State.setMc_holds (n : Nat) (x : MonSt) : (s.setMc n x).holds = s.holds := rfl
@[simp] theorem State.setMc_irqSeen (n : Nat) (x : MonSt) : (s.setMc n x).irqSeen = s.irqSeen := rfl
@[simp] theorem State.setMc_waiting (n : Nat) (x : MonSt) : (s.setMc n x).waiting = s.waiting := rfl
@[simp] theorem State.setMc_barred (n : Nat) (x : MonSt) : (s.setMc n x).barred = s.barred := rfl
@[simp] theorem State.setMc_occupied (n : Nat) (x : MonSt) : (s.setMc n x).occupied = s.occupied := rfl
@[simp] theorem State.setMc_holdWait (n : Nat) (x : MonSt) : (s.setMc n x).holdWait = s.holdWait := rfl
@[simp] theorem State.setMc_flash (n : Nat) (x : MonSt) : (s.setMc n x).flash = s.flash := rfl
@[simp] theorem State.setMc_busWord (n : Nat) (x : MonSt) : (s.setMc n x).busWord = s.busWord := rfl
@[simp] theorem State.setMc_hdr (n : Nat) (x : MonSt) : (s.setMc n x).hdr = s.hdr := rfl
@[simp] theorem State.setMc_sections (n : Nat) (x : MonSt) : (s.setMc n x).sections = s.sections := rfl
@[simp] theorem State.setMc_cellMap (n : Nat) (x : MonSt) : (s.setMc n x).cellMap = s.cellMap := rfl
@[simp] theorem State.setMc_loopMap (n : Nat) (x : MonSt) : (s.setMc n x).loopMap = s.loopMap := rfl
@[simp] theorem State.setMc_railGraph (n : Nat) (x : MonSt) : (s.setMc n x).railGraph = s.railGraph := rfl
@[simp] theorem State.setMc_curveFlags (n : Nat) (x : MonSt) : (s.setMc n x).curveFlags = s.curveFlags := rfl
@[simp] theorem State.setMc_load (n : Nat) (x : MonSt) : (s.setMc n x).load = s.load := rfl
@[simp] theorem State.setMc_chan (n : Nat) (x : MonSt) : (s.setMc n x).chan = s.chan := rfl
@[simp] theorem State.setMc_due (n : Nat) (x : MonSt) : (s.setMc n x).due = s.due := rfl
@[simp] theorem State.setMc_loop (n : Nat) (x : MonSt) : (s.setMc n x).loop = s.loop := rfl
@[simp] theorem State.setMc_phCell (n : Nat) (x : MonSt) : (s.setMc n x).phCell = s.phCell := rfl
@[simp] theorem State.setMc_syncIn (n : Nat) (x : MonSt) : (s.setMc n x).syncIn = s.syncIn := rfl
@[simp] theorem State.setMc_hintPin (n : Nat) (x : MonSt) : (s.setMc n x).hintPin = s.hintPin := rfl
@[simp] theorem State.setMc_pointCmd (n : Nat) (x : MonSt) : (s.setMc n x).pointCmd = s.pointCmd := rfl
@[simp] theorem State.setMc_slots (n : Nat) (x : MonSt) : (s.setMc n x).slots = s.slots := rfl
@[simp] theorem State.setMc_strikeNext (n : Nat) (x : MonSt) : (s.setMc n x).strikeNext = s.strikeNext := rfl
@[simp] theorem State.setMc_strikeTaken (n : Nat) (x : MonSt) : (s.setMc n x).strikeTaken = s.strikeTaken := rfl
@[simp] theorem State.setMc_quarantine (n : Nat) (x : MonSt) : (s.setMc n x).quarantine = s.quarantine := rfl
@[simp] theorem State.setMc_cancelSent (n : Nat) (x : MonSt) : (s.setMc n x).cancelSent = s.cancelSent := rfl
@[simp] theorem State.setMc_openIds (n : Nat) (x : MonSt) : (s.setMc n x).openIds = s.openIds := rfl
@[simp] theorem State.setMc_errRun (n : Nat) (x : MonSt) : (s.setMc n x).errRun = s.errRun := rfl
@[simp] theorem State.setMc_pllPhase (n : Nat) (x : MonSt) : (s.setMc n x).pllPhase = s.pllPhase := rfl
@[simp] theorem State.setMc_stepDue (n : Nat) (x : MonSt) : (s.setMc n x).stepDue = s.stepDue := rfl
@[simp] theorem State.setMc_beat (n : Nat) (x : MonSt) : (s.setMc n x).beat = s.beat := rfl
@[simp] theorem State.setMc_link (n : Nat) (x : MonSt) : (s.setMc n x).link = s.link := rfl
@[simp] theorem State.setMc_stage (n : Nat) (x : MonSt) : (s.setMc n x).stage = s.stage := rfl
@[simp] theorem State.setMc_commit (n : Nat) (x : MonSt) : (s.setMc n x).commit = s.commit := rfl
@[simp] theorem State.setMc_deliv (n : Nat) (x : MonSt) : (s.setMc n x).deliv = s.deliv := rfl
@[simp] theorem State.setMc_modl (n : Nat) (x : MonSt) : (s.setMc n x).modl = s.modl := rfl
@[simp] theorem State.setMc_meter (n : Nat) (x : MonSt) : (s.setMc n x).meter = s.meter := rfl
@[simp] theorem State.setMc_refBad (n : Nat) (x : MonSt) : (s.setMc n x).refBad = s.refBad := rfl
@[simp] theorem State.setMc_sweep (n : Nat) (x : MonSt) : (s.setMc n x).sweep = s.sweep := rfl
@[simp] theorem State.setMc_nodeT (n : Nat) (x : MonSt) : (s.setMc n x).nodeT = s.nodeT := rfl
@[simp] theorem State.setMc_sens (n : Nat) (x : MonSt) : (s.setMc n x).sens = s.sens := rfl
@[simp] theorem State.setMc_sheds (n : Nat) (x : MonSt) : (s.setMc n x).sheds = s.sheds := rfl
@[simp] theorem State.setMc_nodeKept (n : Nat) (x : MonSt) : (s.setMc n x).nodeKept = s.nodeKept := rfl
@[simp] theorem State.setMc_thermalAt (n : Nat) (x : MonSt) : (s.setMc n x).thermalAt = s.thermalAt := rfl
@[simp] theorem State.setMc_parOld (n : Nat) (x : MonSt) : (s.setMc n x).parOld = s.parOld := rfl
@[simp] theorem State.setMc_rail (n : Nat) (x : MonSt) : (s.setMc n x).rail = s.rail := rfl
@[simp] theorem State.setMc_pwren (n : Nat) (x : MonSt) : (s.setMc n x).pwren = s.pwren := rfl
@[simp] theorem State.setMc_pwrgd (n : Nat) (x : MonSt) : (s.setMc n x).pwrgd = s.pwrgd := rfl
@[simp] theorem State.setMc_mrg (n : Nat) (x : MonSt) : (s.setMc n x).mrg = s.mrg := rfl
@[simp] theorem State.setMc_mirAt (n : Nat) (x : MonSt) : (s.setMc n x).mirAt = s.mirAt := rfl
@[simp] theorem State.setMc_relay (n : Nat) (x : MonSt) : (s.setMc n x).relay = s.relay := rfl
@[simp] theorem State.setMc_evalAt (n : Nat) (x : MonSt) : (s.setMc n x).evalAt = s.evalAt := rfl
@[simp] theorem State.setMc_pp (n : Nat) (x : MonSt) : (s.setMc n x).pp = s.pp := rfl
@[simp] theorem State.setMc_wakePend (n : Nat) (x : MonSt) : (s.setMc n x).wakePend = s.wakePend := rfl
@[simp] theorem State.setMc_keep (n : Nat) (x : MonSt) : (s.setMc n x).keep = s.keep := rfl
@[simp] theorem State.setMc_rstHold (n : Nat) (x : MonSt) : (s.setMc n x).rstHold = s.rstHold := rfl
@[simp] theorem State.setMc_senseEnd (n : Nat) (x : MonSt) : (s.setMc n x).senseEnd = s.senseEnd := rfl
@[simp] theorem State.setMc_rest (n : Nat) (x : MonSt) : (s.setMc n x).rest = s.rest := rfl
@[simp] theorem State.setMc_refFallback (n : Nat) (x : MonSt) : (s.setMc n x).refFallback = s.refFallback := rfl
@[simp] theorem State.setMc_vinFall (n : Nat) (x : MonSt) : (s.setMc n x).vinFall = s.vinFall := rfl
@[simp] theorem State.setMc_syncBefore (n : Nat) (x : MonSt) : (s.setMc n x).syncBefore = s.syncBefore := rfl
@[simp] theorem State.setMc_holdEnd (n : Nat) (x : MonSt) : (s.setMc n x).holdEnd = s.holdEnd := rfl
@[simp] theorem State.setMc_hostTx (n : Nat) (x : MonSt) : (s.setMc n x).hostTx = s.hostTx := rfl
@[simp] theorem State.setMc_hostAcks (n : Nat) (x : MonSt) : (s.setMc n x).hostAcks = s.hostAcks := rfl
@[simp] theorem State.setMc_hostOpen (n : Nat) (x : MonSt) : (s.setMc n x).hostOpen = s.hostOpen := rfl
@[simp] theorem State.setMc_hostBurst (n : Nat) (x : MonSt) : (s.setMc n x).hostBurst = s.hostBurst := rfl
@[simp] theorem State.setMc_hostScl (n : Nat) (x : MonSt) : (s.setMc n x).hostScl = s.hostScl := rfl
@[simp] theorem State.setMc_hostSda (n : Nat) (x : MonSt) : (s.setMc n x).hostSda = s.hostSda := rfl
@[simp] theorem State.setMc_trigs (n : Nat) (x : MonSt) : (s.setMc n x).trigs = s.trigs := rfl
@[simp] theorem State.setMc_eng (n : Nat) (x : MonSt) : (s.setMc n x).eng = s.eng := rfl
@[simp] theorem State.setMc_pllLockAt (n : Nat) (x : MonSt) : (s.setMc n x).pllLockAt = s.pllLockAt := rfl
@[simp] theorem State.setMc_memHit (n : Nat) (x : MonSt) : (s.setMc n x).memHit = s.memHit := rfl
@[simp] theorem State.setMc_portLog (n : Nat) (x : MonSt) : (s.setMc n x).portLog = s.portLog := rfl
@[simp] theorem State.setMc_scrub (n : Nat) (x : MonSt) : (s.setMc n x).scrub = s.scrub := rfl
@[simp] theorem State.setMc_otp (n : Nat) (x : MonSt) : (s.setMc n x).otp = s.otp := rfl
@[simp] theorem State.setMc_otpShadow (n : Nat) (x : MonSt) : (s.setMc n x).otpShadow = s.otpShadow := rfl
@[simp] theorem State.setMc_otpLocks (n : Nat) (x : MonSt) : (s.setMc n x).otpLocks = s.otpLocks := rfl
@[simp] theorem State.setMc_otpOp (n : Nat) (x : MonSt) : (s.setMc n x).otpOp = s.otpOp := rfl
@[simp] theorem State.setMc_tap (n : Nat) (x : MonSt) : (s.setMc n x).tap = s.tap := rfl

/-! ### `setTemp` -/

@[simp] theorem State.setTemp_pending (n : Nat) (t : Int) : (s.setTemp n t).pending = s.pending := rfl
@[simp] theorem State.setTemp_phase (n : Nat) (t : Int) : (s.setTemp n t).phase = s.phase := rfl
@[simp] theorem State.setTemp_now (n : Nat) (t : Int) : (s.setTemp n t).now = s.now := rfl
@[simp] theorem State.setTemp_tick (n : Nat) (t : Int) : (s.setTemp n t).tick = s.tick := rfl
@[simp] theorem State.setTemp_ticking (n : Nat) (t : Int) : (s.setTemp n t).ticking = s.ticking := rfl
@[simp] theorem State.setTemp_regs (n : Nat) (t : Int) : (s.setTemp n t).regs = s.regs := rfl
@[simp] theorem State.setTemp_sram (n : Nat) (t : Int) : (s.setTemp n t).sram = s.sram := rfl
@[simp] theorem State.setTemp_sramRaw (n : Nat) (t : Int) : (s.setTemp n t).sramRaw = s.sramRaw := rfl
@[simp] theorem State.setTemp_writeBack (n : Nat) (t : Int) : (s.setTemp n t).writeBack = s.writeBack := rfl
@[simp] theorem State.setTemp_free (n : Nat) (t : Int) : (s.setTemp n t).free = s.free := rfl
@[simp] theorem State.setTemp_events (n : Nat) (t : Int) : (s.setTemp n t).events = s.events := rfl
@[simp] theorem State.setTemp_collector (n : Nat) (t : Int) : (s.setTemp n t).collector = s.collector := rfl
@[simp] theorem State.setTemp_seqNext (n : Nat) (t : Int) : (s.setTemp n t).seqNext = s.seqNext := rfl
@[simp] theorem State.setTemp_recUse (n : Nat) (t : Int) : (s.setTemp n t).recUse = s.recUse := rfl
@[simp] theorem State.setTemp_merged (n : Nat) (t : Int) : (s.setTemp n t).merged = s.merged := rfl
@[simp] theorem State.setTemp_holds (n : Nat) (t : Int) : (s.setTemp n t).holds = s.holds := rfl
@[simp] theorem State.setTemp_irqSeen (n : Nat) (t : Int) : (s.setTemp n t).irqSeen = s.irqSeen := rfl
@[simp] theorem State.setTemp_waiting (n : Nat) (t : Int) : (s.setTemp n t).waiting = s.waiting := rfl
@[simp] theorem State.setTemp_barred (n : Nat) (t : Int) : (s.setTemp n t).barred = s.barred := rfl
@[simp] theorem State.setTemp_occupied (n : Nat) (t : Int) : (s.setTemp n t).occupied = s.occupied := rfl
@[simp] theorem State.setTemp_holdWait (n : Nat) (t : Int) : (s.setTemp n t).holdWait = s.holdWait := rfl
@[simp] theorem State.setTemp_flash (n : Nat) (t : Int) : (s.setTemp n t).flash = s.flash := rfl
@[simp] theorem State.setTemp_busWord (n : Nat) (t : Int) : (s.setTemp n t).busWord = s.busWord := rfl
@[simp] theorem State.setTemp_hdr (n : Nat) (t : Int) : (s.setTemp n t).hdr = s.hdr := rfl
@[simp] theorem State.setTemp_sections (n : Nat) (t : Int) : (s.setTemp n t).sections = s.sections := rfl
@[simp] theorem State.setTemp_cellMap (n : Nat) (t : Int) : (s.setTemp n t).cellMap = s.cellMap := rfl
@[simp] theorem State.setTemp_loopMap (n : Nat) (t : Int) : (s.setTemp n t).loopMap = s.loopMap := rfl
@[simp] theorem State.setTemp_railGraph (n : Nat) (t : Int) : (s.setTemp n t).railGraph = s.railGraph := rfl
@[simp] theorem State.setTemp_curveFlags (n : Nat) (t : Int) : (s.setTemp n t).curveFlags = s.curveFlags := rfl
@[simp] theorem State.setTemp_load (n : Nat) (t : Int) : (s.setTemp n t).load = s.load := rfl
@[simp] theorem State.setTemp_chan (n : Nat) (t : Int) : (s.setTemp n t).chan = s.chan := rfl
@[simp] theorem State.setTemp_due (n : Nat) (t : Int) : (s.setTemp n t).due = s.due := rfl
@[simp] theorem State.setTemp_loop (n : Nat) (t : Int) : (s.setTemp n t).loop = s.loop := rfl
@[simp] theorem State.setTemp_phCell (n : Nat) (t : Int) : (s.setTemp n t).phCell = s.phCell := rfl
@[simp] theorem State.setTemp_syncIn (n : Nat) (t : Int) : (s.setTemp n t).syncIn = s.syncIn := rfl
@[simp] theorem State.setTemp_hintPin (n : Nat) (t : Int) : (s.setTemp n t).hintPin = s.hintPin := rfl
@[simp] theorem State.setTemp_pointCmd (n : Nat) (t : Int) : (s.setTemp n t).pointCmd = s.pointCmd := rfl
@[simp] theorem State.setTemp_slots (n : Nat) (t : Int) : (s.setTemp n t).slots = s.slots := rfl
@[simp] theorem State.setTemp_strikeNext (n : Nat) (t : Int) : (s.setTemp n t).strikeNext = s.strikeNext := rfl
@[simp] theorem State.setTemp_strikeTaken (n : Nat) (t : Int) : (s.setTemp n t).strikeTaken = s.strikeTaken := rfl
@[simp] theorem State.setTemp_quarantine (n : Nat) (t : Int) : (s.setTemp n t).quarantine = s.quarantine := rfl
@[simp] theorem State.setTemp_cancelSent (n : Nat) (t : Int) : (s.setTemp n t).cancelSent = s.cancelSent := rfl
@[simp] theorem State.setTemp_openIds (n : Nat) (t : Int) : (s.setTemp n t).openIds = s.openIds := rfl
@[simp] theorem State.setTemp_errRun (n : Nat) (t : Int) : (s.setTemp n t).errRun = s.errRun := rfl
@[simp] theorem State.setTemp_pllPhase (n : Nat) (t : Int) : (s.setTemp n t).pllPhase = s.pllPhase := rfl
@[simp] theorem State.setTemp_stepDue (n : Nat) (t : Int) : (s.setTemp n t).stepDue = s.stepDue := rfl
@[simp] theorem State.setTemp_beat (n : Nat) (t : Int) : (s.setTemp n t).beat = s.beat := rfl
@[simp] theorem State.setTemp_link (n : Nat) (t : Int) : (s.setTemp n t).link = s.link := rfl
@[simp] theorem State.setTemp_stage (n : Nat) (t : Int) : (s.setTemp n t).stage = s.stage := rfl
@[simp] theorem State.setTemp_commit (n : Nat) (t : Int) : (s.setTemp n t).commit = s.commit := rfl
@[simp] theorem State.setTemp_deliv (n : Nat) (t : Int) : (s.setTemp n t).deliv = s.deliv := rfl
@[simp] theorem State.setTemp_modl (n : Nat) (t : Int) : (s.setTemp n t).modl = s.modl := rfl
@[simp] theorem State.setTemp_meter (n : Nat) (t : Int) : (s.setTemp n t).meter = s.meter := rfl
@[simp] theorem State.setTemp_refBad (n : Nat) (t : Int) : (s.setTemp n t).refBad = s.refBad := rfl
@[simp] theorem State.setTemp_mon (n : Nat) (t : Int) : (s.setTemp n t).mon = s.mon := rfl
@[simp] theorem State.setTemp_sweep (n : Nat) (t : Int) : (s.setTemp n t).sweep = s.sweep := rfl
@[simp] theorem State.setTemp_sens (n : Nat) (t : Int) : (s.setTemp n t).sens = s.sens := rfl
@[simp] theorem State.setTemp_sheds (n : Nat) (t : Int) : (s.setTemp n t).sheds = s.sheds := rfl
@[simp] theorem State.setTemp_nodeKept (n : Nat) (t : Int) : (s.setTemp n t).nodeKept = s.nodeKept := rfl
@[simp] theorem State.setTemp_thermalAt (n : Nat) (t : Int) : (s.setTemp n t).thermalAt = s.thermalAt := rfl
@[simp] theorem State.setTemp_parOld (n : Nat) (t : Int) : (s.setTemp n t).parOld = s.parOld := rfl
@[simp] theorem State.setTemp_rail (n : Nat) (t : Int) : (s.setTemp n t).rail = s.rail := rfl
@[simp] theorem State.setTemp_pwren (n : Nat) (t : Int) : (s.setTemp n t).pwren = s.pwren := rfl
@[simp] theorem State.setTemp_pwrgd (n : Nat) (t : Int) : (s.setTemp n t).pwrgd = s.pwrgd := rfl
@[simp] theorem State.setTemp_mrg (n : Nat) (t : Int) : (s.setTemp n t).mrg = s.mrg := rfl
@[simp] theorem State.setTemp_mirAt (n : Nat) (t : Int) : (s.setTemp n t).mirAt = s.mirAt := rfl
@[simp] theorem State.setTemp_relay (n : Nat) (t : Int) : (s.setTemp n t).relay = s.relay := rfl
@[simp] theorem State.setTemp_evalAt (n : Nat) (t : Int) : (s.setTemp n t).evalAt = s.evalAt := rfl
@[simp] theorem State.setTemp_pp (n : Nat) (t : Int) : (s.setTemp n t).pp = s.pp := rfl
@[simp] theorem State.setTemp_wakePend (n : Nat) (t : Int) : (s.setTemp n t).wakePend = s.wakePend := rfl
@[simp] theorem State.setTemp_keep (n : Nat) (t : Int) : (s.setTemp n t).keep = s.keep := rfl
@[simp] theorem State.setTemp_rstHold (n : Nat) (t : Int) : (s.setTemp n t).rstHold = s.rstHold := rfl
@[simp] theorem State.setTemp_senseEnd (n : Nat) (t : Int) : (s.setTemp n t).senseEnd = s.senseEnd := rfl
@[simp] theorem State.setTemp_rest (n : Nat) (t : Int) : (s.setTemp n t).rest = s.rest := rfl
@[simp] theorem State.setTemp_refFallback (n : Nat) (t : Int) : (s.setTemp n t).refFallback = s.refFallback := rfl
@[simp] theorem State.setTemp_vinFall (n : Nat) (t : Int) : (s.setTemp n t).vinFall = s.vinFall := rfl
@[simp] theorem State.setTemp_syncBefore (n : Nat) (t : Int) : (s.setTemp n t).syncBefore = s.syncBefore := rfl
@[simp] theorem State.setTemp_holdEnd (n : Nat) (t : Int) : (s.setTemp n t).holdEnd = s.holdEnd := rfl
@[simp] theorem State.setTemp_hostTx (n : Nat) (t : Int) : (s.setTemp n t).hostTx = s.hostTx := rfl
@[simp] theorem State.setTemp_hostAcks (n : Nat) (t : Int) : (s.setTemp n t).hostAcks = s.hostAcks := rfl
@[simp] theorem State.setTemp_hostOpen (n : Nat) (t : Int) : (s.setTemp n t).hostOpen = s.hostOpen := rfl
@[simp] theorem State.setTemp_hostBurst (n : Nat) (t : Int) : (s.setTemp n t).hostBurst = s.hostBurst := rfl
@[simp] theorem State.setTemp_hostScl (n : Nat) (t : Int) : (s.setTemp n t).hostScl = s.hostScl := rfl
@[simp] theorem State.setTemp_hostSda (n : Nat) (t : Int) : (s.setTemp n t).hostSda = s.hostSda := rfl
@[simp] theorem State.setTemp_trigs (n : Nat) (t : Int) : (s.setTemp n t).trigs = s.trigs := rfl
@[simp] theorem State.setTemp_eng (n : Nat) (t : Int) : (s.setTemp n t).eng = s.eng := rfl
@[simp] theorem State.setTemp_pllLockAt (n : Nat) (t : Int) : (s.setTemp n t).pllLockAt = s.pllLockAt := rfl
@[simp] theorem State.setTemp_memHit (n : Nat) (t : Int) : (s.setTemp n t).memHit = s.memHit := rfl
@[simp] theorem State.setTemp_portLog (n : Nat) (t : Int) : (s.setTemp n t).portLog = s.portLog := rfl
@[simp] theorem State.setTemp_scrub (n : Nat) (t : Int) : (s.setTemp n t).scrub = s.scrub := rfl
@[simp] theorem State.setTemp_otp (n : Nat) (t : Int) : (s.setTemp n t).otp = s.otp := rfl
@[simp] theorem State.setTemp_otpShadow (n : Nat) (t : Int) : (s.setTemp n t).otpShadow = s.otpShadow := rfl
@[simp] theorem State.setTemp_otpLocks (n : Nat) (t : Int) : (s.setTemp n t).otpLocks = s.otpLocks := rfl
@[simp] theorem State.setTemp_otpOp (n : Nat) (t : Int) : (s.setTemp n t).otpOp = s.otpOp := rfl
@[simp] theorem State.setTemp_tap (n : Nat) (t : Int) : (s.setTemp n t).tap = s.tap := rfl

/-! ### `raise`: an event for the collector and nothing else -/

theorem State.raise_eq (cls ev obj : Nat) (d : Word) (dev : Option Nat) :
    s.raise cls ev obj d dev = { s with events := (s.raise cls ev obj d dev).events } := by
  unfold State.raise; split <;> rfl

@[simp] theorem State.raise_pending (cls ev obj : Nat) (d : Word) (dev : Option Nat) : (s.raise cls ev obj d dev).pending = s.pending := by rw [State.raise_eq]
@[simp] theorem State.raise_phase (cls ev obj : Nat) (d : Word) (dev : Option Nat) : (s.raise cls ev obj d dev).phase = s.phase := by rw [State.raise_eq]
@[simp] theorem State.raise_now (cls ev obj : Nat) (d : Word) (dev : Option Nat) : (s.raise cls ev obj d dev).now = s.now := by rw [State.raise_eq]
@[simp] theorem State.raise_tick (cls ev obj : Nat) (d : Word) (dev : Option Nat) : (s.raise cls ev obj d dev).tick = s.tick := by rw [State.raise_eq]
@[simp] theorem State.raise_ticking (cls ev obj : Nat) (d : Word) (dev : Option Nat) : (s.raise cls ev obj d dev).ticking = s.ticking := by rw [State.raise_eq]
@[simp] theorem State.raise_regs (cls ev obj : Nat) (d : Word) (dev : Option Nat) : (s.raise cls ev obj d dev).regs = s.regs := by rw [State.raise_eq]
@[simp] theorem State.raise_sram (cls ev obj : Nat) (d : Word) (dev : Option Nat) : (s.raise cls ev obj d dev).sram = s.sram := by rw [State.raise_eq]
@[simp] theorem State.raise_sramRaw (cls ev obj : Nat) (d : Word) (dev : Option Nat) : (s.raise cls ev obj d dev).sramRaw = s.sramRaw := by rw [State.raise_eq]
@[simp] theorem State.raise_writeBack (cls ev obj : Nat) (d : Word) (dev : Option Nat) : (s.raise cls ev obj d dev).writeBack = s.writeBack := by rw [State.raise_eq]
@[simp] theorem State.raise_free (cls ev obj : Nat) (d : Word) (dev : Option Nat) : (s.raise cls ev obj d dev).free = s.free := by rw [State.raise_eq]
@[simp] theorem State.raise_collector (cls ev obj : Nat) (d : Word) (dev : Option Nat) : (s.raise cls ev obj d dev).collector = s.collector := by rw [State.raise_eq]
@[simp] theorem State.raise_seqNext (cls ev obj : Nat) (d : Word) (dev : Option Nat) : (s.raise cls ev obj d dev).seqNext = s.seqNext := by rw [State.raise_eq]
@[simp] theorem State.raise_recUse (cls ev obj : Nat) (d : Word) (dev : Option Nat) : (s.raise cls ev obj d dev).recUse = s.recUse := by rw [State.raise_eq]
@[simp] theorem State.raise_merged (cls ev obj : Nat) (d : Word) (dev : Option Nat) : (s.raise cls ev obj d dev).merged = s.merged := by rw [State.raise_eq]
@[simp] theorem State.raise_holds (cls ev obj : Nat) (d : Word) (dev : Option Nat) : (s.raise cls ev obj d dev).holds = s.holds := by rw [State.raise_eq]
@[simp] theorem State.raise_irqSeen (cls ev obj : Nat) (d : Word) (dev : Option Nat) : (s.raise cls ev obj d dev).irqSeen = s.irqSeen := by rw [State.raise_eq]
@[simp] theorem State.raise_waiting (cls ev obj : Nat) (d : Word) (dev : Option Nat) : (s.raise cls ev obj d dev).waiting = s.waiting := by rw [State.raise_eq]
@[simp] theorem State.raise_barred (cls ev obj : Nat) (d : Word) (dev : Option Nat) : (s.raise cls ev obj d dev).barred = s.barred := by rw [State.raise_eq]
@[simp] theorem State.raise_occupied (cls ev obj : Nat) (d : Word) (dev : Option Nat) : (s.raise cls ev obj d dev).occupied = s.occupied := by rw [State.raise_eq]
@[simp] theorem State.raise_holdWait (cls ev obj : Nat) (d : Word) (dev : Option Nat) : (s.raise cls ev obj d dev).holdWait = s.holdWait := by rw [State.raise_eq]
@[simp] theorem State.raise_flash (cls ev obj : Nat) (d : Word) (dev : Option Nat) : (s.raise cls ev obj d dev).flash = s.flash := by rw [State.raise_eq]
@[simp] theorem State.raise_busWord (cls ev obj : Nat) (d : Word) (dev : Option Nat) : (s.raise cls ev obj d dev).busWord = s.busWord := by rw [State.raise_eq]
@[simp] theorem State.raise_hdr (cls ev obj : Nat) (d : Word) (dev : Option Nat) : (s.raise cls ev obj d dev).hdr = s.hdr := by rw [State.raise_eq]
@[simp] theorem State.raise_sections (cls ev obj : Nat) (d : Word) (dev : Option Nat) : (s.raise cls ev obj d dev).sections = s.sections := by rw [State.raise_eq]
@[simp] theorem State.raise_cellMap (cls ev obj : Nat) (d : Word) (dev : Option Nat) : (s.raise cls ev obj d dev).cellMap = s.cellMap := by rw [State.raise_eq]
@[simp] theorem State.raise_loopMap (cls ev obj : Nat) (d : Word) (dev : Option Nat) : (s.raise cls ev obj d dev).loopMap = s.loopMap := by rw [State.raise_eq]
@[simp] theorem State.raise_railGraph (cls ev obj : Nat) (d : Word) (dev : Option Nat) : (s.raise cls ev obj d dev).railGraph = s.railGraph := by rw [State.raise_eq]
@[simp] theorem State.raise_curveFlags (cls ev obj : Nat) (d : Word) (dev : Option Nat) : (s.raise cls ev obj d dev).curveFlags = s.curveFlags := by rw [State.raise_eq]
@[simp] theorem State.raise_load (cls ev obj : Nat) (d : Word) (dev : Option Nat) : (s.raise cls ev obj d dev).load = s.load := by rw [State.raise_eq]
@[simp] theorem State.raise_chan (cls ev obj : Nat) (d : Word) (dev : Option Nat) : (s.raise cls ev obj d dev).chan = s.chan := by rw [State.raise_eq]
@[simp] theorem State.raise_due (cls ev obj : Nat) (d : Word) (dev : Option Nat) : (s.raise cls ev obj d dev).due = s.due := by rw [State.raise_eq]
@[simp] theorem State.raise_loop (cls ev obj : Nat) (d : Word) (dev : Option Nat) : (s.raise cls ev obj d dev).loop = s.loop := by rw [State.raise_eq]
@[simp] theorem State.raise_phCell (cls ev obj : Nat) (d : Word) (dev : Option Nat) : (s.raise cls ev obj d dev).phCell = s.phCell := by rw [State.raise_eq]
@[simp] theorem State.raise_syncIn (cls ev obj : Nat) (d : Word) (dev : Option Nat) : (s.raise cls ev obj d dev).syncIn = s.syncIn := by rw [State.raise_eq]
@[simp] theorem State.raise_hintPin (cls ev obj : Nat) (d : Word) (dev : Option Nat) : (s.raise cls ev obj d dev).hintPin = s.hintPin := by rw [State.raise_eq]
@[simp] theorem State.raise_pointCmd (cls ev obj : Nat) (d : Word) (dev : Option Nat) : (s.raise cls ev obj d dev).pointCmd = s.pointCmd := by rw [State.raise_eq]
@[simp] theorem State.raise_slots (cls ev obj : Nat) (d : Word) (dev : Option Nat) : (s.raise cls ev obj d dev).slots = s.slots := by rw [State.raise_eq]
@[simp] theorem State.raise_strikeNext (cls ev obj : Nat) (d : Word) (dev : Option Nat) : (s.raise cls ev obj d dev).strikeNext = s.strikeNext := by rw [State.raise_eq]
@[simp] theorem State.raise_strikeTaken (cls ev obj : Nat) (d : Word) (dev : Option Nat) : (s.raise cls ev obj d dev).strikeTaken = s.strikeTaken := by rw [State.raise_eq]
@[simp] theorem State.raise_quarantine (cls ev obj : Nat) (d : Word) (dev : Option Nat) : (s.raise cls ev obj d dev).quarantine = s.quarantine := by rw [State.raise_eq]
@[simp] theorem State.raise_cancelSent (cls ev obj : Nat) (d : Word) (dev : Option Nat) : (s.raise cls ev obj d dev).cancelSent = s.cancelSent := by rw [State.raise_eq]
@[simp] theorem State.raise_openIds (cls ev obj : Nat) (d : Word) (dev : Option Nat) : (s.raise cls ev obj d dev).openIds = s.openIds := by rw [State.raise_eq]
@[simp] theorem State.raise_errRun (cls ev obj : Nat) (d : Word) (dev : Option Nat) : (s.raise cls ev obj d dev).errRun = s.errRun := by rw [State.raise_eq]
@[simp] theorem State.raise_pllPhase (cls ev obj : Nat) (d : Word) (dev : Option Nat) : (s.raise cls ev obj d dev).pllPhase = s.pllPhase := by rw [State.raise_eq]
@[simp] theorem State.raise_stepDue (cls ev obj : Nat) (d : Word) (dev : Option Nat) : (s.raise cls ev obj d dev).stepDue = s.stepDue := by rw [State.raise_eq]
@[simp] theorem State.raise_beat (cls ev obj : Nat) (d : Word) (dev : Option Nat) : (s.raise cls ev obj d dev).beat = s.beat := by rw [State.raise_eq]
@[simp] theorem State.raise_link (cls ev obj : Nat) (d : Word) (dev : Option Nat) : (s.raise cls ev obj d dev).link = s.link := by rw [State.raise_eq]
@[simp] theorem State.raise_stage (cls ev obj : Nat) (d : Word) (dev : Option Nat) : (s.raise cls ev obj d dev).stage = s.stage := by rw [State.raise_eq]
@[simp] theorem State.raise_commit (cls ev obj : Nat) (d : Word) (dev : Option Nat) : (s.raise cls ev obj d dev).commit = s.commit := by rw [State.raise_eq]
@[simp] theorem State.raise_deliv (cls ev obj : Nat) (d : Word) (dev : Option Nat) : (s.raise cls ev obj d dev).deliv = s.deliv := by rw [State.raise_eq]
@[simp] theorem State.raise_modl (cls ev obj : Nat) (d : Word) (dev : Option Nat) : (s.raise cls ev obj d dev).modl = s.modl := by rw [State.raise_eq]
@[simp] theorem State.raise_meter (cls ev obj : Nat) (d : Word) (dev : Option Nat) : (s.raise cls ev obj d dev).meter = s.meter := by rw [State.raise_eq]
@[simp] theorem State.raise_refBad (cls ev obj : Nat) (d : Word) (dev : Option Nat) : (s.raise cls ev obj d dev).refBad = s.refBad := by rw [State.raise_eq]
@[simp] theorem State.raise_mon (cls ev obj : Nat) (d : Word) (dev : Option Nat) : (s.raise cls ev obj d dev).mon = s.mon := by rw [State.raise_eq]
@[simp] theorem State.raise_sweep (cls ev obj : Nat) (d : Word) (dev : Option Nat) : (s.raise cls ev obj d dev).sweep = s.sweep := by rw [State.raise_eq]
@[simp] theorem State.raise_nodeT (cls ev obj : Nat) (d : Word) (dev : Option Nat) : (s.raise cls ev obj d dev).nodeT = s.nodeT := by rw [State.raise_eq]
@[simp] theorem State.raise_sens (cls ev obj : Nat) (d : Word) (dev : Option Nat) : (s.raise cls ev obj d dev).sens = s.sens := by rw [State.raise_eq]
@[simp] theorem State.raise_sheds (cls ev obj : Nat) (d : Word) (dev : Option Nat) : (s.raise cls ev obj d dev).sheds = s.sheds := by rw [State.raise_eq]
@[simp] theorem State.raise_nodeKept (cls ev obj : Nat) (d : Word) (dev : Option Nat) : (s.raise cls ev obj d dev).nodeKept = s.nodeKept := by rw [State.raise_eq]
@[simp] theorem State.raise_thermalAt (cls ev obj : Nat) (d : Word) (dev : Option Nat) : (s.raise cls ev obj d dev).thermalAt = s.thermalAt := by rw [State.raise_eq]
@[simp] theorem State.raise_parOld (cls ev obj : Nat) (d : Word) (dev : Option Nat) : (s.raise cls ev obj d dev).parOld = s.parOld := by rw [State.raise_eq]
@[simp] theorem State.raise_rail (cls ev obj : Nat) (d : Word) (dev : Option Nat) : (s.raise cls ev obj d dev).rail = s.rail := by rw [State.raise_eq]
@[simp] theorem State.raise_pwren (cls ev obj : Nat) (d : Word) (dev : Option Nat) : (s.raise cls ev obj d dev).pwren = s.pwren := by rw [State.raise_eq]
@[simp] theorem State.raise_pwrgd (cls ev obj : Nat) (d : Word) (dev : Option Nat) : (s.raise cls ev obj d dev).pwrgd = s.pwrgd := by rw [State.raise_eq]
@[simp] theorem State.raise_mrg (cls ev obj : Nat) (d : Word) (dev : Option Nat) : (s.raise cls ev obj d dev).mrg = s.mrg := by rw [State.raise_eq]
@[simp] theorem State.raise_mirAt (cls ev obj : Nat) (d : Word) (dev : Option Nat) : (s.raise cls ev obj d dev).mirAt = s.mirAt := by rw [State.raise_eq]
@[simp] theorem State.raise_relay (cls ev obj : Nat) (d : Word) (dev : Option Nat) : (s.raise cls ev obj d dev).relay = s.relay := by rw [State.raise_eq]
@[simp] theorem State.raise_evalAt (cls ev obj : Nat) (d : Word) (dev : Option Nat) : (s.raise cls ev obj d dev).evalAt = s.evalAt := by rw [State.raise_eq]
@[simp] theorem State.raise_pp (cls ev obj : Nat) (d : Word) (dev : Option Nat) : (s.raise cls ev obj d dev).pp = s.pp := by rw [State.raise_eq]
@[simp] theorem State.raise_wakePend (cls ev obj : Nat) (d : Word) (dev : Option Nat) : (s.raise cls ev obj d dev).wakePend = s.wakePend := by rw [State.raise_eq]
@[simp] theorem State.raise_keep (cls ev obj : Nat) (d : Word) (dev : Option Nat) : (s.raise cls ev obj d dev).keep = s.keep := by rw [State.raise_eq]
@[simp] theorem State.raise_rstHold (cls ev obj : Nat) (d : Word) (dev : Option Nat) : (s.raise cls ev obj d dev).rstHold = s.rstHold := by rw [State.raise_eq]
@[simp] theorem State.raise_senseEnd (cls ev obj : Nat) (d : Word) (dev : Option Nat) : (s.raise cls ev obj d dev).senseEnd = s.senseEnd := by rw [State.raise_eq]
@[simp] theorem State.raise_rest (cls ev obj : Nat) (d : Word) (dev : Option Nat) : (s.raise cls ev obj d dev).rest = s.rest := by rw [State.raise_eq]
@[simp] theorem State.raise_refFallback (cls ev obj : Nat) (d : Word) (dev : Option Nat) : (s.raise cls ev obj d dev).refFallback = s.refFallback := by rw [State.raise_eq]
@[simp] theorem State.raise_vinFall (cls ev obj : Nat) (d : Word) (dev : Option Nat) : (s.raise cls ev obj d dev).vinFall = s.vinFall := by rw [State.raise_eq]
@[simp] theorem State.raise_syncBefore (cls ev obj : Nat) (d : Word) (dev : Option Nat) : (s.raise cls ev obj d dev).syncBefore = s.syncBefore := by rw [State.raise_eq]
@[simp] theorem State.raise_holdEnd (cls ev obj : Nat) (d : Word) (dev : Option Nat) : (s.raise cls ev obj d dev).holdEnd = s.holdEnd := by rw [State.raise_eq]
@[simp] theorem State.raise_hostTx (cls ev obj : Nat) (d : Word) (dev : Option Nat) : (s.raise cls ev obj d dev).hostTx = s.hostTx := by rw [State.raise_eq]
@[simp] theorem State.raise_hostAcks (cls ev obj : Nat) (d : Word) (dev : Option Nat) : (s.raise cls ev obj d dev).hostAcks = s.hostAcks := by rw [State.raise_eq]
@[simp] theorem State.raise_hostOpen (cls ev obj : Nat) (d : Word) (dev : Option Nat) : (s.raise cls ev obj d dev).hostOpen = s.hostOpen := by rw [State.raise_eq]
@[simp] theorem State.raise_hostBurst (cls ev obj : Nat) (d : Word) (dev : Option Nat) : (s.raise cls ev obj d dev).hostBurst = s.hostBurst := by rw [State.raise_eq]
@[simp] theorem State.raise_hostScl (cls ev obj : Nat) (d : Word) (dev : Option Nat) : (s.raise cls ev obj d dev).hostScl = s.hostScl := by rw [State.raise_eq]
@[simp] theorem State.raise_hostSda (cls ev obj : Nat) (d : Word) (dev : Option Nat) : (s.raise cls ev obj d dev).hostSda = s.hostSda := by rw [State.raise_eq]
@[simp] theorem State.raise_trigs (cls ev obj : Nat) (d : Word) (dev : Option Nat) : (s.raise cls ev obj d dev).trigs = s.trigs := by rw [State.raise_eq]
@[simp] theorem State.raise_eng (cls ev obj : Nat) (d : Word) (dev : Option Nat) : (s.raise cls ev obj d dev).eng = s.eng := by rw [State.raise_eq]
@[simp] theorem State.raise_pllLockAt (cls ev obj : Nat) (d : Word) (dev : Option Nat) : (s.raise cls ev obj d dev).pllLockAt = s.pllLockAt := by rw [State.raise_eq]
@[simp] theorem State.raise_memHit (cls ev obj : Nat) (d : Word) (dev : Option Nat) : (s.raise cls ev obj d dev).memHit = s.memHit := by rw [State.raise_eq]
@[simp] theorem State.raise_portLog (cls ev obj : Nat) (d : Word) (dev : Option Nat) : (s.raise cls ev obj d dev).portLog = s.portLog := by rw [State.raise_eq]
@[simp] theorem State.raise_scrub (cls ev obj : Nat) (d : Word) (dev : Option Nat) : (s.raise cls ev obj d dev).scrub = s.scrub := by rw [State.raise_eq]
@[simp] theorem State.raise_otp (cls ev obj : Nat) (d : Word) (dev : Option Nat) : (s.raise cls ev obj d dev).otp = s.otp := by rw [State.raise_eq]
@[simp] theorem State.raise_otpShadow (cls ev obj : Nat) (d : Word) (dev : Option Nat) : (s.raise cls ev obj d dev).otpShadow = s.otpShadow := by rw [State.raise_eq]
@[simp] theorem State.raise_otpLocks (cls ev obj : Nat) (d : Word) (dev : Option Nat) : (s.raise cls ev obj d dev).otpLocks = s.otpLocks := by rw [State.raise_eq]
@[simp] theorem State.raise_otpOp (cls ev obj : Nat) (d : Word) (dev : Option Nat) : (s.raise cls ev obj d dev).otpOp = s.otpOp := by rw [State.raise_eq]
@[simp] theorem State.raise_tap (cls ev obj : Nat) (d : Word) (dev : Option Nat) : (s.raise cls ev obj d dev).tap = s.tap := by rw [State.raise_eq]

@[simp] theorem State.reg_raise (cls ev obj : Nat) (d : Word) (dev : Option Nat) (k : Nat) :
    (s.raise cls ev obj d dev).reg k = s.reg k := by simp [State.reg]

end Sys2Proof.Machine
end

