-- ==== Sys2Proof/Laws/Settle.lean ====
section
/-! SUPPORT. What the end of a cycle does where no event is ready: the status registers follow, and nothing else. -/

namespace Sys2Proof.Machine

theorem tget_tset {α : Type} {n : Nat} [Inhabited α] (v : Vector α n) (i j : Nat) (x : α) :
    tget (tset v i x) j = if j = i ∧ i < n then x else tget v j := by
  unfold tget tset
  simp only [Vector.toArray_setIfInBounds, Array.getD_eq_getD_getElem?, Array.getElem?_setIfInBounds]
  by_cases h : i = j
  · subst h
    by_cases hn : i < n
    · simp [hn]
    · simp [hn]
  · have : j ≠ i := fun e => h e.symm
    simp [h, this]

theorem State.Aside.refl (s : State) : s.Aside s := ⟨fun _ _ => rfl, rfl, fun _ => rfl, rfl⟩

theorem State.Aside.trans {s t u : State} (h : s.Aside t) (g : t.Aside u) : s.Aside u where
  regs k hk := (g.regs k hk).trans (h.regs k hk)
  rest := by rw [g.rest, h.rest]
  eng n := by rw [g.eng n, h.eng n]
  keep := by rw [g.keep, h.keep]

/-- A register word of `aside` is stored. -/
theorem State.aside_setReg (s : State) {k : Nat} (w : Word) (hk : k ∈ aside) : s.Aside (s.setReg k w) where
  regs j hj := State.reg_setReg_ne s (fun e => hj (by rw [e]; exact hk)) w
  rest := rfl
  eng _ := rfl
  keep := rfl

theorem State.aside_put (s : State) {f : Fld} {i : Nat} (v : Nat) (hk : f.addr i ∈ aside) : s.Aside (s.put f v i) :=
  s.aside_setReg _ hk

theorem State.aside_foldl {α : Type} (l : List α) (f : State → α → State) (h : ∀ s : State, ∀ a ∈ l, s.Aside (f s a)) (s : State) :
    s.Aside (l.foldl f s) := by
  induction l generalizing s with
  | nil => exact .refl s
  | cons a l ih => exact (h s a (by simp)).trans (ih (fun s b hb => h s b (by simp [hb])) _)

theorem pend_aside (n : Fin 8) : F.PEn_PEND_PEND.addr n ∈ aside := by revert n; decide
theorem missed_aside (n : Fin 8) : ((F.PEn_STATS_V).off 2).addr n ∈ aside := by revert n; decide
theorem lost_aside (n : Fin 8) : ((F.PEn_STATS_V).off 4).addr n ∈ aside := by revert n; decide

theorem State.aside_slotEvent (s : State) (n : Fin 8) (h d : Nat) : s.Aside (s.slotEvent n h d) := by
  have data : ∀ (s1 : State) (v : Vector (BitVec 16) 8), s1.Aside
      { s1 with eng := tset s1.eng n { tget s1.eng n with data := v } } := by
    intro s1 v
    refine ⟨fun _ _ => rfl, rfl, fun m => ?_, rfl⟩
    show tget (tset _ _ _) m = _
    simp only [State.pe, tget_tset]
    by_cases hm : m = n.val
    · simp [hm]
    · simp [hm]
  unfold State.slotEvent
  dsimp only
  split
  · have e : ∀ (t : State), s.Aside t → t.eng = s.eng →
        s.Aside { t with eng := tset t.eng n { tget s.eng n with data := tset (tget s.eng n).data h (BitVec.ofNat 16 d) } } := by
      intro t ht he
      have := data t (tset (tget s.eng n).data h (BitVec.ofNat 16 d))
      rw [he] at this ⊢
      exact ht.trans this
    split
    · exact e _ (s.aside_put _ (missed_aside n)) rfl
    · exact e _ (s.aside_put _ (pend_aside n)) rfl
  · exact s.aside_put _ (lost_aside n)

theorem State.aside_trigger (s : State) (trig arg d : Nat) : s.Aside (s.trigger trig arg d) :=
  ⟨fun _ _ => rfl, rfl, fun _ => rfl, rfl⟩

theorem State.aside_register (s : State) (x : Nat × Nat × Nat) : s.Aside (s.register x) := by
  unfold State.register
  refine State.aside_foldl _ _ (fun s i hi => ?_) s
  dsimp only
  have hi := List.mem_range.mp hi
  split_ifs
  · exact s.aside_slotEvent ⟨i / 8, by omega⟩ _ _
  · exact .refl s
  · exact s.aside_slotEvent ⟨i / 8, by omega⟩ _ _
  · exact .refl s

theorem State.aside_runTrigs (s : State) : s.Aside s.runTrigs :=
  (State.aside_foldl s.trigs State.register (fun s x _ => s.aside_register x) s).trans
    ⟨fun _ _ => rfl, rfl, fun _ => rfl, rfl⟩

theorem State.aside_irqSub (s : State) : s.Aside s.irqSub := by
  unfold State.irqSub
  exact ((s.aside_put _ (by decide)).trans (State.aside_put _ _ (by decide))).trans (State.aside_put _ _ (by decide))

theorem State.aside_irqStore (s : State) (now seen : Word) :
    s.Aside { s.setReg F.IRQ_SUMMARY.base now with irqSeen := seen } :=
  (s.aside_setReg now (k := F.IRQ_SUMMARY.base) (by decide)).trans ⟨fun _ _ => rfl, rfl, fun _ => rfl, rfl⟩

theorem State.aside_irqRise (s : State) (rose : Word) (l : List Nat) :
    s.Aside (l.foldl (fun s g => if bitOf rose g then s.trigger 4 g g else s) s) :=
  State.aside_foldl _ _ (fun s g _ => by
    split
    · exact s.aside_trigger _ _ _
    · exact .refl s) _

theorem State.aside_irqUpdate (s : State) : s.Aside s.irqUpdate :=
  s.aside_irqSub.trans ((State.aside_irqStore _ _ _).trans (State.aside_irqRise _ _ _))

theorem State.aside_keepUnsync (s : State) : s.Aside s.keepUnsync := by
  unfold State.keepUnsync
  split
  · exact .refl s
  · exact .trans (t := { s with keep := { s.keep with window := none } }) ⟨fun _ _ => rfl, rfl, fun _ => rfl, rfl⟩
      (State.aside_put _ _ (by decide))

/-- Where no event is ready, the reactions of a cycle change only what follows by itself. -/
theorem State.aside_reactions (s : State) (h : ∀ e ∈ s.events, e.ready = false) : s.Aside s.reactions := by
  have : (s.events.any fun e => e.ready) = false := by
    simp only [List.any_eq_false]; intro e he; simp [h e he]
  unfold State.reactions
  simp only [this, Bool.and_false, Bool.false_eq_true, if_false]
  exact s.aside_keepUnsync.trans (State.aside_irqUpdate _)

/-- Where no event is ready, the end of a cycle changes only what follows by itself. -/
theorem State.aside_settle (s : State) (h : ∀ e ∈ s.events, e.ready = false) : s.Aside s.settle :=
  (s.aside_reactions h).trans (State.aside_runTrigs _)

end Sys2Proof.Machine
end

