-- ==== Sys2Proof/Laws/Access.lean ====
section
/-! SUPPORT. What a register access does where nothing else is under way: one fabric cycle passes and the word is written
or read at its grant. -/

namespace Sys2Proof.Machine

theorem State.cycles_quiet (s : State) (d : Nat) (hd : s.due = []) (he : s.events = []) : s.cycles d =
    { s with now := s.now + d, tick := if s.ticking then (s.tick + d) % 2 ^ 64 else s.tick, occupied := [] } := by
  cases s; simp_all [State.cycles]

theorem State.aside_cycles (s : State) (d : Nat) (hd : s.due = []) (he : s.events = []) :
    ({ s with now := s.now + d, tick := if s.ticking then (s.tick + d) % 2 ^ 64 else s.tick, occupied := [] } : State).Aside
      (s.cycles d).settle := by
  rw [State.cycles_quiet s d hd he]
  exact State.aside_settle _ (by simp [he])

/-- Without a burst of the host there is none to end. -/
theorem State.hostGranted_off (s : State) (h : s.hostBurst = false) : s.hostGranted = s := by
  simp [State.hostGranted, h]

theorem State.cycleStart_quiet (s : State) (hd : s.due = []) (he : s.events = []) (hl : s.link.lineDue = [])
    (hb : s.hostBurst = false) : s.cycleStart = s.cycles 1 := by
  unfold State.cycleStart State.lineRun
  rw [State.hostGranted_off s hb, State.cycles_quiet s 1 hd he]
  simp [hl]

/-- The cycle after `s`, before its grants. -/
theorem State.aside_react (s : State) (hd : s.due = []) (he : s.events = []) (hl : s.link.lineDue = [])
    (hb : s.hostBurst = false) :
    ({ s with now := s.now + 1, tick := if s.ticking then (s.tick + 1) % 2 ^ 64 else s.tick, occupied := [] } : State).Aside
      s.cycleStart.reactions := by
  rw [State.cycleStart_quiet s hd he hl hb, State.cycles_quiet s 1 hd he]
  exact State.aside_reactions _ (by simp [he])

/-- A cycle without events reaches no block. -/
theorem State.reactedBlocks_none (s : State) (h : s.events = []) : s.reactedBlocks = [] := by
  simp [State.reactedBlocks, State.eventsDue, h]

theorem State.Aside.same_waiting {s t : State} (h : s.Aside t) : t.waiting = s.waiting := by rw [h.rest]
theorem State.Aside.same_occupied {s t : State} (h : s.Aside t) : t.occupied = s.occupied := by rw [h.rest]
theorem State.Aside.same_barred {s t : State} (h : s.Aside t) : t.barred = s.barred := by rw [h.rest]
theorem State.Aside.same_phase {s t : State} (h : s.Aside t) : t.phase = s.phase := by rw [h.rest]
theorem State.Aside.same_events {s t : State} (h : s.Aside t) : t.events = s.events := by rw [h.rest]
theorem State.Aside.same_due {s t : State} (h : s.Aside t) : t.due = s.due := by rw [h.rest]

theorem State.Aside.with_occupied {s t : State} (h : s.Aside t) (o : List Nat) :
    ({ s with occupied := o } : State).Aside { t with occupied := o } :=
  ⟨h.regs, congrArg (fun (x : State) => ({ x with occupied := o } : State)) h.rest, h.eng, h.keep⟩

theorem State.Aside.with_waiting {s t : State} (h : s.Aside t) (l : List Access) :
    ({ s with waiting := l } : State).Aside { t with waiting := l } :=
  ⟨h.regs, congrArg (fun (x : State) => ({ x with waiting := l } : State)) h.rest, h.eng, h.keep⟩

/-- Nothing waits: a cycle grants nothing. -/
theorem State.grantCycle_none (s : State) (h : s.waiting = []) : s.grantCycle = ([], s) := by
  have ho : s.outstanding = [] := by simp [State.outstanding, h]
  unfold State.grantCycle; simp [h, ho]

/-- One access waits, and nothing bars it: it is granted. -/
theorem State.grantCycle_one (s : State) (x : Access) (h : s.waiting = [x]) (hx : x.ra = none) (hb : s.barred = [])
    (ho : s.occupied = []) : s.grantCycle =
      ([(x, (State.serve x { s with waiting := [] }).1)], (State.serve x { s with waiting := [] }).2) := by
  have he : x.isEnd = false := by simp [Access.isEnd, hx]
  have hq : s.outstanding = [x] := by simp [State.outstanding, h, he]
  have hw : s.waitingAt (s.grantBlock x.addr) = [x] := by simp [State.waitingAt, hq]
  have hp : s.pick (s.grantBlock x.addr) = some x := by
    simp [State.pick, ho, hw, State.mayGrant, hb]
  have hn : s.noteGrant (s.grantBlock x.addr) x = { s with waiting := [] } := by
    unfold State.noteGrant
    simp only [hw, hb, h]
    cases s; simp_all [dropOne]
  unfold State.grantCycle
  cases hx' : x.word <;> simp [h, he, hq, List.eraseDups_cons, hp, hn, hx']

theorem State.Quiet.fabric' {s : State} (h : s.Quiet) : (!s.fabricOn) = false := by simp [h.fabric]

/-- A cycle that ends with accesses waiting and no block taken grants them. -/
theorem State.endCycle_nil (s : State) (hw : s.waiting ≠ []) (hf : s.fabricOn = true) : s.endCycle [] =
    (s.grantCycle.1, if s.grantCycle.1.isEmpty then s.grantCycle.2.runTrigs else s.grantCycle.2.settle) := by
  have hn : (s.waiting.isEmpty || !s.fabricOn) = false := by
    cases h : s.waiting with
    | nil => exact absurd h hw
    | cons _ _ => simp [hf]
  have e : ({ s with occupied := s.occupied ++ [] } : State) = s := by rw [List.append_nil]
  unfold State.endCycle
  rw [hn, e]; rfl

/-- One access waits and nothing else is under way: the next cycle grants it. -/
theorem State.cycleOnce_one (s : State) (x : Access) (h : s.Quiet) (hx : x.ra = none) :
    ∃ c, s.NextCycle c ∧ c.occupied = [] ∧
      ({ s with waiting := [x] } : State).cycleOnce = ([(x, (c.serve x).1)], (c.serve x).2.settle) := by
  let s1 : State := { s with waiting := [x] }
  have a1 := s1.aside_react h.due h.events h.line h.burst
  let c1 := s1.cycleStart.reactions
  have ho : c1.occupied = [] := a1.same_occupied
  refine ⟨{ c1 with waiting := [] }, ?_, ho, ?_⟩
  · have e : ({ s with waiting := [] } : State) = s := by rw [← h.waiting]
    have g : ({ ({ s with waiting := [] } : State) with
        now := s.now + 1, tick := if s.ticking then (s.tick + 1) % 2 ^ 64 else s.tick, occupied := [] } : State).Aside
          { c1 with waiting := [] } := a1.with_waiting []
    rw [e] at g
    exact (congrArg (fun o => ({ s with
      now := s.now + 1, tick := (if s.ticking then (s.tick + 1) % 2 ^ 64 else s.tick), occupied := o } : State).Aside
        { c1 with waiting := [] }) ho).mpr g
  · have hw : c1.waiting = [x] := a1.same_waiting
    have hf : c1.fabricOn = true := by
      have := a1.same_phase; have hq := h.fabric
      unfold State.fabricOn at hq ⊢; rw [this]; exact hq
    have hh : s1.cycleStart.reactedBlocks = [] := State.reactedBlocks_none _ (by
      rw [State.cycleStart_quiet s1 h.due h.events h.line h.burst, State.cycles_quiet s1 1 h.due h.events]; exact h.events)
    have hg := State.grantCycle_one c1 x hw hx (a1.same_barred.trans h.barred) ho
    show State.endCycle s1.cycleStart.reactedBlocks c1 = _
    rw [hh]
    rw [c1.endCycle_nil (by simp [hw]) hf, hg]; rfl

/-- A write of a party of ranks 4 to 14 with nothing else under way: granted in the next cycle. -/
theorem State.written_plain (s : State) (p : Party) (a : Nat) (w : Word) (h : s.Quiet) (ha : s.admits p = true)
    (hp : p.urgent = false) :
    ∃ c, s.NextCycle c ∧ c.occupied = [] ∧ s.written p a w = (c.writeReg p a w).settle := by
  obtain ⟨c, h1, h2, h3⟩ := s.cycleOnce_one { party := p, addr := a, word := some w } h rfl
  refine ⟨c, h1, h2, ?_⟩
  unfold State.written State.access
  simp only [h.fabric', ha, Bool.not_true, Bool.or_false, hp, h.waiting, List.nil_append, Bool.false_eq_true, if_false]
  show (State.accessWait 64 _ 0 _).2.2 = _
  rw [State.accessWait, h3]
  simp only [State.serve, List.find?, beq_self_eq_true]; rfl

/-- A write of ranks 1 to 3 with nothing else under way: it takes effect in the next cycle without a wait. -/
theorem State.written_urgent (s : State) (p : Party) (a : Nat) (w : Word) (h : s.Quiet) (ha : s.admits p = true)
    (hp : p.urgent = true) :
    ∃ c, s.NextCycle c ∧ s.written p a w = (c.writeReg p a w).reactCycle.2 := by
  have a1 := s.aside_react h.due h.events h.line h.burst
  have a0 : ({ s with now := s.now + 1, tick := if s.ticking then (s.tick + 1) % 2 ^ 64 else s.tick, occupied := [] } : State).Aside
      s.cycleStart := by
    rw [State.cycleStart_quiet s h.due h.events h.line h.burst, State.cycles_quiet s 1 h.due h.events]; exact .refl _
  refine ⟨(if p = .reaction then s.cycleStart.reactions else s.cycleStart).occupy a, ?_, ?_⟩
  · split
    · exact a1.with_occupied _
    · exact a0.with_occupied _
  · have hd : s.cycleStart.eventsDue = false := by
      rw [State.cycleStart_quiet s h.due h.events h.line h.burst, State.cycles_quiet s 1 h.due h.events]
      simp [State.eventsDue, h.events]
    have hn : (if p = .test ∧ a = F.FLT_CMD.base ∧ (some w).isSome then s.afterEvents 64 else s) = s := by
      split
      · rw [State.afterEvents, hd]; rfl
      · rfl
    unfold State.written State.urgentAccess
    simp only [h.fabric', ha, hn, Bool.not_true, Bool.or_false, hp, Bool.false_eq_true, if_false, if_true]

/-- A cycle in which nothing waits ends with its events and triggers settled. -/
theorem State.reactCycle_settle (s : State) (h : s.reactions.waiting = []) : s.reactCycle.2 = s.settle := by
  unfold State.reactCycle State.endCycle; simp [h, State.settle]

/-- A write by any party with nothing else under way, where the write itself starts no access. -/
theorem State.written_quiet (s : State) (p : Party) (a : Nat) (w : Word) (h : s.Quiet) (ha : s.admits p = true)
    (hw : ∀ c, s.NextCycle c → (c.writeReg p a w).reactions.waiting = []) :
    ∃ c, s.NextCycle c ∧ s.written p a w = (c.writeReg p a w).settle := by
  cases hp : p.urgent with
  | false => obtain ⟨c, h1, _, h2⟩ := s.written_plain p a w h ha hp; exact ⟨c, h1, h2⟩
  | true =>
    obtain ⟨c, h1, h2⟩ := s.written_urgent p a w h ha hp
    exact ⟨c, h1, by rw [h2, State.reactCycle_settle _ (hw c h1)]⟩

/-- Where the fabric stands, or the party is not admitted to it, a write does nothing. -/
theorem State.written_shut (s : State) (p : Party) (a : Nat) (w : Word) (h : s.fabricOn = false ∨ s.admits p = false) :
    s.written p a w = s := by
  unfold State.written
  rcases h with h | h <;> simp [h]

/-- A read by a party of ranks 4 to 14 with nothing else under way. -/
theorem State.readBy_plain (s : State) (p : Party) (a : Nat) (h : s.Quiet) (ha : s.admits p = true) (hp : p.urgent = false) :
    ∃ c, s.NextCycle c ∧ c.occupied = [] ∧
      s.readBy p a = { (c.readReg p a).2.settle with busWord := (c.readReg p a).1 } := by
  obtain ⟨c, h1, h2, h3⟩ := s.cycleOnce_one { party := p, addr := a, word := none } h rfl
  refine ⟨c, h1, h2, ?_⟩
  unfold State.readBy State.access
  simp only [h.fabric', ha, Bool.not_true, Bool.or_false, hp, h.waiting, List.nil_append, Bool.false_eq_true, if_false]
  show ({ (State.accessWait 64 _ 0 _).2.2 with busWord := (State.accessWait 64 _ 0 _).1.getD s.busWord } : State) = _
  rw [State.accessWait, h3]
  simp [State.serve]

/-! ### Time -/

/-- A time that has come passes nothing. -/
theorem State.passTo_past (s : State) (t : Nat) (h : t ≤ s.now) : s.passTo t = s := by
  unfold State.passTo
  generalize 64 + 64 * s.waiting.length + 64 * s.link.lineDue.length = n
  cases n with
  | zero => simp [State.passN, State.jump, Nat.not_lt.mpr h]
  | succ n => rw [State.passN, if_pos h]

/-- With nothing under way time passes at once. -/
theorem State.passTo_quiet (s : State) (t : Nat) (h : s.Quiet) (ht : s.now < t) :
    s.passTo t = (s.cycles (t - s.now)).settle := by
  have h1 : ¬ t ≤ s.now := by omega
  have hb : s.busyCycle = false := by simp [State.busyCycle, h.waiting, h.due, h.events]
  have hl : s.lineNext = none := by simp [State.lineNext, h.line, earliest]
  have hn (n : Nat) : s.passN (n + 1) t = (s.cycles (t - s.now)).settle := by
    rw [State.passN, if_neg h1, hb, hl]; simp [State.jump, ht]
  unfold State.passTo
  rw [h.waiting, h.line]; exact hn 63

/-- With nothing under way the passing of time to `t` changes only the clocks and what follows by itself. -/
theorem State.aside_passTo (s : State) (t : Nat) (h : s.Quiet) (ht : s.now < t) :
    ({ s with now := t, tick := if s.ticking then (s.tick + (t - s.now)) % 2 ^ 64 else s.tick, occupied := [] } : State).Aside
      (s.passTo t) := by
  rw [s.passTo_quiet t h ht]
  have := s.aside_cycles (t - s.now) h.due h.events
  rwa [show s.now + (t - s.now) = t from by omega] at this

end Sys2Proof.Machine
end

