-- ==== Sys2Proof/Laws/Completes.lean ====
section
/-! SUPPORT. How a completion is shown: of one write by a party, and of an operation that time brings at a cycle or at a tick. -/

namespace Sys2Proof.Machine

/-- A whole write of a word in a cycle that had no event before it. -/
theorem State.writeReg_eq (s : State) (p : Party) (a : Nat) (w : Word) (h : s.events = []) :
    s.writeReg p a w = (s.writeWord p a w allBits).eventsLater 0 := by
  unfold State.writeReg State.writeBits; rw [h]; rfl

/-- The cycle after one without events begins without. -/
theorem State.NextCycle.events_nil {s c : State} (h : s.NextCycle c) (he : s.events = []) : c.events = [] :=
  (State.Aside.same_events h).trans he

theorem grants_intro {i : Instr} {s : State} {f : State → State} (p : Party) (a : Nat) (w : Word)
    (hi : exec i s = .next (s.written p a w)) (hw : ∀ c, s.NextCycle c → c.writeWord p a w allBits = f c)
    (hq : ∀ c, s.NextCycle c → ((f c).eventsLater 0).reactions.waiting = []) : Grants p i s f := by
  refine ⟨fun hn => by rw [hi, s.written_shut p a w hn], fun hs ha => ?_⟩
  have e (c : State) (hc : s.NextCycle c) : c.writeReg p a w = (f c).eventsLater 0 := by
    rw [c.writeReg_eq p a w (hc.events_nil hs.events), hw c hc]
  obtain ⟨c, hc, h⟩ := s.written_quiet p a w hs ha (fun c hc => by rw [e c hc]; exact hq c hc)
  exact ⟨_, by rw [hi, h, e c hc], c, hc, rfl⟩

theorem comes_intro {i : Instr} {s : State} {due : Option Nat} {f : State → State} (hi : exec i s = done (s.atTime due f)) :
    Comes i s due f :=
  ⟨fun h => ⟨s, by rw [hi, h]; rfl, rfl⟩, fun t h => ⟨f ((s.boundaryFirst t).passTo t), by rw [hi, h]; rfl, rfl⟩⟩

theorem comesAtTick_intro {i : Instr} {s : State} {due : Option Nat} {f : State → State} (hi : exec i s = done (s.atTick due f)) :
    ComesAtTick i s due f := by
  refine ⟨fun h => ⟨s, ?_, rfl⟩, fun t h hk => ⟨_, ?_, rfl⟩⟩
  · rw [hi]; unfold State.atTick
    rcases h with h | h <;> cases due <;> simp_all [done]
  · rw [hi, h]; unfold State.atTick
    simp [hk, done]

/-- A register that does not follow by itself stands as it stood. -/
theorem State.NextCycle.reg {s c : State} (h : s.NextCycle c) {k : Nat} (hk : k ∉ aside) : c.reg k = s.reg k := h.regs k hk

theorem State.NextCycle.get {s c : State} (h : s.NextCycle c) (f : Fld) (i : Nat) (hk : f.addr i ∉ aside) :
    c.get f i = s.get f i := by
  unfold State.get
  rw [h.reg hk]

end Sys2Proof.Machine
end

