-- ==== Sys2Proof/Laws/Fields.lean ====
section
/-! SUPPORT. A field read after a write of a field: the value written, or what the field held. -/

namespace Sys2Proof.Machine

theorem testBit_bitsOf (w : Word) (lo n i : Nat) : (bitsOf w lo n).testBit i = (decide (i < n) && w.getLsbD (lo + i)) := by
  simp [bitsOf, Nat.testBit_mod_two_pow, Nat.testBit_shiftRight, BitVec.getLsbD]

theorem getLsbD_withBits (w : Word) (lo n v i : Nat) (hi : i < 32) : (withBits w lo n v).getLsbD i =
    if lo ≤ i ∧ i < lo + n then v.testBit (i - lo) else w.getLsbD i := by
  unfold withBits
  simp only [BitVec.getLsbD_or, BitVec.getLsbD_and, BitVec.getLsbD_not, BitVec.getLsbD_shiftLeft, BitVec.getLsbD_ofNat,
    Nat.testBit_two_pow_sub_one, hi, decide_true, Bool.true_and]
  by_cases h1 : i < lo
  · have h2 : ¬ lo ≤ i := by omega
    simp [h1, h2]
  · have h2 : lo ≤ i := by omega
    by_cases h3 : i < lo + n
    · have h4 : i - lo < n := by omega
      have h5 : i - lo < 32 := by omega
      simp [h1, h2, h3, h4, h5]
    · have h4 : ¬ i - lo < n := by omega
      simp [h1, h2, h3, h4]

/-- The field just written. -/
theorem bitsOf_withBits_same (w : Word) (lo n v : Nat) (h : lo + n ≤ 32) : bitsOf (withBits w lo n v) lo n = v % 2 ^ n := by
  refine Nat.eq_of_testBit_eq (fun i => ?_)
  rw [testBit_bitsOf, Nat.testBit_mod_two_pow]
  by_cases hi : i < n
  · rw [getLsbD_withBits _ _ _ _ _ (by omega)]
    have : lo ≤ lo + i ∧ lo + i < lo + n := by omega
    simp [hi, this]
  · simp [hi]

/-- A field beside the one written. -/
theorem bitsOf_withBits_disj (w : Word) (lo n v lo' n' : Nat) (h : lo' + n' ≤ lo ∨ lo + n ≤ lo') (h' : lo' + n' ≤ 32) :
    bitsOf (withBits w lo n v) lo' n' = bitsOf w lo' n' := by
  refine Nat.eq_of_testBit_eq (fun i => ?_)
  rw [testBit_bitsOf, testBit_bitsOf]
  by_cases hi : i < n'
  · rw [getLsbD_withBits _ _ _ _ _ (by omega)]
    have : ¬ (lo ≤ lo' + i ∧ lo' + i < lo + n) := by omega
    simp [this]
  · simp [hi]

variable (s : State)

theorem State.get_put (f g : Fld) (v i j : Nat) : (s.put f v i).get g j =
    if g.addr j = f.addr i then bitsOf (withBits (s.reg (f.addr i)) f.lo f.width v) g.lo g.width else s.get g j := by
  unfold State.get
  rw [State.reg_put]
  split <;> simp_all

theorem State.get_put_same (f : Fld) (v i : Nat) (h : f.lo + f.width ≤ 32) : (s.put f v i).get f i = v % 2 ^ f.width := by
  rw [State.get_put, if_pos rfl, bitsOf_withBits_same _ _ _ _ h]

/-- Another field of the same word. -/
theorem State.get_put_disj (f g : Fld) (v i j : Nat) (h : g.lo + g.width ≤ f.lo ∨ f.lo + f.width ≤ g.lo)
    (h' : g.lo + g.width ≤ 32) : (s.put f v i).get g j = s.get g j := by
  rw [State.get_put]
  split
  · next e => rw [bitsOf_withBits_disj _ _ _ _ _ _ h h', State.get, e]
  · rfl

/-- A field of another word. -/
theorem State.get_put_ne (f g : Fld) (v i j : Nat) (h : g.addr j ≠ f.addr i) : (s.put f v i).get g j = s.get g j := by
  rw [State.get_put, if_neg h]

theorem State.on_put_same (f : Fld) (v i : Nat) (h : f.lo + f.width ≤ 32) :
    (s.put f v i).on f i = (v % 2 ^ f.width != 0) := by
  rw [State.on, State.get_put_same _ _ _ _ h]

theorem State.get_setReg_ne (g : Fld) (k j : Nat) (w : Word) (h : g.addr j ≠ k) : (s.setReg k w).get g j = s.get g j := by
  unfold State.get; rw [State.reg_setReg_ne _ h]

@[simp] theorem State.get_raise (cls ev obj : Nat) (d : Word) (dev : Option Nat) (f : Fld) (i : Nat) :
    (s.raise cls ev obj d dev).get f i = s.get f i := by simp [State.get]

@[simp] theorem State.on_raise (cls ev obj : Nat) (d : Word) (dev : Option Nat) (f : Fld) (i : Nat) :
    (s.raise cls ev obj d dev).on f i = s.on f i := by simp [State.on]

end Sys2Proof.Machine
end

