-- ==== Sys2Proof/Laws/Hsiao.lean ====
section
/-! SUPPORT. What every matrix of the check code has in common: odd columns, so a word of zeros with two check bits set is
uncorrectable; and what an uncorrectable word does to the read of a strike entry. -/

namespace Sys2Proof.Machine

/-- Every column of the check matrix has odd weight, whatever the matrix is (R475). -/
theorem cols_odd (c : BitVec 7) (h : c ∈ hsiaoCols) : weight7 c % 2 = 1 := by
  unfold hsiaoCols at h
  dsimp only at h
  split at h
  · rename_i hc
    simp only [Bool.and_eq_true, List.all_eq_true] at hc
    simpa using (hc.1 c h).1
  · have : ∀ c ∈ (((List.range 128).map (BitVec.ofNat 7)).filter (fun c => weight7 c == 3)).take 32, weight7 c % 2 = 1 := by
      decide +kernel
    exact this c h

theorem weight_xor : ∀ a b : BitVec 7, weight7 (a ^^^ b) % 2 = (weight7 a + weight7 b) % 2 := by decide +kernel

theorem fold_odd (d : Word) (l : List (Nat × BitVec 7)) (h : ∀ p ∈ l, weight7 p.2 % 2 = 1) (a : BitVec 7) :
    weight7 (l.foldl (fun a p => if d.getLsbD p.1 then a ^^^ p.2 else a) a) % 2 =
      (weight7 a + (l.map (fun p => b2n (d.getLsbD p.1))).sum) % 2 := by
  induction l generalizing a with
  | nil => simp
  | cons p l ih =>
    have hp := h p (by simp)
    have hl := ih (fun q hq => h q (by simp [hq]))
    simp only [List.foldl_cons, List.map_cons, List.sum_cons]
    cases hd : d.getLsbD p.1
    · simp only [Bool.false_eq_true, if_false]; rw [hl]; simp [b2n]
    · simp only [if_true]; rw [hl, Nat.add_mod, weight_xor]; simp only [b2n, if_true]; omega

theorem zip_map (d : Word) : ∀ (l : List Nat) (m : List (BitVec 7)), l.length ≤ m.length →
    (l.zip m).map (fun p => b2n (d.getLsbD p.1)) = l.map (fun i => b2n (d.getLsbD i))
  | [], _, _ => rfl
  | _ :: _, [], h => by simp at h
  | i :: l, c :: m, h => by simp [zip_map d l m (by simpa using h)]

theorem cols_length : hsiaoCols.length = 32 := by
  unfold hsiaoCols; dsimp only
  split
  · simp
  · decide +kernel

/-- The parity of the check bits is that of the data word. -/
theorem hsiao_parity (d : Word) : weight7 (hsiao d) % 2 = ((List.range 32).map (fun i => b2n (d.getLsbD i))).sum % 2 := by
  unfold hsiao
  rw [fold_odd d _ (fun p hp => cols_odd p.2 (List.of_mem_zip hp).2), zip_map d _ _ (by simp [cols_length])]
  show (0 + _) % 2 = _
  rw [Nat.zero_add]

theorem hsiao_zero : hsiao 0 = 0 := by
  unfold hsiao
  generalize (List.range 32).zip hsiaoCols = l
  suffices h : ∀ a : BitVec 7, l.foldl (fun a p => if (0 : Word).getLsbD p.1 then a ^^^ p.2 else a) a = a from h 0
  induction l with
  | nil => intro a; rfl
  | cons p l ih => intro a; simp only [List.foldl_cons]; rw [ih]; simp

/-- A word of zeros with two check bits set is found uncorrectable (R475), whatever the matrix is. -/
theorem two_checks : (eccDecode 0 3).2 = .uncorrectable := by
  have hf : (flips 0).find? (fun p => hsiao p.2 == (3 : BitVec 7)) = none := by
    rw [List.find?_eq_none]
    intro p hp e
    have e : hsiao p.2 = 3 := by simpa using e
    have h := hsiao_parity p.2
    rw [e] at h
    have : ∀ p ∈ flips 0, ((List.range 32).map (fun i => b2n (p.2.getLsbD i))).sum % 2 = 1 := by decide +kernel
    rw [this p hp] at h
    exact absurd h (by decide)
  unfold eccDecode
  rw [hsiao_zero, if_neg (by decide), hf]
  decide

/-- A read of an uncorrectable word says so. -/
theorem State.sramRead_bad (s : State) (src k : Nat) (h : (s.eccRead k).2 = .uncorrectable) :
    (s.sramRead src k).2.1 = .uncorrectable := by
  unfold State.sramRead
  dsimp only
  rw [h]
  dsimp only
  cases (k / 16384 == 10 || k / 16384 == 11) <;> simp

/-- An entry whose first word is uncorrectable is found so. -/
theorem State.entryRead_bad (s : State) (n : Nat) (h : (s.eccRead (sramKey 9 (8 * n))).2 = .uncorrectable) :
    (s.entryRead n).2.1 = true := by
  have keep : ∀ (l : List Nat) (r : List Word × Bool × State), r.2.1 = true →
      (l.foldl (fun (r : List Word × Bool × State) i =>
        (r.1 ++ [(r.2.2.sramRead 3 (sramKey 9 (8 * n + i))).1],
          r.2.1 || (r.2.2.sramRead 3 (sramKey 9 (8 * n + i))).2.1 == .uncorrectable,
          (r.2.2.sramRead 3 (sramKey 9 (8 * n + i))).2.2)) r).2.1 = true := by
    intro l
    induction l with
    | nil => intro r h; exact h
    | cons i l ih => intro r h; exact ih _ (by simp [h])
  have e : List.range 8 = 0 :: [1, 2, 3, 4, 5, 6, 7] := by decide
  have h0 := s.sramRead_bad 3 _ h
  unfold State.entryRead
  dsimp only
  rw [e, List.foldl_cons]
  refine keep [1, 2, 3, 4, 5, 6, 7] _ ?_
  simp only [Nat.add_zero, h0]
  simp

end Sys2Proof.Machine
end

