-- ==== Sys2Proof/Tests/Slice0.lean ====
section
/-! SUPPORT. Tests: for every statement that has hypotheses, a state and operands that meet them; an ill-formed term for every
check of WellFormed; and single steps and values that the spec's text, tables and examples give. -/

open Sys2Proof Sys2Proof.Machine

namespace Sys2Proof.Tests

-- the kernel evaluates one test at a time: side by side they ask for more threads than a build may have
set_option Elab.async false

/-- The state right after reset, in phase `p`, with the values of `l` (field, value, copy) in its registers. -/
def dev (p : Phase) (l : List (Fld × Nat × Nat)) : State :=
  l.foldl (fun s x => s.put x.1 x.2.1 x.2.2) { State.reset with phase := p }

def run (l : List (Fld × Nat × Nat)) : State := dev .running l

/-- A running worker of number `n` with the register fields `l`. -/
def wkr (n : Nat) (l : List (Fld × Nat × Nat)) : State :=
  run ([(F.SYS_DOM_STAT_ROLE, 1, 0), (F.HIER_STAT_DEV, n, 0), (F.HIER_STAT_DEV_SRC, 1, 0)] ++ l)

/-- The same with its count running and synchronised. -/
def ticks (s : State) : State := { s with ticking := true }

def quiet (s : State) : Bool :=
  s.fabricOn && s.waiting.isEmpty && s.barred.isEmpty && s.due.isEmpty && s.events.isEmpty && s.trigs.isEmpty &&
    s.link.lineDue.isEmpty && !s.hostBurst

theorem of_quiet {s : State} (h : quiet s = true) : s.Quiet := by
  simp only [quiet, Bool.and_eq_true, List.isEmpty_iff, Bool.not_eq_true'] at h
  obtain ⟨⟨⟨⟨⟨⟨⟨a, b⟩, c⟩, d⟩, e⟩, f⟩, g⟩, k⟩ := h
  exact ⟨a, b, c, d, e, f, g, k⟩

/-- A quiet device where the party `p`, the host unless another is named, asks for an access: the test port needs TEST_EN (R495). -/
def Asks (s : State) (p : Party := .host) : Prop := s.Quiet ∧ s.admits p = true

theorem of_asks {s : State} (h : quiet s = true) {p : Party} (k : s.admits p = true := by rfl) : Asks s p := ⟨of_quiet h, k⟩

/-! ### States and operands that meet the hypotheses of the statements -/

theorem hyps_EveryCommandCompletes : Instr.rstNLow.wellFormed = true ∧ (Instr.headerArrived []).wellFormed = false ∧
    ∃ t, exec .rstNLow .reset = .next t := ⟨rfl, by decide, _, rfl⟩

theorem hyps_ResetsLeave : (∃ s : State, s.phase ≠ .inReset) ∧ (∃ ms : Nat, ms < 8000) ∧
    (∃ (s : State) (ms : Nat), s.pp.fitted = true ∧ s.path ≠ ppOff ∧ 8000 ≤ ms ∧ s.shipCounts ms = true) ∧
    (∃ s : State, Asks s ∧ s.ticking = true) ∧ (∃ s : State, Asks s) ∧
    (∃ s : State, s.phase = .inReset ∧ s.path ≠ ppOff ∧ s.get F.SYS_DOM_STAT_VCC5_SRC ≠ 0) :=
  ⟨⟨run [], by decide⟩, ⟨7999, by decide⟩,
    ⟨{ run [] with pp := { fitted := true } }, 8000, by decide +kernel⟩,
    ⟨{ run [] with ticking := true }, of_asks (by decide +kernel), rfl⟩,
    ⟨run [], of_asks (by decide +kernel)⟩, ⟨State.reset.put F.SYS_DOM_STAT_VCC5_SRC 2, by decide +kernel⟩⟩

set_option maxRecDepth 10000 in
theorem hyps_ReleaseAndSensing : (∃ s : State, s.phase = .inReset ∧ s.path ≠ ppOff) ∧ (∃ s : State, s.phase ≠ .sensing) ∧
    (∃ s : State, s.phase = .sensing ∧ (s.otpSensed [] 0).on F.SYS_RST_STAT_RDEF = false) ∧
    (∃ (s : State) (c : List (Nat × Word)), s.phase = .sensing ∧ (s.otpSensed c 0).on F.SYS_RST_STAT_RDEF = true ∧
      (s.otpSensed c 0).get F.OTP_STAT_CHKFAIL ≠ 0) :=
  ⟨⟨.reset, by decide +kernel⟩, ⟨run [], by decide⟩, ⟨dev .sensing [], by decide +kernel⟩,
    ⟨dev .sensing [], [(0, 1)], by decide +kernel⟩⟩

theorem hyps_ResetKey : (∃ w : Word, bitsOf w 24 8 ≠ 0x5A) ∧ (∃ (s : State) (key : BitVec 8), Asks s ∧ key ≠ 0x5A) ∧
    ∃ s : State, Asks s :=
  ⟨⟨0x5B000001, by decide⟩, ⟨run [], 0x59, of_asks (by decide +kernel), by decide⟩, ⟨run [], of_asks (by decide +kernel)⟩⟩

theorem hyps_ClocksAndSupplies :
    (∃ s : State, (s.phase = .sensing ∨ s.phase = .running) ∧ s.on F.SYS_CLK_STAT_PLL_LOCK = false ∧ s.isManager = true ∧
      s.refFallback = false) ∧
    (∃ s : State, s.phase = .running ∧ s.on F.SYS_CLK_STAT_PLL_LOCK = false ∧ s.refFallback = true) ∧
    (∃ s : State, s.on F.SYS_CLK_STAT_PLL_LOCK = true ∧ s.on F.SYS_CLK_STAT_HOLDOVER = false ∧ s.get F.SYS_CLK_STAT_REF_SRC ≠ 3) ∧
    (∃ s : State, s.isManager = false ∧ s.inHoldover = true ∧
      (s.get F.SYS_CLK_STAT_REF_SRC = 1 ∨ s.get F.SYS_CLK_STAT_REF_SRC = 2)) ∧
    (∃ s : State, s.inHoldover = false) ∧
    (∃ (s : State) (t : Nat), s.on F.SYS_CLK_STAT_HOLDOVER = true ∧ s.holdEnd = some t ∧ t ≤ s.now) ∧
    (∃ s : State, s.isManager = false ∧ s.on F.SYS_DOM_STAT_LINK_HELD = true) ∧
    (∃ s : State, s.isManager = false ∧ s.on F.SYS_DOM_STAT_LINK_HELD = false ∧ s.phase = .running) ∧
    (∃ s : State, s.isManager = true ∧ (s.passTo s.now).on F.SYS_DOM_STAT_LINK_HELD = false) ∧
    (∃ s : State, s.isManager = true ∧ (s.passTo s.now).on F.SYS_DOM_STAT_LINK_HELD = true ∧ (s.passTo s.now).phase = .running) :=
  ⟨⟨run [], by decide +kernel⟩, ⟨{ run [] with refFallback := true }, by decide +kernel⟩,
    ⟨run [(F.SYS_CLK_STAT_PLL_LOCK, 1, 0), (F.SYS_CLK_STAT_REF_SRC, 0, 0)], by decide +kernel⟩,
    ⟨{ wkr 1 [(F.SYS_CLK_STAT_PLL_LOCK, 1, 0), (F.SYS_CLK_STAT_HOLDOVER, 1, 0), (F.SYS_CLK_STAT_REF_SRC, 1, 0)] with
      holdEnd := some 1000000 }, by decide +kernel⟩,
    ⟨run [], by decide +kernel⟩,
    ⟨{ run [(F.SYS_CLK_STAT_HOLDOVER, 1, 0)] with holdEnd := some 0 }, 0, by decide +kernel⟩,
    ⟨wkr 1 [(F.SYS_DOM_STAT_LINK_HELD, 1, 0)], by decide +kernel⟩, ⟨wkr 1 [], by decide +kernel⟩, ⟨run [], by decide +kernel⟩,
    ⟨run [(F.SYS_DOM_STAT_LINK_HELD, 1, 0)], by decide +kernel⟩⟩

theorem hyps_RestAndWake :
    (∃ s : State, Asks s ∧ s.isManager = true ∧ s.rest.entry = none) ∧ (∃ (s : State) (e : Nat), Asks s ∧ s.rest.entry = some e) ∧
    (∃ s : State, Asks s ∧ s.isManager = false ∧ s.sync = syncSynced ∧ s.outOfContact = false) ∧
    (∃ s : State, Asks s ∧ s.isManager = false ∧ s.sync = syncUnsynced ∧ s.rest.entry = none) ∧
    (∃ s : State, Asks s ∧ s.isManager = false ∧ s.sync = syncSynced ∧ s.outOfContact = true ∧ s.rest.entry = none) ∧
    (∃ (s : State) (src : BitVec 6), s.phase = .resting ∧ (src.toNat ||| s.wakePend) &&& s.wakeEnabled ≠ 0) ∧
    (∃ (s : State) (e : Nat), s.phase = .running ∧ s.ticking = true ∧ s.rest.entry = some e ∧ (s.batchCycle e).phase = .running ∧
      (s.batchCycle e).rest.entry = some e) ∧
    (∃ s : State, s.phase = .waking ∧ s.on F.SYS_CLK_STAT_PLL_LOCK = true) ∧
    (∃ s : State, s.phase ≠ .waking ∨ s.on F.SYS_CLK_STAT_PLL_LOCK = false) :=
  ⟨⟨run [], of_asks (by decide +kernel), by decide +kernel⟩,
    ⟨{ run [] with rest := { entry := some 20000 } }, 20000, of_asks (by decide +kernel), rfl⟩,
    ⟨wkr 1 [(F.ESC_STAT_SYNC, syncSynced, 0)], of_asks (by decide +kernel), by decide +kernel⟩,
    ⟨wkr 1 [], of_asks (by decide +kernel), by decide +kernel⟩,
    ⟨{ wkr 1 [(F.ESC_STAT_SYNC, syncSynced, 0)] with link := { everTaken := true, missed := 5 } }, of_asks (by decide +kernel), by decide +kernel⟩,
    ⟨dev .resting [(F.SYS_REST_CTRL, 1, 0)], 1, by decide +kernel⟩,
    ⟨{ run [] with ticking := true, rest := { entry := some 0 } }, 0, by decide +kernel⟩,
    ⟨dev .waking [(F.SYS_CLK_STAT_PLL_LOCK, 1, 0)], by decide +kernel⟩, ⟨run [], by decide +kernel⟩⟩

theorem hyps_TimePasses : (∃ (s : State) (t : Nat), t ≤ s.now) ∧ (∃ (s : State) (t : Nat), Asks s ∧ s.now < t) ∧
    ∃ s : State, Asks s ∧ s.pending = [] :=
  ⟨⟨run [], 0, by decide⟩, ⟨run [], 1, of_asks (by decide +kernel), by decide⟩, ⟨run [], of_asks (by decide +kernel), rfl⟩⟩

/-- A header of a manager's image of 3,892 bytes by R40, without and with QUAD_READ, its CRC-32 by zlib. -/
def header (quad : Bool) : List Byte :=
  [0x46, 0x43, 0x41, 0x4c, 0x1, 0, 0x80, 0x94, 0, if quad then 0x2 else 0, 0, 0, 0x34, 0xf] ++ List.replicate 34 0 ++
    (if quad then [0xd2, 0xe9, 0xb0, 0xb2] else [0x80, 0xfe, 0xa2, 0x2f]) ++ List.replicate 12 0

/-- Its directory by R42 and R43: the least COUNT of each type. -/
def direct : List Byte :=
  [0x1, 0, 0x1, 0, 0x40, 0x1, 0, 0, 0xb0, 0, 0, 0, 0x1, 0, 0, 0, 0x2, 0, 0x1, 0, 0xf0, 0x1, 0, 0, 0, 0x1, 0, 0, 0x8, 0, 0, 0,
    0x3, 0x2, 0x1, 0, 0xf0, 0x2, 0, 0, 0, 0x8, 0, 0, 0x40, 0, 0, 0, 0x4, 0x1, 0x1] ++ List.replicate 13 0 ++
  [0x5, 0x1, 0x1, 0, 0xf0, 0xa, 0, 0, 0, 0x2, 0, 0, 0x40, 0, 0, 0, 0x6, 0x1, 0x1, 0, 0xf0, 0xc, 0, 0, 0x20, 0x2, 0, 0, 0x4, 0,
    0, 0, 0x7, 0x1, 0x1] ++ List.replicate 13 0 ++
  [0x8, 0, 0x1, 0, 0x10, 0xf, 0, 0, 0x8, 0, 0, 0, 0x1, 0, 0, 0, 0x9, 0, 0x1] ++ List.replicate 13 0 ++
  [0xa, 0x1, 0x1] ++ List.replicate 13 0 ++ [0xb, 0x1, 0x1, 0, 0x20, 0xf, 0, 0, 0x10, 0, 0, 0, 0x1, 0, 0, 0, 0xc, 0x1, 0x1] ++
  List.replicate 77 0

def imageEnd (crc : List Byte) : List Byte := List.replicate 3568 0 ++ crc

/-- A device that reads slot A, in stage `k` with the bytes `b`. -/
def reading (k : Nat) (b : List Byte) : State :=
  { run [(F.CAL_STAT_STATE, calLoading, 0)] with load := { src := 1, stage := k, bytes := b, command := 0x0B } }

set_option maxRecDepth 20000 in
theorem hyps_FlashLoads_checks :
    (∃ (s : State) (b : List Byte), b.length = 64 ∧ s.flashAt 0 = true ∧ s.load.bytes = [] ∧
      headerCode s.isManager s.heldNumber (s.get F.SYS_ID_STEP) b ≠ 0) ∧
    (∃ (s : State) (b : List Byte), b.length = 64 ∧ s.flashAt 0 = true ∧ s.load.bytes = [] ∧
      headerCode s.isManager s.heldNumber (s.get F.SYS_ID_STEP) b = 0 ∧ (byteAt b 9).testBit 1 = false) ∧
    (∃ (s : State) (b : List Byte), b.length = 64 ∧ s.flashAt 0 = true ∧ s.load.bytes = [] ∧
      headerCode s.isManager s.heldNumber (s.get F.SYS_ID_STEP) b = 0 ∧ (byteAt b 9).testBit 1 = true) ∧
    (∃ (s : State) (b : List Byte), b.length = 256 ∧ s.flashAt 1 = true ∧ s.load.bytes.length = 64 ∧
      320 < leAt (s.load.bytes ++ b) 0xC 4 ∧ directoryOk (s.load.bytes ++ b) = false) ∧
    (∃ (s : State) (b : List Byte), b.length = 256 ∧ s.flashAt 1 = true ∧ s.load.bytes.length = 64 ∧
      320 < leAt (s.load.bytes ++ b) 0xC 4 ∧ directoryOk (s.load.bytes ++ b) = true) :=
  ⟨⟨reading 0 [], List.replicate 64 0, by decide +kernel⟩, ⟨reading 0 [], header false, by decide +kernel⟩,
    ⟨reading 0 [], header true, by decide +kernel⟩, ⟨reading 1 (header false), List.replicate 256 0, by decide +kernel⟩,
    ⟨reading 1 (header false), direct, by decide +kernel⟩⟩

set_option maxRecDepth 40000 in
theorem hyps_FlashLoads_stream :
    ∃ (s : State) (b : List Byte), s.flashAt 2 = true ∧ 64 ≤ s.load.bytes.length ∧
      leAt (s.load.bytes ++ b) 0xC 4 ≤ (s.load.bytes ++ b).length ∧ 16 ≤ leAt (s.load.bytes ++ b) 0xC 4 ∧
      (let img := (s.load.bytes ++ b).take (leAt (s.load.bytes ++ b) 0xC 4)
       (progRecords (dirEntry img 9).count (sectionBody img 9)).isSome = true ∧ s.streamCode img = 0) :=
  ⟨reading 2 (header false ++ direct), imageEnd [0xc3, 0xc7, 0x29, 0xdf], by decide +kernel⟩

set_option maxRecDepth 40000 in
theorem hyps_FlashLoads_crc :
    ∃ (s : State) (b : List Byte), s.flashAt 2 = true ∧ 64 ≤ s.load.bytes.length ∧
      leAt (s.load.bytes ++ b) 0xC 4 ≤ (s.load.bytes ++ b).length ∧ 16 ≤ leAt (s.load.bytes ++ b) 0xC 4 ∧
      (let img := (s.load.bytes ++ b).take (leAt (s.load.bytes ++ b) 0xC 4)
       (progRecords (dirEntry img 9).count (sectionBody img 9)).isSome = true ∧ s.streamCode img ≠ 0) :=
  ⟨reading 2 (header false ++ direct), imageEnd [0xc2, 0xc7, 0x29, 0xdf], by decide +kernel⟩

theorem hyps_FlashLoads_sources :
    (∃ s : State, s.phase = .running ∧ s.calState = calWaiting ∧ s.load.src = 0 ∧ s.load.nextSrc ≠ 0) ∧
    (∃ s : State, s.load.src = 0 ∧ s.load.nextSrc = 0) ∧ (∃ s : State, s.load.src = 0 ∨ s.load.stage ≠ 3) ∧
    (∃ s : State, s.load.src ≠ 0 ∧ s.load.src ≠ srcDelivery ∧ s.load.stage = 3 ∧ s.imageCode.1 ≠ 0) ∧
    (∃ s : State, s.load.src = srcDelivery ∧ s.load.stage = 3) ∧
    (∃ (b : List Byte) (s : State), (Instr.headerArrived b).wellFormed = true ∧ s.flashAt 0 = false) ∧
    (∃ (b : List Byte) (s : State), (Instr.directoryArrived b).wellFormed = true ∧ s.flashAt 1 = true) ∧
    (∃ s : State, s.on F.SYS_CLK_STAT_PLL_LOCK = true ∧ s.pllLockAt ≤ s.load.began) ∧
    (∃ (s : State) (b : List Byte), s.flashAt 2 = true ∧ 64 ≤ s.load.bytes.length ∧
      leAt (s.load.bytes ++ b) 0xC 4 ≤ (s.load.bytes ++ b).length ∧ 16 ≤ leAt (s.load.bytes ++ b) 0xC 4 ∧
      (let img := (s.load.bytes ++ b).take (leAt (s.load.bytes ++ b) 0xC 4)
       (progRecords (dirEntry img 9).count (sectionBody img 9)).isSome = false ∧
         (dirEntry img 9).offset + (dirEntry img 9).length ≤ img.length)) ∧
    (∃ (s : State) (code : Nat), code < 32 ∧ s.load.src < 8 ∧ s.collector = true) :=
  ⟨⟨{ run [] with load := { nextSrc := 1 } }, by decide +kernel⟩, ⟨run [], by decide +kernel⟩, ⟨run [], by decide +kernel⟩,
    ⟨reading 3 [], by decide +kernel⟩, ⟨{ run [] with load := { src := srcDelivery, stage := 3 } }, by decide +kernel⟩,
    ⟨List.replicate 64 0, run [], by decide +kernel⟩, ⟨direct, reading 1 [], by decide +kernel⟩,
    ⟨run [(F.SYS_CLK_STAT_PLL_LOCK, 1, 0)], by decide +kernel⟩,
    ⟨reading 2 (header false ++ direct.set 156 1), imageEnd [0, 0, 0, 0], by decide +kernel⟩,
    ⟨{ reading 1 [] with collector := true }, 31, by decide +kernel⟩⟩

theorem hyps_HostLoad :
    (∃ s : State, Asks s ∧ s.isManager = true ∧ s.calState ≠ calRestrict ∧ s.calState ≠ calLoaded ∧ s.load.src ≠ 1 ∧
      s.load.src ≠ 2 ∧ s.load.nextSrc = 0 ∧ s.load.stage ≠ 3) ∧
    (∃ s : State, Asks s ∧ s.isManager = true ∧ s.calState = calLoaded ∧ s.load.src = 0 ∧ s.load.nextSrc = 0 ∧
      s.load.stage ≠ 3 ∧ s.reloadOk = true) ∧
    (∃ s : State, Asks s ∧ s.isManager = true ∧ s.calState = calLoaded ∧ s.load.src = 0 ∧ s.load.nextSrc = 0 ∧
      s.load.stage ≠ 3 ∧ s.reloadOk = false) ∧
    (∃ s : State, Asks s ∧ s.isManager = false) ∧
    (∃ s : State, Asks s ∧ s.isManager = true ∧ (s.calState = calRestrict ∨ s.load.src = 1 ∨ s.load.src = 2 ∨
      s.load.nextSrc ≠ 0 ∨ s.load.stage = 3)) ∧
    (∃ s : State, Asks s ∧ s.hostStreams = true) ∧ (∃ s : State, Asks s ∧ s.hostStreams = false) ∧
    (∃ s : State, s.deliv.takes = false ∧ s.hostStreams = true) :=
  ⟨⟨run [], of_asks (by decide +kernel), by decide +kernel⟩,
    ⟨run [(F.CAL_STAT_STATE, calLoaded, 0)], of_asks (by decide +kernel), by decide +kernel⟩,
    ⟨run [(F.CAL_STAT_STATE, calLoaded, 0), (F.CHn_STAT_STATE, chOn, 0)], of_asks (by decide +kernel), by decide +kernel⟩,
    ⟨wkr 1 [], of_asks (by decide +kernel), by decide +kernel⟩, ⟨reading 0 [], of_asks (by decide +kernel), by decide +kernel⟩,
    ⟨{ run [] with load := { src := 3 } }, of_asks (by decide +kernel), by decide +kernel⟩,
    ⟨run [], of_asks (by decide +kernel), by decide +kernel⟩, ⟨{ run [] with load := { src := 3 } }, by decide +kernel⟩⟩

theorem hyps_WritesAreArbitrated :
    (∃ (s : State) (p : Party), Asks s ∧ p.urgent = false) ∧ (∃ (s : State) (p : Party), Asks s p ∧ p.urgent = true) ∧
    (∃ (s : State) (p q : Party) (a b : BitVec 16), Asks s p ∧ (p = .strike ∨ p = .test) ∧ q.urgent = false ∧ a.toNat ≠ F.SYS_RST_CTRL.base ∧
      s.grantBlock a.toNat = s.grantBlock b.toNat) ∧
    (∃ (s : State) (p q : Party) (a b : BitVec 16), Asks s ∧ p.urgent = false ∧ q.urgent = false ∧ p.code < q.code ∧
      s.grantBlock a.toNat = s.grantBlock b.toNat) ∧
    (∃ s : State, s.fabricOn = false) ∧ ∃ s : State, s.tapOn = false :=
  ⟨⟨run [], .host, of_asks (by decide +kernel), rfl⟩, ⟨run [], .strike, of_asks (by decide +kernel), rfl⟩,
    ⟨run [], .strike, .host, 0x3000, 0x3040, of_asks (by decide +kernel), by decide +kernel⟩,
    ⟨run [], .seq, .host, 0x3000, 0x3040, of_asks (by decide +kernel), by decide +kernel⟩, ⟨.reset, by decide +kernel⟩,
    ⟨run [], by decide +kernel⟩⟩

theorem hyps_TheCount : (∃ s : State, Asks s) ∧ (∃ s : State, s.stepDue = none) ∧
    ∃ (s : State) (e : Int), s.stepDue = some e ∧ s.collector = true :=
  ⟨⟨run [], of_asks (by decide +kernel)⟩, ⟨run [], rfl⟩, ⟨{ run [] with stepDue := some (-65), collector := true }, -65, by decide +kernel⟩⟩

/-- A local strike entry of one action in slot 0: CH0 CTRL.ON to 1, words 0 to 7 (R78–R80). -/
def localEntry : SMap := [(9 * 16384, 0x00000101), (9 * 16384 + 1, 0x00013000), (9 * 16384 + 2, 1)]

theorem hyps_SlotsArmAndCancel : ∃ s : State, Asks s ∧ s.sync = syncManager ∧ (s.slot 3).armed = true ∧ (s.slot 0).armed = false :=
  ⟨{ run [(F.ESC_STAT_SYNC, syncManager, 0)] with slots := tset State.reset.slots 3 { armed := true } },
    of_asks (by decide +kernel), by decide +kernel⟩

theorem hyps_StrikesLaunch :
    (∃ s : State, s.launchDue = none) ∧ (∃ (s : State) (t : Nat), s.launchDue = some t ∧ s.ticking = true ∧ s.tick < t) ∧
    (∃ (s : State) (t : Nat), s.launchDue = some t ∧ s.ticking = true ∧ s.tick = t) ∧
    (∃ s : State, s.beatDue = none ∧ s.stage.armedAt = none) ∧ (∃ s : State, s.sramRaw = []) ∧
    (∃ s : State, (s.entryRead 0).2.1 = true) ∧ ∃ s : State, (s.slot 0).id ≠ 0 :=
  ⟨⟨run [], by decide +kernel⟩,
    ⟨{ run [] with ticking := true, slots := tset State.reset.slots 3 { armed := true, launch := 1 } }, 1, by decide +kernel⟩,
    ⟨{ run [] with ticking := true, slots := tset State.reset.slots 3 { armed := true, launch := 0 } }, 0, by decide +kernel⟩,
    ⟨run [], by decide +kernel⟩, ⟨run [], rfl⟩,
    ⟨{ run [] with sramRaw := [(9 * 16384, 0, 3)] }, State.entryRead_bad _ 0 two_checks⟩,
    ⟨{ run [] with slots := tset State.reset.slots 0 { armed := true, id := 0x4001 } }, by decide +kernel⟩⟩

theorem hyps_BeatsRun :
    (∃ s : State, s.beat.accepted = none) ∧ (∃ (s : State) (t : Nat), s.beat.accepted = some t ∧ s.ticking = true) ∧
    (∃ s : State, s.beat.next = none) ∧ (∃ (s : State) (t : Nat), s.beat.next = some t ∧ s.ticking = true) ∧
    (∃ (s : State) (t : Nat), s.beatDue = some t ∧ t ≤ s.tick ∧
      (∀ a, (s.beatLatch t).stage.armedAt = some a → (s.beatLatch t).tick < a) ∧ (s.beatLatch t).launching = []) ∧
    (∃ s : State, s.beat.nextNum = 0) ∧ (∃ s : State, s.beat.afterWake = true) ∧ (∃ s : State, s.sramRaw = []) ∧
    (∃ (s : State) (t : Nat), s.beat.nextNum ≠ 0 ∧ s.beat.nextNum < 2 ^ 32 ∧ s.beat.afterWake = false ∧
      s.endingStart s.beat.nextNum = some t) ∧
    (∃ s : State, s.isManager = true) ∧
    (∃ (s : State) (g o a : Nat), g < 9 ∧ s.statsMask.testBit g = true ∧ (o, a) ∈ bankGroup g) ∧
    ∃ (s : State) (g o a : Nat), g < 9 ∧ s.statsMask.testBit g = false ∧ (o, a) ∈ bankGroup g :=
  ⟨⟨run [], rfl⟩, ⟨{ run [] with ticking := true, beat := { accepted := some 4000 } }, 4000, by decide +kernel⟩, ⟨run [], rfl⟩,
    ⟨{ run [] with ticking := true, beat := { next := some 4000 } }, 4000, by decide +kernel⟩,
    ⟨{ run [] with ticking := true, beat := { accepted := some 0 } }, 0, by decide +kernel, by decide +kernel,
      fun a h => absurd h (by rw [show (State.beatLatch 0 _).stage.armedAt = none from by decide +kernel]; simp), by decide +kernel⟩,
    ⟨run [], rfl⟩, ⟨{ run [] with beat := { afterWake := true } }, rfl⟩, ⟨run [], rfl⟩,
    ⟨{ run [(F.ESC_BEAT_STAT_RUN, 1, 0)] with beat := { nextNum := 0xFFFFFFFF } }, 0, by decide +kernel⟩,
    ⟨run [], by decide +kernel⟩,
    ⟨{ run [] with sections := List.replicate 10 [] ++ [[[1, 0, 0, 0, 0, 1, 0, 0]]] }, 8, _, _, by decide, by decide +kernel,
      List.mem_cons_self ..⟩,
    ⟨run [], 5, 668, F.LINK_CNT0.base, by decide +kernel⟩⟩

/-- A worker whose port 0 is upstream, with the fields `l`. -/
def wkrUp (l : List (Fld × Nat × Nat)) : State := wkr 3 ([(F.LINK_PORT_STAT_UPSTREAM, 1, 0)] ++ l)

/-- A TRAIN set of a device of role `r` and number 5, which echoes nothing or a time (R116). -/
def train (r : Byte) (echo : Byte) : List Byte :=
  let b : List Byte := [r, 5, 0, 1, 0, 0, 0, echo, 0, 0, 0, echo, 0, 0, 0, 0, 0, 0]
  [0x3C] ++ b ++ [BitVec.ofNat 8 (crc8 b)]

theorem hyps_PortsTrain_send :
    (∃ (s : State) (p : Fin 2), s.linkOn = true ∧ s.portState p = 0 ∧ s.portEn p = true ∧ (s.port p).secondMgr = false ∧
      s.on F.SYS_RST_STAT_RDEF = false) ∧
    (∃ (s : State) (p : Fin 2), s.linkOn = false ∧ s.portState p = 0) ∧
    (∃ (s : State) (p : Fin 2), s.linkOn = true ∧ s.portEn p = false) ∧
    (∃ (s : State) (p : Fin 2), s.linkOn = true ∧ s.portState p = 2) ∧
    (∃ (s : State) (p : Fin 2), s.linkOn = true ∧ s.portState p = 1) ∧
    (∃ (s : State) (p : Fin 2), s.portEn p = true ∧ s.portState p = 1 ∧ s.trainDue p ≤ s.now) ∧
    (∃ (s : State) (p : Fin 2), s.portEn p = true ∧ s.portUp p = true ∧ s.trainFits p = false) ∧
    (∃ (s : State) (p : Fin 2), s.portEn p = true ∧ s.portUp p = true ∧ s.trainFits p = true) :=
  ⟨⟨run [], 0, by decide +kernel⟩, ⟨.reset, 1, by decide +kernel⟩,
    ⟨run [(F.LINK_CTRL_PORTA_EN, 0, 0)], 0, by decide +kernel⟩, ⟨run [(F.LINK_PORT_STAT_STATE, 2, 1)], 1, by decide +kernel⟩,
    ⟨run [(F.LINK_PORT_STAT_STATE, 1, 0)], 0, by decide +kernel⟩, ⟨run [(F.LINK_PORT_STAT_STATE, 1, 0)], 0, by decide +kernel⟩,
    ⟨{ run [(F.LINK_PORT_STAT_STATE, 3, 0), (F.ESC_STAT_SYNC, syncManager, 0)] with ticking := true, tick := 3701 }, 0, by decide +kernel⟩,
    ⟨{ run [(F.LINK_PORT_STAT_STATE, 3, 0), (F.ESC_STAT_SYNC, syncManager, 0)] with ticking := true, tick := 3700 }, 0, by decide +kernel⟩⟩

theorem hyps_PortsTrain_line :
    (∃ s : State, s.linkOn = false) ∧ (∃ (s : State) (t : Nat), s.linkOn = true ∧ s.link.burst = some t ∧ t ≤ s.now ∧ s.now < t + 400) ∧
    (∃ (s : State) (p : Fin 2), s.linkOn = true ∧ s.link.burst = none ∧ s.on F.SYS_RST_STAT_RDEF = false ∧ s.portEn p = false) ∧
    (∃ (s : State) (p : Fin 2), s.linkOn = true ∧ s.link.burst = none ∧ s.on F.SYS_RST_STAT_RDEF = false ∧ s.portEn p = true ∧
      s.portState p = 0) ∧
    (∃ (s : State) (p : Fin 2) (t : Nat), s.linkOn = true ∧ s.link.burst = none ∧ s.on F.SYS_RST_STAT_RDEF = false ∧
      s.portEn p = true ∧ s.portState p ≠ 0 ∧ (s.port p).healEnd = some t ∧ s.now < t) ∧
    (∃ (s : State) (p : Fin 2) (t : Nat), s.linkOn = true ∧ s.link.burst = none ∧ s.on F.SYS_RST_STAT_RDEF = false ∧
      s.portEn p = true ∧ s.portUp p = true ∧ (s.port p).healEnd = none ∧ (s.port p).frameAt = some t ∧ t ≤ s.now ∧
      s.now < t + 10 * (s.port p).frame.length ∧ s.lineOut p = .frame) ∧
    (∃ (s : State) (p : Fin 2), s.linkOn = true ∧ s.link.burst = none ∧ s.on F.SYS_RST_STAT_RDEF = false ∧
      s.portEn p = true ∧ s.portState p ≠ 0 ∧ (s.port p).healEnd = none ∧ (s.port p).frameAt = none ∧ (s.port p).sentAt = none) ∧
    (∃ (b c : Fin 256) (rd : Bool), (dataGroup b rd).1 = (dataGroup c rd).1) :=
  ⟨⟨.reset, by decide +kernel⟩, ⟨{ run [] with now := 399, link := { burst := some 0 } }, 0, by decide +kernel⟩,
    ⟨run [(F.LINK_CTRL_PORTA_EN, 0, 0)], 0, by decide +kernel⟩, ⟨run [], 0, by decide +kernel⟩,
    ⟨(run [(F.LINK_PORT_STAT_STATE, 3, 0)]).setPort 0 { healEnd := some 200 }, 0, 200, by decide +kernel⟩,
    ⟨(run [(F.LINK_PORT_STAT_STATE, 3, 0)]).setPort 0 { frameAt := some 0, frame := [0xFB] }, 0, 0, by decide +kernel⟩,
    ⟨run [(F.LINK_PORT_STAT_STATE, 3, 1)], 1, by decide +kernel⟩, ⟨255, 255, true, rfl⟩⟩

theorem hyps_PortsTrain_receive :
    (∃ (s : State) (p : Fin 2) (b : List Byte), b.length = 20 ∧ s.linkOn = true ∧ s.portState p = 0) ∧
    (∃ (s : State) (p : Fin 2) (b : List Byte), b.length = 20 ∧ s.linkOn = true ∧ s.portState p ≠ 0 ∧
      crc8 (slice b 1 18) ≠ byteAt b 19) ∧
    (∃ (s : State) (p : Fin 2) (b : List Byte), b.length = 20 ∧ s.linkOn = true ∧ s.portState p ≠ 0 ∧
      crc8 (slice b 1 18) = byteAt b 19 ∧ s.isManager = true ∧ byteAt b 1 % 2 = 0 ∧ (s.port p).secondMgr = false) ∧
    (∃ (s : State) (p : Fin 2) (b : List Byte), b.length = 20 ∧ s.linkOn = true ∧ s.portState p ≠ 0 ∧
      crc8 (slice b 1 18) = byteAt b 19 ∧ s.isManager = true ∧ byteAt b 1 % 2 = 1 ∧ leAt b 8 4 = 0 ∧ leAt b 12 4 = 0) ∧
    (∃ (s : State) (p : Fin 2) (b : List Byte), b.length = 20 ∧ s.linkOn = true ∧ s.portState p ≠ 0 ∧
      crc8 (slice b 1 18) = byteAt b 19 ∧ s.isManager = false ∧ ¬(leAt b 8 4 = 0 ∧ leAt b 12 4 = 0) ∧ s.upstream = some p.val ∧
      (s.port p).warm = true ∧ (s.get F.LINK_PORT_STAT_NB_DEV p == byteAt b 2 &&
        (s.port p).hopsThru == (if byteAt b 3 = 0xFF then none else some (byteAt b 3))) = false) :=
  ⟨⟨run [], 0, train 0 0, by decide +kernel⟩, ⟨run [(F.LINK_PORT_STAT_STATE, 2, 0)], 0, List.replicate 19 0 ++ [1], by decide +kernel⟩,
    ⟨run [(F.LINK_PORT_STAT_STATE, 2, 0)], 0, train 0 0, by decide +kernel⟩,
    ⟨run [(F.LINK_PORT_STAT_STATE, 2, 0)], 0, train 1 0, by decide +kernel⟩,
    ⟨(wkrUp [(F.LINK_PORT_STAT_STATE, 2, 0)]).setPort 0 { warm := true }, 0, train 1 7, by decide +kernel⟩⟩

theorem hyps_BranchesFormAndHeal :
    (∃ s : State, s.linkOn = false) ∧ (∃ s : State, s.linkOn = true ∧ s.isManager = false ∧ s.link.coldDone = false) ∧
    (∃ s : State, s.refFallback = false) ∧ (∃ s : State, s.linkOn = true) ∧
    (∃ (s : State) (p : Fin 2), s.isManager = false ∧ s.upstream = some p.val ∧ s.portState p ≠ 0) ∧
    (∃ (s : State) (p : Fin 2), s.isManager = true ∨ s.upstream ≠ some p.val ∨ s.portState p = 0) ∧
    (∃ (s : State) (p : Fin 2), s.linkOn = true ∧ s.isManager = false ∧ s.upstream = some p.val) ∧
    (∃ (s : State) (p : Fin 2), s.linkOn = true ∧ (s.isManager = true ∨ s.upstream ≠ some p.val)) ∧
    (∃ (s : State) (p : Fin 2) (d : Fin 64), s.isManager = true ∧ (tget s.link.wkr d).lastPort = p) ∧
    (∃ (s : State) (d : Nat), s.isManager = false ∧ s.downstream = some d) ∧
    (∃ (s : State) (p : Fin 2), s.linkOn = true ∧ s.portUp p = true ∧ s.downstream = some p.val) ∧
    (∃ (s : State) (p : Fin 2), s.linkOn = true ∧ s.portUp p = false) ∧ (∃ s : State, Asks s) ∧
    (∃ (s : State) (w : Fin 3), s.switchConducts w = false) ∧ (∃ (s : State) (w : Fin 3), s.switchConducts w = true ∧
      (tget s.link.sw w).trips = 2 ∧ s.now ≤ (tget s.link.sw w).closedAt + 100000) :=
  ⟨⟨.reset, by decide +kernel⟩, ⟨wkr 1 [], by decide +kernel⟩, ⟨run [], rfl⟩, ⟨run [], by decide +kernel⟩,
    ⟨wkrUp [(F.LINK_PORT_STAT_STATE, 2, 0)], 0, by decide +kernel⟩, ⟨run [], 0, by decide +kernel⟩, ⟨wkrUp [], 0, by decide +kernel⟩,
    ⟨run [], 0, by decide +kernel⟩, ⟨run [], 0, 63, by decide +kernel⟩, ⟨wkrUp [], 1, by decide +kernel⟩, ⟨wkrUp [(F.LINK_PORT_STAT_STATE, 3, 1)], 1, by decide +kernel⟩,
    ⟨run [], 0, by decide +kernel⟩, ⟨run [], of_asks (by decide +kernel)⟩, ⟨run [], 0, by decide +kernel⟩,
    ⟨{ run [(F.LINK_PH_CTRL_INJ_A, 1, 0)] with link := { sw := tset State.reset.link.sw 0 { trips := 2 } } }, 0, by decide +kernel⟩⟩

/-- A down-frame header of version 1 with the stamp 0 and a bad or good HCRC (R122). -/
def downHead (good : Bool) : List Byte :=
  let b : List Byte := [0x10, 0, 0, 0, 0, 0, 0, 0, 0, 0, 0, 0]
  [0xFB] ++ b ++ [BitVec.ofNat 8 (crc8 b + if good then 0 else 1)]

/-- A worker that runs, synchronised, with its upstream on port 0, which is up, and its downstream on port 1. -/
def inBranch : State := ticks (wkrUp [(F.LINK_PORT_STAT_STATE, 3, 0), (F.LINK_PORT_STAT_STATE, 3, 1),
  (F.ESC_STAT_SYNC, syncSynced, 0)])

theorem hyps_DownFramesAreSent :
    (∃ s : State, s.sendsFrames = false) ∧
    (∃ s : State, s.sendsFrames = true ∧ (s.passToTick (4000 * s.nextSwing)).sendsFrames = true) ∧
    (∃ (s : State) (p : Fin 2), (s.downBuild 1).portSends p = true) ∧
    ∃ (g : List Nat) (c : List (List Byte)), g.length = 3 ∧ c.length ≤ 8 :=
  ⟨⟨run [], by decide +kernel⟩, ⟨{ run [] with ticking := true, tick := 3999 }, by decide +kernel⟩,
    ⟨run [(F.LINK_PORT_STAT_STATE, 3, 0)], 0, by decide +kernel⟩, ⟨[0, 1, 2], List.replicate 8 [0x13], by decide⟩⟩

theorem hyps_DownFramesAreTaken_header :
    (∃ b : List Byte, b.length = 14) ∧ (∃ s : State, s.linkOn = false) ∧
    (∃ (s : State) (p : Fin 2), s.linkOn = true ∧ s.isManager = true ∧ (s.port p).secondMgr = false) ∧
    (∃ (s : State) (p : Fin 2), s.linkOn = true ∧ s.isManager = false ∧ (s.upstream ≠ some p.val ∨ s.portRepeats p = false)) ∧
    (∃ (s : State) (p : Fin 2) (b : List Byte), b.length = 14 ∧ s.linkOn = true ∧ s.isManager = false ∧ s.upstream = some p.val ∧
      s.portRepeats p = true ∧ crc8 (slice b 1 12) ≠ byteAt b 13) ∧
    (∃ (s : State) (p : Fin 2) (b : List Byte), b.length = 14 ∧ s.linkOn = true ∧ s.isManager = false ∧ s.upstream = some p.val ∧
      s.portRepeats p = true ∧ crc8 (slice b 1 12) = byteAt b 13 ∧ s.syncUnder ≠ syncUnsynced ∧
      leAt b 2 8 ≠ 4000 * (s.tick / 4000)) ∧
    (∃ (s : State) (p : Fin 2) (b : List Byte), b.length = 14 ∧ s.linkOn = true ∧ s.isManager = false ∧ s.upstream = some p.val ∧
      s.portRepeats p = true ∧ crc8 (slice b 1 12) = byteAt b 13 ∧ byteAt b 1 / 16 = 1 ∧ s.link.taken ≠ some (leAt b 2 8 / 4000) ∧
      s.syncUnder ≠ syncUnsynced ∧ leAt b 2 8 = 4000 * (s.tick / 4000)) ∧
    (∃ (s : State) (p : Fin 2) (b : List Byte), b.length = 14 ∧ s.linkOn = true ∧ s.isManager = false ∧ s.upstream = some p.val ∧
      s.portRepeats p = true ∧ crc8 (slice b 1 12) = byteAt b 13 ∧ byteAt b 1 / 16 = 1 ∧ s.link.taken ≠ some (leAt b 2 8 / 4000) ∧
      s.syncUnder = syncUnsynced) ∧
    (∃ (s : State) (d : Nat), d < 2 ∧ s.downstream = some d ∧ s.portRepeats d = true) :=
  ⟨⟨downHead true, by decide +kernel⟩, ⟨.reset, by decide +kernel⟩, ⟨run [], 0, by decide +kernel⟩, ⟨inBranch, 1, by decide +kernel⟩,
    ⟨inBranch, 0, downHead false, by decide +kernel⟩, ⟨{ inBranch with tick := 4000 }, 0, downHead true, by decide +kernel⟩,
    ⟨{ inBranch with tick := 3999 }, 0, downHead true, by decide +kernel⟩,
    ⟨inBranch.put F.ESC_STAT_SYNC syncUnsynced, 0, downHead true, by decide +kernel⟩, ⟨inBranch, 1, by decide +kernel⟩⟩

/-- The PLL runs on the reference of the device's place (R74, R118). -/
def locked (s : State) : Prop := s.refFallback = false ∧ s.on F.SYS_CLK_STAT_PLL_LOCK = true

theorem hyps_DownFramesAreTaken_accept :
    (∃ s : State, s.linkOn = false) ∧ (∃ s : State, s.linkOn = true ∧ s.link.header = none) ∧
    (∃ (s : State) (b h : List Byte), s.linkOn = true ∧ s.link.header = some h ∧ crc16 (b.drop 2) ≠ leAt b 0 2) ∧
    (∃ (s : State) (b h : List Byte), s.linkOn = true ∧ s.link.header = some h ∧ crc16 (b.drop 2) = leAt b 0 2) ∧
    (∃ s : State, s.refFallback = true) ∧ (∃ s : State, s.on F.SYS_CLK_STAT_PLL_LOCK = false) ∧
    (∃ s : State, locked s ∧ s.syncUnder = syncUnsynced) ∧ (∃ s : State, locked s ∧ s.syncUnder = syncCoarse) ∧
    (∃ s : State, locked s ∧ s.syncUnder ≠ syncUnsynced ∧ s.syncUnder ≠ syncCoarse) ∧
    (∃ b : List Byte, cmdMeaning (byteAt b 0) = none) ∧ (∃ s : State, s.isManager = true) ∧ (∃ s : State, s.isManager = false) ∧
    (∃ c : State, c.link.everTaken = false) ∧
    (∃ (c : State) (k : Nat), c.link.everTaken = true ∧ c.collector = true ∧ c.link.taken ≠ some k ∧ c.link.missed + 1 = 5) :=
  ⟨⟨.reset, by decide +kernel⟩, ⟨inBranch, by decide +kernel⟩,
    ⟨{ inBranch with link := { inBranch.link with header := some (downHead true) } }, [0, 1], downHead true, by decide +kernel⟩,
    ⟨{ inBranch with link := { inBranch.link with header := some (downHead true) } },
      leBytes (crc16 []) 2, downHead true, by decide +kernel⟩,
    ⟨{ run [] with refFallback := true }, rfl⟩, ⟨run [], by decide +kernel⟩,
    ⟨wkr 1 [(F.SYS_CLK_STAT_PLL_LOCK, 1, 0)], by unfold locked; decide +kernel⟩,
    ⟨wkr 1 [(F.SYS_CLK_STAT_PLL_LOCK, 1, 0), (F.ESC_STAT_SYNC, syncCoarse, 0)], by unfold locked; decide +kernel⟩,
    ⟨inBranch.put F.SYS_CLK_STAT_PLL_LOCK 1, by unfold locked; decide +kernel⟩, ⟨[0xFF], by decide +kernel⟩, ⟨run [], by decide +kernel⟩, ⟨inBranch, by decide +kernel⟩, ⟨run [], rfl⟩,
    ⟨{ run [] with collector := true, link := { everTaken := true, missed := 4 } }, 0, by decide +kernel⟩⟩

/-- The end of a branch on its upstream port 0. -/
def endOfBranch : State := inBranch.put F.LINK_PORT_STAT_STATE 0 1 |>.branchEnd

theorem hyps_UpFrames_worker :
    (∃ s : State, s.sendsUp = false) ∧ (∃ s : State, s.sendsUp = true) ∧
    (∃ (s : State) (p : Nat), p < 2 ∧ s.upstream = some p ∧ s.portSends p = true ∧ s.link.grants.length = 3 ∧
      s.link.taken = some s.swing ∧ s.link.header ≠ none) ∧
    (∃ (s : State) (p : Nat), p < 2 ∧ s.upstream = some p ∧ s.portSends p = true ∧ s.link.taken = some s.swing ∧
      s.link.header = none ∧ s.link.accepted ≠ some s.swing ∧ s.swing ∉ s.link.acceptedLog) ∧
    (∃ (s : State) (b : List Byte), b.length = 334 ∧ s.isManager = true) ∧
    (∃ (s : State) (b : List Byte), b.length = 334 ∧ s.isManager = false ∧ s.linkOn = true) ∧
    (∃ (s : State) (p : Nat), p < 2 ∧ s.upstream = some p ∧ s.portSends p = true ∧ s.hasNumber = true) ∧
    (∃ (s : State) (p : Nat), p < 2 ∧ (s.port p).frame.length = 334 ∧ s.hasNumber = true ∧ s.link.dupStop = false ∧ 1 ≤ s.devNo ∧
      s.devNo ≤ 63 ∧ wordValid (leAt (s.port p).frame (8 + 2 * (s.devNo - 1)) 2) = false) ∧
    (∃ (s : State) (p w : Nat), p < 2 ∧ (s.port p).frame.length = 334 ∧ s.hasNumber = true ∧ s.link.dupStop = false ∧ 1 ≤ s.devNo ∧
      s.devNo ≤ 63 ∧ w = leAt (s.port p).frame (8 + 2 * (s.devNo - 1)) 2 ∧ wordValid w = true) :=
  ⟨⟨run [], by decide +kernel⟩, ⟨endOfBranch, by decide +kernel⟩,
    ⟨{ endOfBranch with link := { endOfBranch.link with taken := some 0, header := some (downHead true) } }, 0, by decide +kernel⟩,
    ⟨{ endOfBranch with link := { endOfBranch.link with taken := some 0 } }, 0, by decide +kernel⟩,
    ⟨run [], List.replicate 334 0, by decide +kernel⟩, ⟨inBranch, List.replicate 334 0, by decide +kernel⟩, ⟨inBranch, 0, by decide +kernel⟩,
    ⟨inBranch.setPort 0 { frame := List.replicate 334 0 }, 0, by decide +kernel⟩,
    ⟨inBranch.setPort 0 { frame := List.replicate 12 0 ++ leBytes (inBranch.statusWord 0 1) 2 ++ List.replicate 320 0 }, 0, _,
      by decide +kernel, by decide +kernel, by decide +kernel, rfl, by decide +kernel, by decide +kernel, rfl, by decide +kernel⟩⟩

/-- An up frame of swing 0 with no words, by the layout of R125. -/
def upFrame (good : Bool) : List Byte :=
  let b : List Byte := [0, 0, 0, 0, 0, 0]
  [0xFD] ++ b ++ [BitVec.ofNat 8 (crc8 b + if good then 0 else 1)] ++ List.replicate 326 0

theorem hyps_UpFrames_manager :
    (∃ (s : State) (p : Fin 2) (b : List Byte), b.length = 334 ∧ (s.sendsFrames = false ∨ s.portUp p = false)) ∧
    (∃ (s : State) (p : Fin 2) (b : List Byte), b.length = 334 ∧ s.sendsFrames = true ∧ s.portUp p = true ∧
      crc8 (slice b 1 6) ≠ byteAt b 7) ∧
    (∃ (s : State) (p : Fin 2) (b : List Byte), b.length = 334 ∧ s.sendsFrames = true ∧ s.portUp p = true ∧
      crc8 (slice b 1 6) = byteAt b 7) ∧
    (∃ s : State, ∀ e ∈ s.link.lineDue, s.now < e.1) ∧ (∃ w : Nat, wordValid w = true) ∧ (∃ w : Nat, wordValid w = false) ∧
    (∃ (s : State) (d : Fin 64), (tget s.link.wkr d).lastPort = 0 ∧ s.maskBit F.LINK_WKR d = true) ∧
    (∃ (i j : Fin 8) (w : Nat), 0 < 8 * i.val + j.val ∧ w.testBit j = true) ∧
    (∃ (s : State) (d : Fin 64) (t : Nat), s.lostAt d = some t ∧ t ≤ s.tick) :=
  ⟨⟨run [], 0, upFrame true, by decide +kernel⟩, ⟨ticks (run [(F.LINK_PORT_STAT_STATE, 3, 0)]), 0, upFrame false, by decide +kernel⟩,
    ⟨ticks (run [(F.LINK_PORT_STAT_STATE, 3, 0)]), 0, upFrame true, by decide +kernel⟩, ⟨run [], by decide +kernel⟩,
    ⟨inBranch.statusWord 0 1, by decide +kernel⟩, ⟨0, by decide +kernel⟩, ⟨(run []).setMaskBit F.LINK_WKR 63 true, 63, by decide +kernel⟩,
    ⟨0, 1, 2, by decide⟩,
    ⟨{ (run []).setMaskBit F.LINK_WKR 63 true with tick := 27534, link := { wkr := tset State.reset.link.wkr 63 { lastSwing := some 0 } } },
      63, 27534, by decide +kernel⟩⟩

theorem of_hears {op : Nat} {b : List Byte} {s : State} (h : (linkForm op b && !s.isManager && s.fabricOn &&
    (if op < 4 then s.targeted b else s.addressed (byteAt b 4))) = true) : Hears op b s := by
  simp only [Bool.and_eq_true, Bool.not_eq_true'] at h
  exact ⟨h.1.1.1, h.1.1.2, h.1.2, h.2⟩

theorem hyps_ControlCommandsAct :
    (∃ s b, Hears 0x10 b s ∧ byteAt b 5 = 3) ∧ (∃ s b, Hears 0x11 b s) ∧ (∃ s b, Hears 0x12 b s) ∧
    (∃ s b, Hears 0x13 b s ∧ s.rest.entry = none ∧ leAt b 8 8 < s.tick + 200) ∧
    (∃ s b, Hears 0x13 b s ∧ s.rest.entry = none ∧ s.tick + 200 ≤ leAt b 8 8) ∧
    (∃ s b, Hears 0x20 b s ∧ (s.hasNumber = true ∨ s.upstream = none)) ∧
    (∃ s b p, Hears 0x20 b s ∧ s.hasNumber = false ∧ s.upstream = some p ∧ byteAt b (5 + p) = 0) ∧
    (∃ s b p, Hears 0x20 b s ∧ s.hasNumber = false ∧ s.upstream = some p ∧ byteAt b (5 + p) ≠ 0 ∧
      63 < byteAt b (5 + p) + s.get F.LINK_PORT_STAT_HOPS_VIA p - 1) ∧
    (∃ s b p, Hears 0x20 b s ∧ s.hasNumber = false ∧ s.upstream = some p ∧ byteAt b (5 + p) ≠ 0 ∧
      byteAt b (5 + p) + s.get F.LINK_PORT_STAT_HOPS_VIA p - 1 ≤ 63) ∧
    (∃ (s : State) (b : List Byte) (op : Nat) (i : Instr), (op, i) ∈ strikeCommands b ∧ linkForm op b = true ∧ s.targeted b = false) ∧
    (∃ (s : State) (b : List Byte) (op : Nat) (i : Instr), (op, i) ∈ destCommands b ∧ linkForm op b = true ∧
      s.addressed (byteAt b 4) = false) ∧
    (∃ (s : State) (d : Nat), 1 ≤ d ∧ d ≤ 63 ∧ s.hasNumber = true ∧ s.link.dupStop = false) ∧
    ∃ (s : State) (d : Nat), d ≠ 0xFF ∧ s.hasNumber = false :=
  ⟨⟨inBranch, cmdBytes 0x10 0 0xFF 3 0 0 (leBytes 0 8), of_hears (by decide +kernel), by decide +kernel⟩,
    ⟨inBranch, cmdBytes 0x11 0 3 3 0 0 [], of_hears (by decide +kernel)⟩, ⟨inBranch, cmdBytes 0x12 0 3 3 0 0 [], of_hears (by decide +kernel)⟩,
    ⟨inBranch, cmdBytes 0x13 0 3 0 0 0 (leBytes 199 8), of_hears (by decide +kernel), by decide +kernel⟩,
    ⟨inBranch, cmdBytes 0x13 0 3 0 0 0 (leBytes 200 8), of_hears (by decide +kernel), by decide +kernel⟩,
    ⟨inBranch, cmdBytes 0x20 0 0xFF 0 0 0 [], of_hears (by decide +kernel), by decide +kernel⟩,
    ⟨(inBranch.put F.HIER_STAT_DEV_SRC 0), cmdBytes 0x20 0 0xFF 0 0 0 [], 0, of_hears (by decide +kernel), by decide +kernel⟩,
    ⟨(inBranch.put F.HIER_STAT_DEV_SRC 0).put F.LINK_PORT_STAT_HOPS_VIA 2 0, cmdBytes 0x20 0 0xFF 63 0 0 [], 0, of_hears (by decide +kernel),
      by decide +kernel⟩,
    ⟨(inBranch.put F.HIER_STAT_DEV_SRC 0).put F.LINK_PORT_STAT_HOPS_VIA 1 0, cmdBytes 0x20 0 0xFF 63 0 0 [], 0, of_hears (by decide +kernel),
      by decide +kernel⟩,
    ⟨inBranch, strikeBody 1 0 1 0 4, 1, _, List.mem_cons_self .., by decide +kernel⟩,
    ⟨inBranch, cmdBytes 0x10 0 4 0 0 0 (leBytes 0 8), 0x10, _, List.mem_cons_self .., by decide +kernel⟩,
    ⟨inBranch, 63, by decide +kernel⟩, ⟨run [], 0, by decide +kernel⟩⟩

/-- A BEAT command of number `n` at tick `t` for worker 3 (R101, R123). -/
def beatCmd (n t : Nat) : List Byte := body40 (leBytes 3 1 ++ [0, 0, 0] ++ leBytes t 8 ++ leBytes 8 8 ++ leBytes n 4)

def beating (b : BeatSt) (n : Nat) : State :=
  { (inBranch.put F.ESC_BEAT_STAT_RUN 1).put F.ESC_BEAT_NUM n with beat := b }

theorem hyps_StrikeCommandsAct :
    (∃ s b, Hears 0x01 b s) ∧ (∃ s b, Hears 0x02 b s) ∧
    (∃ s b, Hears 0x03 b s ∧ s.beat.next ≠ some (leAt b 4 8) ∧ s.on F.ESC_BEAT_STAT_RUN = false ∧ s.beat.merged = false ∧
      s.sync = syncSynced ∧ s.tick + 200 ≤ leAt b 4 8) ∧
    (∃ s b, Hears 0x03 b s ∧ s.beat.next ≠ some (leAt b 4 8) ∧ s.on F.ESC_BEAT_STAT_RUN = true ∧
      s.get F.ESC_BEAT_NUM ≠ leAt b 20 4 ∧ s.beat.merged = false ∧ s.sync = syncSynced ∧ s.tick + 200 ≤ leAt b 4 8 ∧
      s.beat.next = none ∧ s.beat.nextNum = leAt b 20 4) ∧
    (∃ s b, ∃ g : Nat, Hears 0x03 b s ∧ s.beat.next ≠ some (leAt b 4 8) ∧ s.on F.ESC_BEAT_STAT_RUN = true ∧
      s.get F.ESC_BEAT_NUM ≠ leAt b 20 4 ∧ s.beat.merged = false ∧ s.sync = syncSynced ∧ s.tick + 200 ≤ leAt b 4 8 ∧
      s.beat.next = none ∧ 0 < g ∧ g < 2 ^ 31 ∧ leAt b 20 4 = s.beat.nextNum + g) ∧
    (∃ s b, ∃ g : Nat, Hears 0x03 b s ∧ s.beat.next = none ∧ s.on F.ESC_BEAT_STAT_RUN = true ∧ s.get F.ESC_BEAT_NUM ≠ leAt b 20 4 ∧
      s.beat.merged = false ∧ (s.sync ≠ syncSynced ∨ leAt b 4 8 < s.tick + 200) ∧ g < 2 ^ 31 ∧ leAt b 20 4 = s.beat.nextNum + g) ∧
    (∃ s b, Hears 0x03 b s ∧ s.beat.next = some (leAt b 4 8)) ∧
    (∃ s b, Hears 0x03 b s ∧ s.on F.ESC_BEAT_STAT_RUN = true ∧ s.get F.ESC_BEAT_NUM = leAt b 20 4) ∧
    ∃ s b, Hears 0x03 b s ∧ s.beat.next ≠ some (leAt b 4 8) ∧ s.on F.ESC_BEAT_STAT_RUN = false ∧ s.beat.merged = false ∧
      (s.sync ≠ syncSynced ∨ leAt b 4 8 < s.tick + 200) :=
  ⟨⟨inBranch, strikeBody 1 0 1 0 8, of_hears (by decide +kernel)⟩, ⟨inBranch, strikeBody 2 0 1 0 8, of_hears (by decide +kernel)⟩,
    ⟨inBranch, beatCmd 0 200, of_hears (by decide +kernel), by decide +kernel⟩,
    ⟨beating { nextNum := 5 } 4, beatCmd 5 200, of_hears (by decide +kernel), by decide +kernel⟩,
    ⟨beating { nextNum := 5 } 4, beatCmd 7 200, 2, of_hears (by decide +kernel), by decide +kernel⟩,
    ⟨beating { nextNum := 5 } 4, beatCmd 6 199, 1, of_hears (by decide +kernel), by decide +kernel⟩,
    ⟨beating { next := some 4000 } 4, beatCmd 5 4000, of_hears (by decide +kernel), by decide +kernel⟩,
    ⟨beating {} 4, beatCmd 4 4000, of_hears (by decide +kernel), by decide +kernel⟩,
    ⟨inBranch, beatCmd 0 199, of_hears (by decide +kernel), by decide +kernel⟩⟩

/-- A point table whose point 2047 names a loop and lets every party read and write it (R152). -/
def points : SMap := [(9 * 16384 + 2048 + 2047, 0x00070003)]

theorem hyps_RemoteAccessesAct :
    (∃ s b, Hears 0x21 b s ∧ wantsReply b = true ∧ s.replyHeld (byteAt b 2) = true) ∧
    (∃ s b, Hears 0x21 b s ∧ s.heldTag b = false ∧ s.pointsOk b false ≠ 0) ∧
    (∃ s b, Hears 0x21 b s ∧ s.heldTag b = false ∧ s.pointsOk b false = 0) ∧
    (∃ s b, Hears 0x22 b s ∧ s.heldTag b = false ∧ s.pointsOk b true ≠ 0) ∧
    (∃ s b, Hears 0x22 b s ∧ s.heldTag b = false ∧ s.pointsOk b true = 0) ∧
    (∃ s b, Hears 0x23 b s ∧ s.heldTag b = false ∧ countCheck (byteAt b 7) (regsCheck (leAt b 5 2) (byteAt b 7)) ≠ 0) ∧
    (∃ s b, Hears 0x24 b s ∧ s.heldTag b = false ∧ countCheck (byteAt b 7) (regsCheck (leAt b 5 2) (byteAt b 7)) = 0) ∧
    (∃ (s : State) (b : List Byte), wantsReply b = true ∧ (∀ x ∈ s.link.replies, x.tag ≠ byteAt b 2)) ∧
    ∃ b : List Byte, wantsAns b = true :=
  ⟨⟨{ inBranch with link := { inBranch.link with replies := [⟨0, 0, 0, []⟩] } }, cmdBytes 0x21 1 3 0 0 1 [], of_hears (by decide +kernel),
      by decide +kernel⟩,
    ⟨inBranch, cmdBytes 0x21 1 3 0 0 1 [], of_hears (by decide +kernel), by decide +kernel⟩,
    ⟨{ inBranch with sram := points }, cmdBytes 0x21 1 3 0xFF 7 1 [], of_hears (by decide +kernel), by decide +kernel⟩,
    ⟨inBranch, cmdBytes 0x22 2 3 0 0 1 [0, 0, 0, 0], of_hears (by decide +kernel), by decide +kernel⟩,
    ⟨{ inBranch with sram := points }, cmdBytes 0x22 2 3 0xFF 7 1 [0, 0, 0, 0], of_hears (by decide +kernel), by decide +kernel⟩,
    ⟨inBranch, cmdBytes 0x23 1 3 0 0 9 [], of_hears (by decide +kernel), by decide +kernel⟩,
    ⟨inBranch, cmdBytes 0x24 2 3 0 0x30 8 (List.replicate 32 0), of_hears (by decide +kernel), by decide +kernel⟩,
    ⟨inBranch, cmdBytes 0x21 1 3 0 0 1 [], by decide +kernel⟩, ⟨cmdBytes 0x22 2 3 0 0 1 [], by decide +kernel⟩⟩

/-- Worker 3 with a stage of ID 7 in state `st`. -/
def staged (st : Nat) (g : StageSt) : State :=
  { (inBranch.put F.HIER_STAT_STG_STATE st).put F.HIER_STAT_STG_ID 7 with stage := g }

/-- A command about ID 7 with twelve bytes after it. -/
def idCmd (op : Nat) (l : List Nat) : List Byte := cmdBytes op 2 3 0 0 0 (leBytes 7 2 ++ leBytes (l.getD 0 0) 2 ++ leBytes (l.getD 1 0) 8 ++
  leBytes (l.getD 2 0) 4)

def wholeSt : StageSt := { npar := 1, len := 32, dead := 9000, got := [0] }

theorem hyps_StageCommands :
    (∃ s b, Hears 0x28 b s ∧ wantsAns b = true ∧ s.calState ≠ calLoaded) ∧
    (∃ s b, Hears 0x28 b s ∧ wantsAns b = true ∧ s.calState = calLoaded ∧ s.idQuarantined (leAt b 8 2) = false ∧ s.stgState = 0) ∧
    (∃ s b, Hears 0x28 b s ∧ wantsAns b = true ∧ s.calState = calLoaded ∧ s.idQuarantined (leAt b 8 2) = false ∧ s.stgState ≠ 0 ∧
      s.stgState ≠ stgStale ∧ s.stgId = leAt b 8 2) ∧
    (∃ s b, Hears 0x29 b s ∧ s.stgState = stgOpen ∧ chunksOf s.stage.len ≤ leAt b 5 2) ∧
    (∃ s b, Hears 0x29 b s ∧ s.stgState = stgReady ∧ leAt b 5 2 < chunksOf s.stage.len) ∧
    (∃ s b, Hears 0x2A b s ∧ wantsAns b = true ∧ s.stgState = stgReady ∧ s.stgId = leAt b 8 2) ∧
    (∃ s b, Hears 0x2B b s ∧ (s.stgState = 0 ∨ s.stgId ≠ leAt b 8 2)) ∧
    (∃ s b, Hears 0x2C b s ∧ s.stgId = leAt b 8 2 ∧ s.stgState = stgAbort) ∧
    (∃ s b, Hears 0x2B b s ∧ s.stgId = leAt b 8 2 ∧ s.stgState = stgReady ∧ s.tick + 200 ≤ leAt b 12 8 ∧ leAt b 12 8 < s.stage.dead) ∧
    (∃ s b, Hears 0x2B b s ∧ s.stgId = leAt b 8 2 ∧ s.stgState = stgStale ∧ s.stage.failed = false ∧ s.stage.checking = false ∧
      s.stageWhole = true ∧ s.tick + 200 ≤ leAt b 12 8) ∧
    (∃ s b, Hears 0x2C b s ∧ s.stgId = leAt b 8 2 ∧ s.stgState = stgOpen ∧ ¬(s.tick + 200 ≤ leAt b 12 8)) ∧
    (∃ s b, Hears 0x2D b s ∧ wantsAns b = true) :=
  ⟨⟨inBranch, idCmd 0x28 [], of_hears (by decide +kernel), by decide +kernel⟩,
    ⟨inBranch.put F.CAL_STAT_STATE calLoaded, idCmd 0x28 [1, 9000, 32], of_hears (by decide +kernel), by decide +kernel⟩,
    ⟨(staged stgOpen wholeSt).put F.CAL_STAT_STATE calLoaded, idCmd 0x28 [1, 9000, 32], of_hears (by decide +kernel), by decide +kernel⟩,
    ⟨staged stgOpen wholeSt, cmdBytes 0x29 0 3 1 0 0 (List.replicate 32 0), of_hears (by decide +kernel), by decide +kernel⟩,
    ⟨staged stgReady wholeSt, cmdBytes 0x29 0 3 0 0 0 (List.replicate 32 0), of_hears (by decide +kernel), by decide +kernel⟩,
    ⟨staged stgReady wholeSt, idCmd 0x2A [1, 32], of_hears (by decide +kernel), by decide +kernel⟩,
    ⟨inBranch, idCmd 0x2B [], of_hears (by decide +kernel), by decide +kernel⟩,
    ⟨staged stgAbort wholeSt, idCmd 0x2C [], of_hears (by decide +kernel), by decide +kernel⟩,
    ⟨staged stgReady wholeSt, idCmd 0x2B [0, 8999], of_hears (by decide +kernel), by decide +kernel⟩,
    ⟨staged stgStale wholeSt, idCmd 0x2B [0, 200], of_hears (by decide +kernel), by decide +kernel⟩,
    ⟨staged stgOpen wholeSt, idCmd 0x2C [0, 199], of_hears (by decide +kernel), by decide +kernel⟩,
    ⟨inBranch, idCmd 0x2D [], of_hears (by decide +kernel), by decide +kernel⟩⟩

/-- Worker 3 in calibration state `c` that takes a delivery. -/
def taking (c : Nat) (next : Nat) : State :=
  { inBranch.put F.CAL_STAT_STATE c with load := { src := srcDelivery }, deliv := { takes := true, next := next } }

/-- Chunk `c` of a delivery, 32 bytes (R170). -/
def chunk (c : Nat) (b : List Byte) : List Byte := cmdBytes 0x31 0 0xFF c 0 0 b

theorem hyps_DeliveryCommands :
    (∃ s b, Hears 0x30 b s ∧ s.phase = .running ∧ s.calState = calWaiting ∧ s.load.src = 0 ∧ s.load.nextSrc = 0) ∧
    (∃ s b, Hears 0x30 b s ∧ s.phase = .running ∧ s.calState ≠ calRestrict ∧ s.load.src = srcDelivery) ∧
    (∃ s b, Hears 0x30 b s ∧ s.calState = calLoaded ∧ s.load.src = 0 ∧ (byteAt b 5).testBit 0 = false) ∧
    (∃ s b, Hears 0x30 b s ∧ s.phase = .running ∧ s.calState = calLoaded ∧ s.load.src = 0 ∧ (byteAt b 5).testBit 0 = true ∧
      s.reloadOk = false) ∧
    (∃ s b, Hears 0x30 b s ∧ s.phase = .running ∧ s.calState = calLoaded ∧ s.load.src = 0 ∧ (byteAt b 5).testBit 0 = true ∧
      s.reloadOk = true) ∧
    (∃ s b, Hears 0x31 b s ∧ s.deliv.takes = true ∧ s.load.src = srcDelivery ∧ s.load.stage ≠ 3 ∧ leAt b 5 3 < s.deliv.next) ∧
    (∃ s b, Hears 0x31 b s ∧ s.deliv.takes = true ∧ s.load.src = srcDelivery ∧ s.load.stage ≠ 3 ∧ s.deliv.next < leAt b 5 3) ∧
    (∃ s b, Hears 0x31 b s ∧ s.deliv.takes = true ∧ s.load.src = srcDelivery ∧ s.load.stage ≠ 3 ∧ leAt b 5 3 = s.deliv.next ∧
      (({ s with load := { s.load with lastAt := s.now } } : State).loadFeed (slice b 8 32)).load.src ≠ 0) ∧
    (∃ s b, Hears 0x31 b s ∧ s.deliv.takes = true ∧ s.load.src = srcDelivery ∧ s.load.stage ≠ 3 ∧ leAt b 5 3 = s.deliv.next ∧
      (({ s with load := { s.load with lastAt := s.now } } : State).loadFeed (slice b 8 32)).load.src = 0) ∧
    (∃ s b, Hears 0x31 b s ∧ s.deliv.takes = false) ∧ (∃ s b, Hears 0x32 b s) ∧
    (∃ s : State, s.deliv.takes = true ∧ s.load.src = srcDelivery ∧ s.load.stage ≠ 3) :=
  ⟨⟨inBranch, cmdBytes 0x30 0 0xFF 0 0 0 [], of_hears (by decide +kernel), by decide +kernel⟩,
    ⟨taking calLoading 1, cmdBytes 0x30 0 0xFF 0 0 0 [], of_hears (by decide +kernel), by decide +kernel⟩,
    ⟨inBranch.put F.CAL_STAT_STATE calLoaded, cmdBytes 0x30 0 0xFF 0 0 0 [], of_hears (by decide +kernel), by decide +kernel⟩,
    ⟨(inBranch.put F.CAL_STAT_STATE calLoaded).put F.CHn_STAT_STATE chOn 0, cmdBytes 0x30 0 0xFF 1 0 0 [], of_hears (by decide +kernel),
      by decide +kernel⟩,
    ⟨inBranch.put F.CAL_STAT_STATE calLoaded, cmdBytes 0x30 0 0xFF 1 0 0 [], of_hears (by decide +kernel), by decide +kernel⟩,
    ⟨taking calLoading 1, chunk 0 (List.replicate 32 0), of_hears (by decide +kernel), by decide +kernel⟩,
    ⟨taking calLoading 1, chunk 2 (List.replicate 32 0), of_hears (by decide +kernel), by decide +kernel⟩,
    ⟨taking calLoading 0, chunk 0 (List.replicate 32 0), of_hears (by decide +kernel), by decide +kernel⟩,
    ⟨{ taking calLoading 1 with load := { src := srcDelivery, bytes := List.replicate 32 0 } }, chunk 1 (List.replicate 32 0),
      of_hears (by decide +kernel), by decide +kernel⟩,
    ⟨inBranch, chunk 0 (List.replicate 32 0), of_hears (by decide +kernel), by decide +kernel⟩,
    ⟨inBranch, cmdBytes 0x32 2 0xFF 0 0 0 [], of_hears (by decide +kernel)⟩, ⟨taking calLoading 1, by decide +kernel⟩⟩

theorem hyps_RemoteAccessIsQueued : ∃ (s : State) (op : Fin 4), Asks s ∧ op ≠ 0 :=
  ⟨run [], 3, of_asks (by decide +kernel), by decide⟩

/-- A manager with a commit in phase `ph`, of the targets `tgt`, owned by the host. -/
def committing (ph tgt : Nat) (c : CommitSt) : State :=
  { ticks (run [(F.HIER_CMT_STAT_PHASE, ph, 0), (F.HIER_CMT_STAT_OWNER, Party.host.code, 0), (F.HIER_CMT_TGT, tgt, 0),
      (F.HIER_CMT_STAT_ID, 7, 0)]) with commit := c }

theorem hyps_CommitsAreStaged :
    (∃ s : State, Asks s ∧ s.isManager = false) ∧
    (∃ s : State, ∃ p : Party, Asks s ∧ s.isManager = true ∧ s.cmtPhase ≠ 0 ∧ s.get F.HIER_CMT_STAT_OWNER ≠ p.code) ∧
    (∃ s : State, ∃ p : Party, Asks s ∧ s.isManager = true ∧ s.cmtPhase ≠ 0 ∧ s.get F.HIER_CMT_STAT_OWNER = p.code) ∧
    (∃ s : State, Asks s ∧ s.isManager = true ∧ s.cmtPhase = 0) ∧
    (∃ s : State, ∃ p : Party, Asks s ∧ s.isManager = true ∧ s.cmtPhase ≠ 0 ∧ s.cmtPhase ≠ cmtStaging ∧ s.cmtPhase ≠ cmtPreparing ∧
      s.get F.HIER_CMT_STAT_OWNER = p.code) :=
  ⟨⟨inBranch, of_asks (by decide +kernel), by decide +kernel⟩, ⟨committing 1 0 {}, .link, of_asks (by decide +kernel), by decide +kernel⟩,
    ⟨committing 1 0 {}, .host, of_asks (by decide +kernel), by decide +kernel⟩, ⟨run [], of_asks (by decide +kernel), by decide +kernel⟩,
    ⟨committing cmtCommit 0 {}, .host, of_asks (by decide +kernel), by decide +kernel⟩⟩

/-- A manager about to open a commit for itself (bit 0) or worker 3, of a stage of `len` bytes. -/
def opening (tgt len dead : Nat) : State :=
  ticks (run [(F.HIER_CMT_TGT, tgt, 0), (F.HIER_CMT_LEN_STAGE_LEN, len, 0), (F.HIER_CMT_LEN_NPAR, 1, 0), (F.HIER_CMT_DEAD_VALUE, dead, 0)])

/-- T_d lies within the bounds of R160 for the tick after that of `s`. -/
theorem hyps_CommitsOpenAndDecide_open :
    (∃ s : State, Asks s ∧ s.isManager = true ∧ s.cmtPhase = 0 ∧ s.cmtTgt = 0) ∧
    (∃ s c : State, Asks s ∧ s.NextCycle c ∧ s.isManager = true ∧ s.cmtPhase = 0 ∧
      36000 ≤ c.tickOf (s.get F.HIER_CMT_DEAD_VALUE) - c.tick ∧
      c.tickOf (s.get F.HIER_CMT_DEAD_VALUE) - c.tick ≤ 2 ^ 31 - 1 ∧ s.cmtTgt ≠ 0 ∧ 20 ≤ s.get F.HIER_CMT_LEN_STAGE_LEN ∧
      s.get F.HIER_CMT_LEN_STAGE_LEN ≤ 24576 ∧ s.get F.HIER_CMT_LEN_NPAR ≠ 0 ∧ s.cmtSelf = true ∧ s.stgState = 0 ∧ s.cmtWorkers ≠ 0) ∧
    (∃ s c : State, Asks s ∧ s.NextCycle c ∧ s.isManager = true ∧ s.cmtPhase = 0 ∧
      36000 ≤ c.tickOf (s.get F.HIER_CMT_DEAD_VALUE) - c.tick ∧
      c.tickOf (s.get F.HIER_CMT_DEAD_VALUE) - c.tick ≤ 2 ^ 31 - 1 ∧ s.cmtTgt ≠ 0 ∧ 20 ≤ s.get F.HIER_CMT_LEN_STAGE_LEN ∧
      s.get F.HIER_CMT_LEN_STAGE_LEN ≤ 24576 ∧ s.get F.HIER_CMT_LEN_NPAR ≠ 0 ∧ s.cmtSelf = false ∧ s.cmtWorkers ≠ 0) ∧
    (∃ s : State, Asks s ∧ s.isManager = true ∧ (s.cmtPhase = cmtStaging ∨ s.cmtPhase = cmtPreparing) ∧
      s.get F.HIER_CMT_STAT_OWNER = Party.host.code ∧ s.cmtWorkers = 0) ∧
    (∃ s : State, Asks s ∧ s.isManager = true ∧ (s.cmtPhase = cmtStaging ∨ s.cmtPhase = cmtPreparing) ∧
      s.get F.HIER_CMT_STAT_OWNER = Party.host.code ∧ s.cmtWorkers ≠ 0) :=
  ⟨⟨run [], of_asks (by decide +kernel), by decide +kernel⟩,
    ⟨opening 9 20 36001, { opening 9 20 36001 with now := 1, tick := 1 }, of_asks (by decide +kernel), State.Aside.refl _, by decide +kernel⟩,
    ⟨opening 8 24576 36001, { opening 8 24576 36001 with now := 1, tick := 1 }, of_asks (by decide +kernel), State.Aside.refl _, by decide +kernel⟩,
    ⟨committing cmtStaging 1 {}, of_asks (by decide +kernel), by decide +kernel⟩,
    ⟨committing cmtPreparing 8 {}, of_asks (by decide +kernel), by decide +kernel⟩⟩

theorem hyps_CommitsOpenAndDecide_decide :
    (∃ s : State, Asks s ∧ s.isManager = true ∧ s.cmtPhase = cmtStaging ∧ s.get F.HIER_CMT_STAT_OWNER = Party.host.code ∧
      s.get64 F.HIER_CMT_READY ≠ s.cmtTgt) ∧
    (∃ s c : State, Asks s ∧ s.NextCycle c ∧ s.isManager = true ∧ s.cmtPhase = cmtPreparing ∧
      s.get F.HIER_CMT_STAT_OWNER = Party.host.code ∧ s.get64 F.HIER_CMT_READY = s.cmtTgt ∧ s.cmtWorkers ≠ 0 ∧
      12000 ≤ c.tickOf (s.get F.HIER_CMT_TICK_VALUE) - c.tick ∧ c.tickOf (s.get F.HIER_CMT_TICK_VALUE) < s.commit.dead) ∧
    (∃ s c : State, Asks s ∧ s.NextCycle c ∧ s.isManager = true ∧ s.cmtPhase = cmtPreparing ∧
      s.get F.HIER_CMT_STAT_OWNER = Party.host.code ∧ s.get64 F.HIER_CMT_READY = s.cmtTgt ∧
      c.tickOf (s.get F.HIER_CMT_TICK_VALUE) - c.tick < 12000 ∧ s.cmtWorkers ≠ 0) ∧
    (∃ s c : State, Asks s ∧ s.NextCycle c ∧ s.isManager = true ∧ s.cmtPhase = cmtPreparing ∧
      s.get F.HIER_CMT_STAT_OWNER = Party.host.code ∧ s.get64 F.HIER_CMT_READY = s.cmtTgt ∧ s.cmtSelf = true ∧ s.stgState ≠ 0 ∧
      200 ≤ c.tickOf (s.get F.HIER_CMT_TICK_VALUE) - c.tick ∧ s.cmtWorkers = 0 ∧ s.commit.dead ≤ c.tickOf (s.get F.HIER_CMT_TICK_VALUE)) :=
  ⟨⟨committing cmtStaging 8 {}, of_asks (by decide +kernel), by decide +kernel⟩,
    ⟨((committing cmtPreparing 8 { dead := 12002 }).put F.HIER_CMT_READY 8).put F.HIER_CMT_TICK_VALUE 12001,
      { ((committing cmtPreparing 8 { dead := 12002 }).put F.HIER_CMT_READY 8).put F.HIER_CMT_TICK_VALUE 12001 with now := 1, tick := 1 },
      of_asks (by decide +kernel), State.Aside.refl _, by decide +kernel⟩,
    ⟨((committing cmtPreparing 8 {}).put F.HIER_CMT_READY 8).put F.HIER_CMT_TICK_VALUE 12000,
      { ((committing cmtPreparing 8 {}).put F.HIER_CMT_READY 8).put F.HIER_CMT_TICK_VALUE 12000 with now := 1, tick := 1 },
      of_asks (by decide +kernel), State.Aside.refl _, by decide +kernel⟩,
    ⟨(((committing cmtPreparing 1 {}).put F.HIER_CMT_READY 1).put F.HIER_CMT_TICK_VALUE 201).put F.HIER_STAT_STG_STATE stgReady,
      { (((committing cmtPreparing 1 {}).put F.HIER_CMT_READY 1).put F.HIER_CMT_TICK_VALUE 201).put F.HIER_STAT_STG_STATE stgReady with
        now := 1, tick := 1 }, of_asks (by decide +kernel), State.Aside.refl _, by decide +kernel⟩⟩

theorem hyps_StagesEnd :
    (∃ s : State, s.stage.checking = false) ∧ (∃ s : State, s.stage.checking = true ∧ s.stgState ≠ stgOpen ∧ s.stgState ≠ stgStale) ∧
    (∃ s : State, s.stage.checking = true ∧ s.stgState = stgOpen ∧ s.isManager = false ∧ s.stageCode s.stage.npar s.stage.len ≠ 0) ∧
    (∃ s : State, s.stage.checking = true ∧ s.stgState = stgStale ∧ s.isManager = false) ∧
    (∃ s : State, s.stage.checking = true ∧ s.stgState = stgOpen ∧ s.isManager = true) ∧
    (∃ s : State, s.stage.armedAt = none ∨ s.ticking = false) ∧
    (∃ (s : State) (t : Nat), s.stage.armedAt = some t ∧ s.ticking = true ∧ s.tick < t) ∧
    (∃ (s : State) (t : Nat), s.stage.armedAt = some t ∧ s.ticking = true ∧ s.tick = t) ∧
    (∃ s : State, s.isManager = false ∧ s.stgState = stgCommit) ∧ (∃ s : State, s.isManager = false ∧ s.stgState = stgAbort) ∧
    (∃ s : State, s.stgState = 0) ∧ (∃ s : State, s.stgState ≠ 0 ∧ s.ticking = true) ∧
    (∃ s : State, s.isManager = false ∧ s.stgState = stgOpen ∧ s.stage.dead = s.tick) ∧
    (∃ s : State, s.isManager = false ∧ s.stgState = stgReady ∧ s.stage.dead < s.tick) :=
  ⟨⟨run [], rfl⟩, ⟨staged stgReady { wholeSt with checking := true }, by decide +kernel⟩,
    ⟨staged stgOpen { wholeSt with checking := true }, by decide +kernel⟩, ⟨staged stgStale { wholeSt with checking := true }, by decide +kernel⟩,
    ⟨{ run [(F.HIER_STAT_STG_STATE, stgOpen, 0)] with stage := { wholeSt with checking := true } }, by decide +kernel⟩,
    ⟨run [], by decide +kernel⟩, ⟨ticks (staged stgCommit { wholeSt with armedAt := some 200 }), 200, by decide +kernel⟩,
    ⟨ticks (staged stgCommit { wholeSt with armedAt := some 0 }), 0, by decide +kernel⟩, ⟨staged stgCommit wholeSt, by decide +kernel⟩,
    ⟨staged stgAbort wholeSt, by decide +kernel⟩, ⟨run [], by decide +kernel⟩, ⟨ticks (staged stgOpen wholeSt), by decide +kernel⟩,
    ⟨staged stgOpen { wholeSt with dead := 0 }, by decide +kernel⟩, ⟨{ staged stgReady wholeSt with tick := 9001 }, by decide +kernel⟩⟩

/-- A manager that sends down frames. -/
def sending : State := ticks (run [(F.ESC_STAT_SYNC, syncManager, 0), (F.LINK_PORT_STAT_STATE, 3, 0)])

/-- The first 512 bytes of a flash that holds MAGIC and a length of 4,096 bytes. -/
def magicFlash : List Byte := leBytes 0x4C414346 4 ++ List.replicate 8 0 ++ leBytes 4096 4 ++ List.replicate 496 0

theorem hyps_DeliveriesAndRelay_frames :
    (∃ s : State, s.commit.checkAt = none ∧ s.commit.repairs = []) ∧
    (∃ (s : State) (t : Nat), earlier s.commit.checkAt (earliest (s.commit.repairs.map (fun r => some r.2))) = some t) ∧
    (∃ (s : State) (k : Nat), s.sendsFrames = true ∧ (s.passToTick (4000 * max k s.nextSwing)).sendsFrames = true) ∧
    (∃ (s : State) (k t : Nat), s.commit.checkAt = some t ∧ t = 4000 * k) ∧ (∃ s : State, s.deliv.queryAt = none) ∧
    (∃ (s : State) (k q : Nat), s.deliv.queryAt = some q ∧ q ≤ k) :=
  ⟨⟨run [], rfl, rfl⟩, ⟨{ run [] with commit := { checkAt := some 4000, repairs := [(3, 3999)] } }, 3999, by decide +kernel⟩,
    ⟨sending, 0, by decide +kernel⟩, ⟨{ run [] with commit := { checkAt := some 4000 } }, 1, 4000, by decide +kernel⟩, ⟨run [], rfl⟩,
    ⟨{ run [] with deliv := { queryAt := some 5 } }, 5, 5, by decide +kernel⟩⟩

theorem hyps_DeliveriesAndRelay :
    (∃ s : State, Asks s ∧ s.isManager = false) ∧ (∃ s : State, Asks s ∧ s.isManager = true ∧ s.on F.HIER_DLV_STAT_BUSY = true) ∧
    (∃ (s : State) (f : List Byte), Asks s ∧ s.isManager = true ∧ s.on F.HIER_DLV_STAT_BUSY = false ∧ hasMagic f = false) ∧
    (∃ (s : State) (f : List Byte), Asks s ∧ s.isManager = true ∧ s.on F.HIER_DLV_STAT_BUSY = false ∧ hasMagic f = true) ∧
    (∃ s : State, ¬∃ g ∈ s.relay.got, g.2.1 = 0 ∧ ∃ h ∈ s.relay.got, h.1 = g.1 ∧ h.2.1 = 1) ∧
    (∃ (s : State) (d : Fin 64) (w0 w1 : List Word), s.relay.got = [(d.val, 0, w0), (d.val, 1, w1)] ∧ s.relay.running = true ∧
      Asks s ∧ s.isManager = true ∧ s.on F.SEQ_CTRL_RLY_EN = true ∧ w0.length = 8) ∧
    (∃ s : State, s.isManager = false ∨ s.on F.SEQ_CTRL_RLY_EN = false) ∧
    (∃ (s : State) (d : Fin 64) (t : Nat), tget s.mirAt d = some t) :=
  ⟨⟨inBranch, of_asks (by decide +kernel), by decide +kernel⟩,
    ⟨run [(F.HIER_DLV_STAT_BUSY, 1, 0)], of_asks (by decide +kernel), by decide +kernel⟩,
    ⟨run [], [], of_asks (by decide +kernel), by decide +kernel⟩, ⟨run [], magicFlash, of_asks (by decide +kernel), by decide +kernel⟩,
    ⟨run [], by decide +kernel⟩,
    ⟨{ run [(F.SEQ_CTRL_RLY_EN, 1, 0)] with relay := { running := true, got := [(63, 0, List.replicate 8 0), (63, 1, [0])] } }, 63,
      List.replicate 8 0, [0], rfl, rfl, of_asks (by decide +kernel), by decide +kernel⟩,
    ⟨run [], by decide +kernel⟩, ⟨{ run [] with mirAt := tset State.reset.mirAt 63 (some 0) }, 63, 0, by decide +kernel⟩⟩

/-- A device whose loop 7 is used, with the phases 0, 3 and 23, the hint pin 1 and the clock source `clk`. -/
def looping (clk : Byte) (l : List (Fld × Nat × Nat)) : State :=
  { run l with loopMap := List.replicate 7 [] ++ [[1, 2, 1, clk, 9, 0, 0x80, 0, 0, 0]] }

/-- The same with its carrier running. -/
def turning (clk : Byte) (l : List (Fld × Nat × Nat)) (x : LoopSt) : State :=
  { looping clk ([(F.LOOPn_STAT_EN, 1, 7), (F.LOOPn_FSW_PERIOD, 3200, 7)] ++ l) with
    loop := tset State.reset.loop 7 { x with bnd := some 6400, per := 3200, vSense := some 0 } }

theorem hyps_LoopBoundaries :
    (∃ x : LoopSample, x.iph.length = 24) ∧ (∃ (s : State) (n : Fin 8) (t : Nat), (s.lp n).bnd = some t) ∧
    (∃ (s : State) (n : Fin 8) (p : Fin 24), p.val ∈ (s.availPhases n).take
      (min (max (min (s.lf n F.LOOPn_SHED_NMIN) (s.loopNph n)) (max (s.lp n).nShed (s.lp n).nHint)) (s.availPhases n).length)) ∧
    (∃ (s : State) (p : Fin 24), s.phState p = phDropped) ∧
    (∃ (s : State) (n : Fin 8), (s.lp n).nactPrev = min (max (min (s.lf n F.LOOPn_SHED_NMIN) (s.loopNph n))
      (max (s.lp n).nShed (s.lp n).nHint)) (s.availPhases n).length) ∧
    (∃ (s : State) (n : Fin 8), let r := min (max (min (s.lf n F.LOOPn_SHED_NMIN) (s.loopNph n))
      (max (s.lp n).nShed (s.lp n).nHint)) (s.availPhases n).length
      (s.lp n).nactPrev ≠ r ∧ 0 < r) ∧
    (∃ (s : State) (n : Fin 8), s.on F.LOOPn_TSTAT_BRAKING n = true) ∧
    (∃ (s : State) (n : Fin 8) (p : Fin 24), p.val ∈ s.loopPhases n) ∧
    (∃ (s : State) (n : Fin 8), s.loopOn n = true ∧ s.loopClock n = 0) :=
  ⟨⟨{ vsense := 0, vlocal := 0, senp := 0, senn := 0, iph := List.replicate 24 0 }, rfl⟩, ⟨turning 0 [] {}, 7, 6400, by decide +kernel⟩,
    ⟨turning 0 [] { nShed := 2 }, 7, 3, by decide +kernel⟩, ⟨looping 0 [(F.PHn_STAT_STATE, phDropped, 3)], 3, by decide +kernel⟩,
    ⟨turning 0 [] { nShed := 2, nactPrev := 2 }, 7, by decide +kernel⟩, ⟨turning 0 [] { nShed := 3, nactPrev := 2 }, 7, by decide +kernel⟩,
    ⟨turning 0 [(F.LOOPn_TSTAT_BRAKING, 1, 7)] {}, 7, by decide +kernel⟩, ⟨looping 0 [], 7, 23, by decide +kernel⟩,
    ⟨turning 0 [] {}, 7, by decide +kernel⟩⟩

/-- Loop 7 takes SYNC_IN, whose last edge came at the time 64; its period is 3,200. -/
def syncing (x : LoopSt) (i : Nat) : State := { turning 1 [] x with syncIn := { last := some 64, interval := i } }

/-- Phase 3 of the turning loop is active in an on-time that began at 3,200, of at most 1,600. -/
def onTime (l : List (Fld × Nat × Nat)) : State :=
  { turning 0 ([(F.PHn_STAT_STATE, phActive, 3)] ++ l) {} with
    phCell := tset State.reset.phCell 3 { (default : PhaseSt) with starts := [(3200, 1600, 300)] } }

theorem hyps_SyncAndOnTimes_sync :
    (∃ s : State, s.syncIn.last = none) ∧
    (∃ (s : State) (n : Fin 8) (e d : Nat), s.syncIn.last = some e ∧ n.val ∈ s.syncLoops ∧ 1600 ≤ d ∧ d ≤ 16000 ∧
      8 * s.lf n F.LOOPn_FSW_PERIOD ≤ 10 * d ∧ 10 * d ≤ 12 * s.lf n F.LOOPn_FSW_PERIOD) ∧
    (∃ (s : State) (n : Fin 8) (e d : Nat), s.syncIn.last = some e ∧ n.val ∈ s.syncLoops ∧
      12 * s.lf n F.LOOPn_FSW_PERIOD < 10 * d ∧ (s.lp n).locked = true) ∧
    (∃ (s : State) (n : Fin 8), n.val ∈ s.syncLoops ∧ s.syncIn.interval ≠ 0 ∧ (s.syncIn.last).isSome = true) ∧
    (∃ (s : State) (n : Fin 8), (s.lp n).locked = true) ∧ (∃ (s : State) (n : Fin 8), (s.lp n).locked = false) ∧
    (∃ s : State, 8 ≤ s.cell 162 ∨ s.loopOn (s.cell 162) = false) ∧
    (∃ (s : State) (n : Fin 8) (b k : Nat), s.cell 162 = n.val ∧ (s.lp n).bnd = some (b + (s.lp n).per) ∧ (s.lp n).vSense ≠ none ∧
      k < (s.lp n).per) :=
  ⟨⟨run [], rfl⟩, ⟨syncing {} 3200, 7, 64, 3840, by decide +kernel⟩, ⟨syncing { locked := true } 3200, 7, 64, 3841, by decide +kernel⟩,
    ⟨syncing {} 3200, 7, by decide +kernel⟩, ⟨syncing { locked := true } 3200, 7, by decide +kernel⟩, ⟨run [], 0, by decide +kernel⟩,
    ⟨run [], by decide +kernel⟩,
    ⟨{ turning 0 [] {} with cellMap := List.replicate 162 0 ++ [7] }, 7, 3200, 1600, by decide +kernel⟩⟩

theorem hyps_SyncAndOnTimes_ends :
    (∃ (s : State) (p : Fin 24) (xs : List (Nat × Int)) (t : Nat), s.onTimeEndAt p xs = some t) ∧
    (∃ (s : State) (p : Fin 24) (n t0 mx d : Nat) (tl : List (Nat × Nat × Nat)), s.loopOfPhase p = some n ∧ s.loopOn n = true ∧
      s.phState p = phActive ∧ (s.phs p).starts = (t0, mx, d) :: tl) ∧
    (∃ (s : State) (n t : Nat), t < 64 + 32 * s.lf n F.LOOPn_PWM_BLANK) ∧ (∃ (s : State) (n t : Nat), t = 64 + 32 * s.lf n F.LOOPn_PWM_BLANK) ∧
    (∃ (s : State) (p : Fin 24), s.loopOfPhase p = none) ∧
    (∃ (s : State) (p : Fin 24), ∃ n, s.loopOfPhase p = some n ∧ s.loopOn n = false) ∧
    (∃ (s : State) (p : Fin 24), ∃ n, s.loopOfPhase p = some n ∧ s.on F.LOOPn_TSTAT_BRAKING n = true) ∧
    (∃ (s : State) (p : Fin 24), s.phState p ≠ phActive) ∧ (∃ (s : State) (p : Fin 24), (s.phs p).starts = []) :=
  ⟨⟨onTime [], 3, [], 4800, by decide +kernel⟩, ⟨onTime [], 3, 7, 3200, 1600, 300, [], by decide +kernel⟩,
    ⟨run [], 7, 63, by decide +kernel⟩, ⟨run [(F.LOOPn_PWM_BLANK, 0, 7)], 7, 64, by decide +kernel⟩, ⟨run [], 3, by decide +kernel⟩,
    ⟨looping 0 [], 3, 7, by decide +kernel⟩, ⟨turning 0 [(F.LOOPn_TSTAT_BRAKING, 1, 7)] {}, 23, 7, by decide +kernel⟩,
    ⟨run [], 0, by decide +kernel⟩, ⟨run [], 0, by decide +kernel⟩⟩

/-- The turning loop past its soft start, with the brake enabled at BRK_ON 0. -/
def braking (l : List (Fld × Nat × Nat)) : State := turning 0 ([(F.LOOPn_STAT_SS_DONE, 1, 7), (F.LOOPn_BRAKE_EN, 1, 7)] ++ l) {}

theorem hyps_LoopProtectionAndTimers_now :
    (∃ (s : State) (n : Fin 8) (p : Fin 24) (i : Int), s.loopOn n = true ∧ p.val ∈ s.loopPhases n ∧
      100 * ((s.lf n F.LOOPn_OCP_ISC : Int) - 200) < s.phCurrent n p i) ∧
    (∃ (s : State) (n : Fin 8) (p : Fin 24), s.loopOn n = false ∨ p.val ∉ s.loopPhases n) ∧
    (∃ (s : State) (n : Fin 8) (p : Fin 24) (i : Int), s.loopOn n = true ∧ p.val ∈ s.loopPhases n ∧
      s.phCurrent n p i ≤ 100 * ((s.lf n F.LOOPn_OCP_ISC : Int) - 200)) ∧
    (∃ (s : State) (n : Fin 8) (v vl : Int), s.loopOn n = true ∧ s.lf n F.LOOPn_BRAKE_EN ≠ 0 ∧ s.on F.LOOPn_STAT_SS_DONE n = true ∧
      (s.lp n).discharge = none ∧ s.on F.LOOPn_TSTAT_BRAKING n = false ∧
      (s.lp n).vTgt + 64000 * (s.brakeOn n : Int) ≤ s.senseOf n v vl) ∧
    (∃ (s : State) (n : Fin 8) (v vl : Int), s.loopOn n = true ∧ s.lf n F.LOOPn_BRAKE_EN ≠ 0 ∧ s.on F.LOOPn_STAT_SS_DONE n = true ∧
      (s.lp n).discharge = none ∧ s.on F.LOOPn_TSTAT_BRAKING n = false ∧
      s.senseOf n v vl < (s.lp n).vTgt + 64000 * (s.brakeOn n : Int)) ∧
    (∃ (s : State) (n : Fin 8), (s.lp n).useLocal = false) ∧ (∃ (s : State) (n : Fin 8), (s.lp n).useLocal = true) ∧
    (∃ (s : State) (n : Fin 8), s.loopUsed n = true ∧ (s.lp n).stgSeen = false) ∧
    (∃ (s : State) (n : Fin 8) (k : Fin 128), s.get F.THM_NODEn_T_LEVEL k = 3 ∧ s.get F.THM_NODEn_ACT_LOOP k = n.val) ∧
    (∃ (s : State) (n : Fin 8), s.loopUsed n = false) ∧
    (∃ (s : State) (n : Fin 8) (p : Fin 24), p.val ∈ s.loopPhases n ∧ s.phState p ≠ phDropped ∧ s.phState p ≠ phUnused) :=
  ⟨⟨turning 0 [(F.LOOPn_OCP_ISC, 0, 7)] {}, 7, 23, 60000, by decide +kernel⟩, ⟨run [], 0, 0, by decide +kernel⟩, ⟨turning 0 [(F.LOOPn_OCP_ISC, 1023, 7)] {}, 7, 23, 0, by decide +kernel⟩,
    ⟨braking [(F.LOOPn_BRAKE_BRK_ON, 1, 7)], 7, 200000, 0, by decide +kernel⟩, ⟨braking [(F.LOOPn_BRAKE_BRK_ON, 1, 7)], 7, 0, 0, by decide +kernel⟩, ⟨run [], 0, by decide +kernel⟩,
    ⟨turning 0 [] { useLocal := true }, 7, by decide +kernel⟩, ⟨looping 0 [], 7, by decide +kernel⟩,
    ⟨run [(F.THM_NODEn_T_LEVEL, 3, 127), (F.THM_NODEn_ACT_LOOP, 7, 127)], 7, 127, by decide +kernel⟩, ⟨run [], 7, by decide +kernel⟩,
    ⟨looping 0 [(F.PHn_STAT_STATE, phActive, 3)], 7, 3, by decide +kernel⟩⟩

theorem hyps_LoopProtectionAndTimers_later :
    (∃ s : State, s.ticking = true) ∧ (∃ (s : State) (n : Fin 8), s.lf n F.LOOPn_OVLD_OVL_I ≠ 0 ∧ (s.lp n).binCnt = 0 ∧
      ((s.lp n).b : Int) - 10 * s.lf n F.LOOPn_OVLD_OVL_I ≤ 0) ∧
    (∃ (s : State) (n : Fin 8) (t : Nat), (s.lp n).stgAt = some t) ∧
    (∃ (s : State) (n : Fin 8) (l : List Int) (p : Fin 24), p.val ∈ s.loopPhases n ∧ 82300 ≤ s.phCurrent n p (l.getD p 0)) ∧
    (∃ (s : State) (n : Fin 8) (t : Nat), (s.lp n).relAt = some t) ∧
    (∃ (s : State) (n : Fin 8) (t : Nat), (s.lp n).discharge = some t) :=
  ⟨⟨ticks (run []), rfl⟩, ⟨turning 0 [(F.LOOPn_OVLD_OVL_I, 1, 7)] { b := 10 }, 7, by decide +kernel⟩,
    ⟨turning 0 [] { stgAt := some 5 }, 7, 5, by decide +kernel⟩, ⟨looping 0 [], 7, List.replicate 24 82300, 23, by decide +kernel⟩,
    ⟨turning 0 [] { relAt := some 5 }, 7, 5, by decide +kernel⟩, ⟨turning 0 [] { discharge := some 5 }, 7, 5, by decide +kernel⟩⟩

/-- The turning loop takes hints, in the transient state `h`, its pin at `r`. -/
def hinting (r : BitVec 4) (h : Nat) (l : List (Fld × Nat × Nat)) : State :=
  { turning 0 ([(F.LOOPn_STAT_SS_DONE, 1, 7), (F.LOOPn_HINT_EN, 1, 7), (F.LOOPn_TSTAT_HSTATE, h, 7)] ++ l) {} with hintPin := r }

/-- An edge of HINT1 to `r` registers for loop 7. -/
def hintHears (s : State) (r : Bool) : Prop := s.phase ≠ .resting ∧ s.hintPin.getLsbD 1 ≠ r ∧ s.loopUsed 7 = true ∧ s.loopHint 7 = 1 ∧
  ∀ m : Fin 8, m < 7 → ¬(s.loopUsed m = true ∧ s.loopHint m = 1)

/-- Loop 7 takes the edges of its pin. -/
def hintOk (s : State) : Prop := s.lf 7 F.LOOPn_HINT_EN = 1 ∧ s.on F.LOOPn_STAT_EN 7 = true ∧ s.loopOn 7 = true ∧
  s.on F.LOOPn_STAT_SS_DONE 7 = true ∧ s.on F.LOOPn_TSTAT_SC 7 = false ∧ s.on F.LOOPn_TSTAT_STG 7 = false

theorem hyps_HintEdges :
    (∃ s : State, s.phase = .resting) ∧ (∃ s : State, s.hintPin.getLsbD 1 = false) ∧
    (∃ s : State, ∀ n : Fin 8, ¬(s.loopUsed n = true ∧ s.loopHint n = 1)) ∧
    (∃ s : State, hintHears s true ∧ ¬hintOk s) ∧
    (∃ s : State, hintHears s true ∧ hintOk s ∧ s.get F.LOOPn_TSTAT_HSTATE 7 = hIdle) ∧
    (∃ s : State, hintHears s true ∧ hintOk s ∧ s.get F.LOOPn_TSTAT_HSTATE 7 = hRelWait) ∧
    (∃ s : State, hintHears s false ∧ hintOk s ∧ s.get F.LOOPn_TSTAT_HSTATE 7 = hAdmit) ∧
    (∃ s : State, hintHears s false ∧ hintOk s ∧ s.get F.LOOPn_TSTAT_HSTATE 7 = hIdle ∧ s.lf 7 F.LOOPn_HINT_REL_EN = 1 ∧
      s.on F.LOOPn_TSTAT_ARRIVED 7 = true) ∧
    (∃ s : State, hintHears s false ∧ hintOk s ∧ s.get F.LOOPn_TSTAT_HSTATE 7 = hIdle ∧ s.on F.LOOPn_TSTAT_ARRIVED 7 = false) ∧
    (∃ s : State, hintHears s false ∧ hintOk s ∧ s.get F.LOOPn_TSTAT_HSTATE 7 = hUnwind) ∧
    (∃ s : State, hintHears s true ∧ hintOk s ∧ s.get F.LOOPn_TSTAT_HSTATE 7 = hRise) :=
  ⟨⟨dev .resting [], by decide +kernel⟩, ⟨run [], by decide +kernel⟩, ⟨run [], by decide +kernel⟩,
    ⟨{ looping 0 [] with hintPin := 0 }, by unfold hintHears hintOk; decide +kernel⟩,
    ⟨hinting 0 hIdle [], by unfold hintHears hintOk; decide +kernel⟩, ⟨hinting 0 hRelWait [], by unfold hintHears hintOk; decide +kernel⟩,
    ⟨hinting 2 hAdmit [], by unfold hintHears hintOk; decide +kernel⟩,
    ⟨hinting 2 hIdle [(F.LOOPn_HINT_REL_EN, 1, 7), (F.LOOPn_TSTAT_ARRIVED, 1, 7)], by unfold hintHears hintOk; decide +kernel⟩,
    ⟨hinting 2 hIdle [], by unfold hintHears hintOk; decide +kernel⟩, ⟨hinting 2 hUnwind [], by unfold hintHears hintOk; decide +kernel⟩,
    ⟨hinting 0 hRise [], by unfold hintHears hintOk; decide +kernel⟩⟩
/-- A device whose point 2,047 is of kind 4 with object 23 and the ACCESS bits `acc`. -/
def pointed (acc : Nat) : State := { run [] with sram := [(sramKey 9 4095, BitVec.ofNat 32 (4 + 23 * 256 + acc * 65536))] }

theorem hyps_PointCommands :
    (∃ (i : Instr) (p : Party) (q : Fin 2048) (kind : Nat) (w : Word) (f : Fld) (s : State), PointRow i p q kind w f ∧
      s.sramRaw = [] ∧ (s.pointRec q).1 = kind ∧ (s.pointRec q).2.2.testBit (pointBit p) = true ∧ Asks s) ∧
    (∃ (i : Instr) (p : Party) (q : Fin 2048) (kind : Nat) (w : Word) (f : Fld) (s : State), PointRow i p q kind w f ∧
      s.sramRaw = [] ∧ (s.pointRec q).1 = 0 ∧ Asks s) ∧
    (∃ (i : Instr) (p : Party) (q : Fin 2048) (kind : Nat) (w : Word) (f : Fld) (s : State), PointRow i p q kind w f ∧
      s.sramRaw = [] ∧ (s.pointRec q).2.2.testBit (pointBit p) = false ∧ (s.pointRec q).1 = kind ∧ Asks s) :=
  ⟨⟨_, .host, 2047, _, _, _, pointed 2, .chOn .host 2047 true, rfl, by decide +kernel, by decide +kernel, of_asks (by decide +kernel)⟩,
    ⟨_, .host, 0, _, _, _, run [], .railOn .host 0 true, rfl, by decide +kernel, of_asks (by decide +kernel)⟩,
    ⟨_, .strike, 2047, _, _, _, pointed 2, .chPmode .strike 2047 true, rfl, by decide +kernel, by decide +kernel, of_asks (by decide +kernel)⟩⟩

/-- Channel 23 of a device is a back-to-back pair on the 48 V bus, with the registers `l`. -/
def channel (l : List (Fld × Nat × Nat)) : State := { run l with cellMap := List.replicate 47 0 ++ [6] }

/-- The same as a member of a pair, with its ON 1. -/
def memberCh (st : Nat) (l : List (Fld × Nat × Nat)) : State :=
  channel ([(F.CHn_PAIR_EN, 1, 23), (F.CHn_CTRL_ON, 1, 23), (F.CHn_STAT_STATE, st, 23)] ++ l)

theorem hyps_ChannelsSampleAndTrip_sample :
    (∃ s : State, s.fabricOn = true ∧ s.ticking = true) ∧ (∃ s : State, s.fabricOn = false) ∧
    (∃ (s : State) (n : Fin 24), (s.ch n).lastSample = some s.tick) ∧ (∃ (s : State) (n : Fin 24), s.chUsed n = false) ∧
    (∃ (s : State) (n : Fin 24), s.chUsed n = true ∧ s.chBus48 n = true) ∧
    (∃ s : State, 0 < curveCur (s.curveWord 23 0) ∧ curveCur (s.curveWord 23 0) ≤ 100) ∧
    (∃ s : State, 0 < curveCur (s.curveWord 23 0) ∧ (s.ch 23).acc = 0) :=
  ⟨⟨ticks (run []), by decide +kernel⟩, ⟨.reset, by decide +kernel⟩,
    ⟨{ run [] with chan := tset State.reset.chan 23 { lastSample := some 0 } }, 23, by decide +kernel⟩, ⟨run [], 23, by decide +kernel⟩,
    ⟨channel [], 23, by decide +kernel⟩, ⟨(channel []).setReg (((F.CHn_CURVE).off 0).addr 23) 0x10001, by decide +kernel⟩,
    ⟨(channel []).setReg (((F.CHn_CURVE).off 0).addr 23) 0x10001, by decide +kernel⟩⟩

theorem hyps_ChannelsSampleAndTrip_trip :
    (∃ (s : State) (n : Fin 24) (v : Int), chConducts (s.chStateWas n) = true ∧
      s.chEff n F.CHn_LIMIT_ISC * s.chEff n F.CHn_CFG_RSH < 4 * v.natAbs) ∧
    (∃ (s : State) (n : Fin 24) (c : Nat), s.chTripped n = true ∧ causeRank (s.get F.CHn_STAT_CAUSE n) ≤ causeRank c) ∧
    (∃ (s : State) (n : Fin 24) (c : Nat), s.chTripped n = true ∧ causeRank c < causeRank (s.get F.CHn_STAT_CAUSE n)) ∧
    (∃ (s : State) (n : Fin 24), s.chTripped n = false) :=
  ⟨⟨channel [(F.CHn_STAT_STATE, chOn, 23), (F.CHn_CFG_RSH, 100, 23), (F.CHn_LIMIT_ISC, 1, 23)], 23, -26, by decide +kernel⟩,
    ⟨{ channel [(F.CHn_STAT_STATE, chCooling, 23), (F.CHn_STAT_CAUSE, 1, 23)] with now := 5, chan := tset State.reset.chan 23 { was := (5, chOn) } },
      23, 2, by decide +kernel⟩,
    ⟨{ channel [(F.CHn_STAT_STATE, chCooling, 23), (F.CHn_STAT_CAUSE, 2, 23)] with now := 5, chan := tset State.reset.chan 23 { was := (5, chOn) } },
      23, 1, by decide +kernel⟩, ⟨run [], 0, by decide +kernel⟩⟩

theorem hyps_ChannelsSampleAndTrip_pairs :
    (∃ (s : State) (n : Fin 24) (i : Int), s.member n = true ∧ s.chActive n = true ∧ s.chState n = chOn ∧
      10 * i < -((s.chEff n F.CHn_PAIR_IREV : Int) * s.chEff n F.CHn_CFG_RSH)) ∧
    (∃ (s : State) (n : Fin 24), s.member n = false) ∧ (∃ (s : State) (n : Fin 24), s.chActive n = false) ∧
    (∃ (s : State) (n : Fin 24), s.chState n ≠ chEnhance ∧ s.chState n ≠ chOn) ∧
    (∃ (s : State) (n : Fin 24) (i : Int), s.member n = true ∧ s.chActive n = true ∧ s.chState n = chOn ∧
      -((s.chEff n F.CHn_PAIR_IREV : Int) * s.chEff n F.CHn_CFG_RSH) = 10 * i) ∧
    (∃ (s : State) (n : Fin 24) (v : Int) (held : Nat), 200 ≤ held ∧ s.member n = true ∧ s.on F.CHn_CTRL_ON n = true ∧
      s.chState n = chStandby ∧ v < 100 * (s.chEff n F.CHn_PAIR2_STBY_UV : Int) ∧ 100 * (s.chEff n F.CHn_PAIR2_STBY_FLOOR : Int) ≤ v) ∧
    (∃ (s : State) (n : Fin 24) (v : Int) (held : Nat), 200 ≤ held ∧ s.member n = true ∧ s.on F.CHn_CTRL_ON n = true ∧
      s.chState n = chStandby ∧ v < 100 * (s.chEff n F.CHn_PAIR2_STBY_UV : Int) ∧ v < 100 * (s.chEff n F.CHn_PAIR2_STBY_FLOOR : Int)) ∧
    (∃ (s : State) (n : Fin 24) (v : Int), 100 * (s.chEff n F.CHn_PAIR2_STBY_UV : Int) = v) ∧
    (∃ (s : State) (n : Fin 24) (t : Nat), (s.ch n).breakAt = some t) ∧
    (∃ (s : State) (n : Fin 24), s.chState n ∈ [chRamp, chEnhance, chOn, chBlocked]) :=
  ⟨⟨memberCh chOn [(F.CHn_PAIR_PMODE, 1, 23), (F.CHn_PAIR_IREV, 1, 23), (F.CHn_CFG_RSH, 100, 23)], 23, -11, by decide +kernel⟩,
    ⟨run [], 0, by decide +kernel⟩, ⟨run [(F.CHn_PAIR_PMODE, 0, 23)], 23, by decide +kernel⟩, ⟨run [], 0, by decide +kernel⟩,
    ⟨memberCh chOn [(F.CHn_PAIR_PMODE, 1, 23), (F.CHn_PAIR_IREV, 1, 23), (F.CHn_CFG_RSH, 100, 23)], 23, -10, by decide +kernel⟩,
    ⟨memberCh chStandby [(F.CHn_PAIR2_STBY_UV, 110, 23), (F.CHn_PAIR2_STBY_FLOOR, 100, 23)], 23, 10000, 200, by decide +kernel⟩,
    ⟨memberCh chStandby [(F.CHn_PAIR2_STBY_UV, 110, 23), (F.CHn_PAIR2_STBY_FLOOR, 100, 23)], 23, 9999, 200, by decide +kernel⟩,
    ⟨run [(F.CHn_PAIR2_STBY_UV, 110, 23)], 23, 11000, by decide +kernel⟩,
    ⟨{ run [] with chan := tset State.reset.chan 23 { breakAt := some 9 } }, 23, 9, by decide +kernel⟩,
    ⟨memberCh chBlocked [], 23, by decide +kernel⟩⟩

theorem hyps_ChannelWrites :
    (∃ (s : State) (p : Party) (n : Fin 24), s.heldBits (F.CHn_CTRL_ON.addr n) = 0 ∧ s.closedBits p (F.CHn_CTRL_ON.addr n) = 0) ∧
    (∃ (s : State) (n : Fin 24), s.heldBits (F.CHn_CTRL_ON.addr n) ≠ 0 ∧ s.closedBits .reaction (F.CHn_CTRL_ON.addr n) = 0) ∧
    (∃ (s : State) (n : Fin 24), s.chState n = chOff ∧ s.chUsed n = true ∧ s.member n = false) ∧
    (∃ (s : State) (n : Fin 24), s.chState n = chOff ∧ s.chUsed n = true ∧ s.member n = true ∧ s.on F.CHn_PAIR_PMODE n = true) ∧
    (∃ (s : State) (n : Fin 24), s.chState n ∉ [chUnused, chOff, chLatched]) ∧
    (∃ (s : State) (n : Fin 24), s.member n = true ∧ s.chState n ∈ [chRamp, chEnhance, chOn, chCooling, chBlocked] ∧
      s.on F.CHn_STAT_BRK_PEND n = false) :=
  ⟨⟨run [], .host, 23, by decide +kernel⟩, ⟨{ run [] with holds := [(0, .chan 23)] }, 23, by decide +kernel⟩,
    ⟨channel [(F.CHn_STAT_STATE, chOff, 23)], 23, by decide +kernel⟩,
    ⟨memberCh chOff [(F.CHn_PAIR_PMODE, 1, 23)], 23, by decide +kernel⟩, ⟨memberCh chCooling [], 23, by decide +kernel⟩,
    ⟨memberCh chCooling [], 23, by decide +kernel⟩⟩

/-- Rail 63 is of kind `k` with target `t` and the parents `ps`; its timers are DELAY `d`, TSTABLE 2 and DEADLINE 3. -/
def railed (k t d : Byte) (ps : List (List Byte)) (x : RailSt) (l : List (Fld × Nat × Nat)) : State :=
  { run l with
    rail := tset State.reset.rail 63 x,
    railGraph := tset State.reset.railGraph 63 ([k, t, 0, BitVec.ofNat 8 ps.length] ++ ps.flatten ++
      List.replicate (16 - 4 * ps.length) 0 ++ [d, 0, 2, 0, 3, 0, 0, 0, 0, 0, 0, 0]) }

theorem hyps_HeldFieldsDropWrites :
    (∃ (s : State) (p : Party) (n : Fin 24), s.held (.chan n) = true ∧ p ≠ .reaction) ∧
    (∃ (s : State) (p : Party) (n : Fin 64) (w : Word), s.held (.rail n) = true ∧ p ≠ .reaction ∧
      s.reservedWord (F.SEQ_RAILn_CTRL_ON.addr n) (s.wouldBe p (F.SEQ_RAILn_CTRL_ON.addr n) w allBits) = false) ∧
    (∃ (s : State) (p : Party) (n : Fin 24), s.railTargetsChan n = true ∧ p ≠ .seq ∧ p ≠ .reaction) :=
  ⟨⟨{ run [] with holds := [(255, .chan 23)] }, .host, 23, by decide +kernel⟩,
    ⟨{ run [] with holds := [(255, .rail 63)] }, .host, 63, 1, by decide +kernel⟩,
    ⟨railed 3 23 0 [] {} [], .host, 23, by decide +kernel⟩⟩

theorem hyps_RailTimersAndInputs :
    (∃ s : State, s.phase ≠ .running) ∧ (∃ (s : State) (n : Fin 64) (t : Nat), s.railDelayDue n = some t ∧ s.phase = .running) ∧
    (∃ (s : State) (n : Fin 64) (t : Nat), s.railQualifyDue n = some t) ∧
    (∃ (s : State) (n : Fin 64) (t : Nat), s.railDeadDue n = some t) ∧ (∃ (s : State) (n : Fin 64) (t : Nat), s.railLostDue n = some t) ∧
    (∃ (s : State) (n : Fin 64) (t : Nat), s.railLdDue n = some t) ∧ (∃ (s : State) (n : Fin 64) (t : Nat), s.railStopDue n = some t) ∧
    (∃ (s : State) (n : Fin 64), s.rlState n = rlDelay) ∧ (∃ (s : State) (n : Fin 64), s.rlState n = rlQualify ∧ (s.rl n).noDead = false) ∧
    (∃ (s : State) (p : Party) (n : Fin 64) (w : Word), s.heldBits (F.SEQ_RAILn_CTRL_ON.addr n) = 0 ∧
      s.reservedWord (F.SEQ_RAILn_CTRL_ON.addr n) (s.wouldBe p (F.SEQ_RAILn_CTRL_ON.addr n) w allBits) = false) ∧
    (∃ (s : State) (k : Fin 8) (n : Nat) (i : Int), (tget s.mrg k).current = some i ∧ s.mrgRail k = some n) :=
  ⟨⟨.reset, by decide⟩, ⟨railed 1 0 4 [] {} [(F.SEQ_RAILn_STAT_STATE, rlDelay, 63)], 63, 4000, by decide +kernel⟩,
    ⟨railed 1 0 4 [] {} [(F.SEQ_RAILn_STAT_STATE, rlQualify, 63)], 63, 200, by decide +kernel⟩,
    ⟨railed 1 0 4 [] {} [(F.SEQ_RAILn_STAT_STATE, rlQualify, 63)], 63, 30000, by decide +kernel⟩,
    ⟨railed 1 0 4 [] { badSince := some 7 } [(F.SEQ_RAILn_STAT_STATE, rlGood, 63), (F.SEQ_RAILn_CFG_LOSS_T, 0, 63)], 63, 7, by decide +kernel⟩,
    ⟨railed 1 0 4 [] { freeSince := some 0 } [(F.SEQ_RAILn_STAT_STATE, rlLower, 63)], 63, 0, by decide +kernel⟩,
    ⟨railed 3 23 4 [] {} [(F.SEQ_RAILn_STAT_STATE, rlStop, 63)], 63, 500000, by decide +kernel⟩,
    ⟨railed 1 0 4 [] {} [(F.SEQ_RAILn_STAT_STATE, rlDelay, 63)], 63, by decide +kernel⟩,
    ⟨railed 1 0 4 [] {} [(F.SEQ_RAILn_STAT_STATE, rlQualify, 63)], 63, by decide +kernel⟩,
    ⟨run [], .host, 63, 1, by decide +kernel⟩,
    ⟨{ railed 2 0 0 [] {} [] with mrg := tset State.reset.mrg 0 { current := some 5 } }, 0, 63, 5, by decide +kernel⟩⟩

theorem hyps_RailsWindAndFail_wind :
    (∃ (s : State) (n : Fin 64), s.rlState n = rlDown) ∧
    (∃ (o s : State) (n : Fin 64), s.rlState n = rlWait ∧ (o.parents n).all o.parentStarts = true ∧ s.rlDelayT n ≠ 0) ∧
    (∃ (o s : State) (n : Fin 64), s.rlState n = rlWait ∧ (o.parents n).all o.parentStarts = true ∧ s.rlDelayT n = 0 ∧ s.railBlocked n = true) ∧
    (∃ (o s : State) (n : Fin 64), s.rlState n = rlWait ∧ (o.parents n).all o.parentStarts = true ∧ s.rlDelayT n = 0 ∧ s.railBlocked n = false) ∧
    (∃ (o s : State) (n : Fin 64), s.rlState n = rlDelay ∧ (o.parents n).all o.parentStarts = true ∧ s.railBlocked n = false ∧
      (s.rl n).since + s.rlDelayT n = s.now) ∧
    (∃ (o s : State) (n : Fin 64), s.rlState n = rlRamp ∧ s.targetLost n = false ∧ s.now + 1 = (s.rl n).enabled + s.rlDeadT n ∧
      s.on F.SEQ_RAILn_STAT_EARLY n = false ∧ (o.parents n).all (o.parentLevel F.SEQ_RAILn_STAT_GOOD 0) = true ∧
      s.railKind n ≠ 3 ∧ s.railPg n = true) ∧
    (∃ (o s : State) (n : Fin 64), s.rlState n = rlQualify ∧ s.targetLost n = false ∧ s.now < (s.rl n).enabled + s.rlDeadT n ∧
      s.on F.SEQ_RAILn_STAT_EARLY n = false ∧ (o.parents n).all (o.parentLevel F.SEQ_RAILn_STAT_GOOD 0) = true ∧
      (s.rl n).since + s.rlStableT n = s.now) ∧
    (∃ (o s : State) (n : Fin 64), s.rlState n = rlGood ∧ s.targetLost n = false ∧ s.railPg n = true ∧ (s.rl n).badSince = none ∧
      s.on F.SEQ_RAILn_STAT_EARLY n = false ∧ (o.parents n).all (o.parentLevel F.SEQ_RAILn_STAT_GOOD 0) = true) ∧
    (∃ (s : State) (n : Fin 64), s.rlState n = rlStop ∧ s.railStopped n = true) :=
  ⟨⟨railed 1 0 0 [] {} [(F.SEQ_RAILn_STAT_STATE, rlDown, 63)], 63, by decide +kernel⟩,
    ⟨railed 1 0 4 [] {} [], railed 1 0 4 [] {} [(F.SEQ_RAILn_STAT_STATE, rlWait, 63)], 63, by decide +kernel⟩,
    ⟨railed 1 0 0 [] {} [], railed 1 0 0 [] {} [(F.SEQ_RAILn_STAT_STATE, rlWait, 63), (F.LOOPn_TSTAT_SC, 1, 0)], 63, by decide +kernel⟩,
    ⟨railed 1 0 0 [] {} [], railed 1 0 0 [] {} [(F.SEQ_RAILn_STAT_STATE, rlWait, 63)], 63, by decide +kernel⟩,
    ⟨railed 1 0 0 [] {} [], { railed 1 0 4 [] {} [(F.SEQ_RAILn_STAT_STATE, rlDelay, 63)] with now := 4000 }, 63, by decide +kernel⟩,
    ⟨railed 1 0 0 [] {} [], { railed 1 0 4 [] {} [(F.SEQ_RAILn_STAT_STATE, rlRamp, 63), (F.LOOPn_STAT_PG, 1, 0)] with now := 29999 }, 63,
      by decide +kernel⟩,
    ⟨railed 1 0 0 [] {} [], { railed 1 0 4 [] {} [(F.SEQ_RAILn_STAT_STATE, rlQualify, 63)] with now := 200 }, 63, by decide +kernel⟩,
    ⟨railed 1 0 0 [] {} [], railed 1 0 4 [] {} [(F.SEQ_RAILn_STAT_STATE, rlGood, 63), (F.LOOPn_STAT_PG, 1, 0)], 63, by decide +kernel⟩,
    ⟨railed 1 0 0 [] {} [(F.SEQ_RAILn_STAT_STATE, rlStop, 63)], 63, by decide +kernel⟩⟩

theorem hyps_RailsWindAndFail_fail :
    (∃ (s : State) (n : Fin 64), rlEnabled (s.rlState n) = true ∧ s.targetLost n = true) ∧
    (∃ (s : State) (n : Fin 64), s.rlState n = rlRamp ∧ s.targetLost n = false ∧ (s.rl n).noDead = false ∧
      (s.rl n).enabled + s.rlDeadT n = s.now) ∧
    (∃ (s : State) (n : Fin 64) (b : Nat), s.rlState n = rlGood ∧ s.targetLost n = false ∧ s.railPg n = false ∧ s.railKind n ≠ 3 ∧
      (s.rl n).badSince = some b ∧ b + 1000 * s.get F.SEQ_RAILn_CFG_LOSS_T n = s.now) ∧
    (∃ (o s : State) (n : Fin 64), s.rlState n = rlGood ∧ s.targetLost n = false ∧ s.railPg n = false ∧ s.railKind n ≠ 3 ∧
      0 < s.get F.SEQ_RAILn_CFG_LOSS_T n ∧ (s.rl n).badSince = none ∧ s.on F.SEQ_RAILn_STAT_EARLY n = false ∧
      (o.parents n).all (o.parentLevel F.SEQ_RAILn_STAT_GOOD 0) = true ∧ (s.rl n).pgWas = true) :=
  ⟨⟨railed 1 0 0 [] { reacted := some 0 } [(F.SEQ_RAILn_STAT_STATE, rlGood, 63)], 63, by decide +kernel⟩,
    ⟨{ railed 1 0 0 [] {} [(F.SEQ_RAILn_STAT_STATE, rlRamp, 63)] with now := 30000 }, 63, by decide +kernel⟩,
    ⟨{ railed 1 0 0 [] { badSince := some 3 } [(F.SEQ_RAILn_STAT_STATE, rlGood, 63), (F.SEQ_RAILn_CFG_LOSS_T, 1, 63)] with now := 1003 }, 63, 3,
      by decide +kernel⟩,
    ⟨run [], railed 1 0 0 [] { pgWas := true } [(F.SEQ_RAILn_STAT_STATE, rlGood, 63), (F.SEQ_RAILn_CFG_LOSS_T, 1, 63)], 63, by decide +kernel⟩⟩
theorem hyps_MeasurementAndMonitors_conversions :
    (∃ (s : State) (m : Fin 4), s.on F.MEASm_STAT_RUN m = true ∧ (s.md m).urgRun = false ∧ (s.md m).urgPend = none) ∧
    (∃ (s : State) (m : Fin 4), s.on F.MEASm_STAT_RUN m = true ∧ (s.md m).urgRun = true) ∧
    (∃ (s : State) (m : Fin 4), s.on F.MEASm_STAT_RUN m = true ∧ entFlags (s.entWord m (s.get F.MEASm_STAT_CUR m)) % 2 = 1) ∧
    (∃ v : Int, clampS 24 v ≠ v) ∧
    (∃ (s : State) (m : Fin 4), nextEntry (s.measMask m) 31 = some 0) ∧ (∃ (s : State) (m : Fin 4), (s.md m).stopped = true) ∧
    (∃ (s : State) (m : Fin 4), s.on F.MEASm_STAT_URG_PEND m = true) ∧
    (∃ (s : State) (m : Fin 4), (s.md m).stopped = false ∧ s.on F.MEASm_STAT_URG_PEND m = false ∧ s.on F.MEASm_STAT_RUN m = false) :=
  ⟨⟨run [(F.MEASm_STAT_RUN, 1, 3)], 3, by decide +kernel⟩,
    ⟨{ run [(F.MEASm_STAT_RUN, 1, 3)] with modl := tset State.reset.modl 3 { (default : ModSt) with urgRun := true } }, 3, by decide +kernel⟩,
    ⟨run [(F.MEASm_STAT_RUN, 1, 3), (F.MEASm_STAT_CUR, 31, 3), ((F.MEASm_ENT).off 31, 0x100, 3)], 3, by decide +kernel⟩,
    ⟨8388608, by decide +kernel⟩, ⟨run [(F.MEASm_MASK, 1, 3)], 3, by decide +kernel⟩,
    ⟨{ run [] with modl := tset State.reset.modl 3 { (default : ModSt) with stopped := true } }, 3, by decide +kernel⟩,
    ⟨run [(F.MEASm_STAT_URG_PEND, 1, 3)], 3, by decide +kernel⟩, ⟨run [], 3, by decide +kernel⟩⟩

theorem hyps_MeasurementAndMonitors_monitors :
    (∃ (s : State) (n : Fin 64), s.monUsed n = false) ∧
    (∃ (s : State) (n : Fin 64), s.monUsed n = true ∧ s.on F.MONn_STAT_SETTLE n = false) ∧
    (∃ (s : State) (n : Fin 64), s.on F.MONn_STAT_SETTLE n = true ∧ (s.mc n).doneDue = true) ∧
    (∃ (s : State) (n : Fin 64) (t : Nat), (s.mc n).settleEnd = some t) ∧ (∃ s : State, s.sweep.isSome = true) ∧
    (∃ s : State, s.monUsed (s.get F.MON_TEST_CELL) = false ∧ s.sweep = none) ∧
    (∃ s : State, s.sweep = none ∧ s.monUsed (s.get F.MON_TEST_CELL) = true ∧
      s.get F.MONn_ROUTE_RAIL (s.get F.MON_TEST_CELL) = 0xFF) ∧
    (∃ (s : State) (w : SweepSt), s.sweep = some w ∧ w.code = s.get F.MON_TEST_END ∧ w.cell < 64 ∧ s.monUsed w.cell = true) ∧
    (∃ (s : State) (w : SweepSt), s.sweep = some w ∧ w.code ≠ s.get F.MON_TEST_END) ∧
    (∃ s : State, s.phase = .resting) ∧ (∃ s : State, s.sweepDwell.sweep = none) ∧
    (∃ (s : State) (w : SweepSt), s.sweepDwell.sweep = some w) ∧
    (∃ (s : State) (w : SweepSt) (m : Nat × Nat) (l : List (Nat × Nat)), w.moves = m :: l ∧ m.1 + monResponse (s.monMode w.cell) ≤ s.now) ∧
    (∃ (s : State) (w : SweepSt), s.sweep = some w ∧ w.cell < 64 ∧ s.monUsed w.cell = true ∧ s.on F.MONn_STAT_SETTLE w.cell = false ∧
      s.on F.MON_TEST_STAT_UV_SEEN = false ∧ s.sweepSample.on F.MONn_STAT_UV w.cell ≠ w.uv) :=
  ⟨⟨run [(F.MONn_ROUTE_INPUT, 0xFF, 63)], 63, by decide +kernel⟩, ⟨run [(F.MONn_ROUTE_INPUT, 3, 63)], 63, by decide +kernel⟩,
    ⟨{ run [(F.MONn_STAT_SETTLE, 1, 63)] with mon := tset State.reset.mon 63 { (default : MonSt) with doneDue := true } }, 63, by decide +kernel⟩,
    ⟨{ run [] with mon := tset State.reset.mon 63 { (default : MonSt) with settleEnd := some 9 } }, 63, 9, by decide +kernel⟩,
    ⟨{ run [] with sweep := some default }, rfl⟩, ⟨run [(F.MONn_ROUTE_INPUT, 0xFF, 0)], by decide +kernel⟩,
    ⟨run [(F.MONn_ROUTE_INPUT, 3, 63), (F.MONn_ROUTE_RAIL, 0xFF, 63), (F.MON_TEST_CELL, 63, 0)], by decide +kernel⟩,
    ⟨{ run [(F.MON_TEST_END, 1023, 0), (F.MONn_ROUTE_INPUT, 3, 63)] with sweep := some { (default : SweepSt) with cell := 63, code := 1023 } },
      { (default : SweepSt) with cell := 63, code := 1023 }, by decide +kernel⟩,
    ⟨{ run [] with sweep := some { (default : SweepSt) with code := 5 } }, { (default : SweepSt) with code := 5 }, by decide +kernel⟩,
    ⟨dev .resting [], rfl⟩, ⟨run [], by decide +kernel⟩, ⟨{ run [] with sweep := some default }, default, by decide +kernel⟩,
    ⟨{ run [] with now := 100000 }, { (default : SweepSt) with moves := [(0, 5)] }, (0, 5), [], by decide +kernel⟩,
    ⟨{ run [(F.MONn_ROUTE_INPUT, 3, 63)] with sweep := some { (default : SweepSt) with cell := 63, uv := true } },
      { (default : SweepSt) with cell := 63, uv := true }, by decide +kernel⟩⟩

theorem hyps_ThermalUpdates :
    (∃ s : State, s.ticking = true) ∧ (∃ s : State, s.thermalAt = some s.tick) ∧ (∃ s : State, s.phase ≠ .running) ∧
    (∃ s : State, s.phase = .running) ∧ (∃ (s : State) (x : ShedSt), x.next ≤ s.shedLast x.node) ∧
    (∃ (s : State) (x : ShedSt), s.shedLast x.node < x.next) :=
  ⟨⟨ticks (run []), rfl⟩, ⟨{ run [] with thermalAt := some 0 }, rfl⟩, ⟨.reset, by decide⟩,
    ⟨run [], by decide +kernel⟩, ⟨run [], { (default : ShedSt) with next := 0 }, by decide +kernel⟩,
    ⟨run [(F.THM_NODEn_ACT_SHED_D, 2, 0)], { (default : ShedSt) with next := 7 }, by decide +kernel⟩⟩

/-- The levels a word of THM_NODEn_TH sets (R348). -/
def levelsOf (w : Word) : List Nat := [bitsOf w 8 8, bitsOf w 16 8, bitsOf w 24 8].filter (fun v => v != 255)

theorem hyps_ThermalLevels : (∃ (s : State) (n : Fin 128), ∀ x ∈ s.parOld.2.1, x.1 ≠ F.THM_NODEn_T_LEVEL.addr n) ∧ (∃ w : Word, bitsOf w 0 5 = 1) ∧ (∃ w : Word, bitsOf w 0 5 = 21) ∧
    (∃ w : Word, 2 ≤ bitsOf w 0 5 ∧ bitsOf w 0 5 ≤ 20 ∧ ¬(levelsOf w).Pairwise (fun x y => x < y)) ∧
    (∃ w : Word, 2 ≤ bitsOf w 0 5 ∧ bitsOf w 0 5 ≤ 20 ∧ (levelsOf w).Pairwise (fun x y => x < y) ∧ ∃ v ∈ levelsOf w, v < bitsOf w 0 5) ∧
    (∃ w : Word, 2 ≤ bitsOf w 0 5 ∧ bitsOf w 0 5 ≤ 20 ∧ (levelsOf w).Pairwise (fun x y => x < y) ∧ ∀ v ∈ levelsOf w, bitsOf w 0 5 ≤ v) :=
  ⟨⟨run [], 127, by decide +kernel⟩, ⟨0xFFFFFF01, by decide +kernel⟩, ⟨0xFFFFFF15, by decide +kernel⟩, ⟨0xFF505002, by decide +kernel⟩, ⟨0xFF501314, by decide +kernel⟩,
    ⟨0xFF501414, by decide +kernel⟩⟩

theorem hyps_FaultsAndStatus :
    (∃ s : State, s.events = []) ∧ (∃ s : State, s.events ≠ []) ∧
    (∃ (s : State) (e : Event) (i : Nat), s.slotOfSource e.source = none ∧ (List.range 256).find? (fun i => !s.recUsed i) = some i) ∧
    (∃ s : State, Asks s) ∧ (∃ (e : Event) (n : Fin 24), e.source = sourceOf 3 2 n) ∧ (∃ s : State, s.sramRaw = []) :=
  ⟨⟨run [], rfl⟩, ⟨{ run [] with events := [⟨sourceOf 3 2 0, 0, none, 0, true⟩] }, by decide⟩,
    ⟨run [], ⟨sourceOf 3 2 0, 0, none, 0, true⟩, 0, by decide +kernel⟩, ⟨run [], of_asks (by decide +kernel)⟩,
    ⟨⟨sourceOf 3 2 23, 0, none, 0, true⟩, 23, rfl⟩, ⟨run [], rfl⟩⟩

/-- A device with its power path fitted, in the state `p` of the path. -/
def powered (p : Nat) (l : List (Fld × Nat × Nat)) (x : PpSt) : State :=
  { run ([(F.PWRP_STAT_PATH, p, 0), (F.PWRP_CFG_NCELL, 3, 0)] ++ l) with pp := { x with fitted := true } }

/-- A sample: the pack, the source and the system voltage, both currents, and the pack's sensor at half of its reference. -/
def sample (vbat vsrc vsys ibat isrc : Int) : PathSample := ⟨vbat, vsrc, vsys, 20000, ibat, isrc, 1250000⟩

theorem hyps_PowerPathMoves_source :
    (∃ s : State, s.pp.fitted = false) ∧
    (∃ (s : State) (x : PathSample), s.pp.fitted = true ∧ x.vsrc < 100 * (s.get F.PWRP_SW_SRC_UV : Int) ∧
      s.on F.PWRP_STAT_SRC_GOOD = true ∧ s.path = ppSource ∧ (s.ppSample x).on F.PWRP_STAT_AVAIL = true) ∧
    (∃ (s : State) (x : PathSample), s.pp.fitted = true ∧ x.vsrc < 100 * (s.get F.PWRP_SW_SRC_UV : Int) ∧
      s.on F.PWRP_STAT_SRC_GOOD = true ∧ s.path = ppSource ∧ (s.ppSample x).on F.PWRP_STAT_AVAIL = false) ∧
    (∃ (s : State) (x : PathSample), s.pp.fitted = true ∧ x.vsrc < 100 * (s.get F.PWRP_SW_SRC_UV : Int) ∧
      s.on F.PWRP_STAT_SRC_GOOD = true ∧ s.path = ppShip) ∧
    (∃ (s : State) (x : PathSample), s.pp.fitted = true ∧ x.vsrc < 100 * (s.get F.PWRP_SW_SRC_UV : Int) ∧
      s.on F.PWRP_STAT_SRC_GOOD = true ∧ s.path = ppHandback) ∧
    (∃ (s : State) (x : PathSample), s.pp.fitted = true ∧
      100 * ((s.get F.PWRP_SW_SRC_UV : Int) + s.get F.PWRP_SW_SRC_HYS) = x.vsrc ∧ s.path = ppSource ∧ s.pp.src = .off) :=
  ⟨⟨run [], rfl⟩,
    ⟨powered ppSource [(F.PWRP_SW_SRC_UV, 200, 0), (F.PWRP_STAT_SRC_GOOD, 1, 0), (F.PWRP_STAT_DEPLETED, 0, 0), (F.PWRP_STAT_BAT_MISSING, 0, 0)] {},
      sample 12000 19999 19000 0 0, by decide +kernel⟩,
    ⟨powered ppSource [(F.PWRP_SW_SRC_UV, 200, 0), (F.PWRP_STAT_SRC_GOOD, 1, 0), (F.PWRP_STAT_BAT_MISSING, 1, 0)] {}, sample 0 19999 19000 0 0, by decide +kernel⟩,
    ⟨powered ppShip [(F.PWRP_SW_SRC_UV, 200, 0), (F.PWRP_STAT_SRC_GOOD, 1, 0)] {}, sample 0 19999 19000 0 0, by decide +kernel⟩,
    ⟨powered ppHandback [(F.PWRP_SW_SRC_UV, 200, 0), (F.PWRP_STAT_SRC_GOOD, 1, 0)] {}, sample 0 19999 19000 0 0, by decide +kernel⟩,
    ⟨powered ppSource [(F.PWRP_SW_SRC_UV, 200, 0), (F.PWRP_SW_SRC_HYS, 10, 0)] {}, sample 0 21000 19000 0 0, by decide +kernel⟩⟩

theorem hyps_PowerPathMoves_paths :
    (∃ s : State, s.pp.fitted = true ∧ s.path = ppHandover) ∧
    (∃ (s : State) (q : Nat), s.pp.fitted = true ∧ s.qualifiedDue = some q ∧ q = s.now) ∧
    (∃ s : State, s.pp.fitted = true ∧ s.path = ppHandback ∧ s.pp.src = .ramp) ∧
    (∃ (s : State) (x : PathSample), s.pp.fitted = true ∧ x.isrc < -500 ∧ s.pp.src = .limit) ∧
    (∃ (s : State) (x : PathSample), s.pp.fitted = true ∧ x.vsys + 50 < x.vsrc ∧ s.pp.src = .blocked) ∧
    (∃ (s : State) (x : PathSample), s.pp.fitted = true ∧ s.path = ppReserve ∧ x.vbat < s.ncell * (10 * s.get F.PWRP_VCELL_VCUT : Nat)) ∧
    (∃ (s : State) (x : PathSample), s.pp.fitted = true ∧ s.path = ppHandback ∧ s.pp.backAt = some s.now ∧
      x.vbat < s.ncell * (10 * s.get F.PWRP_VCELL_VCUT : Nat)) ∧
    (∃ (s : State) (x : PathSample), s.pp.fitted = true ∧ s.path = ppSource ∧ x.ibat < -100 ∧ s.on F.PWRP_STAT_SUPPL = false) ∧
    (∃ (s : State) (x : PathSample), s.pp.fitted = true ∧ x.ibat = -100) ∧
    (∃ s : State, s.pp.fitted = true ∧ s.path = ppSource) ∧ (∃ s : State, s.pp.fitted = true ∧ s.path = ppReserve) ∧
    (∃ s : State, s.pp.fitted = true ∧ s.path = ppShip) ∧ (∃ s : State, s.pp.fitted = false) ∧
    (∃ (s : State) (h : Nat), s.pp.fitted = true ∧ h = 20 ∧ s.shipCounts h = true) ∧
    (∃ (s : State) (h : Nat), s.shipCounts h = false) ∧ (∃ s : State, s.path = ppOff) :=
  ⟨⟨powered ppHandover [] {}, by decide +kernel⟩,
    ⟨{ powered ppReserve [(F.PWRP_STAT_SRC_GOOD, 1, 0)] { goodSince := some 7 } with now := 5000007 }, 5000007, by decide +kernel⟩,
    ⟨powered ppHandback [] { src := .ramp }, by decide +kernel⟩,
    ⟨powered ppSource [] { src := .limit }, sample 0 0 0 0 (-501), by decide +kernel⟩,
    ⟨powered ppSource [] { src := .blocked }, sample 0 1051 1000 0 0, by decide +kernel⟩,
    ⟨powered ppReserve [(F.PWRP_VCELL_VCUT, 100, 0)] {}, sample 2999 0 0 0 0, by decide +kernel⟩,
    ⟨{ powered ppHandback [(F.PWRP_VCELL_VCUT, 100, 0)] { backAt := some 9 } with now := 9 }, sample 2999 0 0 0 0, by decide +kernel⟩,
    ⟨powered ppSource [] {}, sample 0 0 0 (-101) 0, by decide +kernel⟩, ⟨powered ppSource [] {}, sample 0 0 0 (-100) 0, by decide +kernel⟩,
    ⟨powered ppSource [] {}, by decide +kernel⟩, ⟨powered ppReserve [] {}, by decide +kernel⟩, ⟨powered ppShip [] {}, by decide +kernel⟩,
    ⟨run [], rfl⟩,
    ⟨powered ppShip [] {}, 20, by decide +kernel⟩, ⟨powered ppOff [] {}, 20, by decide +kernel⟩, ⟨powered ppOff [] {}, by decide +kernel⟩⟩

/-- The charger in state `c`, charging a pack that it may charge. -/
def charger (c : Nat) (l : List (Fld × Nat × Nat)) (x : PpSt) : State :=
  powered ppSource ([(F.PWRP_STAT_CHG, c, 0), (F.PWRP_CTRL_CHG_EN, 1, 0), (F.PWRP_STAT_BAT_MISSING, 0, 0), (F.PWRP_TLIM_TCHG_LO, 50, 0),
    (F.PWRP_TLIM_TCHG_HI, 110, 0)] ++ l) x

/-- The conditions of a charge as a Bool. -/
def holdsCharge (s : State) (x : PathSample) : Bool :=
  s.pp.fitted && (s.ppSample x).chgMay && s.on F.PWRP_CTRL_CHG_EN && decide (s.path = ppSource) && !s.on F.PWRP_STAT_BAT_MISSING &&
    !s.on F.PWRP_STAT_SHORTED && decide (s.pp.probe = none) && !s.chgHot x && (s.ppSample x).chgOk

theorem of_charge {s : State} {x : PathSample} (h : holdsCharge s x = true) : s.ChargeHolds x := by
  simp only [holdsCharge, Bool.and_eq_true, decide_eq_true_eq, Bool.not_eq_true'] at h
  obtain ⟨⟨⟨⟨⟨⟨⟨⟨a, b⟩, c⟩, d⟩, e⟩, f⟩, g⟩, j⟩, k⟩ := h
  exact ⟨a, b, c, d, e, f, g, j, k⟩

theorem hyps_PacksAndCharger_pack :
    (∃ (s : State) (x : PathSample), s.pp.fitted = true ∧ (s.ppSample x).probeMay = true ∧ s.on F.PWRP_STAT_BAT_MISSING = false ∧
      s.packSuspect x = true) ∧
    (∃ (s : State) (x : PathSample) (b : Nat), s.pp.fitted = true ∧ s.pp.probe = some b ∧ b + 10000000 = s.now ∧
      x.vbat < s.ncell * 200 ∧ x.ibat = 40) ∧
    (∃ (s : State) (x : PathSample) (b : Nat), s.pp.fitted = true ∧ s.pp.probe = some b ∧ b + 10000000 = s.now ∧ s.ncell * 1600 = x.vbat) ∧
    (∃ (s : State) (x : PathSample) (b : Nat), s.pp.fitted = true ∧ s.pp.probe = some b ∧ b + 10000000 = s.now ∧ x.vbat = s.ncell * 200 ∧
      x.pth ≤ 2450000 ∧ x.vbat < s.ncell * 1600) ∧
    (∃ (s : State) (x : PathSample), s.pp.fitted = true ∧ s.charging = true ∧ s.ncell * 1800 < x.vbat) ∧
    (∃ (s : State) (x : PathSample) (cause cnt : Word), s.pp.fitted = true ∧ s.chg = chgDone ∧ s.pp.doneAt = some (s.now, cause, cnt) ∧
      s.ncell * 1800 < x.vbat) ∧
    (∃ (s : State) (x : PathSample), s.pp.fitted = true ∧ s.chg = chgPre ∧ x.vbat < s.ncell * 200 ∧ 100000000 ≤ (s.ppSample x).chgTime) :=
  ⟨⟨charger chgIdle [] {}, sample 1499 20000 19000 0 0, by decide +kernel⟩,
    ⟨{ charger chgIdle [] { probe := some 3 } with now := 10000003 }, sample 599 0 0 40 0, 3, by decide +kernel⟩,
    ⟨{ charger chgIdle [] { probe := some 3 } with now := 10000003 }, sample 4800 0 0 0 0, 3, by decide +kernel⟩,
    ⟨{ charger chgIdle [] { probe := some 3 } with now := 10000003 }, sample 600 0 0 40 0, 3, by decide +kernel⟩,
    ⟨charger chgFast [] {}, sample 5401 0 0 0 0, by decide +kernel⟩,
    ⟨charger chgDone [] { doneAt := some (0, 0, 0) }, sample 5401 0 0 0 0, 0, 0, by decide +kernel⟩,
    ⟨{ charger chgPre [] {} with now := 100000000 }, sample 599 0 0 0 0, by decide +kernel⟩⟩

theorem hyps_PacksAndCharger_charger :
    (∃ (s : State) (x : PathSample), s.ChargeHolds x ∧ s.chg = chgPre ∧ s.ncell * (10 * s.get F.PWRP_VCELL_VPRE : Nat) = x.vbat) ∧
    (∃ (s : State) (v : Int) (e : Nat), s.pp.second = some e ∧ e = s.now ∧ s.chg = chgFast ∧
      minuteTicks * s.get F.PWRP_EOC_THOLD = s.chgTime ∧ s.get F.PWRP_EOC_DV ≠ 0 ∧ s.pp.secHeld = false ∧
      v + s.ncell * (s.get F.PWRP_EOC_DV : Int) = s.pp.vpk.getD v) ∧
    (∃ (s : State) (x : PathSample), s.pp.fitted = true ∧ s.chgHot x = true) ∧
    (∃ (s : State) (x : PathSample) (t : Nat), s.ChargeHolds x ∧ (s.ppSample x).topoffDue = some t ∧ t = s.now) ∧
    (∃ (s : State) (x : PathSample), s.ChargeHolds x ∧ s.chg = chgDone ∧ minuteTicks ≤ (s.ppSample x).chgTime ∧
      x.vbat < s.ncell * (10 * s.get F.PWRP_VCELL_VRECHG : Nat) ∧ s.ncell * (10 * s.get F.PWRP_VCELL_VPRE : Nat) ≤ x.vbat) ∧
    (∃ s : State, s.pp.fitted = true ∧ s.chgMay = true ∧ s.on F.PWRP_CTRL_CHG_EN = true ∧ s.path = ppSource ∧
      s.on F.PWRP_STAT_BAT_MISSING = false ∧ s.on F.PWRP_STAT_SHORTED = false ∧ s.pp.probe = none ∧ s.charging = true ∧
      s.chgHot s.ppX = false ∧ s.chgOk = false) ∧
    (∃ s : State, s.pp.fitted = true ∧ s.on F.PWRP_CTRL_CHG_EN = false) ∧
    (∃ s : State, s.charging = true ∧ (s.chg = chgPre ∨ s.chg = chgFast)) ∧
    (∃ s : State, s.chg ≠ chgDone ∧ s.chg ≠ chgQualify) :=
  ⟨⟨charger chgPre [(F.PWRP_VCELL_VPRE, 100, 0)] {}, sample 3000 20000 19000 0 0, of_charge (by decide +kernel), by decide +kernel⟩,
    ⟨charger chgFast [(F.PWRP_EOC_DV, 10, 0), (F.PWRP_EOC_THOLD, 0, 0)] { second := some 0, vpk := some 4030 }, 4000, 0, by decide +kernel⟩,
    ⟨charger chgFast [(F.PWRP_TLIM_TMAX, 60, 0)] {}, sample 4000 20000 19000 0 0, by decide +kernel⟩,
    ⟨charger chgTop [(F.PWRP_CHG2_TTOP, 0, 0)] {}, sample 4000 20000 19000 0 0, 0, of_charge (by decide +kernel), by decide +kernel⟩,
    ⟨{ charger chgDone [(F.PWRP_VCELL_VPRE, 100, 0), (F.PWRP_VCELL_VRECHG, 130, 0)] {} with now := 6000000000 },
      sample 3000 20000 19000 0 0, of_charge (by decide +kernel), by decide +kernel⟩,
    ⟨charger chgFast [] {}, by decide +kernel⟩, ⟨charger chgFast [(F.PWRP_CTRL_CHG_EN, 0, 0)] {}, by decide +kernel⟩,
    ⟨charger chgPre [] {}, by decide +kernel⟩,
    ⟨charger chgFast [] {}, by decide +kernel⟩⟩

/-- The calendar of a device at `t` seconds, with its crystal running and a second about to end. -/
def clocked (t : Nat) (l : List (Fld × Nat × Nat)) : State :=
  ((run ([(F.KEEP_STAT_XTAL_OK, 1, 0)] ++ l)).setReg F.KEEP_DATE.base (calDateWord t)).setReg F.KEEP_TIME.base (calTimeWord t 32767)

theorem hyps_KeepClock :
    (∃ s : State, s.on F.KEEP_STAT_ON_CELL = true) ∧ (∃ s : State, s.on F.KEEP_STAT_ON_CELL = false ∧ s.keep.inReset = true) ∧ (∃ s : State, s.on F.KEEP_STAT_ON_CELL = false ∧ s.keep.inReset = false) ∧
    (∃ s : State, s.on F.KEEP_STAT_XTAL_OK = true) ∧ (∃ s : State, s.on F.KEEP_STAT_XTAL_OK = false) ∧ (∃ s : State, s.keepCounts = false) ∧
    (∃ s : State, s.keepCounts = true ∧ s.toSecond < s.toMultiple ∧ s.calSec + 1 < calSpan) ∧
    (∃ s : State, s.keepCounts = true ∧ s.toMultiple = s.toSecond) ∧
    (∃ (s : State) (n : Nat), s.keepMeasured = true ∧ s.keep.window = some n ∧ 0 < n ∧
      (((100000000 : Int) - n) * 100000000).natAbs < 2 ^ 23 * n ∧ s.on F.KEEP_CFG_TRIM_AUTO = true ∧ s.keep.queue.length < 8) ∧
    (∃ s : State, s.keepMeasured = false) :=
  ⟨⟨run [(F.KEEP_STAT_ON_CELL, 1, 0)], by decide +kernel⟩, ⟨{ run [] with keep := { inReset := true } }, by decide +kernel⟩, ⟨run [], by decide +kernel⟩, ⟨clocked 0 [], by decide +kernel⟩,
    ⟨run [(F.KEEP_STAT_XTAL_OK, 0, 0)], by decide +kernel⟩, ⟨run [(F.KEEP_STAT_XTAL_OK, 0, 0)], by decide +kernel⟩,
    ⟨clocked 86399 [], by decide +kernel⟩, ⟨{ clocked 5 [] with keep := { periods := 2 ^ 20 - 1 } }, by decide +kernel⟩,
    ⟨{ run [(F.ESC_STAT_SYNC, 2, 0), (F.KEEP_CFG_TRIM_AUTO, 1, 0)] with keep := { window := some 100000100 } }, 100000100, by decide +kernel⟩,
    ⟨run [(F.ESC_STAT_SYNC, 0, 0)], by decide +kernel⟩⟩

theorem hyps_KeepCommits :
    (∃ s : State, s.keep.inReset = true) ∧ (∃ s : State, s.keep.inReset = false ∧ s.keep.held = none) ∧
    (∃ (s : State) (c : KeepCommit), s.keep.inReset = false ∧ s.keep.held = some c) ∧
    (∃ s : State, s.keep.heldSilent = true) ∧ (∃ s : State, s.keep.heldSilent = false) ∧
    (∃ k : Nat, ∀ p, p < 14 → k ≠ (F.KEEP_CMD_RES.bk p).base) ∧ (∃ s : State, Asks s) ∧
    (∃ s : State, s.keep.queue.length < 8) ∧ (∃ s : State, 8 ≤ s.keep.queue.length) ∧
    (∃ (s : State) (p : Party) (q : Fin 2048), s.sramRaw = [] ∧ (s.pointRec q).1 = 9 ∧ (s.pointRec q).2.2.testBit (pointBit p) = true) ∧
    (∃ d t : Word, calOk (calWords d t) = true) ∧ (∃ d t : Word, calOk (calWords d t) = false) :=
  ⟨⟨{ run [] with keep := { inReset := true } }, rfl⟩, ⟨run [], by decide +kernel⟩,
    ⟨{ run [] with keep := { held := some (.trim 3) } }, .trim 3, by decide +kernel⟩,
    ⟨{ run [] with keep := { heldSilent := true } }, rfl⟩, ⟨run [], rfl⟩, ⟨0, by decide +kernel⟩, ⟨run [], of_asks (by decide +kernel)⟩,
    ⟨run [], by decide +kernel⟩, ⟨{ run [] with keep := { queue := List.replicate 8 (.trim 0) } }, by decide +kernel⟩,
    ⟨{ run [] with sram := [(sramKey 9 2048, 0x20009)] }, .host, 0, by decide +kernel⟩,
    ⟨0x18F0C1F, 0x17EFB, by decide +kernel⟩, ⟨0x18F021E, 0, by decide +kernel⟩⟩

theorem hyps_CalendarIsGregorian :
    (∃ c : CalTime, calOk c = true) ∧ (∃ t : Nat, t < calSpan) ∧
    (∃ s : State, s.keepCounts = true ∧ s.toSecond < s.toMultiple ∧ s.calSec = calSpan - 1) :=
  ⟨⟨⟨400 - 1, 12, 31, 23, 59, 59⟩, by decide +kernel⟩, ⟨calSpan - 1, by decide +kernel⟩, ⟨clocked (calSpan - 1) [], by decide +kernel⟩⟩

/-- A device that answers to host address 0x40 alone. -/
def hosted (p : Phase) (l : List (Fld × Nat × Nat)) : State := dev p ([(F.HOST_ADDR, 0xC0, 0)] ++ l)

/-- A write of one word to address 0 stands open, its data bytes `b` so far. -/
def writing (b : List Byte) (l : List (Fld × Nat × Nat)) : State := { hosted .running l with hostOpen := some (.write 0 0x40 0x10 0 1 b) }

theorem hyps_HostTransactions_start :
    (∃ op : BitVec 8, op.toNat < 0x10) ∧ (∃ op : BitVec 8, op.toNat = 0x50) ∧ (∃ op : BitVec 8, 0x20 ≤ op.toNat ∧ op.toNat < 0x50) ∧
    (∃ (s : State) (t : BitVec 7), (s.hostStart t.toNat).1 = none) ∧
    (∃ (s : State) (t : Nat), s.hostOpen = none ∧ s.hostMatch t = none) ∧ (∃ s : State, s.hostOpen = none ∧ s.phase = .inReset) ∧
    (∃ (s : State) (t : Nat), s.hostOpen = none ∧ s.hostMatch t ≠ none ∧ s.phase = .sensing) ∧
    (∃ (s : State) (t : Nat), s.hostOpen = none ∧ s.hostMatch t ≠ none ∧ s.phase = .running ∧ s.hostBurst = true) ∧
    (∃ (s : State) (t : Nat), s.hostOpen = none ∧ s.hostMatch t ≠ none ∧ s.phase = .resting) ∧
    (∃ s : State, s.hostOpen = none ∧ s.phase = .running ∧ s.hostBurst = false) ∧
    (∃ s : State, s.on F.HOST_MASK_MODE = false) ∧ (∃ s : State, s.on F.HOST_MASK_MODE = true) ∧
    (∃ (s : State) (t : BitVec 7), s.on F.HOST_MASK_MODE = true ∧ s.hostMatch t.toNat = some 0) :=
  ⟨⟨0x0F, by decide⟩, ⟨0x50, rfl⟩, ⟨0x4F, by decide⟩, ⟨hosted .running [], 0x41, by decide +kernel⟩, ⟨hosted .running [], 0x41, by decide +kernel⟩,
    ⟨.reset, rfl, rfl⟩, ⟨hosted .sensing [], 0x40, by decide +kernel⟩, ⟨{ hosted .running [] with hostBurst := true }, 0x40, by decide +kernel⟩,
    ⟨hosted .resting [], 0x40, by decide +kernel⟩, ⟨hosted .running [], by decide +kernel⟩, ⟨run [], by decide +kernel⟩,
    ⟨hosted .running [(F.HOST_MASK_MODE, 1, 0)], by decide +kernel⟩,
    ⟨hosted .running [(F.HOST_MASK_MODE, 1, 0), (F.HOST_MASK_MASK, 1, 0)], 0x41, by decide +kernel⟩⟩

theorem hyps_HostTransactions_end :
    (∃ s : State, s.hostOpen = none) ∧
    (∃ (s : State) (b : List Byte), s.hostOpen = some (.write 0 0x40 0x10 0 1 b) ∧ b.length ≠ 4 * (0x10 % 16 + 1)) ∧
    (∃ (s : State) (b : List Byte), s.hostOpen = some (.write 0 0x40 0x10 0 1 b) ∧ b.length = 4 * (0x10 % 16 + 1) ∧
      s.on F.HOST_CFG_PEC_REQ = true) ∧
    (∃ (s : State) (b : List Byte), s.hostOpen = some (.write 0 0x40 0x10 0 1 b) ∧ b.length = 4 * (0x10 % 16 + 1) ∧
      s.on F.HOST_CFG_PEC_REQ = false) ∧
    (∃ s : State, s.hostOpen = some (.read 0 0x20 0 true)) ∧
    (∃ s : State, s.hostBurst = true ∧ ∀ x ∈ s.waiting, x.party ≠ .host) ∧
    (∃ s : State, s.fabricOn = false) ∧ (∃ s : State, s.fabricOn = true) ∧ (∃ s : State, s.hostScl = true) ∧
    (∃ s : State, s.hostSda = true) ∧ (∃ s : State, s.hostScl = false) ∧ (∃ s : State, s.hostSda = false) :=
  ⟨⟨run [], rfl⟩, ⟨writing [0, 0, 0] [], [0, 0, 0], rfl, by decide⟩,
    ⟨writing [0, 0, 0, 0] [(F.HOST_CFG_PEC_REQ, 1, 0)], [0, 0, 0, 0], rfl, rfl, by decide +kernel⟩,
    ⟨writing [0, 0, 0, 0] [(F.HOST_CFG_PEC_REQ, 0, 0)], [0, 0, 0, 0], rfl, rfl, by decide +kernel⟩,
    ⟨{ run [] with hostOpen := some (.read 0 0x20 0 true) }, rfl⟩, ⟨{ run [] with hostBurst := true }, by decide +kernel⟩,
    ⟨.reset, by decide +kernel⟩, ⟨run [], by decide +kernel⟩, ⟨{ run [] with hostScl := true }, rfl⟩, ⟨{ run [] with hostSda := true }, rfl⟩,
    ⟨run [], rfl⟩, ⟨run [], rfl⟩⟩

theorem hyps_HostTransactions_data :
    (∃ (s : State) (t : BitVec 7), (s.hostStart t.toNat).1 = some 0) ∧ (∃ b : List Byte, b.length ≤ 4) ∧
    (∃ b : List Byte, 4 < b.length ∧ crc8 (hostHead 0x40 0x10 0 ++ b.take 4) = byteAt b 4) ∧
    (∃ b : List Byte, 4 < b.length ∧ crc8 (hostHead 0x40 0x10 0 ++ b.take 4) ≠ byteAt b 4) ∧
    (∃ (s : State) (t : BitVec 7), (s.hostStart t.toNat).1 = some 0 ∧
      let v := (s.hostStart t.toNat).2.put F.HOST_STAT_AIDX 0
      let f := State.fetch .host 1 0x5C02 1 { v.put F.HOST_STAT_BUSY 1 with hostTx := [], hostAcks := List.replicate 4 true }
      f.2.phase = v.phase ∧ ∀ x ∈ f.1, x.2 ≤ 900) :=
  ⟨⟨hosted .running [], 0x40, by decide +kernel⟩, ⟨[0, 0, 0, 0], by decide⟩,
    ⟨[0, 0, 0, 0, BitVec.ofNat 8 (crc8 [128, 16, 0, 0, 0, 0, 0, 0])], by decide +kernel⟩,
    ⟨[0, 0, 0, 0, BitVec.ofNat 8 (crc8 [128, 16, 0, 0, 0, 0, 0, 0] + 1)], by decide +kernel⟩,
    ⟨hosted .running [], 0x40, by decide +kernel⟩⟩
/-- Engine 7 runs with the word `w` at its PC and `v` in x1, no cycle of its run yet spent. -/
def engine (w : Word) (v : Word) (l : List (Fld × Nat × Nat)) : State :=
  let s := run ([(F.PEn_STAT_STATE, peRunning, 7), (F.PEn_WD_LIMIT, 100, 7)] ++ l)
  { s with
    sram := if w = 0 then [] else [(sramKey 7 0, w)]
    eng := tset s.eng 7 { (default : EngSt) with codeLen := 8, x := (Vector.replicate 16 0).set 1 v } }

def atWord (s : State) (w : Word) : Bool :=
  s.peState 7 == peRunning && !s.peBarred 7 && decide (s.pc 7 < (s.pe 7).codeLen / 4) && s.sramPeek (sramKey 7 (s.pc 7)) == w &&
    s.sramRaw.isEmpty

theorem of_word {s : State} {w : Word} (h : atWord s w = true) : s.EngineAt 7 w := by
  simp only [atWord, Bool.and_eq_true, decide_eq_true_eq, Bool.not_eq_true', beq_iff_eq, List.isEmpty_iff] at h
  obtain ⟨⟨⟨⟨a, b⟩, c⟩, d⟩, e⟩ := h
  exact ⟨a, b, c, d, e⟩

def sameEngine (s c : State) : Bool :=
  decide (c.pe 7 = { s.pe 7 with data := (c.pe 7).data, stopReq := (c.pe 7).stopReq }) && decide (c.pc 7 = s.pc 7) &&
    decide (c.runLimit 7 = s.runLimit 7) && decide (c.peSlow 7 = s.peSlow 7) && decide (c.pllLockAt = s.pllLockAt)

theorem of_same {s c : State} (h : sameEngine s c = true) : s.SameEngine 7 c := by
  simp only [sameEngine, Bool.and_eq_true, decide_eq_true_eq] at h
  obtain ⟨⟨⟨⟨a, b⟩, d⟩, e⟩, f⟩ := h
  exact ⟨a, b, d, e, f⟩

/-- Everything a statement that the engine executes `w`, of `k` cycles, supposes of `s`. -/
def stands (s : State) (w : Word) (k wait : Nat) (halts : Bool) : Bool :=
  let m := s.engCycles 7 k + wait
  atWord s w && decide ((s.pe 7).ahead = 0) && !s.budgetAhead 7 && decide ((s.pe 7).cycles + m < s.runLimit 7 + b2n halts) && atWord (s.engineThen 7 m) w && sameEngine s (s.engineThen 7 m)

theorem of_stands {s : State} {w : Word} {k wait : Nat} {halts : Bool} (h : stands s w k wait halts = true) :
    s.EngineAt 7 w ∧ (s.pe 7).ahead = 0 ∧ s.budgetAhead 7 = false ∧
      (s.pe 7).cycles + (s.engCycles 7 k + wait) < s.runLimit 7 + b2n halts ∧
      (s.engineThen 7 (s.engCycles 7 k + wait)).EngineAt 7 w ∧ s.SameEngine 7 (s.engineThen 7 (s.engCycles 7 k + wait)) := by
  simp only [stands, Bool.and_eq_true, decide_eq_true_eq, Bool.not_eq_true'] at h
  obtain ⟨⟨⟨⟨⟨a, x⟩, y⟩, b⟩, c⟩, d⟩ := h
  exact ⟨of_word a, x, y, b, of_word c, of_same d⟩

/-- An engine whose budget of 1,000 cycles lies within its division, of 18 (R462). -/
theorem hyps_EngineArithmetic_overrun :
    let s := { engine (encR 0x13 2 1 1) 5 [((F.PEn_HLIM_BUDGET).off 0, 1000, 7), (F.PEn_WD_LIMIT, 0xFFFF, 7)] with
      eng := tset (engine 0 0 []).eng 7 { (engine 0 5 []).pe 7 with cycles := 990 } }
    s.EngineAt 7 (encR 0x13 2 1 1) ∧ (s.pe 7).cycles + 18 < s.runLimit 7 ∧ s.budgetAhead 7 = true ∧
      s.runBudget 7 < (s.pe 7).cycles + 18 ∧ (s.reachBudget 7).EngineAt 7 (encR 0x13 2 1 1) :=
  ⟨of_word (by decide +kernel), by decide +kernel, by decide +kernel, by decide +kernel, of_word (by decide +kernel)⟩

/-- What an access or a wait finds again after an overrun is there where nothing has moved. -/
theorem hyps_EngineAccesses_overrun : ∃ s : State, s.SameBegin 7 s := ⟨run [], fun _ => rfl, rfl⟩

/-- One instruction of each shape of R456 that meets the hypotheses of its statement. -/
theorem hyps_EngineArithmetic :
    stands (engine (encR 0x01 2 1 1) 5 []) (encR 0x01 2 1 1) 1 0 false = true ∧
    stands (engine (encR 0x17 0 1 15) 5 []) (encR 0x17 0 1 15) 2 0 false = true ∧
    stands (engine (encI 0x20 15 1 0x3FFFF) 5 []) (encI 0x20 15 1 0x3FFFF) 1 0 false = true ∧
    stands (engine (encU 0x28 2 0xFFFF) 5 []) (encU 0x28 2 0xFFFF) 1 0 false = true := by decide +kernel

/-- An engine that is restarted by the host while its division runs. -/
theorem hyps_EngineArithmetic_stopped :
    let s := { engine (encR 0x13 2 1 1) 5 [] with waiting := [{ party := .host, addr := F.PEn_CTRL.addr 7, word := some 0x40000000 }] }
    s.EngineAt 7 (encR 0x13 2 1 1) ∧ (s.pe 7).cycles + s.engCycles 7 18 < s.runLimit 7 ∧
      (s.engineThen 7 (s.engCycles 7 18)).peState 7 ≠ peRunning :=
  ⟨of_word (by decide +kernel), by decide +kernel, by decide +kernel⟩

theorem hyps_DivisionIsDefined : stands (engine (encR 0x14 2 1 0) 5 []) (encR 0x14 2 1 0) 18 0 false = true := by decide +kernel

/-- An engine at an access or a branch that faults. -/
def faultsAt (s : State) (w : Word) : Bool := atWord s w && !s.budgetAhead 7 && atWord (s.engineThen 7 0) w && sameEngine s (s.engineThen 7 0)

/-- Branches and jumps to both ends of the program's address range and past it (R459). -/
theorem hyps_EngineControl_jumps :
    (stands (engine (encI 0x38 1 0 4095) 5 []) (encI 0x38 1 0 4095) 1 0 false = true ∧ (engine (encI 0x38 1 0 4095) 5 []).xreg 7 1 ≠ 0) ∧
    stands (engine (encI 0x38 1 0 4095) 0 []) (encI 0x38 1 0 4095) 2 0 false = true ∧
    faultsAt (engine (encI 0x38 1 0 4096) 0 []) (encI 0x38 1 0 4096) = true ∧
    faultsAt (engine (encI 0x38 1 0 0x3FFFF) 0 []) (encI 0x38 1 0 0x3FFFF) = true ∧
    stands (engine (encJ 0x3E 1 0) 0 []) (encJ 0x3E 1 0) 2 0 false = true ∧
    faultsAt (engine (encJ 0x3E 1 0x3FFFFF) 0 []) (encJ 0x3E 1 0x3FFFFF) = true ∧
    stands (engine (encI 0x3F 1 1 0) 4095 []) (encI 0x3F 1 1 0) 2 0 false = true ∧
    faultsAt (engine (encI 0x3F 1 1 0) 4096 []) (encI 0x3F 1 1 0) = true := by decide +kernel

theorem hyps_EngineControl_sys :
    stands (engine (encSys 0 0 0) 0 []) (encSys 0 0 0) 1 0 false = true ∧ stands (engine (encSys 1 0 0) 0 []) (encSys 1 0 0) 1 0 true = true ∧
    stands (engine (encSys 2 1 0) 0 []) (encSys 2 1 0) 1 0 false = true ∧ stands (engine (encSys 5 15 0) 0 []) (encSys 5 15 0) 1 0 false = true ∧
    ((engine (encSys 6 0 1) 0 []).waitTicks 7 1 = some 0 ∧ stands (engine (encSys 6 0 1) 0 []) (encSys 6 0 1) 1 0 false = true) ∧
    ((ticks (engine (encSys 6 0 1) 3 [])).waitTicks 7 1 = some 3 ∧
      stands (ticks (engine (encSys 6 0 1) 3 [])) (encSys 6 0 1) 1 6 false = true) ∧
    (engine (encSys 6 0 1) 3 []).waitTicks 7 1 = none := by decide +kernel

theorem hyps_EngineControl_ends :
    (∃ s : State, (s.pe 7).stopReq = false) ∧ (∃ s : State, (s.pe 7).stopReq = true) ∧
    (∃ s : State, s.peState 7 = peRunning ∧ s.peBarred 7 = false ∧ s.budgetAhead 7 = false ∧ (s.pe 7).codeLen / 4 = s.pc 7 ∧
      (s.engineThen 7 0).peState 7 = peRunning ∧ (s.engineThen 7 0).peBarred 7 = false ∧
      ((s.engineThen 7 0).pe 7).codeLen / 4 ≤ (s.engineThen 7 0).pc 7) :=
  ⟨⟨run [], rfl⟩, ⟨{ run [] with eng := tset State.reset.eng 7 { (default : EngSt) with stopReq := true } }, rfl⟩,
    ⟨engine 0 0 [(F.PEn_STAT_PC, 2, 7)], by decide +kernel⟩⟩

/-- Accesses at the ends of the address ranges of R453: the last word below the stage area, the first of it, the last of all. -/
theorem hyps_EngineAccesses :
    stands (engine (encI 0x30 2 1 0) 40956 []) (encI 0x30 2 1 0) 2 ((engine (encI 0x30 2 1 0) 40956 []).portWait 7) false = true ∧
    stands (engine (encI 0x31 2 1 0) 40960 []) (encI 0x31 2 1 0) 2 ((engine (encI 0x31 2 1 0) 40960 []).portWait 7) false = true ∧
    stands (engine (encI 0x31 2 1 0) 65532 []) (encI 0x31 2 1 0) 2 ((engine (encI 0x31 2 1 0) 65532 []).portWait 7) false = true ∧
    faultsAt (engine (encI 0x30 2 1 0) 65536 []) (encI 0x30 2 1 0) = true ∧ faultsAt (engine (encI 0x31 2 1 0) 2 []) (encI 0x31 2 1 0) = true ∧
    stands (engine (encI 0x34 2 1 0) 65535 []) (encI 0x34 2 1 0) 4 0 false = true ∧
    stands (engine (encI 0x35 2 1 0) 65535 []) (encI 0x35 2 1 0) 4 0 false = true ∧
    faultsAt (engine (encI 0x35 2 1 0) 65536 []) (encI 0x35 2 1 0) = true := by decide +kernel

theorem hyps_EngineEncodings : legalWord 0 = false ∧ faultsAt (engine 0 0 []) 0 = true := by decide +kernel

/-- Engine 7 in the state `st`, with the fields `l`. -/
def engineIn (st : Nat) (e : EngSt) (l : List (Fld × Nat × Nat)) : State :=
  { run ([(F.PEn_STAT_STATE, st, 7)] ++ l) with eng := tset State.reset.eng 7 e }

theorem hyps_EngineRuns_runs :
    (∃ s : State, s.peState 7 ≠ peIdle) ∧ (∃ s : State, s.peBarred 7 = true) ∧ (∃ s : State, s.peNext 7 = none) ∧
    (∃ s : State, s.peState 7 = peIdle ∧ s.peBarred 7 = false ∧ s.peNext 7 = some (7 : Fin 8).val) ∧
    (∃ s : State, s.budgetAhead 7 = false) ∧ (∃ s : State, s.budgetAhead 7 = true ∧ s.runLimit 7 ≤ s.runBudget 7) ∧ (∃ s : State, s.budgetAhead 7 = true ∧ s.runBudget 7 < s.runLimit 7) ∧
    (∃ s : State, s.peState 7 ≠ peRunning) ∧
    (∃ s : State, s.peState 7 = peRunning ∧ (s.passTo ((State.expire 7 s).engNow 7)).peState 7 = peRunning) ∧
    (∃ (s : State) (t : Nat), s.ticking = true ∧ s.periodicDue 7 7 = some t) :=
  ⟨⟨engineIn peRunning default [], by decide +kernel⟩, ⟨engineIn peIdle default [(F.FLT_STAT_HALT, 1, 0)], by decide +kernel⟩,
    ⟨run [], by decide +kernel⟩, ⟨engineIn peIdle default [(F.PEn_PEND_PEND, 128, 7)], by decide +kernel⟩, ⟨run [], by decide +kernel⟩,
    ⟨engineIn peRunning default [((F.PEn_HLIM_BUDGET).off 0, 64000, 7), (F.PEn_WD_LIMIT, 1000, 7)], by decide +kernel⟩,
    ⟨engineIn peRunning default [((F.PEn_HLIM_BUDGET).off 0, 10, 7), (F.PEn_WD_LIMIT, 1000, 7)], by decide +kernel⟩, ⟨run [], by decide +kernel⟩,
    ⟨engineIn peRunning default [(F.PEn_WD_LIMIT, 1, 7)], by decide +kernel⟩,
    ⟨ticks (engineIn peIdle default [((F.PEn_HCFG_TRIG).off 14, 2, 7), ((F.PEn_HLIM_PERIOD).off 14, 1, 7)]), 0, by decide +kernel⟩⟩

theorem hyps_EngineRuns_control :
    (∃ s : State, s.peBarred 7 = false) ∧ (∃ (s : State) (t : Nat), (s.pe 7).failAt = some t) ∧
    (∃ s : State, s.peState 7 = peRestarting ∧ (s.pe 7).checked = false ∧ s.sramRaw = []) ∧
    (∃ s : State, s.peState 7 = peCodeErr) ∧ (∃ s : State, s.peState 7 = peStopped ∧ s.peBarred 7 = false) ∧
    (∃ s : State, s.peState 7 = peNone) ∧ (∃ s : State, s.peState 7 = peStopped ∧ (s.pe 7).halted = true ∧ s.peBarred 7 = true) ∧
    (∃ s : State, s.peState 7 = peIdle) ∧ (∃ s : State, s.peState 7 = peRunning) ∧
    (∃ s : State, s.peState 7 ≠ peIdle ∧ s.peState 7 ≠ peRunning) :=
  ⟨⟨run [], by decide +kernel⟩, ⟨engineIn peRestarting { (default : EngSt) with failAt := some 5 } [], 5, by decide +kernel⟩,
    ⟨engineIn peRestarting default [], by decide +kernel⟩, ⟨engineIn peCodeErr default [], by decide +kernel⟩,
    ⟨engineIn peStopped default [], by decide +kernel⟩, ⟨engineIn peNone default [], by decide +kernel⟩,
    ⟨engineIn peStopped { (default : EngSt) with halted := true } [(F.FLT_STAT_HALT, 1, 0)], by decide +kernel⟩,
    ⟨engineIn peIdle default [], by decide +kernel⟩, ⟨engineIn peRunning default [], by decide +kernel⟩,
    ⟨engineIn peHeld default [], by decide +kernel⟩⟩

theorem hyps_MemoryIsScrubbed :
    (∃ s : State, s.writeBack = []) ∧ (∃ (s : State) (k : Nat) (l : List Nat), s.writeBack = k :: l ∧ s.remapped k = true) ∧
    (∃ (s : State) (k : Nat) (l : List Nat), s.writeBack = k :: l ∧ s.remapped k = false ∧ k < 12 * 16384 ∧
      s.on F.MEM_REMAP_VALID 7 = false ∧ ∀ j : Fin 8, j < 7 → s.on F.MEM_REMAP_VALID j = true) ∧
    (∃ (s : State) (k : Nat) (l : List Nat), s.writeBack = k :: l ∧ s.remapped k = false ∧ ∀ j : Fin 8, s.on F.MEM_REMAP_VALID j = true) ∧
    (∃ s : State, s.fabricOn = false) ∧ (∃ s : State, s.fabricOn = true ∧ ∃ t, s.starvedDue = some t) ∧
    (∃ s : State, s.get F.MEM_SCRUB_MODE = 0) ∧
    (∃ s : State, s.get F.MEM_SCRUB_MODE ≠ 0 ∧ (scrubKey s.scrub.pos, s.now, 4) ∈ s.portLog) ∧ (∃ s : State, s.scrub.pos + 1 = lapWords) ∧ (∃ s : State, Asks s) :=
  ⟨⟨run [], rfl⟩, ⟨{ run [(F.MEM_REMAP_VALID, 1, 0)] with writeBack := [0] }, 0, [], by decide +kernel⟩,
    ⟨{ run ((List.range 7).map (fun i => (F.MEM_REMAP_VALID, 1, i))) with writeBack := [12 * 16384 - 1] }, 12 * 16384 - 1, [], by decide +kernel⟩,
    ⟨{ run ((List.range 8).map (fun i => (F.MEM_REMAP_VALID, 1, i))) with writeBack := [5] }, 5, [], by decide +kernel⟩,
    ⟨.reset, by decide +kernel⟩, ⟨run [(F.MEM_SCRUB_MODE, 1, 0), (F.MEM_SCRUB_LAP_MAX, 1, 0)], by decide +kernel, 10000001, by decide +kernel⟩,
    ⟨run [(F.MEM_SCRUB_MODE, 0, 0)], by decide +kernel⟩,
    ⟨{ run [(F.MEM_SCRUB_MODE, 1, 0)] with portLog := [(scrubKey 0, 0, 4)] }, by decide +kernel⟩,
    ⟨{ run [] with scrub := { pos := 69631 } }, by decide +kernel⟩, ⟨run [], of_asks (by decide +kernel)⟩⟩

/-- A pulse of PROGRAM on bit 31 of word 63 of region 7, the bits `l` to follow. -/
def programming (l : List Nat) : State :=
  { run [] with otpOp := some { op := 1, region := 7, word := 63, bits := 31 :: l, target := 31 :: l, due := 2200 } }

theorem hyps_OtpOperations :
    (∃ s : State, Asks s) ∧ (∃ (s : State) (region word b : Nat), region < 8 ∧ word < 64 ∧ b < 32 ∧
      (SMap.get otpDefault s.otp (otpKey region word)).getLsbD b = false) ∧
    (∃ (s : State) (o : OtpOp), s.otpOp = some o) ∧
    (∃ (s : State) (o : OtpOp) (b : Nat), s.otpOp = some o ∧ o.bits = [b] ∧ o.op = 1 ∧ b < 32 ∧ o.target.contains b = true) ∧
    (∃ (s : State) (o : OtpOp) (b : Nat) (l : List Nat), s.otpOp = some o ∧ o.bits = b :: l ∧ l ≠ [] ∧ o.op = 1 ∧ b < 32 ∧
      o.target.contains b = true) ∧
    (∃ (s : State) (k i : Nat), s.counterFree k = some i) :=
  ⟨⟨run [], of_asks (by decide +kernel)⟩, ⟨run [], 7, 63, 31, by decide +kernel⟩, ⟨programming [], _, rfl⟩,
    ⟨programming [], _, 31, rfl, by decide +kernel⟩, ⟨programming [30], _, 31, [30], rfl, by decide +kernel⟩,
    ⟨run [], 7, 0, by decide +kernel⟩⟩

/-- The test port enabled with the instruction `ir`. -/
def testing (p : Phase) (ir ctl : Nat) : State := dev p [(F.TEST_STAT_ENABLED, 1, 0), (F.TEST_STAT_IR, ir, 0), (F.TEST_STAT_PINCTL, ctl, 0)]

theorem hyps_TestPortActs :
    (∃ s : State, s.on F.TEST_STAT_ENABLED = false) ∧ (∃ s : State, s.on F.TEST_STAT_ENABLED = true) ∧
    (∃ s : State, s.on F.TEST_STAT_PINCTL = false) ∧ (∃ s : State, s.on F.TEST_STAT_PINCTL = true ∧ s.get F.TEST_STAT_IR = 2) ∧
    (∃ s : State, s.on F.TEST_STAT_PINCTL = true ∧ s.get F.TEST_STAT_IR ≠ 2) ∧
    (∃ s : State, s.on F.TEST_STAT_ENABLED = true ∧ s.get F.TEST_STAT_IR = 0x20 ∧ s.fabricOn = false) ∧
    (∃ s : State, s.on F.TEST_STAT_ENABLED = true ∧ s.get F.TEST_STAT_IR = 0x20 ∧ s.fabricOn = true) ∧
    (∃ (s : State) (w : Bool) (a : Nat) (d : Word), s.tap.ask = some (w, a, d)) ∧ (∃ s : State, s.tap.ask = none) ∧
    (∃ st d a w : Nat, st < 4 ∧ d < 2 ^ 32 ∧ a < 65536 ∧ w < 2 ∧ st = 3 ∧ d = 2 ^ 32 - 1 ∧ a = 65535 ∧ w = 1) :=
  ⟨⟨.reset, by decide +kernel⟩, ⟨testing .running 0 0, by decide +kernel⟩, ⟨.reset, by decide +kernel⟩, ⟨testing .running 2 1, by decide +kernel⟩,
    ⟨testing .running 3 1, by decide +kernel⟩, ⟨testing .resting 0x20 0, by decide +kernel⟩, ⟨testing .running 0x20 0, by decide +kernel⟩,
    ⟨{ run [] with tap := { ask := some (true, 5, 6) } }, true, 5, 6, rfl⟩, ⟨.reset, rfl⟩, ⟨3, 2 ^ 32 - 1, 65535, 1, by decide⟩⟩

/-- Did the step answer a next state? -/
def went (o : Host.Outcome State Fault Refusal) : Bool :=
  match o with
  | .next _ => true
  | _ => false

theorem hyps_StepsKeepTheCanonicalForm : State.reset.canonical = true ∧
    (run [(F.LOOPn_OCP_ISC, 1, 7), (F.CAL_STAT_STATE, 1, 0)]).canonical = true ∧
    went (step { run [(F.LOOPn_OCP_ISC, 1, 7)] with pending := [.registerWrite [(.host, 0, 0)]] }) = true := by decide +kernel
/-! ### WellFormed: an ill-formed term for each check -/

theorem test_shortHeader : (Instr.headerArrived (List.replicate 63 0)).wellFormed = false := by decide
theorem test_longDirectory : (Instr.directoryArrived (List.replicate 257 0)).wellFormed = false := by decide +kernel
theorem test_shortTrain : (Instr.trainReceive 0 (List.replicate 19 0) 0 0 0).wellFormed = false := by decide
theorem test_shortDownHeader : (Instr.downFrameHeader 0 (List.replicate 13 0) 0 0).wellFormed = false := by decide
theorem test_longUpForward : (Instr.upFrameForward (List.replicate 335 0) []).wellFormed = false := by decide +kernel
theorem test_shortUpReceive : (Instr.upFrameReceive 0 (List.replicate 333 0) []).wellFormed = false := by decide +kernel
theorem test_shortCurrents : (Instr.carrierBoundary 0 { vsense := 0, vlocal := 0, senp := 0, senn := 0, iph := [] }).wellFormed = false := by
  decide
theorem test_longIdentify : (Instr.stageFaultIdentify 7 (List.replicate 25 0)).wellFormed = false := by decide
theorem test_writeWithReadOpcode : (Instr.hostWrite 0x48 0x20 0 [] true).wellFormed = false ∧
    (Instr.hostWrite 0x48 0x4F 0 [] true).wellFormed = false := by decide

/-- A link command with another command's OP, of the right length for its own, is none; nor is one a byte short. -/
theorem test_linkForms : (List.range 0x40).all (fun op =>
    !linkForm op (cmdBytes (op + 1) 0 0 0 0 0 [])) = true ∧ linkForm 0x10 (cmdBytes 0x10 0 0 0 0 0 [] |>.dropLast) = false := by
  decide +kernel

/-- A term that is no command stops the block. -/
theorem test_illFormedStops : step { run [] with pending := [.headerArrived []] } = .fault .illFormed := rfl

/-! ### Numbers the spec prints -/

/-- The program of chapter 17's example, address by address (R455, R456). -/
theorem test_engineProgram :
    [encU 0x28 1 0x2000, encI 0x22 1 1 16, encI 0x35 1 0 0x6088, encU 0x28 2 0x64, encI 0x22 2 2 200, encI 0x35 2 0 0x6089,
      encSys 1 0 0] = [0xA0402000, 0x88440010, 0xD4406088, 0xA0800064, 0x888800C8, 0xD4806089, 0x60004000] ∧
    [encI 0x34 3 0 0x310B, encI 0x26 3 3 16, encI 0x20 4 0 900, encI 0x34 5 0 0x201A, encI 0x24 5 5 1, encI 0x25 5 5 1,
      encI 0x3A 3 4 3, encU 0x28 6 0x8000, encR 0x04 5 5 6, encI 0x35 5 0 0x201A] =
      [0xD0C0310B, 0x98CC0010, 0x81000384, 0xD140201A, 0x91540001, 0x95540001, 0xE8D00003, 0xA1808000, 0x11558000, 0xD540201A] ∧
    (F.CHn_TEMP_TW1.addr 4, F.LOOPn_THR_SW.addr 0, (F.PEn_HCFG_TRIG).addr 2, (F.PEn_HLIM_PERIOD).addr 2) =
      (0x310B, 0x201A, 0x6088, 0x6089) := by decide +kernel

/-- The PEC of chapter 16's example (R442). -/
theorem test_pec : crc8 [0x90, 0x10, 0x02, 0x5C, 0x01, 0, 0, 0] = 0x73 := by decide +kernel

/-- The checks of the catalogue for "123456789": CRC-16 of R122's form and CRC-32 of R56's. -/
theorem test_crcs : let b : List Byte := [0x31, 0x32, 0x33, 0x34, 0x35, 0x36, 0x37, 0x38, 0x39]
    crc16 b = 0x29B1 ∧ crc32 b = 0xCBF43926 := by decide +kernel

/-- The digest of the empty message, as FIPS 180-4 gives it (R57). -/
theorem test_sha256 : sha256 [] = [0xe3, 0xb0, 0xc4, 0x42, 0x98, 0xfc, 0x1c, 0x14, 0x9a, 0xfb, 0xf4, 0xc8, 0x99, 0x6f, 0xb9, 0x24,
    0x27, 0xae, 0x41, 0xe4, 0x64, 0x9b, 0x93, 0x4c, 0xa4, 0x95, 0x99, 0x1b, 0x78, 0x52, 0xb8, 0x55] := by decide +kernel

/-- The comma character of IEEE 802.3 at both disparities, and D21.5, whose bits alternate (R105). -/
theorem test_codeGroups : (controlGroup 0xBC false).1 = 0b0011111010 ∧ (controlGroup 0xBC true).1 = 0b1100000101 ∧
    (dataGroup 0xB5 false).1 = 0b1010101010 ∧ (dataGroup 0xB5 true).1 = 0b1010101010 := by decide +kernel

/-- Chapter 8's example of a trip time: 40.0 A at 9.999 s and 50.0 A at 3.000 s give 5.30 s at 45.0 A, here with the points rounded to
M × 2^E, in units of 10 µs / 4,096 (R252, R254). -/
theorem test_tripTime : let t := curveInterp 45000 (BitVec.ofNat 32 (400 * 65536 + 8 * 4096 + 3906)) (BitVec.ofNat 32 (500 * 65536 + 7 * 4096 + 2344))
    4096 * 529000 < t ∧ t < 4096 * 531000 := by decide +kernel

/-- Chapter 6's example: phase 3 of 5 at PERIOD 5,333 starts at 3,199 fine units, coarse count 399 and step 7 (R183). -/
theorem test_phaseStart : phaseStart 3 5333 5 = 3199 ∧ edgePlace 3199 = (399, 7) := by decide

/-- Chapter 14's example: a window of 99,998,000 ticks is +20.0004 ppm, and its TRIM is −21 (R407, R408). -/
theorem test_keepTrim : (100000000 - 99998000) * 100000000 / 99998000 = 2000 ∧
    clampI (-127) 127 (-(roundDiv ((100000000 - 99998000) * 2 ^ 20) 99998000)) = -21 := by decide +kernel

/-- The weekday of 2000-01-01 is a Saturday; 2100-02-29 is no date and 2000-02-29 is one (R409). -/
theorem test_calendar : bitsOf (calDateWord 0) 12 3 = 6 ∧ calOk ⟨100, 2, 29, 0, 0, 0⟩ = false ∧ calOk ⟨0, 2, 29, 0, 0, 0⟩ = true := by
  decide +kernel

/-! ### Single steps -/

/-- SOFT with its key takes a running device to the sensing of its OTP, the commands behind it still waiting (R422, R425). -/
theorem test_softReset : (match step { run [] with pending := [.soft .host 0x5A, .pllLock] } with
    | .next t => t.phase == .sensing && t.pending == [.pllLock]
    | _ => false) = true := by decide +kernel

/-- A write by the host reaches the register in the next cycle (R26, R30): HOST_CFG of chapter 16's example. -/
theorem test_registerWrite : (match step { run [] with pending := [.registerWrite [(.host, 0x5C02, 1)], .pllLock] } with
    | .next t => t.reg 0x5C02 == 1 && t.now == 1 && t.pending.length == 1
    | _ => false) = true := by decide +kernel

/-- An empty queue lets time pass; no word spells a command. -/
theorem test_idle : (match step (run []) with
    | .next t => decide (t.now = 1)
    | _ => false) = true ∧ decodeTableWord 32 0xFFFFFFFF = none := by decide +kernel

end Sys2Proof.Tests
end

/-! # What a command leaves: the queue, operation by operation -/
section
namespace Sys2Proof.Machine

variable (s : State)

/-! ## No operation of the device touches the queue

One rule for each operation that a command or an idle cycle can reach, in the order of the model's files: what it leaves in
`pending` is what it found there. Each follows from the rules of the operations it calls, which are simp lemmas.

`-implicitDefEqProofs` stands where a simp lemma is proved by `rfl`: without it simp leaves the rewrite to the kernel's
conversion, which then unfolds the whole operation. -/

/-! ### A branch and a fold leave what their parts leave -/

@[simp] theorem State.pending_ite (c : Prop) [Decidable c] (a b : State) :
    (if c then a else b).pending = if c then a.pending else b.pending := apply_ite State.pending c a b

@[simp] theorem State.pending_snd_ite {α : Type} (c : Prop) [Decidable c] (a b : α × State) :
    (if c then a else b).2.pending = if c then a.2.pending else b.2.pending :=
  apply_ite (fun x : α × State => x.2.pending) c a b

theorem foldl_keeps {α β γ : Type} {f : β → α → β} (p : β → γ) (h : ∀ b a, p (f b a) = p b) (l : List α) (b : β) :
    p (l.foldl f b) = p b := by
  induction l generalizing b with
  | nil => rfl
  | cons a l ih => rw [List.foldl_cons, ih, h]

@[simp] theorem State.pending_foldl {α : Type} (f : State → α → State) (h : ∀ s a, (f s a).pending = s.pending)
    (l : List α) : (l.foldl f s).pending = s.pending := foldl_keeps State.pending h l s

/-! ### Register writes, events, holds and triggers -/

@[simp] theorem State.putS_pending (f : Fld) (z : Int) (i : Nat) : (s.putS f z i).pending = s.pending := by simp [State.putS]

@[simp] theorem State.putB_pending (f : Fld) (b : Bool) (i : Nat) : (s.putB f b i).pending = s.pending := by
  simp [State.putB]

@[simp] theorem State.bump_pending (f : Fld) (i by' : Nat) : (s.bump f i by').pending = s.pending := by simp [State.bump]

@[simp] theorem State.setMaskBit_pending (f : Fld) (n : Nat) (b : Bool) : (s.setMaskBit f n b).pending = s.pending := by
  simp [State.setMaskBit]

@[simp] theorem State.put64_pending (f : Fld) (v : Nat) : (s.put64 f v).pending = s.pending := by simp [State.put64]

@[simp] theorem State.sramWrites_pending (k : Nat) (l : List Word) : (s.sramWrites k l).pending = s.pending := by
  induction l generalizing s k with
  | nil => rfl
  | cons w l ih => rw [State.sramWrites, ih, State.sramWrite_pending]

@[simp] theorem State.raiseReg_pending (cls ev obj : Nat) (f : Fld) (i : Nat) :
    (s.raiseReg cls ev obj f i).pending = s.pending := by
  simp [State.raiseReg]

@[simp] theorem State.notice_pending (p : Party) (a : Nat) : (s.notice p a).pending = s.pending := by
  unfold State.notice
  split <;> simp

@[simp] theorem State.showHolds_pending : s.showHolds.pending = s.pending := by simp [State.showHolds]

@[simp] theorem State.holdFor_pending (src : Nat) (o : HoldObj) : (s.holdFor src o).pending = s.pending := by
  unfold State.holdFor
  split <;> simp

@[simp] theorem State.slotEvent_pending (n h data : Nat) : (s.slotEvent n h data).pending = s.pending := by
  simp [State.slotEvent]

@[simp] theorem State.trigger_pending (trig arg data : Nat) : (s.trigger trig arg data).pending = s.pending := by
  simp [State.trigger]

@[simp] theorem State.triggerMbox_pending (n k data : Nat) : (s.triggerMbox n k data).pending = s.pending := by
  simp [State.triggerMbox]

@[simp] theorem State.register_pending (t : Nat × Nat × Nat) : (s.register t).pending = s.pending := by simp [State.register]
@[simp] theorem State.runTrigs_pending : s.runTrigs.pending = s.pending := by simp [State.runTrigs]

@[simp] theorem State.memFound_pending (src k bit : Nat) (last ecc cause : Fld) :
    (s.memFound src k bit last ecc cause).pending = s.pending := by
  simp -implicitDefEqProofs [State.memFound]

@[simp] theorem State.statRestart_pending (k : Nat) : (s.statRestart k).pending = s.pending := by
  unfold State.statRestart
  split <;> simp -implicitDefEqProofs

@[simp] theorem State.sramRead_pending (src k : Nat) : (s.sramRead src k).2.2.pending = s.pending := by
  unfold State.sramRead
  dsimp only
  (repeat' split) <;> simp

@[simp] theorem State.ownRead_pending (src lo hi : Nat) : (s.ownRead src lo hi).pending = s.pending := by
  simp [State.ownRead]

@[simp] theorem State.liveRead_pending (src a : Nat) : (s.liveRead src a).pending = s.pending := by
  unfold State.liveRead
  (repeat' split) <;> simp

@[simp] theorem State.portWrite_pending (p : Party) (k : Nat) (w : Word) : (s.portWrite p k w).pending = s.pending := by
  simp [State.portWrite]

/-! ### Slots, beats, the time step and strikes -/

@[simp] theorem State.setSync_pending (v : Nat) : (s.setSync v).pending = s.pending := by simp [State.setSync]

@[simp] theorem State.queueCmd_pending (grp : Nat) (bytes : List Byte) (p : CmdFor) :
    (s.queueCmd grp bytes p).pending = s.pending := by
  simp [State.queueCmd]

@[simp] theorem State.readPoints_pending (p n : Nat) : (s.readPoints p n).pending = s.pending := by simp [State.readPoints]
@[simp] theorem State.readEntry_pending (slot : Nat) : (s.readEntry slot).pending = s.pending := by simp [State.readEntry]
@[simp] theorem State.countTaken_pending (num : Nat) : (s.countTaken num).pending = s.pending := by simp [State.countTaken]

@[simp] theorem State.takeId_pending : (s.takeId).2.pending = s.pending := by
  unfold State.takeId
  split <;> simp -implicitDefEqProofs

@[simp] theorem State.closeId_pending (id : Nat) : (s.closeId id).pending = s.pending := by simp [State.closeId]
@[simp] theorem State.closeSlot_pending (n : Nat) : (s.closeSlot n).pending = s.pending := by simp [State.closeSlot]
@[simp] theorem State.endQuarantine_pending : s.endQuarantine.pending = s.pending := by simp [State.endQuarantine]

@[simp] theorem State.armHier_pending (slot launch targets : Nat) :
    (s.armHier slot launch targets).2.pending = s.pending := by
  simp -implicitDefEqProofs [State.armHier]

@[simp] theorem State.armLocal_pending (slot launch : Nat) : (s.armLocal slot launch).pending = s.pending := by
  simp [State.armLocal]

@[simp] theorem State.putArmRes_pending (p : Party) (id result slot : Nat) :
    (s.putArmRes p id result slot).pending = s.pending := by
  simp -implicitDefEqProofs [State.putArmRes]

@[simp] theorem State.armCmd_pending (p : Party) (rel hier useMask : Bool) (slot : Nat) :
    (s.armCmd p rel hier useMask slot).pending = s.pending := by
  simp [State.armCmd]

@[simp] theorem State.cancelCmd_pending (p : Party) (hier : Bool) (slot : Nat) :
    (s.cancelCmd p hier slot).pending = s.pending := by
  simp [State.cancelCmd]

@[simp] theorem State.armFault_pending (slot : Nat) : (s.armFault slot).pending = s.pending := by simp [State.armFault]

@[simp] theorem State.refuseLink_pending (slot result id : Nat) : (s.refuseLink slot result id).pending = s.pending := by
  simp [State.refuseLink]

@[simp] theorem State.armLink_pending (b : List Byte) : (s.armLink b).pending = s.pending := by simp [State.armLink]
@[simp] theorem State.cancelLink_pending (b : List Byte) : (s.cancelLink b).pending = s.pending := by simp [State.cancelLink]
@[simp] theorem State.beatMissed_pending (n : Nat) : (s.beatMissed n).pending = s.pending := by simp [State.beatMissed]
@[simp] theorem State.beatLink_pending (b : List Byte) : (s.beatLink b).pending = s.pending := by simp [State.beatLink]

@[simp] theorem State.stepCount_pending : s.stepCount.pending = s.pending := by
  unfold State.stepCount
  split <;> simp

@[simp] theorem State.judgeError_pending (e : Int) : (s.judgeError e).pending = s.pending := by simp [State.judgeError]
@[simp] theorem State.readTick_pending (p : Party) : (s.readTick p).2.pending = s.pending := by simp [State.readTick]
@[simp] theorem State.escCntClr_pending : s.escCntClr.pending = s.pending := by simp [State.escCntClr]
@[simp] theorem State.restDisarm_pending : s.restDisarm.pending = s.pending := by simp [State.restDisarm]

/-! ### Ports, training, queued commands and answers -/

@[simp] theorem State.setPort_pending (p : Nat) (x : PortSt) : (s.setPort p x).pending = s.pending := by simp [State.setPort]
@[simp] theorem State.markEnds_pending : s.markEnds.pending = s.pending := by simp [State.markEnds]

@[simp] theorem State.showOffset_pending : s.showOffset.pending = s.pending := by
  unfold State.showOffset
  (repeat' split) <;> simp

@[simp] theorem State.showPhantom_pending : s.showPhantom.pending = s.pending := by simp [State.showPhantom]
@[simp] theorem State.rdLost_pending (p : Nat) : (s.rdLost p).pending = s.pending := by simp [State.rdLost]
@[simp] theorem State.setUpstream_pending (p : Nat) : (s.setUpstream p).pending = s.pending := by simp [State.setUpstream]

@[simp] theorem State.heal_pending (from' : Nat) (send : Bool) : (s.heal from' send).pending = s.pending := by
  simp [State.heal]

@[simp] theorem State.lineCut_pending (p : Nat) : (s.lineCut p).pending = s.pending := by simp [State.lineCut]
@[simp] theorem State.requestsCut_pending (p : Nat) : (s.requestsCut p).pending = s.pending := by simp [State.requestsCut]

@[simp] theorem State.portGoesDown_pending (p : Nat) (ld : Bool) : (s.portGoesDown p ld).pending = s.pending := by
  simp [State.portGoesDown]

@[simp] theorem State.healReceive_pending (p : Nat) : (s.healReceive p).pending = s.pending := by simp [State.healReceive]
@[simp] theorem State.portsListen_pending : s.portsListen.pending = s.pending := by simp [State.portsListen]
@[simp] theorem State.codeErrors_pending (p n : Nat) : (s.codeErrors p n).pending = s.pending := by simp [State.codeErrors]
@[simp] theorem State.clockReturns_pending (p : Nat) : (s.clockReturns p).pending = s.pending := by simp [State.clockReturns]

@[simp] theorem State.portTrainStart_pending (p : Nat) : (s.portTrainStart p).pending = s.pending := by
  simp [State.portTrainStart]

@[simp] theorem State.secondManager_pending (p : Nat) : (s.secondManager p).pending = s.pending := by
  simp [State.secondManager]

@[simp] theorem State.trainOut_pending (p : Nat) : (s.trainOut p).pending = s.pending := by simp [State.trainOut]
@[simp] theorem State.meanDelay_pending (l : List Int) : (s.meanDelay l).2.pending = s.pending := by simp [State.meanDelay]

@[simp] theorem State.showPath_pending (p : Nat) : (s.showPath p).pending = s.pending := by
  unfold State.showPath
  dsimp only
  (repeat' split) <;> simp

@[simp] theorem State.portComesUp_pending (p : Nat) : (s.portComesUp p).pending = s.pending := by simp [State.portComesUp]
@[simp] theorem State.trainsCold_pending (p : Nat) : (s.trainsCold p).pending = s.pending := by simp [State.trainsCold]

@[simp] theorem State.trainReceive_pending (p : Nat) (b : List Byte) (fine bad idle : Nat) :
    (s.trainReceive p b fine bad idle).pending = s.pending := by
  simp [State.trainReceive]

@[simp] theorem State.upstreamSelect_pending : s.upstreamSelect.pending = s.pending := by
  simp -implicitDefEqProofs [State.upstreamSelect]

@[simp] theorem State.i2Received_pending (p : Nat) : (s.i2Received p).pending = s.pending := by simp [State.i2Received]

@[simp] theorem State.branchEnd_pending : s.branchEnd.pending = s.pending := by
  unfold State.branchEnd
  split <;> simp

@[simp] theorem State.retrain_pending (p : Nat) : (s.retrain p).pending = s.pending := by simp [State.retrain]
@[simp] theorem State.linkCntClr_pending : s.linkCntClr.pending = s.pending := by simp [State.linkCntClr]

@[simp] theorem State.setSwitch_pending (w : Nat) (x : SwitchSt) : (s.setSwitch w x).pending = s.pending := by
  simp [State.setSwitch]

@[simp] theorem State.phantomTrip_pending (w : Nat) : (s.phantomTrip w).pending = s.pending := by simp [State.phantomTrip]

@[simp] theorem State.phantomReclose_pending (w : Nat) : (s.phantomReclose w).pending = s.pending := by
  simp [State.phantomReclose]

@[simp] theorem State.phantomCleared_pending (w : Nat) : (s.phantomCleared w).pending = s.pending := by
  simp [State.phantomCleared]

@[simp] theorem State.showTags_pending : s.showTags.pending = s.pending := by simp [State.showTags]

@[simp] theorem State.downForward_pending (head rest : List Byte) : (s.downForward head rest).pending = s.pending := by
  unfold State.downForward
  split <;> simp

@[simp] theorem State.downHeader_pending (p : Nat) (b : List Byte) (arr bad : Nat) :
    (s.downHeader p b arr bad).pending = s.pending := by
  simp [State.downHeader]

@[simp] theorem State.syncStep_pending : s.syncStep.pending = s.pending := by simp [State.syncStep]
@[simp] theorem State.swingWithout_pending (k : Nat) : (s.swingWithout k).pending = s.pending := by simp [State.swingWithout]

@[simp] theorem State.frameSplice_pending (p o : Nat) (x : List Byte) : (s.frameSplice p o x).pending = s.pending := by
  simp [State.frameSplice]

@[simp] theorem State.ownWord_pending (p k : Nat) : (s.ownWord p k).pending = s.pending := by simp [State.ownWord]
@[simp] theorem State.ownSlot_pending (p k i : Nat) : (s.ownSlot p k i).pending = s.pending := by simp [State.ownSlot]
@[simp] theorem State.ownMap_pending (p k : Nat) : (s.ownMap p k).pending = s.pending := by simp [State.ownMap]

@[simp] theorem State.upLeaves_pending (u k t : Nat) (b : List Byte) : (s.upLeaves u k t b).pending = s.pending := by
  simp [State.upLeaves]

@[simp] theorem State.upStart_pending : s.upStart.pending = s.pending := by
  unfold State.upStart
  split <;> simp

@[simp] theorem State.upForward_pending (b : List Byte) (bad : List Nat) : (s.upForward b bad).pending = s.pending := by
  unfold State.upForward
  dsimp only
  (repeat' split) <;> simp

@[simp] theorem State.holdReply_pending (t tag : Nat) (payload : List Byte) :
    (s.holdReply t tag payload).pending = s.pending := by
  simp [State.holdReply]

@[simp] theorem State.setAnswer_pending (a : Nat) : (s.setAnswer a).pending = s.pending := by simp [State.setAnswer]
@[simp] theorem State.trainSend_pending (p : Nat) : (s.trainSend p).pending = s.pending := by simp [State.trainSend]

/-! ### Channels -/

@[simp] theorem State.pgDrop_pending (n : Nat) : (s.pgDrop n).pending = s.pending := by simp [State.pgDrop]
@[simp] theorem State.chLeave_pending (n : Nat) : (s.chLeave n).pending = s.pending := by simp [State.chLeave]

@[simp] theorem State.gateOff_pending (n : Nat) (m : GateMode) : (s.gateOff n m).pending = s.pending := by
  simp [State.gateOff]

@[simp] theorem State.chEnterOff_pending (n : Nat) (m : GateMode) : (s.chEnterOff n m).pending = s.pending := by
  simp [State.chEnterOff]

@[simp] theorem State.chEnterStandby_pending (n : Nat) : (s.chEnterStandby n).pending = s.pending := by
  simp [State.chEnterStandby]

@[simp] theorem State.chEnterRamp_pending (n : Nat) : (s.chEnterRamp n).pending = s.pending := by simp [State.chEnterRamp]

@[simp] theorem State.chEnterEnhance_pending (n : Nat) (m : GateMode) : (s.chEnterEnhance n m).pending = s.pending := by
  simp [State.chEnterEnhance]

@[simp] theorem State.memberClose_pending (n : Nat) (vout : Int) : (s.memberClose n vout).pending = s.pending := by
  simp [State.memberClose]

@[simp] theorem State.chEnterBlocked_pending (n : Nat) : (s.chEnterBlocked n).pending = s.pending := by
  simp [State.chEnterBlocked]

@[simp] theorem State.chCauseMeets_pending (n cause : Nat) : (s.chCauseMeets n cause).pending = s.pending := by
  simp [State.chCauseMeets]

@[simp] theorem State.chTripNew_pending (n cause : Nat) : (s.chTripNew n cause).pending = s.pending := by
  simp -implicitDefEqProofs [State.chTripNew]

@[simp] theorem State.chTrip_pending (n cause : Nat) : (s.chTrip n cause).pending = s.pending := by simp [State.chTrip]

@[simp] theorem State.chOnEffect_pending (n : Nat) (v : Bool) : (s.chOnEffect n v).pending = s.pending := by
  simp [State.chOnEffect]

@[simp] theorem State.chPmodeEffect_pending (n : Nat) (v : Bool) (grant : Nat) :
    (s.chPmodeEffect n v grant).pending = s.pending := by
  simp [State.chPmodeEffect]

@[simp] theorem State.applyDue_pending (x : DueWrite) : (s.applyDue x).pending = s.pending := by
  unfold State.applyDue
  split <;> simp

@[simp] theorem State.writeChOn_pending (n : Nat) (v : Bool) : (s.writeChOn n v).pending = s.pending := by
  simp [State.writeChOn]

@[simp] theorem State.writePmode_pending (n : Nat) (v : Bool) : (s.writePmode n v).pending = s.pending := by
  simp [State.writePmode]

@[simp] theorem State.chAccept_pending (n : Nat) : (s.chAccept n).pending = s.pending := by simp [State.chAccept]
@[simp] theorem State.keepParam_pending (a : Nat) : (s.keepParam a).pending = s.pending := by simp [State.keepParam]

@[simp] theorem State.paramsBefore_pending : s.paramsBefore.pending = s.pending := by
  simp -implicitDefEqProofs [State.paramsBefore]

@[simp] theorem State.paramsOf_pending (new : State) : (s.paramsOf new).pending = s.pending := by
  simp -implicitDefEqProofs [State.paramsOf]

@[simp] theorem State.chMeasure_pending (n : Nat) (x : ChanSample) (i : Int) : (s.chMeasure n x i).pending = s.pending := by
  simp [State.chMeasure]

@[simp] theorem State.rampMove_pending (n : Nat) (i : Int) : (s.rampMove n i).pending = s.pending := by simp [State.rampMove]

@[simp] theorem State.pgMove_pending (n : Nat) (vds : Int) : (s.pgMove n vds).pending = s.pending := by
  unfold State.pgMove
  dsimp only
  (repeat' split) <;> simp

@[simp] theorem State.chRetry_pending (n : Nat) : (s.chRetry n).pending = s.pending := by simp [State.chRetry]

@[simp] theorem State.damageMove_pending (n : Nat) (i : Int) : (s.damageMove n i).pending = s.pending := by
  unfold State.damageMove
  dsimp only
  (repeat' split) <;> simp

@[simp] theorem State.gateSettle_pending (n : Nat) : (s.gateSettle n).pending = s.pending := by simp [State.gateSettle]

@[simp] theorem State.sampleMove_pending (n : Nat) (x : ChanSample) (i : Int) :
    (s.sampleMove n x i).pending = s.pending := by
  simp [State.sampleMove]

@[simp] theorem State.channelSample_pending (n : Nat) (x : ChanSample) : (s.channelSample n x).pending = s.pending := by
  simp -implicitDefEqProofs [State.channelSample]

@[simp] theorem State.channelFastShort_pending (n : Nat) (shuntMicrovolt : Int) :
    (s.channelFastShort n shuntMicrovolt).pending = s.pending := by
  simp [State.channelFastShort]

@[simp] theorem State.reverseBlock_pending (n : Nat) (shuntMicrovolt : Int) :
    (s.reverseBlock n shuntMicrovolt).pending = s.pending := by
  simp [State.reverseBlock]

@[simp] theorem State.standbyRescue_pending (n : Nat) (vout : Int) (held : Nat) :
    (s.standbyRescue n vout held).pending = s.pending := by
  simp [State.standbyRescue]

@[simp] theorem State.pairBreak_pending (n : Nat) : (s.pairBreak n).pending = s.pending := by simp [State.pairBreak]
@[simp] theorem State.reactChOff_pending (n : Nat) : (s.reactChOff n).pending = s.pending := by simp [State.reactChOff]

/-! ### The passing of time -/

@[simp] theorem State.cycles_pending (d : Nat) : (s.cycles d).pending = s.pending := by simp [State.cycles]

/-! ### Engines: memory, instructions and runs -/

@[simp] theorem State.setXreg_pending (n : Nat) (r : XReg) (v : Word) : (s.setXreg n r v).pending = s.pending := by
  simp [State.setXreg]

@[simp] theorem State.withdrawAccess_pending (n : Nat) : (s.withdrawAccess n).pending = s.pending := by
  simp [State.withdrawAccess]

@[simp] theorem State.peStop_pending (n st : Nat) : (s.peStop n st).pending = s.pending := by simp [State.peStop]
@[simp] theorem State.peLast_pending (n cause : Nat) : (s.peLast n cause).pending = s.pending := by simp [State.peLast]

@[simp] theorem State.peRestart_pending (n cause : Nat) : (s.peRestart n cause).pending = s.pending := by
  simp -implicitDefEqProofs [State.peRestart]

@[simp] theorem State.peInit_pending (n : Nat) : (s.peInit n).pending = s.pending := by
  simp -implicitDefEqProofs [State.peInit]

@[simp] theorem State.peStart_pending (n : Nat) : (s.peStart n).pending = s.pending := by
  simp -implicitDefEqProofs [State.peStart]

@[simp] theorem State.peHold_pending (n : Nat) : (s.peHold n).pending = s.pending := by simp [State.peHold]
@[simp] theorem State.peRelease_pending (n : Nat) : (s.peRelease n).pending = s.pending := by simp [State.peRelease]
@[simp] theorem State.peHalt_pending (n : Nat) : (s.peHalt n).pending = s.pending := by simp [State.peHalt]
@[simp] theorem State.peUnhalt_pending (n : Nat) : (s.peUnhalt n).pending = s.pending := by simp [State.peUnhalt]

@[simp] theorem State.runStart_pending (n : Nat) : (s.runStart n).pending = s.pending := by
  unfold State.runStart
  dsimp only
  (repeat' split) <;> simp -implicitDefEqProofs

@[simp] theorem State.runEnd_pending (n : Nat) : (s.runEnd n).pending = s.pending := by simp [State.runEnd]
@[simp] theorem State.overrun_pending (n : Nat) : (s.overrun n).pending = s.pending := by simp [State.overrun]

@[simp] theorem State.addCycles_pending (n k : Nat) (halts : Bool) : (s.addCycles n k halts).pending = s.pending := by
  simp [State.addCycles]

@[simp] theorem State.engCount_pending (n k : Nat) (halts : Bool) : (s.engCount n k halts).pending = s.pending := by
  simp [State.engCount]

@[simp] theorem State.runTo_pending (n k : Nat) : (s.runTo n k).pending = s.pending := by simp [State.runTo]
@[simp] theorem State.watchdog_pending (n : Nat) : (s.watchdog n).pending = s.pending := by simp [State.watchdog]
@[simp] theorem State.peFault_pending (n cause : Nat) : (s.peFault n cause).pending = s.pending := by simp [State.peFault]

@[simp] theorem State.spend_pending (n k : Nat) (g : State → State) (halts : Bool) (h : ∀ s, (g s).pending = s.pending) :
    (s.spend n k g halts).pending = s.pending := by simp [State.spend, h]

/-- An effect of an instruction that leaves the queue. -/
def EngDo.KeepsQueue : EngDo → Prop
  | .done _ g _ _ => ∀ s, (g s).pending = s.pending
  | .fault _ => True

@[simp] theorem State.pcNext_pending (n : Nat) : (s.pcNext n).pending = s.pending := by simp [State.pcNext]

theorem State.execEng_pending (n : Nat) (w : Word) (f : State → EngDo) (h : ∀ s, (f s).KeepsQueue) :
    (s.execEng n w f).pending = s.pending := by
  unfold State.execEng
  dsimp only
  split_ifs <;> try simp
  have fetched := h (s.sramRead 1 (sramKey n (s.pc n))).2.2
  split
  · simp
  · next e => rw [e] at fetched; simp [State.spend_pending _ _ _ _ _ fetched]

theorem wr_keepsQueue (n : Nat) (rd : XReg) (cycles : Nat) (v : Word) : (wr n rd cycles v).KeepsQueue :=
  fun s => by simp

theorem jumpTo_keepsQueue (n : Nat) (t : Int) (cycles : Nat) (f : State → State) (h : ∀ s, (f s).pending = s.pending) :
    (jumpTo n t cycles f).KeepsQueue := by
  unfold jumpTo
  split
  · exact fun s => by simp [h]
  · trivial

@[simp] theorem State.opR_pending (n op : Nat) (rd a b : XReg) (cycles : Nat) (f : Word → Word → Word) :
    (s.opR n op rd a b cycles f).pending = s.pending :=
  s.execEng_pending _ _ _ fun _ => wr_keepsQueue _ _ _ _

@[simp] theorem State.opI_pending (n op : Nat) (rd a : XReg) (imm : BitVec 18) (f : Word → Word) :
    (s.opI n op rd a imm f).pending = s.pending :=
  s.execEng_pending _ _ _ fun _ => wr_keepsQueue _ _ _ _

@[simp] theorem State.opB_pending (n op : Nat) (a b : XReg) (off : BitVec 18) (c : Word → Word → Bool) :
    (s.opB n op a b off c).pending = s.pending :=
  s.execEng_pending _ _ _ fun s => by
    split
    · exact jumpTo_keepsQueue _ _ _ _ fun _ => rfl
    · exact fun s => s.pcNext_pending n

@[simp] theorem State.opJal_pending (n : Nat) (rd : XReg) (off : BitVec 22) : (s.opJal n rd off).pending = s.pending :=
  s.execEng_pending _ _ _ fun _ => jumpTo_keepsQueue _ _ _ _ fun s => s.setXreg_pending n rd _

@[simp] theorem State.opJalr_pending (n : Nat) (rd a : XReg) (imm : BitVec 18) :
    (s.opJalr n rd a imm).pending = s.pending :=
  s.execEng_pending _ _ _ fun _ => jumpTo_keepsQueue _ _ _ _ fun s => s.setXreg_pending n rd _

theorem State.opSys_pending (n func : Nat) (rd a : XReg) (f : State → EngDo) (h : ∀ s, (f s).KeepsQueue) :
    (s.opSys n func rd a f).pending = s.pending := s.execEng_pending _ _ _ h

@[simp] theorem State.opLdw_pending (n : Nat) (rd a : XReg) (imm : BitVec 18) :
    (s.opLdw n rd a imm).pending = s.pending :=
  s.execEng_pending _ _ _ fun s => by
    split
    · trivial
    · dsimp only
      split <;> exact fun s => by simp

@[simp] theorem State.opStw_pending (n : Nat) (b a : XReg) (imm : BitVec 18) :
    (s.opStw n b a imm).pending = s.pending :=
  s.execEng_pending _ _ _ fun s => by
    split
    · trivial
    · dsimp only
      split <;> exact fun s => by simp

@[simp] theorem State.opWaitt_pending (n : Nat) (a : XReg) (d : Nat) : (s.opWaitt n a d).pending = s.pending :=
  s.opSys_pending _ _ _ _ _ fun _ s => s.pcNext_pending n

@[simp] theorem State.restartCheck_pending (n : Nat) : (s.restartCheck n).pending = s.pending := by
  unfold State.restartCheck
  dsimp only
  have read := fun l => foldl_keeps (fun a : Bool × State => a.2.pending) (f := fun a k =>
    (a.1 || (a.2.sramRead 4 k).2.1 == .uncorrectable, (a.2.sramRead 4 k).2.2)) (fun a k => by simp) l (false, s)
  split_ifs <;> simp [read]

@[simp] theorem State.initRun_pending (n : Nat) : (s.initRun n).pending = s.pending := by simp [State.initRun]
@[simp] theorem State.peRestartCmd_pending (n : Nat) : (s.peRestartCmd n).pending = s.pending := by simp [State.peRestartCmd]
@[simp] theorem State.peGo_pending (n : Nat) (p : Party) : (s.peGo n p).pending = s.pending := by simp [State.peGo]
@[simp] theorem State.peStopCmd_pending (n : Nat) : (s.peStopCmd n).pending = s.pending := by simp [State.peStopCmd]
@[simp] theorem State.peReplaced_pending (n : Nat) : (s.peReplaced n).pending = s.pending := by simp [State.peReplaced]

@[simp] theorem State.mboxWrite_pending (n k : Nat) (v : Word) : (s.mboxWrite n k v).pending = s.pending := by
  simp [State.mboxWrite]

@[simp] theorem State.periodicEvent_pending (n h : Nat) : (s.periodicEvent n h).pending = s.pending := by
  simp [State.periodicEvent]

@[simp] theorem State.periodicPassed_pending (t : Nat) : (s.periodicPassed t).pending = s.pending := by
  simp [State.periodicPassed]

/-! ### Loops -/

@[simp] theorem State.loopTouch_pending (n : Nat) : (s.loopTouch n).pending = s.pending := by
  simp -implicitDefEqProofs [State.loopTouch]

@[simp] theorem State.loopApply_pending (n : Nat) : (s.loopApply n).pending = s.pending := by
  simp -implicitDefEqProofs [State.loopApply]

@[simp] theorem State.setPhState_pending (p st : Nat) : (s.setPhState p st).pending = s.pending := by simp [State.setPhState]
@[simp] theorem State.throttle_pending (n : Nat) : (s.throttle n).pending = s.pending := by simp [State.throttle]

@[simp] theorem State.throttleRelease_pending (n : Nat) : (s.throttleRelease n).pending = s.pending := by
  simp [State.throttleRelease]

@[simp] theorem State.binClose_pending (n : Nat) : (s.binClose n).pending = s.pending := by simp [State.binClose]
@[simp] theorem State.phaseMidZ_pending (p : Nat) : (s.phaseMidZ p).pending = s.pending := by simp [State.phaseMidZ]

@[simp] theorem State.loopOff_pending (n : Nat) : (s.loopOff n).pending = s.pending := by
  simp -implicitDefEqProofs [State.loopOff]

@[simp] theorem State.loopStop_pending (n src : Nat) : (s.loopStop n src).pending = s.pending := by simp [State.loopStop]
@[simp] theorem State.loopEnable_pending (n : Nat) : (s.loopEnable n).pending = s.pending := by simp [State.loopEnable]

@[simp] theorem State.loopWithdraw_pending (n : Nat) (dis : Bool) : (s.loopWithdraw n dis).pending = s.pending := by
  simp [State.loopWithdraw]

@[simp] theorem State.syncLoss_pending (n : Nat) : (s.syncLoss n).pending = s.pending := by simp [State.syncLoss]
@[simp] theorem State.syncEdge_pending (t : Nat) : (s.syncEdge t).pending = s.pending := by simp [State.syncEdge]

@[simp] theorem State.phaseDrop_pending (n p cause : Nat) (iLoop : Int) :
    (s.phaseDrop n p cause iLoop).pending = s.pending := by
  simp [State.phaseDrop]

@[simp] theorem State.phaseCount_pending (f : Fld) (p lim : Nat) (hit : Bool) :
    (s.phaseCount f p lim hit).2.pending = s.pending := by
  simp [State.phaseCount]

@[simp] theorem State.phaseChecks_pending (n : Nat) (iph : List (Nat × Int)) (iLoop : Int) :
    (s.phaseChecks n iph iLoop).pending = s.pending := by
  simp [State.phaseChecks]

@[simp] theorem State.onTimeEnd_pending (p : Nat) (xs : List (Nat × Int)) : (s.onTimeEnd p xs).pending = s.pending := by
  unfold State.onTimeEnd
  dsimp only
  (repeat' split) <;> simp

@[simp] theorem State.loopFastShort_pending (n p : Nat) (raw : Int) : (s.loopFastShort n p raw).pending = s.pending := by
  simp [State.loopFastShort]

@[simp] theorem State.stgFall_pending (n : Nat) : (s.stgFall n).pending = s.pending := by simp [State.stgFall]
@[simp] theorem State.stgLow_pending (n held : Nat) : (s.stgLow n held).pending = s.pending := by simp [State.stgLow]
@[simp] theorem State.stgRise_pending (n : Nat) : (s.stgRise n).pending = s.pending := by simp [State.stgRise]

@[simp] theorem State.stageIdentify_pending (n : Nat) (raw : List Int) : (s.stageIdentify n raw).pending = s.pending := by
  simp [State.stageIdentify]

@[simp] theorem State.hintStart_pending (n what : Nat) : (s.hintStart n what).pending = s.pending := by
  simp [State.hintStart]

@[simp] theorem State.hintEdge_pending (k : Nat) (rising : Bool) : (s.hintEdge k rising).pending = s.pending := by
  unfold State.hintEdge
  split <;> simp

@[simp] theorem State.hintSample_pending (k : Nat) (high : Bool) (held : Nat) :
    (s.hintSample k high held).pending = s.pending := by
  simp [State.hintSample]

@[simp] theorem State.hintUnwind_pending (n : Nat) (e : Int) (first : Bool) :
    (s.hintUnwind n e first).pending = s.pending := by
  simp [State.hintUnwind]

@[simp] theorem State.hintResidue_pending (n : Nat) (e : Int) : (s.hintResidue n e).pending = s.pending := by
  simp [State.hintResidue]

@[simp] theorem State.hintBegin_pending (n : Nat) (iLoop iLoad : Int) : (s.hintBegin n iLoop iLoad).pending = s.pending := by
  simp [State.hintBegin]

@[simp] theorem State.hintStep_pending (n t : Nat) (iLoop iLoad e : Int) :
    (s.hintStep n t iLoop iLoad e).2.pending = s.pending := by
  simp [State.hintStep]

@[simp] theorem State.hintArrive_pending (n nact : Nat) : (s.hintArrive n nact).pending = s.pending := by
  simp [State.hintArrive]

@[simp] theorem State.brakeEngage_pending (n : Nat) (v vl : Int) : (s.brakeEngage n v vl).pending = s.pending := by
  simp [State.brakeEngage]

@[simp] theorem State.brakeStep_pending (n : Nat) (v : Int) : (s.brakeStep n v).pending = s.pending := by
  simp [State.brakeStep]

@[simp] theorem State.binEnd_pending (n : Nat) : (s.binEnd n).pending = s.pending := by simp [State.binEnd]

@[simp] theorem State.rampStep_pending (n : Nat) (iLoop : Int) (first : Bool) :
    (s.rampStep n iLoop first).pending = s.pending := by
  simp [State.rampStep]

@[simp] theorem State.shedCount_pending (n : Nat) (iLoop : Int) : (s.shedCount n iLoop).pending = s.pending := by
  simp [State.shedCount]

@[simp] theorem State.fixActive_pending (n : Nat) : (s.fixActive n).pending = s.pending := by simp [State.fixActive]

@[simp] theorem State.schedule_pending (n t dOld : Nat) : (s.schedule n t dOld).pending = s.pending := by
  simp [State.schedule]

@[simp] theorem State.compensate_pending (n nact : Nat) (e : Int) : (s.compensate n nact e).pending = s.pending := by
  simp -implicitDefEqProofs [State.compensate]

@[simp] theorem State.throttleStep_pending (n : Nat) (iLoop : Int) : (s.throttleStep n iLoop).pending = s.pending := by
  simp [State.throttleStep]

@[simp] theorem State.senseStep_pending (n : Nat) (x : LoopSample) : (s.senseStep n x).pending = s.pending := by
  simp [State.senseStep]

@[simp] theorem State.cycleEnd_pending (n : Nat) (x : LoopSample) : (s.cycleEnd n x).2.2.pending = s.pending := by
  simp -implicitDefEqProofs [State.cycleEnd]

@[simp] theorem State.carrierNext_pending (n t : Nat) : (s.carrierNext n t).pending = s.pending := by
  simp [State.carrierNext]

@[simp] theorem State.carrierBoundary_pending (n : Nat) (x : LoopSample) :
    (s.carrierBoundary n x).pending = s.pending := by
  unfold State.carrierBoundary
  split
  · rfl
  · simp -implicitDefEqProofs [apply_ite Prod.snd]

@[simp] theorem State.dischargeTimeout_pending (n : Nat) : (s.dischargeTimeout n).pending = s.pending := by
  simp [State.dischargeTimeout]

/-! ### Modulators, monitors and meters -/

@[simp] theorem State.showMeter_pending (k : Nat) : (s.showMeter k).pending = s.pending := by
  unfold State.showMeter
  dsimp only
  (repeat' split) <;> simp

@[simp] theorem State.meterInterrupt_pending (k : Nat) : (s.meterInterrupt k).pending = s.pending := by
  unfold State.meterInterrupt
  split <;> simp

@[simp] theorem State.entryInterrupt_pending (m e : Nat) : (s.entryInterrupt m e).pending = s.pending := by
  simp [State.entryInterrupt]

@[simp] theorem State.showEnergy_pending (k : Nat) : (s.showEnergy k).pending = s.pending := by simp [State.showEnergy]
@[simp] theorem State.meterAdd_pending (k dt : Nat) : (s.meterAdd k dt).pending = s.pending := by simp [State.meterAdd]

@[simp] theorem State.meterTake_pending (k w vEnt : Nat) : (s.meterTake k w vEnt).pending = s.pending := by
  simp [State.meterTake]

@[simp] theorem State.meterResult_pending (i w : Nat) (c : Int) : (s.meterResult i w c).pending = s.pending := by
  unfold State.meterResult
  dsimp only
  (repeat' split) <;> simp

@[simp] theorem State.meterBeat_pending : s.meterBeat.pending = s.pending :=
  s.pending_foldl _ (fun s k => by split <;> simp) _

@[simp] theorem State.convStart_pending (m e d : Nat) : (s.convStart m e d).pending = s.pending := by simp [State.convStart]

@[simp] theorem State.scanGo_pending (m d : Nat) : (s.scanGo m d).pending = s.pending := by
  unfold State.scanGo
  dsimp only
  (repeat' split) <;> simp

@[simp] theorem State.maskChanged_pending (m old : Nat) : (s.maskChanged m old).pending = s.pending := by
  simp [State.maskChanged]

@[simp] theorem State.urgent_pending (m e : Nat) : (s.urgent m e).pending = s.pending := by simp [State.urgent]

@[simp] theorem State.windowMove_pending (m e : Nat) (v : Int) : (s.windowMove m e v).pending = s.pending := by
  simp [State.windowMove]

@[simp] theorem State.refCheck_pending (v : Int) : (s.refCheck v).pending = s.pending := by
  unfold State.refCheck
  dsimp only
  (repeat' split) <;> simp

@[simp] theorem State.conversionEnd_pending (m : Nat) (code : Int) : (s.conversionEnd m code).pending = s.pending := by
  unfold State.conversionEnd
  split
  · rfl
  · extract_lets x e i w v s1 s2 s3 s4 s5 s6 s7 s8
    have sensed : s8.pending = s.pending := by
      simp only [s8]
      split <;> simp -implicitDefEqProofs +zetaDelta
    clear_value s8
    (repeat' split) <;> simp +zetaDelta [sensed]

@[simp] theorem State.urgentDrop_pending (m : Nat) : (s.urgentDrop m).pending = s.pending := by simp [State.urgentDrop]
@[simp] theorem State.measStop_pending (m : Nat) : (s.measStop m).pending = s.pending := by simp [State.measStop]
@[simp] theorem State.measHeld_pending : s.measHeld.pending = s.pending := by simp [State.measHeld]
@[simp] theorem State.measResume_pending (m : Nat) : (s.measResume m).pending = s.pending := by simp [State.measResume]

@[simp] theorem State.placeScan_pending (recs : List (List Byte)) (accept : Bool) :
    (s.placeScan recs accept).pending = s.pending := by
  simp [State.placeScan]

@[simp] theorem State.monRise_pending (n : Nat) (ov : Bool) : (s.monRise n ov).pending = s.pending := by simp [State.monRise]

@[simp] theorem State.monLevels_pending (n : Nat) (u o : Bool) : (s.monLevels n u o).pending = s.pending := by
  simp [State.monLevels]

@[simp] theorem State.sweepSee_pending (n : Nat) (u o : Bool) : (s.sweepSee n u o).pending = s.pending := by
  unfold State.sweepSee
  split <;> simp

@[simp] theorem State.monRaws_pending (n : Nat) (r : Bool × Bool) : (s.monRaws n r).pending = s.pending := by
  simp [State.monRaws]

@[simp] theorem State.monTake_pending (n : Nat) (r : Bool × Bool) : (s.monTake n r).pending = s.pending := by
  simp [State.monTake]

@[simp] theorem State.monSample_pending (n : Nat) (v : Int) : (s.monSample n v).pending = s.pending := by
  simp [State.monSample]

@[simp] theorem State.monRestart_pending (n : Nat) (befU befO : Bool) : (s.monRestart n befU befO).pending = s.pending := by
  simp -implicitDefEqProofs [State.monRestart]

@[simp] theorem State.monModeMove_pending (n : Nat) : (s.monModeMove n).pending = s.pending := by simp [State.monModeMove]

@[simp] theorem State.sweepSample_pending : s.sweepSample.pending = s.pending := by
  unfold State.sweepSample
  split <;> simp

@[simp] theorem State.monSettleEnd_pending (n : Nat) (v : Int) : (s.monSettleEnd n v).pending = s.pending := by
  simp [State.monSettleEnd]

@[simp] theorem State.sweepAbandon_pending : s.sweepAbandon.pending = s.pending := by
  unfold State.sweepAbandon
  split <;> simp

@[simp] theorem State.sweepGo_pending : s.sweepGo.pending = s.pending := by simp [State.sweepGo]

@[simp] theorem State.sweepStep_pending : s.sweepStep.pending = s.pending := by
  unfold State.sweepStep
  split <;> simp

@[simp] theorem State.placeMon_pending (old recs : List (List Byte)) (accept : Bool) :
    (s.placeMon old recs accept).pending = s.pending :=
  s.pending_foldl _ (fun s n => by
    dsimp only
    split
    · simp
    · rw [State.monRestart_pending]
      split <;> simp) _

/-! ### Thermal nodes and sensors -/

@[simp] theorem State.drawn_pending (n : Nat) : (s.drawn n).pending = s.pending := by simp [State.drawn]

@[simp] theorem State.nodesStep_pending (pdev : Nat) : (s.nodesStep pdev).pending = s.pending := by
  simp -implicitDefEqProofs [State.nodesStep]

@[simp] theorem State.showSensors_pending : s.showSensors.pending = s.pending := by simp [State.showSensors]
@[simp] theorem State.sensBad_pending (k cause : Nat) : (s.sensBad k cause).pending = s.pending := by simp [State.sensBad]

@[simp] theorem State.sensResult_pending (k : Nat) (r : Nat × Int) : (s.sensResult k r).pending = s.pending := by
  unfold State.sensResult
  extract_lets c x out ts s1
  have shown : s1.pending = s.pending := by simp [s1]
  clear_value s1 out ts
  (repeat' split) <;> simp +zetaDelta [shown]

@[simp] theorem State.sensorsStep_pending : s.sensorsStep.pending = s.pending := by simp [State.sensorsStep]

@[simp] theorem State.shedGroup_pending (g : Nat) (src : Option Nat) : (s.shedGroup g src).pending = s.pending := by
  unfold State.shedGroup
  split <;> simp

@[simp] theorem State.shedNext_pending (x : ShedSt) : (s.shedNext x).pending = s.pending := by simp [State.shedNext]

@[simp] theorem State.levelRise_pending (n old lvl : Nat) : (s.levelRise n old lvl).pending = s.pending := by
  simp [State.levelRise]

@[simp] theorem State.thermLoops_pending : s.thermLoops.pending = s.pending := by simp [State.thermLoops]

@[simp] theorem State.showLevels_pending : s.showLevels.pending = s.pending := by
  simp -implicitDefEqProofs [State.showLevels]

@[simp] theorem State.showTemps_pending : s.showTemps.pending = s.pending := by simp -implicitDefEqProofs [State.showTemps]
@[simp] theorem State.modelTrips_pending : s.modelTrips.pending = s.pending := by simp [State.modelTrips]

@[simp] theorem State.thermalStep_pending (pdev : Nat) : (s.thermalStep pdev).pending = s.pending := by
  simp -implicitDefEqProofs [State.thermalStep]

@[simp] theorem State.thermalUpdate_pending (pdev : Nat) : (s.thermalUpdate pdev).pending = s.pending := by
  simp [State.thermalUpdate]

@[simp] theorem State.nodesStart_pending : s.nodesStart.pending = s.pending := by
  simp -implicitDefEqProofs [State.nodesStart]

/-! ### The power path and the charger -/

@[simp] theorem State.chgHold_pending (hold : Bool) : (s.chgHold hold).pending = s.pending := by
  unfold State.chgHold
  dsimp only
  (repeat' split) <;> simp

@[simp] theorem State.showAvail_pending : s.showAvail.pending = s.pending := by simp [State.showAvail]

@[simp] theorem State.ppSample_pending (x : PathSample) : (s.ppSample x).pending = s.pending := by
  unfold State.ppSample
  dsimp only
  (repeat' split) <;> simp -implicitDefEqProofs

@[simp] theorem State.chgEnter_pending (c kept : Nat) : (s.chgEnter c kept).pending = s.pending := by simp [State.chgEnter]
@[simp] theorem State.chgToIdle_pending : s.chgToIdle.pending = s.pending := by simp [State.chgToIdle]

@[simp] theorem State.chgToQualify_pending (keep : Bool) : (s.chgToQualify keep).pending = s.pending := by
  simp [State.chgToQualify]

@[simp] theorem State.chgToDone_pending : s.chgToDone.pending = s.pending := by simp [State.chgToDone]

@[simp] theorem State.chgToFast_pending (kept : Option Nat) : (s.chgToFast kept).pending = s.pending := by
  simp [State.chgToFast]

@[simp] theorem State.chgToFault_pending : s.chgToFault.pending = s.pending := by simp [State.chgToFault]

@[simp] theorem State.chgPass_pending : s.chgPass.pending = s.pending := by
  unfold State.chgPass
  dsimp only
  (repeat' split) <;> simp

@[simp] theorem State.chgEval_pending : s.chgEval.pending = s.pending := by simp [State.chgEval]

@[simp] theorem State.ppStep_pending (x : PathSample) (f : State → State) (h : ∀ s, (f s).pending = s.pending) :
    (s.ppStep x f).pending = s.pending := by simp [State.ppStep, h]

@[simp] theorem State.prechargeEnd_pending (x : PathSample) : (s.prechargeEnd x).pending = s.pending := by
  simp [State.prechargeEnd]

@[simp] theorem State.chargerFault_pending (x : PathSample) : (s.chargerFault x).pending = s.pending := by
  simp [State.chargerFault]

@[simp] theorem State.topoffEnd_pending (x : PathSample) : (s.topoffEnd x).pending = s.pending :=
  s.ppStep_pending x _ fun s => by split <;> simp

@[simp] theorem State.rechargeStart_pending (x : PathSample) (held : Nat) :
    (s.rechargeStart x held).pending = s.pending := by
  simp [State.rechargeStart]

@[simp] theorem State.fastEnd_pending : s.fastEnd.pending = s.pending := by simp [State.fastEnd]

@[simp] theorem State.chargeSecond_pending (vavg tavg : Int) : (s.chargeSecond vavg tavg).pending = s.pending := by
  unfold State.chargeSecond
  split <;> simp

@[simp] theorem State.chargeCondition_pending (x : PathSample) : (s.chargeCondition x).pending = s.pending := by
  simp [State.chargeCondition]

@[simp] theorem State.probeBegin_pending : s.probeBegin.pending = s.pending := by simp [State.probeBegin]

@[simp] theorem State.probeStart_pending (x : PathSample) (held : Nat) : (s.probeStart x held).pending = s.pending := by
  simp [State.probeStart]

@[simp] theorem State.packMissing_pending : s.packMissing.pending = s.pending := by simp [State.packMissing]
@[simp] theorem State.packShort_pending : s.packShort.pending = s.pending := by simp [State.packShort]

@[simp] theorem State.probeEnd_pending (x : PathSample) : (s.probeEnd x).pending = s.pending := by
  unfold State.probeEnd
  (repeat' split) <;> simp

@[simp] theorem State.doneUndone_pending : s.doneUndone.pending = s.pending := by
  unfold State.doneUndone
  split <;> simp

@[simp] theorem State.packRemoved_pending (x : PathSample) (held : Nat) : (s.packRemoved x held).pending = s.pending := by
  simp [State.packRemoved]

@[simp] theorem State.packShorted_pending (x : PathSample) (held : Nat) : (s.packShorted x held).pending = s.pending := by
  simp [State.packShorted]

@[simp] theorem State.shortCleared_pending : s.shortCleared.pending = s.pending := by simp [State.shortCleared]
@[simp] theorem State.chgFaultCleared_pending : s.chgFaultCleared.pending = s.pending := by simp [State.chgFaultCleared]
@[simp] theorem State.chgOff_pending : s.chgOff.pending = s.pending := by simp [State.chgOff]
@[simp] theorem State.chgHeld_pending : s.chgHeld.pending = s.pending := by simp [State.chgHeld]
@[simp] theorem State.ppGo_pending (p : Nat) : (s.ppGo p).pending = s.pending := by simp [State.ppGo]
@[simp] theorem State.wakeBy_pending (bit : Nat) : (s.wakeBy bit).pending = s.pending := by simp [State.wakeBy]
@[simp] theorem State.handOver_pending : s.handOver.pending = s.pending := by simp [State.handOver]

@[simp] theorem State.sourceLost_pending (x : PathSample) (held : Nat) : (s.sourceLost x held).pending = s.pending := by
  simp -implicitDefEqProofs [State.sourceLost]

@[simp] theorem State.sourceGood_pending (x : PathSample) : (s.sourceGood x).pending = s.pending := by
  simp [State.sourceGood]

@[simp] theorem State.handoverComplete_pending (x : PathSample) : (s.handoverComplete x).pending = s.pending := by
  simp [State.handoverComplete]

@[simp] theorem State.sourceQualified_pending (x : PathSample) : (s.sourceQualified x).pending = s.pending :=
  s.ppStep_pending x _ fun s => by split <;> simp

@[simp] theorem State.handbackComplete_pending (x : PathSample) : (s.handbackComplete x).pending = s.pending := by
  simp [State.handbackComplete]

@[simp] theorem State.sourceBlock_pending (x : PathSample) : (s.sourceBlock x).pending = s.pending := by
  simp [State.sourceBlock]

@[simp] theorem State.sourceUnblock_pending (x : PathSample) : (s.sourceUnblock x).pending = s.pending := by
  simp [State.sourceUnblock]

@[simp] theorem State.deplete_pending (x : PathSample) (held : Nat) : (s.deplete x held).pending = s.pending := by
  simp [State.deplete]

@[simp] theorem State.supplementStart_pending (x : PathSample) (held : Nat) :
    (s.supplementStart x held).pending = s.pending := by
  simp [State.supplementStart]

@[simp] theorem State.supplementStop_pending (x : PathSample) (held : Nat) :
    (s.supplementStop x held).pending = s.pending := by
  simp [State.supplementStop]

@[simp] theorem State.shipExit_pending : s.shipExit.pending = s.pending := by simp [State.shipExit]

@[simp] theorem State.shipCmd_pending (p : Party) : (s.shipCmd p).pending = s.pending := by
  simp -implicitDefEqProofs [State.shipCmd]

@[simp] theorem State.chgGoCmd_pending : s.chgGoCmd.pending = s.pending := by simp [State.chgGoCmd]
@[simp] theorem State.ppCtrl_pending (p : Party) (w : Word) : (s.ppCtrl p w).pending = s.pending := by simp [State.ppCtrl]
@[simp] theorem State.ppCfg_pending : s.ppCfg.pending = s.pending := by simp [State.ppCfg]
@[simp] theorem State.shipPress_pending (held : Nat) : (s.shipPress held).pending = s.pending := by simp [State.shipPress]
@[simp] theorem State.offCycleStart_pending : s.offCycleStart.pending = s.pending := by simp [State.offCycleStart]
@[simp] theorem State.offCycleEnd_pending : s.offCycleEnd.pending = s.pending := by simp [State.offCycleEnd]
@[simp] theorem State.ppFit_pending (on : Bool) : (s.ppFit on).pending = s.pending := by simp [State.ppFit]
@[simp] theorem State.pwrpStored_pending (a : Nat) : (s.pwrpStored a).pending = s.pending := by simp [State.pwrpStored]

/-! ### The keep domain -/

@[simp] theorem State.calPut_pending (t sub : Nat) : (s.calPut t sub).pending = s.pending := by
  simp -implicitDefEqProofs [State.calPut]

@[simp] theorem State.calAdd_pending (d sub : Nat) : (s.calAdd d sub).pending = s.pending := by simp [State.calAdd]
@[simp] theorem State.trimAdd_pending : s.trimAdd.pending = s.pending := by simp [State.trimAdd]
@[simp] theorem State.keepRun_pending (k : Nat) : (s.keepRun k).pending = s.pending := by simp [State.keepRun]
@[simp] theorem State.calendarSecond_pending : s.calendarSecond.pending = s.pending := by simp [State.calendarSecond]

@[simp] theorem State.trimRun_pending (fuel : Nat) : (s.trimRun fuel).pending = s.pending := by
  induction fuel generalizing s with
  | zero => rfl
  | succ fuel ih => simp [State.trimRun, ih]

@[simp] theorem State.trimNext_pending : s.trimNext.pending = s.pending := by simp [State.trimNext]
@[simp] theorem State.keepRes_pending (p result : Nat) : (s.keepRes p result).pending = s.pending := by simp [State.keepRes]

@[simp] theorem State.keepReject_pending (p : Nat) (flag : Fld) : (s.keepReject p flag).pending = s.pending := by
  simp [State.keepReject]

@[simp] theorem State.keepApply_pending (c : KeepCommit) : (s.keepApply c).pending = s.pending := by
  unfold State.keepApply
  split <;> simp -implicitDefEqProofs

@[simp] theorem State.showQueue_pending : s.showQueue.pending = s.pending := by simp [State.showQueue]

@[simp] theorem State.keepApplyHeld_pending (c : KeepCommit) : (s.keepApplyHeld c).pending = s.pending := by
  simp -implicitDefEqProofs [State.keepApplyHeld]

@[simp] theorem State.keepEdge_pending : s.keepEdge.pending = s.pending := by
  unfold State.keepEdge
  dsimp only
  (repeat' split) <;> simp

theorem State.keepQueue_pending (c : KeepCommit) : ∀ t ∈ s.keepQueue c, t.pending = s.pending := by
  simp [State.keepQueue]

@[simp] theorem State.keepLose_pending : s.keepLose.pending = s.pending := by simp [State.keepLose]

@[simp] theorem State.keepCmd_pending (p : Party) (op : Nat) : (s.keepCmd p op).pending = s.pending := by
  unfold State.keepCmd
  dsimp only
  split
  · simp
  · next t h => simp [State.keepQueue_pending _ _ t h]

@[simp] theorem State.keepWrite_pending (p : Party) (c : KeepCommit) : (s.keepWrite p c).pending = s.pending := by
  unfold State.keepWrite
  split
  · simp
  · next t h => exact s.keepQueue_pending _ t h

@[simp] theorem State.keepByte_pending (p : Party) (a b v : Nat) : (s.keepByte p a b v).pending = s.pending := by
  unfold State.keepByte
  split
  · simp
  · next t h => exact s.keepQueue_pending _ t h

@[simp] theorem State.keepWindow_pending (n : Nat) : (s.keepWindow n).pending = s.pending := by simp [State.keepWindow]

@[simp] theorem State.keepBeat_pending : s.keepBeat.pending = s.pending := by
  have queued : ∀ (t : State) (c : KeepCommit), ((t.keepQueue c).getD t).pending = t.pending := fun t c => by
    cases h : t.keepQueue c
    · rfl
    · next u => exact t.keepQueue_pending c u h
  have trimmed : ∀ (t : State), t.pending = s.pending → (match t.keep.window with
    | some n =>
      if t.on F.KEEP_CFG_TRIM_AUTO && t.on F.KEEP_CAL_VALID then
        let v := clampI (-127) 127 (-(roundDiv ((100000000 - (n : Int)) * 2 ^ 20) n))
        (t.keepQueue (.trim (ofS 8 v))).getD t
      else t
    | none => t).pending = s.pending := fun t h => by split <;> simp [queued, h]
  unfold State.keepBeat
  split
  · rfl
  · exact trimmed _ (by split <;> simp)

@[simp] theorem State.keepUnsync_pending : s.keepUnsync.pending = s.pending := by simp [State.keepUnsync]
@[simp] theorem State.onCell_pending (b : Bool) : (s.onCell b).pending = s.pending := by simp [State.onCell]
@[simp] theorem State.switchOver_pending : s.switchOver.pending = s.pending := by simp [State.switchOver]
@[simp] theorem State.mainBack_pending : s.mainBack.pending = s.pending := by simp [State.mainBack]
@[simp] theorem State.keepReset_pending : s.keepReset.pending = s.pending := by simp -implicitDefEqProofs [State.keepReset]
@[simp] theorem State.keepRelease_pending : s.keepRelease.pending = s.pending := by simp [State.keepRelease]
@[simp] theorem State.xtalStop_pending : s.xtalStop.pending = s.pending := by simp [State.xtalStop]
@[simp] theorem State.xtalStart_pending : s.xtalStart.pending = s.pending := by simp [State.xtalStart]
@[simp] theorem State.keepFlags_pending : s.keepFlags.pending = s.pending := by simp [State.keepFlags]

/-! ### Rails and the sequencer -/

@[simp] theorem State.seqWrite_pending (a : Nat) (w : Word) : (s.seqWrite a w).pending = s.pending := by
  simp [State.seqWrite]

@[simp] theorem State.targetEnable_pending (n : Nat) : (s.targetEnable n).pending = s.pending := by
  unfold State.targetEnable
  dsimp only
  (repeat' split) <;> simp

@[simp] theorem State.targetWithdraw_pending (n : Nat) : (s.targetWithdraw n).pending = s.pending := by
  unfold State.targetWithdraw
  dsimp only
  (repeat' split) <;> simp

@[simp] theorem State.railReact_pending (n src : Nat) : (s.railReact n src).pending = s.pending := by simp [State.railReact]
@[simp] theorem State.rlGo_pending (n st : Nat) : (s.rlGo n st).pending = s.pending := by simp [State.rlGo]

@[simp] theorem State.endBad_pending (n : Nat) : (s.endBad n).pending = s.pending := by
  unfold State.endBad
  split <;> simp

@[simp] theorem State.rlFail_pending (n cause : Nat) (event : Option Nat) :
    (s.rlFail n cause event).pending = s.pending := by
  unfold State.rlFail
  split <;> simp

@[simp] theorem State.rlStart_pending (n : Nat) (early : Bool) : (s.rlStart n early).pending = s.pending := by
  simp [State.rlStart]

@[simp] theorem State.rlMove_pending (o : State) (n : Nat) (dem : Bool) : (State.rlMove o n dem s).pending = s.pending := by
  unfold State.rlMove
  extract_lets st x ps pg early cooling goods starts bad lost superv s1 s2 dead badParent
  have supervised : s2.pending = s.pending := by simp [s2, s1]
  clear_value s2 dead badParent lost superv
  cases o.earlyDue n <;> simp +zetaDelta [supervised]

@[simp] theorem State.rlLevels_pending (n : Nat) (dem : Bool) : (s.rlLevels n dem).pending = s.pending := by
  simp [State.rlLevels]

@[simp] theorem State.showSeq_pending : s.showSeq.pending = s.pending := by simp -implicitDefEqProofs [State.showSeq]
@[simp] theorem State.mrgFollow_pending (n : Nat) : (s.mrgFollow n).pending = s.pending := by simp [State.mrgFollow]

@[simp] theorem State.earlyKept_pending (o : State) (n : Nat) : (State.earlyKept o n s).pending = s.pending := by
  simp [State.earlyKept]

@[simp] theorem State.seqEvalFrom_pending (o : State) : (State.seqEvalFrom o s).pending = s.pending := by
  simp -implicitDefEqProofs [State.seqEvalFrom]

@[simp] theorem State.seqEval_pending : s.seqEval.pending = s.pending := by simp [State.seqEval]
@[simp] theorem State.seqFirst_pending : s.seqFirst.pending = s.pending := by simp [State.seqFirst]

@[simp] theorem State.marginForward_pending (n : Nat) : (s.marginForward n).pending = s.pending := by
  simp [State.marginForward]

@[simp] theorem State.marginStep_pending (k : Nat) : (s.marginStep k).pending = s.pending := by
  unfold State.marginStep
  dsimp only
  (repeat' split) <;> simp

@[simp] theorem State.mirrorFreshen_pending (d : Nat) : (s.mirrorFreshen d).pending = s.pending := by
  simp [State.mirrorFreshen]

@[simp] theorem State.mirrorStale_pending (d : Nat) : (s.mirrorStale d).pending = s.pending := by simp [State.mirrorStale]

@[simp] theorem State.pwrgdEdge_pending (k : Nat) (high : Bool) : (s.pwrgdEdge k high).pending = s.pending := by
  simp [State.pwrgdEdge]

@[simp] theorem State.railsStart_pending : s.railsStart.pending = s.pending := by
  unfold State.railsStart
  dsimp only
  rw [State.showSeq_pending, State.pending_foldl _ _ fun s n => by simp,
    State.pending_foldl _ _ fun s j => by split <;> simp, State.pending_foldl _ _ fun s j => by simp]

/-! ### Scrub and OTP -/

@[simp] theorem State.hardFault_pending (k : Nat) (w : Word) : (s.hardFault k w).pending = s.pending := by
  unfold State.hardFault
  split <;> simp -implicitDefEqProofs

@[simp] theorem State.writeBackVerify_pending (again : Bool) : (s.writeBackVerify again).pending = s.pending := by
  unfold State.writeBackVerify
  split <;> simp

@[simp] theorem State.scrubRead_pending : s.scrubRead.pending = s.pending := by simp -implicitDefEqProofs [State.scrubRead]

@[simp] theorem State.lapStarved_pending : s.lapStarved.pending = s.pending := by
  unfold State.lapStarved
  split <;> simp

@[simp] theorem State.scrubWrite_pending (p : Party) (w : Word) : (s.scrubWrite p w).pending = s.pending := by
  simp [State.scrubWrite]

@[simp] theorem State.memCntClr_pending (w : Word) : (s.memCntClr w).pending = s.pending := by
  simp -implicitDefEqProofs [State.memCntClr]

@[simp] theorem State.chkCmd_pending (p : Party) (w : Word) : (s.chkCmd p w).pending = s.pending := by
  unfold State.chkCmd
  dsimp only
  (repeat' split) <;> simp -implicitDefEqProofs

@[simp] theorem State.showOtp_pending : s.showOtp.pending = s.pending := by simp -implicitDefEqProofs [State.showOtp]
@[simp] theorem State.otpSet_pending (o : OtpOp) (b : Nat) : (s.otpSet o b).pending = s.pending := by simp [State.otpSet]

@[simp] theorem State.otpEnd_pending (o : OtpOp) (result failbit : Nat) :
    (s.otpEnd o result failbit).pending = s.pending := by
  simp -implicitDefEqProofs [State.otpEnd]

@[simp] theorem State.otpBegin_pending (op region word : Nat) (bits : List Nat) :
    (s.otpBegin op region word bits).pending = s.pending := by
  simp [State.otpBegin]

@[simp] theorem State.otpCmd_pending (p : Party) (w : Word) : (s.otpCmd p w).pending = s.pending := by simp [State.otpCmd]

@[simp] theorem State.otpPulse_pending (seen : Word) : (s.otpPulse seen).pending = s.pending := by
  unfold State.otpPulse
  dsimp only
  (repeat' split) <;> simp

@[simp] theorem State.tapIr_pending (op : Nat) : (s.tapIr op).pending = s.pending := by simp [State.tapIr]

@[simp] theorem State.tapBoundary_pending (d : List Bool) : (s.tapBoundary d).pending = s.pending := by
  simp [State.tapBoundary]

@[simp] theorem State.tapCapture_pending (d : Nat) : (s.tapCapture d).pending = s.pending := by simp [State.tapCapture]

/-! ### Records of the fault collector -/

@[simp] theorem State.recPut_pending (i lo width v : Nat) : (s.recPut i lo width v).pending = s.pending := by
  simp [State.recPut]

@[simp] theorem State.histAdd_pending (ws : List Word) (why : Nat) : (s.histAdd ws why).pending = s.pending := by
  simp [State.histAdd]

@[simp] theorem State.tableRead_pending : s.tableRead.pending = s.pending := by simp [State.tableRead]
@[simp] theorem State.showHeld_pending (i : Nat) : (s.showHeld i).pending = s.pending := by simp [State.showHeld]
@[simp] theorem State.showFlt_pending : s.showFlt.pending = s.pending := by simp -implicitDefEqProofs [State.showFlt]

@[simp] theorem State.holdSlot_pending (i : Nat) (o : HoldObj) : (s.holdSlot i o).pending = s.pending := by
  simp [State.holdSlot]

@[simp] theorem State.cutLoop_pending (i n : Nat) : (s.cutLoop i n).pending = s.pending := by simp [State.cutLoop]
@[simp] theorem State.cutPair_pending (i k : Nat) : (s.cutPair i k).pending = s.pending := by simp [State.cutPair]
@[simp] theorem State.cutChan_pending (i n : Nat) : (s.cutChan i n).pending = s.pending := by simp [State.cutChan]

@[simp] theorem State.cutRailTarget_pending (i r : Nat) : (s.cutRailTarget i r).pending = s.pending := by
  unfold State.cutRailTarget
  split <;> simp

@[simp] theorem State.isolate_pending (i q : Nat) : (s.isolate i q).pending = s.pending := by simp [State.isolate]
@[simp] theorem State.safeStop_pending (i : Nat) : (s.safeStop i).pending = s.pending := by simp [State.safeStop]
@[simp] theorem State.outputsOff_pending : s.outputsOff.pending = s.pending := by simp [State.outputsOff]
@[simp] theorem State.haltAll_pending (i : Nat) : (s.haltAll i).pending = s.pending := by simp [State.haltAll]

@[simp] theorem State.extraReaction_pending (q : Nat) : (s.extraReaction q).pending = s.pending := by
  unfold State.extraReaction
  split <;> simp

@[simp] theorem State.react_pending (i q old lvl : Nat) : (s.react i q old lvl).pending = s.pending := by simp [State.react]
@[simp] theorem State.latchHold_pending (i q : Nat) : (s.latchHold i q).pending = s.pending := by simp [State.latchHold]
@[simp] theorem State.latchWaits_pending (q : Nat) : (s.latchWaits q).pending = s.pending := by simp [State.latchWaits]
@[simp] theorem State.takeHolds_pending (i q : Nat) : (s.takeHolds i q).pending = s.pending := by simp [State.takeHolds]

@[simp] theorem State.recNotify_pending (q lvl : Nat) (esc : Bool) : (s.recNotify q lvl esc).pending = s.pending := by
  simp [State.recNotify]

@[simp] theorem State.makeRecord_pending (i : Nat) (e : Event) (lvl base : Nat) (esc : Bool) :
    (s.makeRecord i e lvl base esc).pending = s.pending := by
  simp [State.makeRecord]

@[simp] theorem State.joinRecord_pending (i : Nat) (e : Event) (lvl : Nat) : (s.joinRecord i e lvl).pending = s.pending := by
  simp -implicitDefEqProofs [State.joinRecord]

@[simp] theorem State.atFull_pending (e : Event) (lvl base : Nat) (esc : Bool) :
    (s.atFull e lvl base esc).pending = s.pending := by
  unfold State.atFull
  dsimp only
  (repeat' split) <;> simp

@[simp] theorem State.processEvent_pending (e : Event) : (s.processEvent e).pending = s.pending := by
  unfold State.processEvent
  dsimp only
  (repeat' split) <;> simp

@[simp] theorem State.freeObj_pending (o : HoldObj) : (s.freeObj o).pending = s.pending := by
  unfold State.freeObj
  (repeat' split) <;> simp

@[simp] theorem State.sourceCleared_pending (q : Nat) : (s.sourceCleared q).pending = s.pending := by
  simp [State.sourceCleared]

@[simp] theorem State.dropRecord_pending (i why : Nat) : (s.dropRecord i why).pending = s.pending := by
  simp -implicitDefEqProofs [State.dropRecord]

@[simp] theorem State.fltCmd_pending (p : Party) (w : Word) : (s.fltCmd p w).pending = s.pending := by simp [State.fltCmd]
@[simp] theorem State.fltReset_pending : s.fltReset.pending = s.pending := by simp [State.fltReset]
@[simp] theorem State.irqSub_pending : s.irqSub.pending = s.pending := by simp [State.irqSub]
@[simp] theorem State.irqUpdate_pending : s.irqUpdate.pending = s.pending := by simp -implicitDefEqProofs [State.irqUpdate]
@[simp] theorem State.processAll_pending : s.processAll.pending = s.pending := by simp [State.processAll]
@[simp] theorem State.reactions_pending : s.reactions.pending = s.pending := by simp [State.reactions]
@[simp] theorem State.settle_pending : s.settle.pending = s.pending := by simp [State.settle]

/-! ### Stores of the caliber -/

@[simp] theorem State.occupy_pending (a : Nat) : (s.occupy a).pending = s.pending := by simp [State.occupy]

@[simp] theorem State.beforeStore_pending (a : Nat) : (s.beforeStore a).pending = s.pending := by
  unfold State.beforeStore
  (repeat' split) <;> simp

@[simp] theorem State.portsFollow_pending : s.portsFollow.pending = s.pending := by simp [State.portsFollow]
@[simp] theorem State.linkStored_pending (a : Nat) : (s.linkStored a).pending = s.pending := by simp [State.linkStored]
@[simp] theorem State.loopStored_pending (a : Nat) : (s.loopStored a).pending = s.pending := by simp [State.loopStored]

@[simp] theorem State.chanStored_pending (a : Nat) (m : Word) : (s.chanStored a m).pending = s.pending := by
  simp [State.chanStored]

@[simp] theorem State.seqStored_pending (a : Nat) (m : Word) : (s.seqStored a m).pending = s.pending := by
  simp [State.seqStored]

@[simp] theorem State.measStored_pending (a : Nat) (old : Word) : (s.measStored a old).pending = s.pending := by
  simp [State.measStored]

@[simp] theorem State.thermStored_pending (a : Nat) (old : Word) : (s.thermStored a old).pending = s.pending := by
  simp [State.thermStored]

@[simp] theorem State.afterStore_pending (a : Nat) (old w m : Word) : (s.afterStore a old w m).pending = s.pending := by
  unfold State.afterStore
  split <;> simp

@[simp] theorem State.store_pending (p : Party) (a : Nat) (w m : Word) : (s.store p a w m).pending = s.pending := by
  unfold State.store
  split <;> simp

@[simp] theorem State.arbDrop_pending (p : Party) (named : Nat) : (s.arbDrop p named).pending = s.pending := by
  simp -implicitDefEqProofs [State.arbDrop]

@[simp] theorem State.ownedStore_pending (p : Party) (named a : Nat) (w m : Word) :
    (s.ownedStore p named a w m).pending = s.pending := by
  unfold State.ownedStore
  split <;> simp

/-! ### Sources, loads and what an accepted image places -/

@[simp] theorem State.stgNext_pending : s.stgNext.pending = s.pending := by simp [State.stgNext]

@[simp] theorem State.stgWrite_pending (p : Party) (w : Word) : (s.stgWrite p w).pending = s.pending := by
  simp [State.stgWrite]

@[simp] theorem State.stgRead_pending : (s.stgRead).2.pending = s.pending := by simp [State.stgRead]

@[simp] theorem State.presetWrite_pending (a : Nat) (w : Word) : (s.presetWrite a w).pending = s.pending := by
  unfold State.presetWrite
  split <;> simp

@[simp] theorem State.presets_pending (l : List (List Byte)) : (s.presets l).2.pending = s.pending := by
  induction l generalizing s with
  | nil => rfl
  | cons r l ih => simp [State.presets, ih]

@[simp] theorem State.writeDefaults_pending : s.writeDefaults.pending = s.pending := by simp [State.writeDefaults]

@[simp] theorem State.sramClear_pending (region lo hi : Nat) : (s.sramClear region lo hi).pending = s.pending := by
  simp [State.sramClear]

@[simp] theorem State.placeCurve_pending (r : List Byte) : (s.placeCurve r).pending = s.pending := by
  simp -implicitDefEqProofs [State.placeCurve]

@[simp] theorem State.keepCurve_pending (c : Nat) : (s.keepCurve c).pending = s.pending := by simp [State.keepCurve]
@[simp] theorem State.placePoint_pending (r : List Byte) : (s.placePoint r).pending = s.pending := by simp [State.placePoint]
@[simp] theorem State.placeSeed_pending (r : List Byte) : (s.placeSeed r).pending = s.pending := by simp [State.placeSeed]
@[simp] theorem State.placeProg_pending (r : List Byte) : (s.placeProg r).pending = s.pending := by simp [State.placeProg]

@[simp] theorem State.placeSections_pending (h : List Byte) (secs : List (List (List Byte))) :
    (s.placeSections h secs).pending = s.pending := by
  simp [State.placeSections]

@[simp] theorem State.acceptImage_pending (src : Nat) : (s.acceptImage src).pending = s.pending := by
  simp [State.acceptImage]

@[simp] theorem State.resetRegs_pending (l : List Nat) : (s.resetRegs l).pending = s.pending := by
  simp -implicitDefEqProofs [State.resetRegs]

@[simp] theorem State.clearMon_pending (n : Nat) : (s.clearMon n).pending = s.pending := by
  unfold State.clearMon
  split <;> simp -implicitDefEqProofs

@[simp] theorem State.clearScan_pending (m : Nat) : (s.clearScan m).pending = s.pending := by
  simp -implicitDefEqProofs [State.clearScan]

@[simp] theorem State.clearPlaced_pending : s.clearPlaced.pending = s.pending := by
  simp -implicitDefEqProofs [State.clearPlaced]

@[simp] theorem State.clearConfig_pending : s.clearConfig.pending = s.pending := by
  simp -implicitDefEqProofs [State.clearConfig]

@[simp] theorem State.loadBegin_pending (src : Nat) : (s.loadBegin src).pending = s.pending := by simp [State.loadBegin]

@[simp] theorem State.flashCommand_pending (command address : Nat) :
    (s.flashCommand command address).pending = s.pending := by
  simp [State.flashCommand]

@[simp] theorem State.failCode_pending (code src : Nat) : (s.failCode code src).pending = s.pending := by
  simp [State.failCode]

@[simp] theorem State.clearData_pending : s.clearData.pending = s.pending := by simp [State.clearData]

@[simp] theorem State.loadFail_pending (code : Nat) : (s.loadFail code).pending = s.pending := by
  simp -implicitDefEqProofs [State.loadFail]

@[simp] theorem State.loadStep_pending : s.loadStep.pending = s.pending := by simp [State.loadStep]
@[simp] theorem State.loadFeed_pending (b : List Byte) : (s.loadFeed b).pending = s.pending := by simp [State.loadFeed]

@[simp] theorem State.imageCode_pending : (s.imageCode).2.pending = s.pending := by
  unfold State.imageCode
  dsimp only
  (repeat' split) <;> simp

@[simp] theorem State.imageChecks_pending : s.imageChecks.pending = s.pending := by simp [State.imageChecks]
@[simp] theorem State.sourceTry_pending : s.sourceTry.pending = s.pending := by simp [State.sourceTry]
@[simp] theorem State.flashFeed_pending (b : List Byte) : (s.flashFeed b).pending = s.pending := by simp [State.flashFeed]

@[simp] theorem State.hostNotice_pending (p : Party) (a : Nat) : (s.hostNotice p a).pending = s.pending := by
  simp [State.hostNotice]

@[simp] theorem State.calStart_pending (p : Party) : (s.calStart p).pending = s.pending := by
  simp -implicitDefEqProofs [State.calStart]

@[simp] theorem State.calAbort_pending : s.calAbort.pending = s.pending := by simp [State.calAbort]
@[simp] theorem State.calCtrl_pending (p : Party) (w : Word) : (s.calCtrl p w).pending = s.pending := by simp [State.calCtrl]

@[simp] theorem State.calAp_pending (p : Party) (a : Nat) (w : Word) : (s.calAp p a w).pending = s.pending := by
  simp [State.calAp]

@[simp] theorem State.readStage_pending (len : Nat) : (s.readStage len).pending = s.pending := by simp [State.readStage]

@[simp] theorem State.placeParcel_pending (b : List Byte) : (s.placeParcel b).pending = s.pending := by
  simp [State.placeParcel]

@[simp] theorem State.commitPreset_pending (a : Nat) (w : Word) : (s.commitPreset a w).pending = s.pending := by
  unfold State.commitPreset
  split <;> simp

@[simp] theorem State.applyParcels_pending (npar len : Nat) : (s.applyParcels npar len).pending = s.pending := by
  simp [State.applyParcels]

/-! ### Beat boundaries -/

@[simp] theorem State.meterRest_pending : s.meterRest.pending = s.pending := by simp -implicitDefEqProofs [State.meterRest]

@[simp] theorem State.restartGroup_pending (g : Nat) : (s.restartGroup g).pending = s.pending := by
  simp -implicitDefEqProofs [State.restartGroup]

@[simp] theorem State.latchGroups_pending : s.latchGroups.pending = s.pending := by
  simp -implicitDefEqProofs [State.latchGroups]

@[simp] theorem State.latchBank_pending (b n cover : Nat) : (s.latchBank b n cover).pending = s.pending := by
  simp -implicitDefEqProofs [State.latchBank]

@[simp] theorem State.beatBegin_pending (b n : Nat) : (s.beatBegin b n).pending = s.pending := by simp [State.beatBegin]
@[simp] theorem State.beatEvent_pending (n : Nat) : (s.beatEvent n).pending = s.pending := by simp [State.beatEvent]
@[simp] theorem State.countMissed_pending : s.countMissed.pending = s.pending := by simp [State.countMissed]
@[simp] theorem State.beatLatch_pending (b : Nat) : (s.beatLatch b).pending = s.pending := by simp [State.beatLatch]
@[simp] theorem State.fixNextBeat_pending (b : Nat) : (s.fixNextBeat b).pending = s.pending := by simp [State.fixNextBeat]

@[simp] theorem State.restLatch_pending (e : Nat) : (s.restLatch e).pending = s.pending := by
  simp -implicitDefEqProofs [State.restLatch]

@[simp] theorem State.beatWake_pending : s.beatWake.pending = s.pending := by simp [State.beatWake]

/-! ### Resets, release, sensing, clocks and supplies -/

@[simp] theorem State.pathKept_pending : s.pathKept.pending = s.pending := by simp [State.pathKept]
@[simp] theorem State.hardReset_pending (cause : Nat) : (s.hardReset cause).pending = s.pending := by simp [State.hardReset]

@[simp] theorem State.powerOn_pending (v : Supply) : (s.powerOn v).pending = s.pending := by
  simp -implicitDefEqProofs [State.powerOn]

@[simp] theorem State.undervoltage_pending : s.undervoltage.pending = s.pending := by simp [State.undervoltage]
@[simp] theorem State.hardWrite_pending : s.hardWrite.pending = s.pending := by simp [State.hardWrite]
@[simp] theorem State.senseStart_pending : s.senseStart.pending = s.pending := by simp [State.senseStart]

@[simp] theorem State.release_pending (worker testEn : Bool) : (s.release worker testEn).pending = s.pending := by
  simp [State.release]

@[simp] theorem State.softReset_pending : s.softReset.pending = s.pending := by simp -implicitDefEqProofs [State.softReset]

@[simp] theorem State.takeIdentity_pending : s.takeIdentity.pending = s.pending := by
  simp -implicitDefEqProofs [State.takeIdentity]

@[simp] theorem State.otpSensed_pending (cells : List (Nat × Word)) (locks : BitVec 32) :
    (s.otpSensed cells locks).pending = s.pending := by
  simp -implicitDefEqProofs [State.otpSensed]

@[simp] theorem State.pllLock_pending : s.pllLock.pending = s.pending := by simp [State.pllLock]
@[simp] theorem State.refLost_pending : s.refLost.pending = s.pending := by simp [State.refLost]
@[simp] theorem State.holdoverEnd_pending : s.holdoverEnd.pending = s.pending := by simp [State.holdoverEnd]
@[simp] theorem State.relockOther_pending : s.relockOther.pending = s.pending := by simp [State.relockOther]
@[simp] theorem State.refReturn_pending : s.refReturn.pending = s.pending := by simp [State.refReturn]
@[simp] theorem State.holdoverExpiry_pending : s.holdoverExpiry.pending = s.pending := by simp [State.holdoverExpiry]
@[simp] theorem State.linkHeldEnter_pending : s.linkHeldEnter.pending = s.pending := by simp [State.linkHeldEnter]
@[simp] theorem State.linkHeldLeave_pending : s.linkHeldLeave.pending = s.pending := by simp [State.linkHeldLeave]

@[simp] theorem State.vinLost_pending (port : Fin 2) : (s.vinLost port).pending = s.pending := by
  simp -implicitDefEqProofs [State.vinLost]

@[simp] theorem State.vinGood_pending : s.vinGood.pending = s.pending := by simp -implicitDefEqProofs [State.vinGood]

/-! ### Stages, commits and deliveries -/

@[simp] theorem State.stageBegin_pending (id npar len dead : Nat) (got : List Nat) :
    (s.stageBegin id npar len dead got).pending = s.pending := by
  simp [State.stageBegin]

@[simp] theorem State.stageFree_pending : s.stageFree.pending = s.pending := by simp [State.stageFree]

@[simp] theorem State.stageOpen_pending (id npar dead len : Nat) : (s.stageOpen id npar dead len).2.pending = s.pending := by
  simp [State.stageOpen]

@[simp] theorem State.stageStore_pending (chunk : Nat) (b : List Byte) : (s.stageStore chunk b).pending = s.pending := by
  simp [State.stageStore]

@[simp] theorem State.stageData_pending (chunk : Nat) (b : List Byte) : (s.stageData chunk b).pending = s.pending := by
  simp [State.stageData]

@[simp] theorem State.mark_pending (f : Fld) (dev : Nat) (b : Bool) : (s.mark f dev b).pending = s.pending := by
  simp [State.mark]

@[simp] theorem State.cmtReady_pending (dev ans : Nat) : (s.cmtReady dev ans).pending = s.pending := by simp [State.cmtReady]
@[simp] theorem State.stageChecks_pending : s.stageChecks.pending = s.pending := by simp [State.stageChecks]

@[simp] theorem State.stageArm_pending (commit : Bool) (id tick : Nat) :
    (s.stageArm commit id tick).pending = s.pending := by
  simp [State.stageArm]

@[simp] theorem State.cmtLast_pending (id out : Nat) : (s.cmtLast id out).pending = s.pending := by simp [State.cmtLast]
@[simp] theorem State.stageStale_pending : s.stageStale.pending = s.pending := by simp [State.stageStale]
@[simp] theorem State.cmtResult_pending (r : Nat) : (s.cmtResult r).pending = s.pending := by simp [State.cmtResult]

@[simp] theorem State.queueChunks_pending (dest : Nat) : (s.queueChunks dest).pending = s.pending := by
  simp [State.queueChunks]

@[simp] theorem State.selfCheck_pending : s.selfCheck.pending = s.pending := by simp [State.selfCheck]
@[simp] theorem State.clearMask_pending (f : Fld) : (s.clearMask f).pending = s.pending := by simp [State.clearMask]

@[simp] theorem State.cmtOpen_pending (p : Party) : (s.cmtOpen p).pending = s.pending := by
  simp -implicitDefEqProofs [State.cmtOpen]

@[simp] theorem State.cmtSend_pending : s.cmtSend.pending = s.pending := by simp [State.cmtSend]
@[simp] theorem State.cmtPrepare_pending : s.cmtPrepare.pending = s.pending := by simp [State.cmtPrepare]

@[simp] theorem State.cmtDecide_pending (commit : Bool) : (s.cmtDecide commit).pending = s.pending := by
  simp [State.cmtDecide]

@[simp] theorem State.cmtClose_pending : s.cmtClose.pending = s.pending := by simp [State.cmtClose]
@[simp] theorem State.cmtIdle_pending : s.cmtIdle.pending = s.pending := by simp [State.cmtIdle]
@[simp] theorem State.cmtDoneCheck_pending : s.cmtDoneCheck.pending = s.pending := by simp [State.cmtDoneCheck]

@[simp] theorem State.cmtRepair_pending (commit : Bool) (dev : Nat) : (s.cmtRepair commit dev).pending = s.pending := by
  simp [State.cmtRepair]

@[simp] theorem State.cmtCmd_pending (p : Party) (op dev : Nat) : (s.cmtCmd p op dev).pending = s.pending := by
  simp [State.cmtCmd]

@[simp] theorem State.cmtAnswer_pending (what : CmdFor) (dev ans : Nat) :
    (s.cmtAnswer what dev ans).pending = s.pending := by
  unfold State.cmtAnswer
  dsimp only
  (repeat' split) <;> simp

@[simp] theorem State.stageApply_pending : s.stageApply.pending = s.pending := by simp [State.stageApply]
@[simp] theorem State.stageDiscard_pending : s.stageDiscard.pending = s.pending := by simp [State.stageDiscard]

@[simp] theorem State.dlvBegin_pending (reload : Bool) (flash : List Byte) :
    (s.dlvBegin reload flash).pending = s.pending := by
  simp [State.dlvBegin]

@[simp] theorem State.dlvAbort_pending : s.dlvAbort.pending = s.pending := by simp [State.dlvAbort]

@[simp] theorem State.dlvCmd_pending (p : Party) (op : Nat) (flash : List Byte) :
    (s.dlvCmd p op flash).pending = s.pending := by
  simp [State.dlvCmd]

@[simp] theorem State.dlvAnswer_pending (dev ans : Nat) : (s.dlvAnswer dev ans).pending = s.pending := by
  simp [State.dlvAnswer]

@[simp] theorem State.dlvStart_pending (reload : Bool) : (s.dlvStart reload).pending = s.pending := by simp [State.dlvStart]
@[simp] theorem State.dlvBroken_pending : s.dlvBroken.pending = s.pending := by simp [State.dlvBroken]
@[simp] theorem State.gapEnds_pending : s.gapEnds.pending = s.pending := by simp [State.gapEnds]

@[simp] theorem State.dlvData_pending (chunk : Nat) (b : List Byte) : (s.dlvData chunk b).pending = s.pending := by
  simp [State.dlvData]

@[simp] theorem State.checksDone_pending : s.checksDone.pending = s.pending := by simp [State.checksDone]

@[simp] theorem State.reloadStart_pending (p : Party) (w : Word) : (s.reloadStart p w).pending = s.pending := by
  simp [State.reloadStart]

@[simp] theorem State.raDone_pending (party result : Nat) : (s.raDone party result).pending = s.pending := by
  simp [State.raDone]

@[simp] theorem State.raData_pending (party i : Nat) (w : Word) : (s.raData party i w).pending = s.pending := by
  simp [State.raData]

@[simp] theorem State.raEnds_pending (p : Party) (result : Nat) : (s.raEnds p result).pending = s.pending := by
  simp [State.raEnds]

@[simp] theorem State.raLocal_pending (p : Party) (write : Bool) (a i n : Nat) (ws : List Word) :
    (s.raLocal p write a i n ws).pending = s.pending := by
  simp [State.raLocal]

@[simp] theorem State.raCmd_pending (p : Party) (op : Nat) : (s.raCmd p op).pending = s.pending := by simp [State.raCmd]

/-! ### What a received command does -/

theorem State.tagOpen_pending (dev count : Nat) (p : CmdFor) : ∀ t ∈ s.tagOpen dev count p, t.2.pending = s.pending := by
  simp [State.tagOpen]

@[simp] theorem State.tagClose_pending (x : Txn) : (s.tagClose x).pending = s.pending := by simp [State.tagClose]
@[simp] theorem State.tagQuarEnd_pending : s.tagQuarEnd.pending = s.pending := by simp [State.tagQuarEnd]

@[simp] theorem State.relayGot_pending (dev part : Nat) (ws : List Word) : (s.relayGot dev part ws).pending = s.pending := by
  simp [State.relayGot]

@[simp] theorem State.relaySend_pending (fuel : Nat) : (s.relaySend fuel).pending = s.pending := by
  induction fuel generalizing s with
  | zero => rfl
  | succ fuel ih =>
    unfold State.relaySend
    dsimp only
    split
    · rfl
    · split_ifs <;> simp [ih]

@[simp] theorem State.relayRound_pending : s.relayRound.pending = s.pending := by simp [State.relayRound]
@[simp] theorem State.relayMove_pending : s.relayMove.pending = s.pending := by simp [State.relayMove]

@[simp] theorem State.reqDone_pending (p : CmdFor) (result : Nat) (ws : List Word) :
    (s.reqDone p result ws).pending = s.pending := by
  unfold State.reqDone
  split <;> simp

@[simp] theorem State.txnTimeout_pending : s.txnTimeout.pending = s.pending := by simp [State.txnTimeout]

@[simp] theorem State.answerTake_pending (p : CmdFor) (d ans : Nat) : (s.answerTake p d ans).pending = s.pending := by
  unfold State.answerTake
  split <;> simp

@[simp] theorem State.answerEnd_pending (x : AnsWait) : (s.answerEnd x).pending = s.pending := by
  unfold State.answerEnd
  split <;> simp

@[simp] theorem State.answersEnd_pending (k : Nat) : (s.answersEnd k).pending = s.pending := by simp [State.answersEnd]
@[simp] theorem State.wordTake_pending (p k d w : Nat) : (s.wordTake p k d w).pending = s.pending := by simp [State.wordTake]

@[simp] theorem State.slotTake_pending (k i : Nat) (b : List Byte) (good : Bool) :
    (s.slotTake k i b good).pending = s.pending := by
  unfold State.slotTake
  dsimp only
  (repeat' split) <;> simp -implicitDefEqProofs

@[simp] theorem State.wordSeen_pending (p k d w : Nat) (good : Bool) : (s.wordSeen p k d w good).pending = s.pending := by
  simp [State.wordSeen]

@[simp] theorem State.mapTake_pending (i w : Nat) : (s.mapTake i w).pending = s.pending := by simp [State.mapTake]
@[simp] theorem State.upEnds_pending (p k : Nat) : (s.upEnds p k).pending = s.pending := by simp [State.upEnds]

@[simp] theorem State.lineEvent_pending (e : LineEvent) : (s.lineEvent e).pending = s.pending := by
  unfold State.lineEvent
  split <;> simp

@[simp] theorem State.lineRun_pending : s.lineRun.pending = s.pending := by simp [State.lineRun]

/-! ### Register reads and writes, and grants of the fabric -/

@[simp] theorem State.restSchedule_pending (e : Nat) : (s.restSchedule e).pending = s.pending := by simp [State.restSchedule]
@[simp] theorem State.restEnter_pending : s.restEnter.pending = s.pending := by simp [State.restEnter]
@[simp] theorem State.rstCtrl_pending (p : Party) (w : Word) : (s.rstCtrl p w).pending = s.pending := by simp [State.rstCtrl]

@[simp] theorem State.writeSys_pending (p : Party) (a : Nat) (w m : Word) : (s.writeSys p a w m).pending = s.pending := by
  simp [State.writeSys]

@[simp] theorem State.writeCal_pending (p : Party) (a : Nat) (w m : Word) : (s.writeCal p a w m).pending = s.pending := by
  simp [State.writeCal]

@[simp] theorem State.slotWrite_pending (p : Party) (a : Nat) (w : Word) : (s.slotWrite p a w).pending = s.pending := by
  simp [State.slotWrite]

@[simp] theorem State.writeEsc_pending (p : Party) (a : Nat) (w m : Word) : (s.writeEsc p a w m).pending = s.pending := by
  simp [State.writeEsc]

@[simp] theorem State.writeLink_pending (p : Party) (a : Nat) (w m : Word) : (s.writeLink p a w m).pending = s.pending := by
  simp [State.writeLink]

@[simp] theorem State.writeHier_pending (p : Party) (a : Nat) (w m : Word) : (s.writeHier p a w m).pending = s.pending := by
  simp [State.writeHier]

@[simp] theorem State.writeMeas_pending (p : Party) (a : Nat) (w m : Word) : (s.writeMeas p a w m).pending = s.pending := by
  simp [State.writeMeas]

@[simp] theorem State.writeFlt_pending (p : Party) (a : Nat) (w m : Word) : (s.writeFlt p a w m).pending = s.pending := by
  simp [State.writeFlt]

@[simp] theorem State.writePwrp_pending (p : Party) (a : Nat) (w m : Word) : (s.writePwrp p a w m).pending = s.pending := by
  simp [State.writePwrp]

@[simp] theorem State.writeKeep_pending (p : Party) (a : Nat) (w m : Word) : (s.writeKeep p a w m).pending = s.pending := by
  unfold State.writeKeep
  dsimp only
  (repeat' split) <;> simp

@[simp] theorem State.writePe_pending (p : Party) (a : Nat) (w m : Word) : (s.writePe p a w m).pending = s.pending := by
  simp [State.writePe]

@[simp] theorem State.writeMem_pending (p : Party) (a : Nat) (w m : Word) : (s.writeMem p a w m).pending = s.pending := by
  simp [State.writeMem]

@[simp] theorem State.windowWrite_pending (p : Party) (a : Nat) (w : Word) : (s.windowWrite p a w).pending = s.pending := by
  unfold State.windowWrite
  dsimp only
  (repeat' split) <;> simp

@[simp] theorem State.windowRead_pending (p : Party) (a : Nat) : (s.windowRead p a).2.pending = s.pending := by
  unfold State.windowRead
  split <;> simp

@[simp] theorem State.pointOf_pending (a : Nat) : (s.pointOf a).2.pending = s.pending := by simp [State.pointOf]

@[simp] theorem State.pointAct_pending (p : Party) (a kind i : Nat) (c : Word) :
    (s.pointAct p a kind i c).pending = s.pending := by
  simp [State.pointAct]

@[simp] theorem State.pointWrite_pending (p : Party) (a : Nat) (w m : Word) :
    (s.pointWrite p a w m).pending = s.pending := by
  simp [State.pointWrite]

@[simp] theorem State.pointValue_pending (kind i : Nat) : (s.pointValue kind i).2.pending = s.pending := by
  simp [State.pointValue]

@[simp] theorem State.pointRead_pending (p : Party) (a : Nat) : (s.pointRead p a).2.pending = s.pending := by
  simp [State.pointRead]

@[simp] theorem State.writeWord_pending (p : Party) (a : Nat) (w m : Word) : (s.writeWord p a w m).pending = s.pending := by
  unfold State.writeWord
  (repeat' split) <;> simp

@[simp] theorem State.eventsLater_pending (n : Nat) : (s.eventsLater n).pending = s.pending := by simp [State.eventsLater]

@[simp] theorem State.writeBits_pending (p : Party) (a : Nat) (w m : Word) : (s.writeBits p a w m).pending = s.pending := by
  simp [State.writeBits]

@[simp] theorem State.writeReg_pending (p : Party) (a : Nat) (w : Word) : (s.writeReg p a w).pending = s.pending := by
  simp [State.writeReg]

@[simp] theorem State.readRegister_pending (p : Party) (a : Nat) (d : RegDef) :
    (s.readRegister p a d).2.pending = s.pending := by
  unfold State.readRegister
  extract_lets s1 k slot b r x n i j hist key
  have read : s1.pending = s.pending := by simp [s1]
  clear_value s1 key
  cases key <;> simp +zetaDelta [read]

@[simp] theorem State.otpRead_pending (p : Party) (k : Nat) : (s.otpRead p k).2.pending = s.pending := by
  simp [State.otpRead]

@[simp] theorem State.readWord_pending (p : Party) (a : Nat) : (s.readWord p a).2.pending = s.pending := by
  unfold State.readWord
  dsimp only
  (repeat' split) <;> simp

@[simp] theorem State.readReg_pending (p : Party) (a : Nat) : (s.readReg p a).2.pending = s.pending := by
  simp [State.readReg]

@[simp] theorem State.noteGrant_pending (b : Nat) (x : Access) : (s.noteGrant b x).pending = s.pending := by
  simp [State.noteGrant]

@[simp] theorem State.serve_pending (x : Access) : (s.serve x).2.pending = s.pending := by
  unfold State.serve
  dsimp only
  (repeat' split) <;> simp

@[simp] theorem State.hostGranted_pending : s.hostGranted.pending = s.pending := by simp [State.hostGranted]

@[simp] theorem State.grantCycle_pending : s.grantCycle.2.pending = s.pending := by
  unfold State.grantCycle
  dsimp only
  rw [foldl_keeps (fun r : List (Access × Word) × State => r.2.pending) fun r p => by split <;> simp]
  exact s.pending_foldl _ (fun s x => by simp) _

@[simp] theorem State.endCycle_pending (taken : List Nat) : (s.endCycle taken).2.pending = s.pending := by
  simp [State.endCycle]

@[simp] theorem State.reactCycle_pending : s.reactCycle.2.pending = s.pending := by
  simp [State.reactCycle]

@[simp] theorem State.cycleStart_pending : s.cycleStart.pending = s.pending := by simp [State.cycleStart]

@[simp] theorem State.cycleWith_pending (f : State → State) (h : ∀ s, (f s).pending = s.pending) :
    (s.cycleWith f).2.pending = s.pending := by simp [State.cycleWith, h]

@[simp] theorem State.cycleOnce_pending : s.cycleOnce.2.pending = s.pending := s.cycleWith_pending id fun _ => rfl
@[simp] theorem State.jump_pending (t : Nat) : (s.jump t).pending = s.pending := by simp [State.jump]

@[simp] theorem State.passN_pending (fuel t : Nat) : (s.passN fuel t).pending = s.pending := by
  induction fuel generalizing s with
  | zero => simp [State.passN]
  | succ fuel ih =>
    unfold State.passN
    split_ifs
    · rfl
    · simp [ih]
    · split
      · split <;> simp [ih]
      · simp

@[simp] theorem State.passTo_pending (t : Nat) : (s.passTo t).pending = s.pending := by simp [State.passTo]
@[simp] theorem State.passToTick_pending (t : Nat) : (s.passToTick t).pending = s.pending := by simp [State.passToTick]

@[simp] theorem State.flashArrives_pending (stage : Nat) (b : List Byte) : (s.flashArrives stage b).pending = s.pending := by
  simp [State.flashArrives]

@[simp] theorem State.accessWait_pending (fuel : Nat) (x : Access) (n : Nat) :
    (s.accessWait fuel x n).2.2.pending = s.pending := by
  induction fuel generalizing s n with
  | zero => simp [State.accessWait]
  | succ fuel ih =>
    unfold State.accessWait
    dsimp only
    split
    · simp
    · split <;> simp [ih]

@[simp] theorem State.access_pending (p : Party) (a : Nat) (w : Option Word) : (s.access p a w).2.2.pending = s.pending := by
  unfold State.access
  split <;> simp

@[simp] theorem State.burst_pending (p : Party) (step a : Nat) (l : List Word) :
    (s.burst p step a l).pending = s.pending := by
  induction l generalizing s a with
  | nil => rfl
  | cons w l ih => simp [State.burst, ih]

@[simp] theorem State.fetch_pending (p : Party) (step a n : Nat) : (s.fetch p step a n).2.pending = s.pending := by
  induction n generalizing s a with
  | zero => rfl
  | succ n ih => simp [State.fetch, ih]

@[simp] theorem State.afterEvents_pending (fuel : Nat) : (s.afterEvents fuel).pending = s.pending := by
  induction fuel generalizing s with
  | zero => rfl
  | succ fuel ih => simp [State.afterEvents, ih]

@[simp] theorem State.urgentAccess_pending (p : Party) (a : Nat) (w : Option Word) :
    (s.urgentAccess p a w).2.pending = s.pending := by
  cases w <;> simp [State.urgentAccess]

@[simp] theorem State.registerWrites_pending (l : List (Party × BitVec 16 × Word)) :
    (s.registerWrites l).pending = s.pending := by
  simp [State.registerWrites]

/-! ### Batches at a tick -/

@[simp] theorem State.entryRead_pending (n : Nat) : (s.entryRead n).2.2.pending = s.pending :=
  foldl_keeps (fun r : List Word × Bool × State => r.2.2.pending) (fun r i => by simp) _ _

@[simp] theorem State.strikeAction_pending (x : Action) : (s.strikeAction x).pending = s.pending := by
  simp [State.strikeAction]

@[simp] theorem State.launchSlot_pending (n : Nat) : (s.launchSlot n).pending = s.pending := by simp [State.launchSlot]

@[simp] theorem State.batch_pending : s.batch.pending = s.pending := by
  unfold State.batch
  dsimp only
  (repeat' split) <;> simp -implicitDefEqProofs

@[simp] theorem State.batchCycle_pending (t : Nat) : (s.batchCycle t).pending = s.pending := by simp [State.batchCycle]

@[simp] theorem State.batchAt_pending (due : Option Nat) : (s.batchAt due).pending = s.pending := by
  unfold State.batchAt
  split <;> simp -implicitDefEqProofs

@[simp] theorem State.escStep_pending : s.escStep.pending = s.pending := by simp -implicitDefEqProofs [State.escStep]

/-! ### Settling, accesses of a party and the passing of time in a command -/

@[simp] theorem State.written_pending (p : Party) (a : Nat) (w : Word) : (s.written p a w).pending = s.pending := by
  simp [State.written]

@[simp] theorem State.readBy_pending (p : Party) (a : Nat) : (s.readBy p a).pending = s.pending := by simp [State.readBy]

@[simp] theorem State.fabricAccess_pending (write : Bool) (addr : Nat) (data : Word) :
    (s.fabricAccess write addr data).pending = s.pending := by
  simp [State.fabricAccess]

@[simp] theorem State.tapPending_pending : s.tapPending.pending = s.pending := by
  unfold State.tapPending
  split <;> simp -implicitDefEqProofs

@[simp] theorem State.boundaryFirst_pending (t : Nat) : (s.boundaryFirst t).pending = s.pending := by
  unfold State.boundaryFirst
  split <;> simp -implicitDefEqProofs

@[simp] theorem State.atTime_pending (due : Option Nat) (f : State → State) (h : ∀ s, (f s).pending = s.pending) :
    (s.atTime due f).pending = s.pending := by
  unfold State.atTime
  split <;> simp [h]

@[simp] theorem State.atTick_pending (due : Option Nat) (f : State → State) (h : ∀ s, (f s).pending = s.pending) :
    (s.atTick due f).pending = s.pending := by
  unfold State.atTick
  split <;> simp [h]

@[simp] theorem State.idle_pending : s.idle.pending = s.pending := by simp [State.idle]
@[simp] theorem State.reachBudget_pending (n : Nat) : (s.reachBudget n).pending = s.pending := by simp [State.reachBudget]

@[simp] theorem State.engStep_pending (n : Nat) (f : State → State) (h : ∀ s, (f s).pending = s.pending) :
    (s.engStep n f).pending = s.pending := by simp [State.engStep, h]

@[simp] theorem State.engWait_pending (n : Nat) (x : Access) (fuel : Nat) : (s.engWait n x fuel).2.pending = s.pending := by
  induction fuel generalizing s with
  | zero => rfl
  | succ fuel ih =>
    unfold State.engWait
    dsimp only
    split
    · simp
    · split <;> simp [ih]

theorem State.engAccess_pending (n : Fin 8) (a : Nat) (w : Option Word) (g : Word → State → State)
    (h : ∀ v s, (g v s).pending = s.pending) : (s.engAccess n a w g).pending = s.pending := by
  unfold State.engAccess
  dsimp only
  split
  · rfl
  · split <;> simp [h]

theorem State.engFabric_pending (n : Fin 8) (i : Word) (d : Option Nat) (w : Option Word) (g : Word → State → State)
    (h : ∀ v s, (g v s).pending = s.pending) : (s.engFabric n i d w g).pending = s.pending := by
  unfold State.engFabric
  cases d with
  | none => exact s.engStep_pending _ _ fun s => s.execEng_pending _ _ _ fun _ => trivial
  | some a =>
    have begun := s.engStep_pending n (State.execEng n i fun _ => .done 4 id) fun s =>
      s.execEng_pending _ _ _ fun _ _ => rfl
    simp [apply_ite, State.engAccess_pending _ _ _ _ _ h, begun]

@[simp] theorem State.opFrd_pending (n : Fin 8) (rd a : XReg) (imm : BitVec 18) : (s.opFrd n rd a imm).pending = s.pending :=
  s.engFabric_pending _ _ _ _ _ fun v s => by simp

@[simp] theorem State.opFwr_pending (n : Fin 8) (b a : XReg) (imm : BitVec 18) : (s.opFwr n b a imm).pending = s.pending :=
  s.engFabric_pending _ _ _ _ _ fun _ s => by simp

/-! ### Rows of the loops -/

@[simp] theorem State.pointCommand_pending (p : Party) (point op v : Nat) :
    (s.pointCommand p point op v).pending = s.pending := by
  simp [State.pointCommand]

/-! ### Rows of the engines -/

@[simp] theorem State.expire_pending (n : Nat) : (s.expire n).pending = s.pending := by simp [State.expire]

/-! ### The manager on the link -/

@[simp] theorem State.relayUpdate_pending : s.relayUpdate.pending = s.pending := by
  unfold State.relayUpdate
  dsimp only
  (repeat' split) <;> simp -implicitDefEqProofs

@[simp] theorem State.cmdSent_pending (k : Nat) (c : LinkCmd) : (s.cmdSent k c).pending = s.pending := by
  unfold State.cmdSent
  dsimp only
  (repeat' split) <;> simp -implicitDefEqProofs

theorem State.place_pending (k : Nat) (r : Build × State) (c : LinkCmd) : (State.place k r c).2.pending = r.2.pending := by
  unfold State.place
  dsimp only
  split
  · rfl
  · next s h =>
    split_ifs at h
    · obtain ⟨t, ht, e⟩ := Option.map_eq_some_iff.mp h
      cases e
      simp [State.tagOpen_pending _ _ _ _ t ht]
    · cases h
      simp

@[simp] theorem State.swingCmds_pending (k : Nat) : (s.swingCmds k).pending = s.pending := by
  simp -implicitDefEqProofs [State.swingCmds]

@[simp] theorem State.downBuild_pending (k : Nat) : (s.downBuild k).pending = s.pending := by
  have placed := foldl_keeps (fun r : Build × State => r.2.pending) (State.place_pending k)
  simp -implicitDefEqProofs [State.downBuild, placed]

@[simp] theorem State.downSendAt_pending (k : Nat) : (s.downSendAt k).pending = s.pending := by simp [State.downSendAt]

@[simp] theorem State.upReceive_pending (p : Nat) (b : List Byte) (bad : List Nat) :
    (s.upReceive p b bad).pending = s.pending := by
  simp [State.upReceive]

@[simp] theorem State.workersLost_pending : s.workersLost.pending = s.pending := by simp [State.workersLost]

/-! ### Rows of the hierarchy -/

@[simp] theorem State.dlvWritten_pending (p : Party) (op : Nat) (flash : List Byte) :
    (s.dlvWritten p op flash).pending = s.pending := by
  simp [State.dlvWritten]

/-! ### The host port -/

@[simp] theorem State.hostDone_pending (k opcode addr : Nat) : (s.hostDone k opcode addr).pending = s.pending := by
  simp [State.hostDone]

@[simp] theorem State.hostGrants_pending (fuel : Nat) : (s.hostGrants fuel).pending = s.pending := by
  induction fuel generalizing s with
  | zero => rfl
  | succ fuel ih => simp [State.hostGrants, ih]

@[simp] theorem State.hostApply_pending (k opcode addr step : Nat) (ws : List Word) :
    (s.hostApply k opcode addr step ws).pending = s.pending := by
  simp -implicitDefEqProofs [State.hostApply]

@[simp] theorem State.hostEnd_pending : s.hostEnd.pending = s.pending := by
  unfold State.hostEnd
  split <;> simp -implicitDefEqProofs

@[simp] theorem State.hostAbandon_pending : s.hostAbandon.pending = s.pending := by
  unfold State.hostAbandon
  split <;> simp -implicitDefEqProofs

@[simp] theorem State.hostStart_pending (tgt : Nat) : (s.hostStart tgt).2.pending = s.pending := by
  unfold State.hostStart
  dsimp only
  (repeat' split) <;> simp -implicitDefEqProofs

@[simp] theorem State.acked_pending (n : Nat) (b : List Bool) : (s.acked n b).pending = s.pending := by simp [State.acked]

@[simp] theorem State.hostWrite_pending (tgt opcode addr step : Nat) (b : List Byte) (stop : Bool) :
    (s.hostWrite tgt opcode addr step b stop).pending = s.pending := by
  unfold State.hostWrite
  dsimp only
  (repeat' split) <;> simp -implicitDefEqProofs

@[simp] theorem State.hostRead_pending (tgt opcode addr step : Nat) (n : Option Nat) (stop : Bool) :
    (s.hostRead tgt opcode addr step n stop).pending = s.pending := by
  unfold State.hostRead
  extract_lets r c
  have started : r.2.pending = s.pending := s.hostStart_pending tgt
  clear_value r
  split
  · exact started
  · extract_lets s1 t f open'
    have opened : f.2.pending = s.pending := by simp +zetaDelta [started]
    clear_value f
    split
    · exact opened
    · cases n <;> simp +zetaDelta [opened]

@[simp] theorem State.hostTimeout_pending (sda again : Bool) : (s.hostTimeout sda again).pending = s.pending := by
  simp [State.hostTimeout]

/-! ### Rows of the keep domain -/

@[simp] theorem State.keepOp_pending (p : Party) (op : Nat) : (s.keepOp p op).pending = s.pending := by simp [State.keepOp]

/-! ### Rows of measurement -/

@[simp] theorem State.monRest_pending (n : Nat) (v : Int) : (s.monRest n v).pending = s.pending := by simp [State.monRest]

@[simp] theorem State.monSampleNext_pending (n : Nat) (v : Int) : (s.monSampleNext n v).pending = s.pending := by
  simp [State.monSampleNext]

@[simp] theorem State.sweepSamples_pending (till : Nat) : (s.sweepSamples till).pending = s.pending :=
  s.pending_foldl _ (fun s _ => by split <;> simp) _

@[simp] theorem State.sweepDwell_pending : s.sweepDwell.pending = s.pending := by
  unfold State.sweepDwell
  split
  · rfl
  · dsimp only
    rw [State.sweepSamples_pending, State.pending_foldl _ _ fun s t => by simp]

@[simp] theorem State.thermalTick_pending (pdev : Nat) : (s.thermalTick pdev).pending = s.pending := by
  simp [State.thermalTick]

@[simp] theorem State.shedsDue_pending : s.shedsDue.pending = s.pending := by simp [State.shedsDue]

/-! ### Rows of the memories -/

@[simp] theorem State.tapSelect_pending (op : Nat) (d : Option (List Bool)) : (s.tapSelect op d).pending = s.pending := by
  unfold State.tapSelect
  split <;> simp -implicitDefEqProofs

/-! ### Frames on the link -/

@[simp] theorem State.onTarget_pending (b : List Byte) (f : State → State) (h : ∀ s, (f s).pending = s.pending) :
    (s.onTarget b f).pending = s.pending := by simp [State.onTarget, h]

@[simp] theorem State.onDest_pending (b : List Byte) (f : State → State) (h : ∀ s, (f s).pending = s.pending) :
    (s.onDest b f).pending = s.pending := by simp [State.onDest, h]

@[simp] theorem State.linkArm_pending (b : List Byte) : (s.linkArm b).pending = s.pending := by simp [State.linkArm]
@[simp] theorem State.linkCancel_pending (b : List Byte) : (s.linkCancel b).pending = s.pending := by simp [State.linkCancel]
@[simp] theorem State.linkBeat_pending (b : List Byte) : (s.linkBeat b).pending = s.pending := by simp [State.linkBeat]
@[simp] theorem State.linkSelect_pending (b : List Byte) : (s.linkSelect b).pending = s.pending := by simp [State.linkSelect]

@[simp] theorem State.linkRetrain_pending (b : List Byte) : (s.linkRetrain b).pending = s.pending := by
  simp [State.linkRetrain]

@[simp] theorem State.linkPhantom_pending (b : List Byte) : (s.linkPhantom b).pending = s.pending := by
  simp [State.linkPhantom]

@[simp] theorem State.linkRest_pending (b : List Byte) : (s.linkRest b).pending = s.pending := by simp [State.linkRest]

@[simp] theorem State.linkAssign_pending (b : List Byte) : (s.linkAssign b).pending = s.pending :=
  s.onDest_pending b _ fun s => by
    split
    · rfl
    · split <;> simp

@[simp] theorem State.ptDone_pending (b : List Byte) (result : Nat) (ws : List Word) (t : Nat) :
    (s.ptDone b result ws t).pending = s.pending := by
  simp [State.ptDone]

@[simp] theorem State.linkRead_pending (b : List Byte) (a r : Nat) : (s.linkRead b a r).pending = s.pending := by
  simp [State.linkRead]

@[simp] theorem State.linkWrite_pending (b : List Byte) (a r : Nat) : (s.linkWrite b a r).pending = s.pending := by
  simp [State.linkWrite]

@[simp] theorem State.readAsked_pending (b : List Byte) : (s.readAsked b).pending = s.pending := by simp [State.readAsked]
@[simp] theorem State.linkPtRead_pending (b : List Byte) : (s.linkPtRead b).pending = s.pending := by simp [State.linkPtRead]

@[simp] theorem State.linkPtWrite_pending (b : List Byte) : (s.linkPtWrite b).pending = s.pending := by
  simp [State.linkPtWrite]

@[simp] theorem State.linkRegRead_pending (b : List Byte) : (s.linkRegRead b).pending = s.pending := by
  simp [State.linkRegRead]

@[simp] theorem State.linkRegWrite_pending (b : List Byte) : (s.linkRegWrite b).pending = s.pending := by
  simp [State.linkRegWrite]

@[simp] theorem State.ansIf_pending (b : List Byte) (a : Nat) : (s.ansIf b a).pending = s.pending := by simp [State.ansIf]

@[simp] theorem State.linkStgOpen_pending (b : List Byte) : (s.linkStgOpen b).pending = s.pending := by
  simp [State.linkStgOpen]

@[simp] theorem State.linkStgData_pending (b : List Byte) : (s.linkStgData b).pending = s.pending := by
  simp [State.linkStgData]

@[simp] theorem State.linkStgPrepare_pending (b : List Byte) : (s.linkStgPrepare b).pending = s.pending := by
  simp [State.linkStgPrepare]

@[simp] theorem State.linkCommit_pending (b : List Byte) : (s.linkCommit b).pending = s.pending := by simp [State.linkCommit]
@[simp] theorem State.linkAbort_pending (b : List Byte) : (s.linkAbort b).pending = s.pending := by simp [State.linkAbort]

@[simp] theorem State.linkCmtCheck_pending (b : List Byte) : (s.linkCmtCheck b).pending = s.pending := by
  simp [State.linkCmtCheck]

@[simp] theorem State.linkDlvStart_pending (b : List Byte) : (s.linkDlvStart b).pending = s.pending := by
  simp [State.linkDlvStart]

@[simp] theorem State.linkDlvData_pending (b : List Byte) : (s.linkDlvData b).pending = s.pending := by
  simp [State.linkDlvData]

@[simp] theorem State.linkDlvQuery_pending (b : List Byte) : (s.linkDlvQuery b).pending = s.pending := by
  simp [State.linkDlvQuery]

theorem cmdMeaning_pending (op : Nat) (f : List Byte → State → State) (h : cmdMeaning op = some f) (b : List Byte) :
    (f b s).pending = s.pending := by
  unfold cmdMeaning at h
  split at h <;> cases h <;> simp

@[simp] theorem State.cmdsAct_pending (n : Nat) (b : List Byte) : (s.cmdsAct n b).pending = s.pending := by
  induction n generalizing s b with
  | zero => rfl
  | succ n ih =>
    unfold State.cmdsAct
    split
    · simp
    · next f hf =>
      dsimp only
      split
      · simp
      · rw [ih, cmdMeaning_pending s _ f hf]

@[simp] theorem State.downPasses_pending (b : List Byte) (bad : Nat) : (s.downPasses b bad).pending = s.pending := by
  unfold State.downPasses
  dsimp only
  (repeat' split) <;> simp

@[simp] theorem State.lateLoss_pending : s.lateLoss.pending = s.pending := by simp [State.lateLoss]

@[simp] theorem State.downAccept_pending (b : List Byte) (bad : Nat) : (s.downAccept b bad).pending = s.pending := by
  unfold State.downAccept
  dsimp only
  (repeat' split) <;> simp

/-! ### Rows of the ports -/

@[simp] theorem State.onLink_pending (f : State → State) (h : ∀ s, (f s).pending = s.pending) :
    (s.onLink f).pending = s.pending := by simp [State.onLink, h]

/-! ### Rest and wake -/

@[simp] theorem State.restDrop_pending : s.restDrop.pending = s.pending := by simp [State.restDrop]

@[simp] theorem State.restRail_pending (n : Nat) : (s.restRail n).pending = s.pending := by
  simp -implicitDefEqProofs [State.restRail]

@[simp] theorem State.restOff_pending : s.restOff.pending = s.pending := by simp -implicitDefEqProofs [State.restOff]
@[simp] theorem State.restUnits_pending : s.restUnits.pending = s.pending := by simp [State.restUnits]

@[simp] theorem State.restLink_pending : s.restLink.pending = s.pending := by
  unfold State.restLink
  extract_lets s1 t s2 open' s3
  have answered : s3.pending = s.pending :=
    (State.pending_foldl _ _ (fun s p => by split <;> simp) _).trans (by simp +zetaDelta)
  clear_value s3
  simp -implicitDefEqProofs +zetaDelta [answered]

@[simp] theorem State.restDelivery_pending : s.restDelivery.pending = s.pending := by simp [State.restDelivery]

@[simp] theorem State.restStop_pending (e : Nat) : (s.restStop e).pending = s.pending := by
  simp -implicitDefEqProofs [State.restStop]

@[simp] theorem State.wakeBurst_pending : s.wakeBurst.pending = s.pending := by simp [State.wakeBurst]
@[simp] theorem State.wake_pending (src periods : Nat) : (s.wake src periods).pending = s.pending := by simp [State.wake]

@[simp] theorem State.restEntry_pending : s.restEntry.pending = s.pending := by
  unfold State.restEntry
  (repeat' split) <;> simp

@[simp] theorem State.wakeEvent_pending (src periods : Nat) : (s.wakeEvent src periods).pending = s.pending := by
  unfold State.wakeEvent
  (repeat' split) <;> simp

@[simp] theorem State.fullyActive_pending : s.fullyActive.pending = s.pending := by simp [State.fullyActive]

/-! ### Rows of the rails -/

@[simp] theorem State.seqAt_pending (due : Option Nat) : (s.seqAt due).pending = s.pending := by
  unfold State.seqAt
  (repeat' split) <;> simp

end Sys2Proof.Machine
end

/-! # Every command completes -/
section
namespace Sys2Proof.Machine

/-! ## The outcome of a command: every well-formed one goes on with the queue it found -/

/-- The outcome is a next state, with the queue of `s`. -/
def State.LeavesQueue (s : State) (o : Host.Outcome State Fault Refusal) : Prop := ∃ t, o = .next t ∧ t.pending = s.pending

namespace State.LeavesQueue

variable {s t : State}

theorem next (h : t.pending = s.pending) : s.LeavesQueue (.next t) := ⟨t, rfl, h⟩

theorem done (h : t.pending = s.pending) : s.LeavesQueue (done t) := next (by rw [State.settle_pending, h])

theorem ite_pos {c : Prop} [Decidable c] {o o' : Host.Outcome State Fault Refusal} (hc : c) (h : s.LeavesQueue o) :
    s.LeavesQueue (if c then o else o') := by rwa [if_pos hc]

theorem ite_neg {c : Prop} [Decidable c] {o o' : Host.Outcome State Fault Refusal} (hc : ¬c) (h : s.LeavesQueue o') :
    s.LeavesQueue (if c then o else o') := by rwa [if_neg hc]

end State.LeavesQueue

/-- `linkForm` asks what `linkRow` tests. -/
theorem linkForm_iff (op : Nat) (b : List Byte) :
    linkForm op b = true ↔ byteAt b 0 = op ∧ b.length = cmdLength b ∧ b ≠ [] := by
  simp [linkForm, and_assoc]

theorem State.LeavesQueue.linkRow {s : State} {op : Nat} {b : List Byte} {f : State → State} (h : linkForm op b = true)
    (hf : (f s).pending = s.pending) : s.LeavesQueue (linkRow op b f s) := by
  refine .ite_pos ((linkForm_iff op b).mp h) (.done ?_)
  split
  · rfl
  · exact hf

theorem linkRow_illFormed {op : Nat} {b : List Byte} (f : State → State) (s : State) (h : linkForm op b = false) :
    linkRow op b f s = .fault .illFormed :=
  if_neg (by rw [← linkForm_iff, h]; exact Bool.false_ne_true)

/-- A write of the host with an opcode of another row is no command. -/
theorem hostWrite_wellFormed (tgt : BitVec 7) (op : BitVec 8) (addr : BitVec 16) (b : List Byte) (stop : Bool) :
    (Instr.hostWrite tgt op addr b stop).wellFormed = !decide (2 ≤ op.toNat / 16 ∧ op.toNat / 16 ≤ 4) := by
  rw [Bool.decide_and, Instr.wellFormed]

/-- An engine's row of one register operand leaves the queue. -/
def EngRowLeavesQueue (f : Fin 8 → Fin 16 → State → Host.Outcome State Fault Refusal) : Prop :=
  ∀ n a (s : State), s.LeavesQueue (f n a s)

theorem EngRowLeavesQueue.of_eq {f g : Fin 8 → Fin 16 → State → Host.Outcome State Fault Refusal} (h : f = g)
    (hg : EngRowLeavesQueue g) : EngRowLeavesQueue f := h ▸ hg

/-- WAITT's row is replaced by its body as a function, before it has an argument: the kernel, comparing the row's value with
the `match` on `State.waitTicks` in its body, would count the 32-bit difference in `State.waitTicks` in unary. -/
theorem execWaitt_leavesQueue : EngRowLeavesQueue execWaitt := by
  apply EngRowLeavesQueue.of_eq
  · delta execWaitt
    rfl
  intro n a s
  beta_reduce
  cases s.waitTicks n a with
  | none => exact .done rfl
  | some d => exact .done (s.engStep_pending _ _ fun s => s.opWaitt_pending _ _ _)

/-- The rows by what they are made of; the rule of the operation that a row runs is a simp lemma. -/
theorem exec_leavesQueue (i : Instr) (s : State) (h : i.wellFormed = true) : s.LeavesQueue (exec i s) := by
  cases i with
  -- a row that is an access of a register
  | soft | hard | registerWrite | startLoad | abortLoad | calLoadAp | armAbsolute | armRelative | cancelCmd
  | escTickRead | escCntClr | linkRetrain | linkCntClr | raRead | raWrite | raWriteAns | hierStgData | openCmt
  | sendCmt | prepareCmt | cmtCommit | cmtAbort | repairCommit | repairAbort | close | dlvStartOp | startReload
  | dlvAbort | channelOnWrite | pmodeWrite | pointChOn | pointChPmode | pointLoopMargin | pointLoopNmin
  | pointPhaseDis | pointRailOn | pointRailMargin | pointKeepByteWrite | railCtrlWrite | measMaskWrite | urg
  | monTestGo | ack | clear | ackClass | clearL0 | ship | shipExit | chgGo | pwrpCfgWrite | setTime | hourAdd
  | hourSub | memCommit | alarmSet | keepCfgWrite | keepStatClear | keepDateRead | enter | restart | go | stop
  | mboxWrite | peNotify | memScrubWrite | readRaw | writeRaw | memCntClr | program | wlock | rlock | ctrInc
  | otpWindowRead =>
    exact .next (by simp)
  -- a row that is a command of an accepted frame
  | arm | cancel | beat | select | retrain | phantom | rest | assign | ptRead | ptWrite | regRead | regWrite
  | stgOpen | stgData | stgPrepare | commit | abortStage | cmtCheck | dlvStart | dlvData | dlvQuery =>
    exact .linkRow h (by simp)
  -- an instruction of an engine
  | add | sub | andI | orI | xorI | sll | srl | sra | slt | sltu | minI | maxI | mul | mulh | mulhu | div | divu
  | rem | remu | mulq | addi | slti | andi | ori | xori | slli | srli | srai | ldw | stw | beq | bne | blt | bge
  | bltu | bgeu | jal | jalr =>
    exact .done (by simp)
  | lui => exact .done (s.engStep_pending _ _ fun s => s.execEng_pending _ _ _ fun _ => wr_keepsQueue _ _ _ _)
  | tickh | cyc | evt =>
    exact .done (s.engStep_pending _ _ fun s => s.opSys_pending _ _ _ _ _ fun _ => wr_keepsQueue _ _ _ _)
  | nop | halt | tickl => exact .done (s.engStep_pending _ _ fun s => s.opSys_pending _ _ _ _ _ fun _ t => by simp)
  | waitt n a => exact execWaitt_leavesQueue n a s
  -- an occurrence in the device or at its pins
  | powerOnReset | rstNLow | resetRelease | otpSensingDone | pllLock | referenceLost | relockOtherPort
  | holdoverExpiry | vinDisqualify | vinQualify | imageSourceTry | imageStreamEnd | imageChecksDone
  | hostLoadGapTimeout | escStep | strikeLaunch | strikeIdQuarantineEnd | beatZeroStart | beatBoundary
  | portTrainStart | trainSend | upstreamSelect | portRxDown | healReceive | branchEndDetect | phantomSwitchTrip
  | phantomSwitchReclose | downFrameSend | downFrameAccept | downFrameMissing | upFrameStart | workerLost
  | transactionTimeout | tagQuarantineEnd | stageChecksDone | commitApply | stageStale | relayDeviceUpdate
  | mirrorStale | syncInEdge | syncInLost | onTimeEnd | loopFastShort | brakeEngage | hintEdge | overloadBinEnd
  | stgfltEdge | throttleRelease | loopDischargeTimeout | channelSample | channelFastShort | reverseBlock
  | standbyRescue | pairBreak | sequencerEval | railDelayEnd | runAheadStart | railQualified | railDeadline
  | railPgLost | railLdDelayEnd | targetStopTimeout | pwrgdEdge | marginStep | conversionEnd | monitorLevelChange
  | monitorSettleEnd | sweepStep | thermalUpdate | shedStep | faultRecord | sourceLost | handoverComplete
  | sourceQualified | handbackComplete | sourceReverseBlock | depletion | supplementStart | supplementStop
  | packProbeStart | packProbeEnd | packRemoved | packShorted | chargeSecond | chargerTimerFault | topoffEnd
  | rechargeStart | shipPress | offCycleStart | offCycleEnd | keepReset | switchOver | xtalStop | calendarSecond
  | trimAdd | keepCalWindow | keepCommitApply | restEntry | wakeEvent | fullyActive | hostRead | writeFix | readFix
  | sclTimeout | sdaTimeout | frd | fwr | runStart | budgetOverrun | watchdogExpiry | restartCheckDone | initRunStart
  | writebackVerify | scrubRead | otpPulseEnd | extest | samplePreload | highz | clamp | devid | fabric | bypass
  | fabricAccess | referenceReturn | supplyUndervoltage | keepResetRelease | mainBranchReturn | keepCrystalRestart
  | i2Received | stgfltRise | sourceBlockRelease | sourceGood | chargeConditionChange | prechargeEnd
  | periodicTrigger | scrubLapStarved =>
    exact .done (by simp)
  | cmtCheckSend | dlvQuerySend => exact .done (by split <;> simp)
  -- an operand of a fixed length
  | headerArrived | directoryArrived | trainReceive | downFrameHeader | upFrameForward | upFrameReceive
  | carrierBoundary | stageFaultIdentify =>
    exact .ite_pos (eq_of_beq h) (.done (by simp))
  | hostWrite tgt op addr b stop =>
    rw [hostWrite_wellFormed, Bool.not_eq_true', decide_eq_false_iff_not] at h
    exact .ite_neg h (.done (by simp))

theorem exec_illFormed (i : Instr) (s : State) (h : i.wellFormed = false) : exec i s = .fault .illFormed := by
  cases i with
  | arm | cancel | beat | select | retrain | phantom | rest | assign | ptRead | ptWrite | regRead | regWrite
  | stgOpen | stgData | stgPrepare | commit | abortStage | cmtCheck | dlvStart | dlvData | dlvQuery =>
    exact linkRow_illFormed _ s h
  | headerArrived | directoryArrived | trainReceive | downFrameHeader | upFrameForward | upFrameReceive
  | carrierBoundary | stageFaultIdentify =>
    exact if_neg (ne_of_beq_false h)
  | hostWrite tgt op addr b stop =>
    rw [hostWrite_wellFormed, Bool.not_eq_false', decide_eq_true_iff] at h
    exact if_pos h
  | _ => cases h

theorem exec_pending {i : Instr} {s t : State} (h : exec i s = .next t) : t.pending = s.pending := by
  cases wf : i.wellFormed with
  | true =>
    obtain ⟨u, hu, kept⟩ := exec_leavesQueue i s wf
    rw [hu] at h
    cases h
    exact kept
  | false => rw [exec_illFormed i s wf] at h; cases h

theorem step_pending {s t : State} (h : step s = .next t) : t.pending = s.pending.tail := by
  unfold step at h
  split at h
  · next empty =>
    cases h
    rw [State.idle_pending, empty, List.tail_nil]
  · next c rest front =>
    rw [front, List.tail_cons]
    exact exec_pending h

/-- Settles O2: each row of `exec` leaves the queue, by the lemma about the operation it runs. -/
theorem everyCommandCompletes : Obligations.EveryCommandCompletes := by
  unfold Obligations.EveryCommandCompletes
  refine ⟨fun i s => ⟨fun h => ?_, exec_illFormed i s⟩, fun i s t => exec_pending, fun s t => step_pending⟩
  obtain ⟨t, ht, -⟩ := exec_leavesQueue i s h
  exact ⟨t, ht⟩

end Sys2Proof.Machine
end

/-! # The state right after power-on -/
section
namespace Sys2Proof.Machine

/-- Settles O3: every clause is read off the state of reset. -/
theorem resetState : Obligations.ResetState := by
  unfold Obligations.ResetState
  exact ⟨⟨fun _ => rfl, fun _ => rfl, rfl, rfl, rfl, rfl, rfl⟩, rfl⟩

end Sys2Proof.Machine
end

/-! # Release of reset and OTP sensing -/
section
namespace Sys2Proof.Machine

/-! ## The release of reset (R1, R2) -/

/-- `t` is `s` but for the registers of the measurement block, the modulators and the meters. -/
structure State.MeasOnly (s t : State) : Prop where
  regs : ∀ k, blockOf k ≠ 9 → t.reg k = s.reg k
  rest : t = { s with regs := t.regs, modl := t.modl, meter := t.meter }

theorem State.MeasOnly.refl (s : State) : s.MeasOnly s := ⟨fun _ _ => rfl, rfl⟩

theorem State.MeasOnly.trans {s t u : State} (h : s.MeasOnly t) (g : t.MeasOnly u) : s.MeasOnly u :=
  ⟨fun k hk => (g.regs k hk).trans (h.regs k hk), by rw [g.rest, h.rest]⟩

theorem State.MeasOnly.phase {s t : State} (h : s.MeasOnly t) : t.phase = s.phase := by rw [h.rest]
theorem State.MeasOnly.now {s t : State} (h : s.MeasOnly t) : t.now = s.now := by rw [h.rest]
theorem State.MeasOnly.senseEnd {s t : State} (h : s.MeasOnly t) : t.senseEnd = s.senseEnd := by rw [h.rest]

theorem State.MeasOnly.setReg (s : State) {k : Nat} (hk : blockOf k = 9) (w : Word) : s.MeasOnly (s.setReg k w) :=
  ⟨fun _ hj => s.reg_setReg_ne (fun e => hj (by rw [e, hk])) w, rfl⟩

theorem State.MeasOnly.put (s : State) (f : Fld) (v i : Nat) (hf : blockOf (f.addr i) = 9) : s.MeasOnly (s.put f v i) :=
  .setReg s hf _

theorem State.MeasOnly.setMd (s : State) (m : Nat) (x : ModSt) : s.MeasOnly (s.setMd m x) := ⟨fun _ _ => rfl, rfl⟩

theorem State.MeasOnly.setMtr (s : State) (k : Nat) (x : MeterSt) : s.MeasOnly (s.setMtr k x) := ⟨fun _ _ => rfl, rfl⟩

theorem State.MeasOnly.foldl {α : Type} (f : State → α → State) (h : ∀ (s : State) (a : α), s.MeasOnly (f s a))
    (l : List α) (s : State) : s.MeasOnly (l.foldl f s) := by
  induction l generalizing s with
  | nil => exact .refl s
  | cons a l ih => exact (h s a).trans (ih _)

theorem blockOf_meterGap (k : Fin 16) : blockOf (F.MEAS_METERk_STAT_GAP.addr k) = 9 := by revert k; decide

theorem blockOf_measStat (m : Fin 4) : blockOf (F.MEASm_STAT.addr m) = 9 := by revert m; decide

theorem blockOf_measValid (m : Fin 4) : blockOf (F.MEASm_VALID.addr m) = 9 := by revert m; decide

theorem State.entryInterrupt_measOnly (m e : Nat) (s : State) : s.MeasOnly (s.entryInterrupt m e) := by
  unfold State.entryInterrupt
  dsimp only
  split
  · next h =>
    unfold State.meterInterrupt
    split
    · exact .refl s
    · exact (State.MeasOnly.put s _ _ _ (blockOf_meterGap ⟨_, h.2⟩)).trans (.setMtr _ _ _)
  · exact .refl s

theorem State.urgentDrop_measOnly (m : Fin 4) (s : State) : s.MeasOnly (s.urgentDrop m) := by
  unfold State.urgentDrop
  dsimp only
  split
  · exact ((State.MeasOnly.put s F.MEASm_STAT_URG_PEND _ _ (blockOf_measStat m)).trans
      (.put _ F.MEASm_STAT_URG_BUSY _ _ (blockOf_measStat m))).trans (.setMd _ _ _)
  · exact .setMd _ _ _

theorem State.measStop_measOnly (m : Fin 4) (s : State) : s.MeasOnly (s.measStop m) :=
  ((((s.urgentDrop_measOnly m).trans (.put _ F.MEASm_STAT_RUN _ _ (blockOf_measStat m))).trans
    (.setReg _ (blockOf_measValid m) _)).trans
    (.foldl _ (fun s e => s.entryInterrupt_measOnly m e) _ _)).trans (.setMd _ _ _)

theorem State.measHeld_measOnly (s : State) : s.MeasOnly s.measHeld := by
  unfold State.measHeld
  split
  · exact (s.measStop_measOnly 2).trans (State.measStop_measOnly 3 _)
  · exact .refl s

theorem State.on_putB_same (s : State) (f : Fld) (b : Bool) (i : Nat) (h : f.lo + f.width ≤ 32) (hw : f.width = 1) :
    (s.putB f b i).on f i = b := by
  rw [State.putB, State.on_put_same _ _ _ _ h, hw]
  cases b <;> rfl

theorem State.get_putB_disj (s : State) (f g : Fld) (b : Bool) (i j : Nat)
    (h : g.lo + g.width ≤ f.lo ∨ f.lo + f.width ≤ g.lo) (h' : g.lo + g.width ≤ 32) : (s.putB f b i).get g j = s.get g j :=
  s.get_put_disj f g _ i j h h'

theorem State.get_putB_ne (s : State) (f g : Fld) (b : Bool) (i j : Nat) (h : g.addr j ≠ f.addr i) :
    (s.putB f b i).get g j = s.get g j := s.get_put_ne f g _ i j h

theorem State.reg_putB_ne (s : State) {f : Fld} {i k : Nat} (h : k ≠ f.addr i) (b : Bool) : (s.putB f b i).reg k = s.reg k :=
  s.reg_put_ne h _

theorem State.get_eq_of_reg {s t : State} {f : Fld} {i : Nat} (h : t.reg (f.addr i) = s.reg (f.addr i)) :
    t.get f i = s.get f i := by
  rw [State.get, h, State.get]

theorem State.on_eq_of_reg {s t : State} {f : Fld} {i : Nat} (h : t.reg (f.addr i) = s.reg (f.addr i)) :
    t.on f i = s.on f i := by
  rw [State.on, State.get_eq_of_reg h, State.on]

/-- The release up to the straps: OTP sensing has begun, and what the straps and the supply set is shown. -/
def State.strapsSampled (worker testEn : Bool) (s : State) : State :=
  let s := { s with now := max s.now s.rstHold, rstHold := 0 }.senseStart
  let s := { s with scrub := { last := s.now, lapStart := s.now } }
  let s := ((s.putB F.SYS_DOM_STAT_ROLE worker).putB F.SYS_RST_STAT_TEST_EN testEn).putB F.TEST_STAT_ENABLED testEn
  s.putB F.SYS_DOM_STAT_LINK_HELD (worker && s.get F.SYS_DOM_STAT_VCC5_SRC != 0)

/-- What the link unit does at the release: a manager injects the phantom and has number 0, both ports listen. -/
def State.linkReleased (worker : Bool) (s : State) : State :=
  (if worker then s
   else ((s.put F.LINK_PH_CTRL_INJ_A 1).put F.LINK_PH_CTRL_INJ_B 1).put F.HIER_STAT_DEV_SRC 3).portsListen.showPhantom

theorem State.release_eq (s : State) (worker testEn : Bool) (h : s.phase = .inReset) (hp : s.path ≠ ppOff) :
    s.release worker testEn = ((s.strapsSampled worker testEn).measHeld).linkReleased worker := by
  have awake : (s.phase != .inReset || s.path == ppOff) = false := by simp [h, hp]
  unfold State.release
  rw [awake]
  rfl

@[simp] theorem State.linkReleased_phase (worker : Bool) (s : State) : (s.linkReleased worker).phase = s.phase := by
  cases worker <;> simp [State.linkReleased, State.showPhantom, State.portsListen, State.putB, State.setPort]
@[simp] theorem State.linkReleased_now (worker : Bool) (s : State) : (s.linkReleased worker).now = s.now := by
  cases worker <;> simp [State.linkReleased, State.showPhantom, State.portsListen, State.putB, State.setPort]
@[simp] theorem State.linkReleased_senseEnd (worker : Bool) (s : State) : (s.linkReleased worker).senseEnd = s.senseEnd := by
  cases worker <;> simp [State.linkReleased, State.showPhantom, State.portsListen, State.putB, State.setPort]
@[simp] theorem State.linkReleased_md (worker : Bool) (s : State) (n : Nat) : (s.linkReleased worker).md n = s.md n := by
  cases worker <;> simp [State.linkReleased, State.showPhantom, State.portsListen, State.putB, State.setPort, State.md]

/-- The link unit's registers that the release may set. -/
def linkReleaseRegs : List Nat := [F.LINK_PH_CTRL.base, F.LINK_PH_STAT.base, F.HIER_STAT.base]

theorem State.reg_portsListen (s : State) (k : Nat) : s.portsListen.reg k = s.reg k := rfl

theorem State.reg_linkReleased (worker : Bool) (s : State) {k : Nat} (hk : k ∉ linkReleaseRegs) :
    (s.linkReleased worker).reg k = s.reg k := by
  simp only [linkReleaseRegs, List.mem_cons, List.not_mem_nil, or_false, not_or] at hk
  obtain ⟨hc, hs, hh⟩ := hk
  unfold State.linkReleased State.showPhantom
  rw [State.reg_putB_ne _ hs, State.reg_putB_ne _ hs, State.reg_portsListen]
  split
  · rfl
  · rw [State.reg_put_ne _ hh, State.reg_put_ne _ hc, State.reg_put_ne _ hc]

theorem State.reg_strapsSampled (worker testEn : Bool) (s : State) {k : Nat}
    (hk : k ∉ [F.SYS_DOM_STAT.base, F.SYS_RST_STAT.base, F.TEST_STAT.base]) :
    (s.strapsSampled worker testEn).reg k = s.reg k := by
  simp only [List.mem_cons, List.not_mem_nil, or_false, not_or] at hk
  obtain ⟨hd, hr, ht⟩ := hk
  unfold State.strapsSampled
  dsimp only
  rw [State.reg_putB_ne _ hd, State.reg_putB_ne _ ht, State.reg_putB_ne _ hr, State.reg_putB_ne _ hd]
  rfl

theorem State.role_strapsSampled (worker testEn : Bool) (s : State) :
    (s.strapsSampled worker testEn).on F.SYS_DOM_STAT_ROLE = worker := by
  unfold State.strapsSampled
  dsimp only
  rw [State.on, State.get_putB_disj _ _ _ _ _ _ (by decide) (by decide), State.get_putB_ne _ _ _ _ _ _ (by decide),
    State.get_putB_ne _ _ _ _ _ _ (by decide)]
  exact State.on_putB_same _ _ _ _ (by decide) rfl

theorem State.testEn_strapsSampled (worker testEn : Bool) (s : State) :
    (s.strapsSampled worker testEn).on F.SYS_RST_STAT_TEST_EN = testEn := by
  unfold State.strapsSampled
  dsimp only
  rw [State.on, State.get_putB_ne _ _ _ _ _ _ (by decide), State.get_putB_ne _ _ _ _ _ _ (by decide)]
  exact State.on_putB_same _ _ _ _ (by decide) rfl

theorem State.linkHeld_strapsSampled (worker testEn : Bool) (s : State) :
    (s.strapsSampled worker testEn).on F.SYS_DOM_STAT_LINK_HELD =
      (worker && decide (s.get F.SYS_DOM_STAT_VCC5_SRC ≠ 0)) := by
  unfold State.strapsSampled
  dsimp only
  rw [State.on_putB_same _ _ _ _ (by decide) rfl, State.get_putB_ne _ _ _ _ _ _ (by decide),
    State.get_putB_ne _ _ _ _ _ _ (by decide), State.get_putB_disj _ _ _ _ _ _ (by decide) (by decide)]
  exact congrArg (worker && ·) (Bool.eq_iff_iff.mpr (by simp; rfl))

/-! The modulators through the release: a link-held worker stops 2 and 3 (R24). -/

theorem State.md_setMd (s : State) (m n : Nat) (x : ModSt) : (s.setMd m x).md n = if n = m ∧ m < 4 then x else s.md n :=
  tget_tset s.modl m n x

theorem State.md_entryInterrupt (m e n : Nat) (s : State) : (s.entryInterrupt m e).md n = s.md n := by
  unfold State.entryInterrupt State.meterInterrupt
  dsimp only
  split
  · split <;> rfl
  · rfl

theorem State.md_urgentDrop_ne {m n : Nat} (h : n ≠ m) (s : State) : (s.urgentDrop m).md n = s.md n := by
  unfold State.urgentDrop
  dsimp only
  rw [State.md_setMd, if_neg (fun e => h e.1)]
  split <;> rfl

theorem State.md_measStop_ne {m n : Nat} (h : n ≠ m) (s : State) : (s.measStop m).md n = s.md n := by
  have interrupts : ∀ (l : List Nat) (s : State), (l.foldl (fun s e => s.entryInterrupt m e) s).md n = s.md n := by
    intro l
    induction l with
    | nil => intro s; rfl
    | cons e l ih => intro s; rw [List.foldl_cons, ih, State.md_entryInterrupt]
  unfold State.measStop
  dsimp only
  rw [State.md_setMd, if_neg (fun e => h e.1), interrupts]
  exact s.md_urgentDrop_ne h

theorem State.stopped_measStop (m : Fin 4) (s : State) : ((s.measStop m).md m).stopped = true := by
  unfold State.measStop
  dsimp only
  rw [State.md_setMd, if_pos ⟨rfl, m.isLt⟩]

theorem State.stopped_measHeld (s : State) (h : s.on F.SYS_DOM_STAT_LINK_HELD = true) :
    (s.measHeld.md 2).stopped = true ∧ (s.measHeld.md 3).stopped = true := by
  rw [State.measHeld, if_pos h]
  exact ⟨by rw [State.md_measStop_ne (by decide)]; exact s.stopped_measStop 2, State.stopped_measStop 3 _⟩

theorem release_completes (s : State) (worker testEn : Bool) (h : s.phase = .inReset) (hp : s.path ≠ ppOff) :
    Completes (.resetRelease worker testEn) s (fun u =>
      u.phase = .sensing ∧ u.on F.SYS_DOM_STAT_ROLE = worker ∧ u.on F.SYS_RST_STAT_TEST_EN = testEn ∧
        u.now = max s.now s.rstHold ∧ u.senseEnd = u.now + 8000 ∧
        (∀ k, k ∉ [F.SYS_DOM_STAT.base, F.SYS_RST_STAT.base, F.TEST_STAT.base,
          F.LINK_PH_CTRL.base, F.LINK_PH_STAT.base, F.HIER_STAT.base] →
          (worker = true → blockOf k ≠ 9) → u.reg k = s.reg k) ∧
        (u.on F.SYS_DOM_STAT_LINK_HELD = (worker && decide (s.get F.SYS_DOM_STAT_VCC5_SRC ≠ 0))) ∧
        (u.on F.SYS_DOM_STAT_LINK_HELD = true → (u.md 2).stopped = true ∧ (u.md 3).stopped = true)) := by
  refine ⟨s.release worker testEn, rfl, ?_⟩
  rw [s.release_eq worker testEn h hp]
  set r := s.strapsSampled worker testEn with hr
  have held := r.measHeld_measOnly
  have same : ∀ f : Fld, f.addr 0 ∉ linkReleaseRegs → blockOf (f.addr 0) ≠ 9 →
      (r.measHeld.linkReleased worker).on f = r.on f := fun f hf hb =>
    State.on_eq_of_reg ((State.reg_linkReleased _ _ hf).trans (held.regs _ hb))
  have heldOn := s.linkHeld_strapsSampled worker testEn
  refine ⟨?_, ?_, ?_, ?_, ?_, fun k hk hw => ?_, ?_, fun on => ?_⟩
  · rw [State.linkReleased_phase, held.phase]; rfl
  · rw [same _ (by decide) (by decide)]; exact s.role_strapsSampled _ _
  · rw [same _ (by decide) (by decide)]; exact s.testEn_strapsSampled _ _
  · rw [State.linkReleased_now, held.now]; rfl
  · rw [State.linkReleased_senseEnd, State.linkReleased_now, held.senseEnd, held.now]; rfl
  · have kept : r.measHeld.reg k = r.reg k := by
      cases worker with
      | true => exact held.regs k (hw rfl)
      | false => rw [State.measHeld, if_neg (by simp [r, heldOn])]
    simp only [List.mem_cons, List.not_mem_nil, or_false, not_or] at hk
    obtain ⟨hd, hr, ht, hc, hs, hh⟩ := hk
    rw [State.reg_linkReleased _ _ (by simp [linkReleaseRegs, hc, hs, hh]), kept,
      State.reg_strapsSampled _ _ _ (by simp [hd, hr, ht])]
  · rw [same _ (by decide) (by decide)]; exact heldOn
  · rw [same _ (by decide) (by decide)] at on
    rw [State.linkReleased_md, State.linkReleased_md]
    exact r.stopped_measHeld on

/-! ## The end of OTP sensing (R425, R426, R489) -/

/-- `t` is `s` but for registers outside `ks`, events, the modulators and the meters. -/
structure State.ShowsOutside (ks : List Nat) (s t : State) : Prop where
  regs : ∀ k ∈ ks, t.reg k = s.reg k
  rest : t = { s with regs := t.regs, events := t.events, modl := t.modl, meter := t.meter }

namespace State.ShowsOutside

variable {ks : List Nat} {s t u : State}

theorem refl (s : State) : s.ShowsOutside ks s := ⟨fun _ _ => rfl, rfl⟩

theorem trans (h : s.ShowsOutside ks t) (g : t.ShowsOutside ks u) : s.ShowsOutside ks u :=
  ⟨fun k hk => (g.regs k hk).trans (h.regs k hk), by rw [g.rest, h.rest]⟩

theorem setReg (s : State) {k : Nat} (hk : k ∉ ks) (w : Word) : s.ShowsOutside ks (s.setReg k w) :=
  ⟨fun _ hj => s.reg_setReg_ne (fun e => hk (by rw [← e]; exact hj)) w, rfl⟩

theorem put (s : State) (f : Fld) (v : Nat) {i : Nat} (hf : f.addr i ∉ ks) : s.ShowsOutside ks (s.put f v i) := setReg s hf _

theorem raise (s : State) (cls ev obj : Nat) (d : Word) (dev : Option Nat) : s.ShowsOutside ks (s.raise cls ev obj d dev) :=
  ⟨fun k _ => s.reg_raise _ _ _ _ _ k, by rw [State.raise_eq]⟩

theorem foldl {α : Type} (f : State → α → State) (l : List α)
    (h : ∀ (s : State), ∀ a ∈ l, s.ShowsOutside ks (f s a)) (s : State) : s.ShowsOutside ks (l.foldl f s) := by
  induction l generalizing s with
  | nil => exact refl s
  | cons a l ih => exact (h s a (by simp)).trans (ih (fun s b hb => h s b (by simp [hb])) _)

theorem ite (c : Prop) [Decidable c] {a b : State} (ha : s.ShowsOutside ks a) (hb : s.ShowsOutside ks b) :
    s.ShowsOutside ks (if c then a else b) := by split <;> assumption

theorem ofMeas (h : s.MeasOnly t) (hk : ∀ k ∈ ks, blockOf k ≠ 9) : s.ShowsOutside ks t :=
  ⟨fun k hm => h.regs k (hk k hm), by rw [h.rest]⟩

theorem phase (h : s.ShowsOutside ks t) : t.phase = s.phase := by rw [h.rest]
theorem collector (h : s.ShowsOutside ks t) : t.collector = s.collector := by rw [h.rest]
theorem otp (h : s.ShowsOutside ks t) : t.otp = s.otp := by rw [h.rest]
theorem otpShadow (h : s.ShowsOutside ks t) : t.otpShadow = s.otpShadow := by rw [h.rest]
theorem otpLocks (h : s.ShowsOutside ks t) : t.otpLocks = s.otpLocks := by rw [h.rest]

end State.ShowsOutside

/-- The registers in which OTP sensing shows how it ended. -/
def sensedRegs : List Nat := [F.OTP_STAT.base, F.SYS_RST_STAT.base]

/-- The cells that sensing finds programmed. -/
def State.cellsAfter (cells : List (Nat × Word)) (s : State) : SMap :=
  cells.foldl (fun m c => SMap.set otpDefault m c.1 (SMap.get otpDefault m c.1 ||| c.2)) s.otp

/-- Sensing up to the check of the regions: cells, shadow and locks are taken over and shown. -/
def State.cellsSensed (cells : List (Nat × Word)) (locks : BitVec 32) (s : State) : State :=
  { s with otp := s.cellsAfter cells, otpShadow := s.cellsAfter cells, otpLocks := s.otpLocks ||| locks }.showOtp

/-- The regions that fail their check. -/
def State.badRegions (otp : SMap) (s : State) : List Nat := (List.range 8).filter (fun r => !s.regionOk otp r)

/-- What the checks show: SENSED, the regions that failed, and whether the restrictive defaults hold. -/
def State.checksShown (bad : List Nat) (s : State) : State :=
  let s := (s.put F.OTP_STAT_SENSED 1).put F.OTP_STAT_CHKFAIL (bad.foldl (fun m r => m + 2 ^ r) 0)
  if bad.isEmpty then s else s.put F.SYS_RST_STAT_RDEF 1

/-- The device runs, its fault collector with it. -/
def State.started (s : State) : State := { s with collector := true, phase := .running }

@[simp] theorem State.reg_started (s : State) (k : Nat) : s.started.reg k = s.reg k := rfl
@[simp] theorem State.started_otp (s : State) : s.started.otp = s.otp := rfl
@[simp] theorem State.started_otpShadow (s : State) : s.started.otpShadow = s.otpShadow := rfl
@[simp] theorem State.started_otpLocks (s : State) : s.started.otpLocks = s.otpLocks := rfl

/-- The device runs: its identity is taken, the collector has begun and takes what is to be recorded, a link-held worker's
modulators 2 and 3 stand. -/
def State.deviceRuns (bad : List Nat) (s : State) : State :=
  let s := s.takeIdentity.started
  let s := (bad.foldl (fun s r => s.raise 13 3 r) s).keepFlags
  if s.on F.SYS_DOM_STAT_LINK_HELD then (s.raiseReg 9 1 0 F.SYS_DOM_STAT).measHeld else s

/-- The image sources are tried from slot A on, or the restrictive defaults hold. -/
def State.sourcesOpen (s : State) : State :=
  if s.on F.SYS_RST_STAT_RDEF then
    let s := (List.range 2).foldl (fun s p => s.put F.LINK_PORT_STAT_STATE portDownSt p) s
    (s.put F.CAL_STAT_STATE calRestrict).showPhantom
  else { s with load := { s.load with nextSrc := 1 } }

theorem State.showOtp_shows (s : State) : s.ShowsOutside [F.SYS_RST_STAT.base] s.showOtp :=
  ((State.ShowsOutside.foldl _ _ (fun s k hk => .put s _ _ (by
    have := List.mem_range.mp hk
    simp [F.OTP_CTR_COUNT, F.SYS_RST_STAT, Fld.addr]
    omega)) s).trans
    (.put _ F.OTP_STAT_WLOCK _ (by decide))).trans (.put _ F.OTP_STAT_RLOCK _ (by decide))

theorem State.cellsSensed_cells (cells : List (Nat × Word)) (locks : BitVec 32) (s : State) :
    (s.cellsSensed cells locks).otp = s.cellsAfter cells ∧ (s.cellsSensed cells locks).otpShadow = s.cellsAfter cells ∧
      (s.cellsSensed cells locks).otpLocks = s.otpLocks ||| locks :=
  have shown := State.showOtp_shows { s with
    otp := s.cellsAfter cells, otpShadow := s.cellsAfter cells, otpLocks := s.otpLocks ||| locks }
  ⟨shown.otp, shown.otpShadow, shown.otpLocks⟩

theorem State.otpSensed_eq (cells : List (Nat × Word)) (locks : BitVec 32) (s : State) (h : s.phase = .sensing) :
    let c := s.cellsSensed cells locks
    let bad := c.badRegions (s.cellsAfter cells)
    s.otpSensed cells locks = ((c.checksShown bad).deviceRuns bad).sourcesOpen := by
  have sensing : (s.phase != .sensing) = false := by simp [h]
  unfold State.otpSensed
  rw [sensing]
  rfl

theorem State.checksShown_cells (bad : List Nat) (s : State) : (s.checksShown bad).otp = s.otp ∧
    (s.checksShown bad).otpShadow = s.otpShadow ∧ (s.checksShown bad).otpLocks = s.otpLocks := by
  unfold State.checksShown
  dsimp only
  split <;> exact ⟨rfl, rfl, rfl⟩

theorem State.checksShown_sensed (bad : List Nat) (s : State) : (s.checksShown bad).on F.OTP_STAT_SENSED = true := by
  have shown : ((s.put F.OTP_STAT_SENSED 1).put F.OTP_STAT_CHKFAIL (bad.foldl (fun m r => m + 2 ^ r) 0)).on
      F.OTP_STAT_SENSED = true := by
    rw [State.on, State.get_put_disj _ _ _ _ _ _ (by decide) (by decide), State.get_put_same _ _ _ _ (by decide)]
    rfl
  unfold State.checksShown
  dsimp only
  split
  · exact shown
  · rw [State.on, State.get_put_ne _ _ _ _ _ _ (by decide)]
    exact shown

theorem State.checksShown_failed (bad : List Nat) (s : State) (h : (s.checksShown bad).get F.OTP_STAT_CHKFAIL ≠ 0) :
    (s.checksShown bad).on F.SYS_RST_STAT_RDEF = true := by
  unfold State.checksShown at h ⊢
  cases bad with
  | nil => exact absurd (State.get_put_same _ _ _ _ (by decide)) h
  | cons r bad => exact State.on_put_same _ _ _ _ (by decide)

theorem State.takeIdentity_shows (s : State) : s.ShowsOutside sensedRegs s.takeIdentity := by
  unfold State.takeIdentity
  dsimp only
  refine .trans (.trans (.trans (.ite _
    (.trans (.put _ F.HIER_STAT_DEV _ (by decide)) (.put _ F.HIER_STAT_DEV_SRC _ (by decide)))
    (.refl s)) (.put _ F.HOST_ADDR_ADDR0 _ (by decide))) (.put _ F.HOST_ADDR_EN0 _ (by decide)))
    (.foldl _ _ (fun s n hn => .setReg s ?_ _) _)
  have := List.mem_range.mp hn
  simp [sensedRegs, F.THM_NODEn_P0, F.OTP_STAT, F.SYS_RST_STAT, Fld.addr]
  omega

theorem State.keepFlags_shows (s : State) : s.ShowsOutside sensedRegs s.keepFlags := by
  unfold State.keepFlags State.raiseReg
  dsimp only
  exact .trans (.trans (.ite _ (.raise _ _ _ _ _ _) (.refl _)) (.ite _ (.raise _ _ _ _ _ _) (.refl _)))
    (.ite _ (.raise _ _ _ _ _ _) (.refl _))

theorem State.deviceRuns_shows (bad : List Nat) (s : State) :
    s.takeIdentity.started.ShowsOutside sensedRegs (s.deviceRuns bad) :=
  .trans (.trans (.foldl _ bad (fun s r _ => .raise s 13 3 r _ _) _) (State.keepFlags_shows _))
    (.ite _ (.trans (.raise _ _ _ _ _ _) (.ofMeas (State.measHeld_measOnly _) (by decide))) (.refl _))

/-- The registers that show how sensing ended, and the cells, through the start of the device. -/
theorem State.deviceRuns_keeps (bad : List Nat) (s : State) : (∀ k ∈ sensedRegs, (s.deviceRuns bad).reg k = s.reg k) ∧
    (s.deviceRuns bad).otp = s.otp ∧ (s.deviceRuns bad).otpShadow = s.otpShadow ∧
    (s.deviceRuns bad).otpLocks = s.otpLocks := by
  have taken := s.takeIdentity_shows
  have runs := s.deviceRuns_shows bad
  refine ⟨fun k hk => ?_, ?_, ?_, ?_⟩
  · rw [runs.regs k hk, State.reg_started, taken.regs k hk]
  · rw [runs.otp, State.started_otp, taken.otp]
  · rw [runs.otpShadow, State.started_otpShadow, taken.otpShadow]
  · rw [runs.otpLocks, State.started_otpLocks, taken.otpLocks]

theorem State.deviceRuns_running (bad : List Nat) (s : State) :
    (s.deviceRuns bad).phase = .running ∧ (s.deviceRuns bad).collector = true :=
  ⟨(s.deviceRuns_shows bad).phase, (s.deviceRuns_shows bad).collector⟩

theorem State.sourcesOpen_defaults (s : State) (h : s.on F.SYS_RST_STAT_RDEF = true) :
    s.ShowsOutside sensedRegs s.sourcesOpen ∧ s.sourcesOpen.calState = calRestrict := by
  unfold State.sourcesOpen
  rw [if_pos h]
  refine ⟨?_, ?_⟩
  · refine .trans (.trans (.foldl _ _ (fun s p hp => .put s F.LINK_PORT_STAT_STATE _ ?_) _)
      (.put _ F.CAL_STAT_STATE _ (by decide))) (.trans
      (.put _ F.LINK_PH_STAT_ON_A _ (by decide)) (.put _ F.LINK_PH_STAT_ON_B _ (by decide)))
    have := List.mem_range.mp hp
    simp [sensedRegs, F.LINK_PORT_STAT_STATE, F.OTP_STAT, F.SYS_RST_STAT, Fld.addr]
    omega
  · unfold State.calState State.showPhantom
    rw [State.get_putB_ne _ _ _ _ _ _ (by decide), State.get_putB_ne _ _ _ _ _ _ (by decide),
      State.get_put_same _ _ _ _ (by decide)]
    rfl

theorem State.sourcesOpen_tried (s : State) (h : s.on F.SYS_RST_STAT_RDEF = false) :
    s.sourcesOpen = { s with load := { s.load with nextSrc := 1 } } := by
  rw [State.sourcesOpen, if_neg (by simp [h])]

theorem State.sourcesOpen_keeps (s : State) : (∀ k ∈ sensedRegs, s.sourcesOpen.reg k = s.reg k) ∧
    s.sourcesOpen.phase = s.phase ∧ s.sourcesOpen.collector = s.collector ∧ s.sourcesOpen.otp = s.otp ∧
    s.sourcesOpen.otpShadow = s.otpShadow ∧ s.sourcesOpen.otpLocks = s.otpLocks := by
  cases h : s.on F.SYS_RST_STAT_RDEF with
  | true =>
    have shows := (s.sourcesOpen_defaults h).1
    exact ⟨shows.regs, shows.phase, shows.collector, shows.otp, shows.otpShadow, shows.otpLocks⟩
  | false => rw [s.sourcesOpen_tried h]; exact ⟨fun _ _ => rfl, rfl, rfl, rfl, rfl, rfl⟩

theorem otpSensed_ends (s : State) (cells : List (Nat × Word)) (locks : BitVec 32) (h : s.phase = .sensing) :
    let u := s.otpSensed cells locks
    u.phase = .running ∧ u.collector = true ∧ u.on F.OTP_STAT_SENSED = true ∧ u.otpShadow = u.otp ∧
      u.otpLocks = s.otpLocks ||| locks ∧
      (u.on F.SYS_RST_STAT_RDEF = true → u.calState = calRestrict) ∧
      (u.on F.SYS_RST_STAT_RDEF = false → u.load.nextSrc = 1) ∧
      (u.get F.OTP_STAT_CHKFAIL ≠ 0 → u.on F.SYS_RST_STAT_RDEF = true) := by
  intro u
  obtain ⟨otp, shadow, locked⟩ := s.cellsSensed_cells cells locks
  set bad := (s.cellsSensed cells locks).badRegions (s.cellsAfter cells) with hbad
  set c := (s.cellsSensed cells locks).checksShown bad with hc
  obtain ⟨cOtp, cShadow, cLocks⟩ := (s.cellsSensed cells locks).checksShown_cells bad
  obtain ⟨rRegs, rOtp, rShadow, rLocks⟩ := c.deviceRuns_keeps bad
  obtain ⟨rPhase, rColl⟩ := c.deviceRuns_running bad
  obtain ⟨uRegs, uPhase, uColl, uOtp, uShadow, uLocks⟩ := (c.deviceRuns bad).sourcesOpen_keeps
  have hu : u = (c.deviceRuns bad).sourcesOpen := s.otpSensed_eq cells locks h
  have reg : ∀ k ∈ sensedRegs, u.reg k = c.reg k := fun k hk => by rw [hu, uRegs k hk, rRegs k hk]
  have rdef : u.on F.SYS_RST_STAT_RDEF = (c.deviceRuns bad).on F.SYS_RST_STAT_RDEF := by
    rw [hu]; exact State.on_eq_of_reg (uRegs _ (by decide))
  refine ⟨?_, ?_, ?_, ?_, ?_, fun on => ?_, fun off => ?_, fun fail => ?_⟩
  · rw [hu, uPhase, rPhase]
  · rw [hu, uColl, rColl]
  · rw [State.on_eq_of_reg (reg _ (by decide))]; exact State.checksShown_sensed _ _
  · rw [hu, uShadow, uOtp, rShadow, rOtp, cShadow, cOtp, shadow, otp]
  · rw [hu, uLocks, rLocks, cLocks, locked]
  · rw [hu]; exact (State.sourcesOpen_defaults _ (rdef ▸ on)).2
  · rw [hu, State.sourcesOpen_tried _ (rdef ▸ off)]
  · rw [State.get_eq_of_reg (reg _ (by decide))] at fail
    rw [State.on_eq_of_reg (reg _ (by decide))]
    exact State.checksShown_failed _ _ fail

/-- Settles O5: `release_completes` is its first clause, `otpSensed_ends` its last; the time of sensing stands
between them. -/
theorem releaseAndSensing : Obligations.ReleaseAndSensing := by
  unfold Obligations.ReleaseAndSensing
  refine ⟨release_completes, fun s cells locks h => ⟨s, ?_, rfl⟩, fun s cells locks h => comes_intro ?_,
    otpSensed_ends⟩
  · exact congrArg done (if_neg h)
  · exact congrArg done (if_pos h)

end Sys2Proof.Machine
end

/-! # Time that passes (R19, R72) -/

section
namespace Sys2Proof.Machine

/-- A step with no command waiting, and nothing else under way, is the next cycle (log entry 3). -/
theorem State.idle_quiet (s : State) (h : s.Quiet) : s.NextCycle s.idle := by
  have start := s.cycleStart_quiet h.due h.events h.line h.burst
  have waits : s.cycleStart.reactions.waiting = [] :=
    (s.aside_react h.due h.events h.line h.burst).same_waiting.trans h.waiting
  have settles : s.idle = (s.cycles 1).settle := by
    rw [← start]; exact s.cycleStart.reactCycle_settle waits
  have after := s.aside_cycles 1 h.due h.events
  rw [← settles] at after
  unfold State.NextCycle
  rw [after.same_occupied]
  exact after

theorem step_idle (s : State) (h : s.pending = []) : step s = .next s.idle := by
  unfold step; rw [h]

/-- Settles O9: time that is past by `passTo_past`, time to come by `aside_passTo`, the idle cycle by `idle_quiet`. -/
theorem timePasses : Obligations.TimePasses := by
  unfold Obligations.TimePasses
  exact ⟨State.passTo_past, State.aside_passTo, fun s h empty => ⟨s.idle, s.idle_quiet h, step_idle s empty⟩⟩

end Sys2Proof.Machine
end

/-! # A strike ID taken (R91) -/

section
namespace Sys2Proof.Machine

/-- The next strike number lies past the last, 16383; the ID of that number's remainder, 0, is open as 16384. -/
def strikePastLast : State :=
  { State.reset with strikeNext := 16384, strikeTaken := [(0, 2), (16384, 2)], openIds := [16384] }

theorem takeId_strikePastLast : strikePastLast.takeId.1 = 49152 := by decide +kernel

theorem idBusy_lastIdOf_strikePastLast :
    strikePastLast.idBusy (strikePastLast.lastIdOf (49152 % 16384)) = true := by decide +kernel

/-- Refutes O15: its last clause, over every state, meets one whose next strike number is past 16383. The ID it takes is
named by that number, and the clause looks up the last ID of the number's remainder. -/
theorem not_strikesLaunch : ¬ Obligations.StrikesLaunch := by
  unfold Obligations.StrikesLaunch
  rintro ⟨-, -, -, taken⟩
  rcases taken strikePastLast with none | ⟨-, -, free⟩
  · rw [takeId_strikePastLast] at none
    exact absurd none (by decide)
  · rw [takeId_strikePastLast, idBusy_lastIdOf_strikePastLast] at free
    exact absurd free (by decide)

end Sys2Proof.Machine
end

/-! # Fields that a fault reaction holds, or that a rail has taken (R31, R33, R247, R357) -/

section
namespace Sys2Proof.Machine

/-! ### What a store leaves of a bit outside its mask -/

theorem getLsbD_mergedWord (d : RegDef) (old w m : Word) (i : Nat) (h : m.getLsbD i = false) :
    (mergedWord d old w m).getLsbD i = old.getLsbD i := by
  unfold mergedWord
  simp only [BitVec.getLsbD_and, BitVec.getLsbD_or, BitVec.getLsbD_not, h, Bool.and_false, Bool.or_false,
    Bool.not_false, Bool.and_true]
  by_cases hi : i < 32
  · simp [hi]
  · simp [BitVec.getLsbD_of_ge old i (by omega)]

theorem bitsOf_one (w : Word) (lo : Nat) : bitsOf w lo 1 = (w.getLsbD lo).toNat := by
  refine Nat.eq_of_testBit_eq fun i => ?_
  rw [testBit_bitsOf]
  cases i with
  | zero => cases w.getLsbD lo <;> rfl
  | succ i => cases w.getLsbD lo <;> simp [Nat.testBit_succ]

/-- Every bit but ON: what a write that drops ON still reaches. -/
def allButOn : Word := 0xFFFFFFFE

/-! ### A write whose bit 0 is not let through -/

/-- No check of R13, R28, R144 or R237 refuses the whole word. -/
structure State.Writable (s : State) (p : Party) (a : Nat) (d : RegDef) (w : Word) : Prop where
  row : regDef a = some d
  writer : s.writerOk p a d = true
  code : s.reservedWord a (s.wouldBe p a w allBits) = false
  bound : s.engineBounded p a (s.wouldBe p a w allBits) = false

/-- A party that is closed out is closed out of bit 0 alone, and a held bit 0 counts as held. -/
theorem State.closedBits_free (s : State) (p : Party) (a : Nat) :
    s.closedBits p a &&& allBits &&& ~~~(1 &&& allBits) = 0 := by
  unfold State.closedBits
  split
  · split <;> decide
  · decide

theorem State.ownedStore_held {s : State} {p : Party} {a : Nat} {d : RegDef} {w : Word} (ok : s.Writable p a d w)
    (other : p ≠ .reaction) (held : s.heldBits a = 1) :
    s.ownedStore p a a w allBits = (s.arbDrop p a).store p a w allButOn := by
  unfold State.ownedStore
  simp only [ok.row, ok.writer, ok.code, ok.bound, other, held, if_false, Bool.not_true, Bool.or_self,
    Bool.false_eq_true, s.closedBits_free]
  rfl

theorem State.ownedStore_closed {s : State} {p : Party} {a : Nat} {d : RegDef} {w : Word} (ok : s.Writable p a d w)
    (free : s.heldBits a = 0) (closed : s.closedBits p a = 1) :
    s.ownedStore p a a w allBits = (s.notice p a).store p a w allButOn := by
  have none : (if p = .reaction then 0 else s.heldBits a &&& allBits) = 0 := by rw [free]; split <;> rfl
  unfold State.ownedStore
  simp only [ok.row, ok.writer, ok.code, ok.bound, none, closed, Bool.not_true, Bool.or_self, Bool.false_eq_true,
    if_false]
  rfl

/-! ### CHn_CTRL and SEQ_RAILn_CTRL -/

def chanCtrl : RegDef := ⟨0x3000, 0x40, 24, 0, 1, 0x00000001, 0, 0, 0, 0, false, false⟩
def railCtrl : RegDef := ⟨0x3840, 0x8, 64, 0, 1, 0x0000FF01, 0, 0, 0, 0, false, false⟩

theorem regDef_chanCtrl (n : Fin 24) : regDef (F.CHn_CTRL_ON.addr n) = some chanCtrl := by revert n; decide
theorem regDef_railCtrl (n : Fin 64) : regDef (F.SEQ_RAILn_CTRL_ON.addr n) = some railCtrl := by revert n; decide
theorem blockOf_chanCtrl (n : Fin 24) : blockOf (F.CHn_CTRL_ON.addr n) = 7 := by revert n; decide
theorem blockOf_railCtrl (n : Fin 64) : blockOf (F.SEQ_RAILn_CTRL_ON.addr n) = 8 := by revert n; decide

theorem chanCtrl_apart (n : Fin 24) : F.CHn_CTRL_ON.addr n ≠ F.SYS_ARB_DROP.base := by revert n; decide
theorem railCtrl_apart (n : Fin 64) : F.SEQ_RAILn_CTRL_ON.addr n ≠ F.SYS_ARB_DROP.base := by revert n; decide

theorem chanCtrl_addr (n : Fin 24) : F.CHn_CTRL_ON.addr n = 0x3000 + 0x40 * n.val := rfl
theorem railCtrl_addr (n : Fin 64) : F.SEQ_RAILn_CTRL_ON.addr n = 0x3840 + 8 * n.val := rfl

/-- A register of every device and of every party (R144, R175, R309). -/
theorem State.writerOk_all (s : State) (p : Party) {a : Nat} {d : RegDef} (own : d.managerOnly = false)
    (apart : a ≠ F.SEQ_CTRL.base ∧ ¬ (0x3B00 ≤ a ∧ a < 0x3C80) ∧ a ≠ F.SEQ_HOLD.base ∧
      a ≠ F.SEQ_HOLD.base + 1) :
    s.writerOk p a d = true := by
  obtain ⟨ctrl, mirror, hold, hold'⟩ := apart
  unfold State.writerOk
  rw [if_neg (by simp [own, ctrl]), if_neg (by simp only [mirror, hold, hold', or_self, not_false_eq_true])]

theorem State.chanOn_writable (s : State) (p : Party) (n : Fin 24) (w : Word) :
    s.Writable p (F.CHn_CTRL_ON.addr n) chanCtrl w where
  row := regDef_chanCtrl n
  writer := s.writerOk_all p rfl (by revert n; decide)
  code := by
    have ranges : rangesOf chanCtrl.base = [] := by decide
    have o : F.CHn_CTRL_ON.addr n % 0x40 = 0 := by have := chanCtrl_addr n; omega
    unfold State.reservedWord State.rulesOk
    simp only [regDef_chanCtrl, ranges, blockOf_chanCtrl, o]
    rfl
  bound := by simp [State.engineBounded, blockOf_chanCtrl]

theorem State.railOn_writable (s : State) (p : Party) (n : Fin 64) (w : Word)
    (code : s.reservedWord (F.SEQ_RAILn_CTRL_ON.addr n) (s.wouldBe p (F.SEQ_RAILn_CTRL_ON.addr n) w allBits) = false) :
    s.Writable p (F.SEQ_RAILn_CTRL_ON.addr n) railCtrl w where
  row := regDef_railCtrl n
  writer := s.writerOk_all p rfl (by clear code; revert n; decide)
  code := code
  bound := by simp [State.engineBounded, blockOf_railCtrl]

theorem State.heldBits_chanOn (s : State) (n : Fin 24) :
    s.heldBits (F.CHn_CTRL_ON.addr n) = if s.held (.chan n) then 1 else 0 := by
  have at' := chanCtrl_addr n
  have o : F.CHn_CTRL_ON.addr n % 0x40 = 0 := by omega
  have i : (F.CHn_CTRL_ON.addr n - 0x3000) / 0x40 = n := by omega
  unfold State.heldBits
  rw [if_pos ⟨blockOf_chanCtrl n, o⟩, i]

theorem State.heldBits_railOn (s : State) (n : Fin 64) :
    s.heldBits (F.SEQ_RAILn_CTRL_ON.addr n) = if s.held (.rail n) then 1 else 0 := by
  have at' := railCtrl_addr n
  have lt := n.isLt
  have i : (F.SEQ_RAILn_CTRL_ON.addr n - 0x3840) / 8 = n := by omega
  unfold State.heldBits
  rw [if_neg (by simp [blockOf_railCtrl]), if_pos (by omega), i]

theorem State.closedBits_chanOn {s : State} {p : Party} {n : Fin 24} (taken : s.railTargetsChan n = true)
    (seq : p ≠ .seq) (other : p ≠ .reaction) : s.closedBits p (F.CHn_CTRL_ON.addr n) = 1 := by
  have at' := chanCtrl_addr n
  have o : F.CHn_CTRL_ON.addr n % 0x40 = 0 := by omega
  have i : (F.CHn_CTRL_ON.addr n - 0x3000) / 0x40 = n := by omega
  unfold State.closedBits
  rw [if_pos ⟨blockOf_chanCtrl n, o, by rw [i]; exact taken⟩]
  split
  · exact absurd rfl seq
  · exact absurd rfl other
  · rfl

/-! ### The store leaves ON as it was -/

/-- `u` is `t` but for other bits of the register at `a` and for accesses that wait. -/
structure State.OnStays (a : Nat) (t u : State) : Prop where
  bit : (u.reg a).getLsbD 0 = (t.reg a).getLsbD 0
  regs : ∀ k, k ≠ a → u.reg k = t.reg k
  due : u.due = t.due

theorem State.OnStays.setReg (t : State) (a : Nat) (w : Word) (d : RegDef) :
    t.OnStays a (t.setReg a (mergedWord d (t.reg a) w allButOn)) where
  bit := by rw [State.reg_setReg_same]; exact getLsbD_mergedWord _ _ _ _ _ (by decide)
  regs _ hk := t.reg_setReg_ne hk _
  due := rfl

/-- No lock of R237 or R375 stands over the blocks CHAN and SEQ, and nothing is kept of their words before a write. -/
theorem State.store_free (t : State) (p : Party) {a : Nat} {d : RegDef} (w m : Word) (row : regDef a = some d)
    (own : d.banked = false) (here : 0x3000 ≤ a ∧ a < 0x4000) :
    t.store p a w m = (t.setReg a (mergedWord d (t.reg a) w m)).afterStore a (t.reg a) w m := by
  obtain ⟨lo, hi⟩ := here
  have block : blockOf a ≠ 5 ∧ blockOf a ≠ 6 := by unfold blockOf; grind
  have hier : F.HIER_CMT_TGT.base < 0x2000 := by decide
  have unlocked : t.writeLocked a = false := by
    unfold State.writeLocked
    rw [if_neg block.1, if_neg (by omega), if_neg (by omega), if_neg (by omega)]
  have before : t.beforeStore a = t := by
    unfold State.beforeStore
    rw [if_neg block.1, if_neg block.2, if_neg (by omega)]
  have key : bankKey d p a = a := by unfold bankKey; rw [own]; rfl
  unfold State.store
  simp only [row, unlocked, before, key, Bool.false_eq_true, if_false]

theorem State.afterStore_chan (s : State) {a : Nat} (old w m : Word) (h : blockOf a = 7) :
    s.afterStore a old w m = s.chanStored a m := by
  unfold State.afterStore
  rw [h]
  rfl

theorem State.afterStore_seq (s : State) {a : Nat} (old w m : Word) (h : blockOf a = 8) :
    s.afterStore a old w m = s.seqStored a m := by
  unfold State.afterStore
  rw [h]
  rfl

theorem State.store_chanCtrl (t : State) (p : Party) (n : Fin 24) (w : Word) :
    t.OnStays (F.CHn_CTRL_ON.addr n) (t.store p (F.CHn_CTRL_ON.addr n) w allButOn) := by
  have at' := chanCtrl_addr n
  rw [t.store_free p w allButOn (regDef_chanCtrl n) rfl (by omega), State.afterStore_chan _ _ _ _ (blockOf_chanCtrl n)]
  unfold State.chanStored
  rw [if_neg (by simp [bitOf, allButOn]), if_neg (by omega)]
  exact .setReg t _ w chanCtrl

theorem State.OnStays.seqStored {t u : State} {n : Fin 64} (h : t.OnStays (F.SEQ_RAILn_CTRL_ON.addr n) u) (m : Word) :
    t.OnStays (F.SEQ_RAILn_CTRL_ON.addr n) (u.seqStored (F.SEQ_RAILn_CTRL_ON.addr n) m) := by
  have at' := railCtrl_addr n
  have lt := n.isLt
  unfold State.seqStored State.marginForward
  rw [if_pos (by omega)]
  split_ifs
  · exact ⟨h.bit, h.regs, h.due⟩
  · exact h
  · exact h

theorem State.store_railCtrl (t : State) (p : Party) (n : Fin 64) (w : Word) :
    t.OnStays (F.SEQ_RAILn_CTRL_ON.addr n) (t.store p (F.SEQ_RAILn_CTRL_ON.addr n) w allButOn) := by
  have at' := railCtrl_addr n
  rw [t.store_free p w allButOn (regDef_railCtrl n) rfl (by omega), State.afterStore_seq _ _ _ _ (blockOf_railCtrl n)]
  exact (State.OnStays.setReg t _ w railCtrl).seqStored _

/-! ### What a dropped write shows (R31) -/

theorem State.on_of_onStays {t u : State} {f : Fld} {i : Nat} (h : t.OnStays (f.addr i) u) (lo : f.lo = 0)
    (width : f.width = 1) :
    u.on f i = t.on f i := by
  unfold State.on State.get
  rw [lo, width, bitsOf_one, bitsOf_one, h.bit]

/-- SYS_ARB_DROP names the writer and the address. -/
structure State.DropShown (p : Party) (a : Nat) (s t : State) : Prop where
  valid : t.on F.SYS_ARB_DROP_VALID = true
  writer : t.get F.SYS_ARB_DROP_WRITER = p.code
  addr : t.get F.SYS_ARB_DROP_ADDR = a
  regs : ∀ k, k ≠ F.SYS_ARB_DROP.base → t.reg k = s.reg k
  due : t.due = s.due

theorem partyCode_lt (p : Party) : p.code < 16 := by
  cases p <;> simp only [Party.code] <;> omega

theorem State.notice_due (s : State) (p : Party) (a : Nat) : (s.notice p a).due = s.due := by
  unfold State.notice; split <;> simp

theorem State.reg_notice (s : State) (p : Party) (a k : Nat) : (s.notice p a).reg k = s.reg k := by
  unfold State.notice; split <;> simp

theorem State.arbDrop_shown (s : State) (p : Party) (a : Nat) (h : a < 0x10000) : s.DropShown p a (s.arbDrop p a) where
  valid := by
    unfold State.arbDrop
    rw [State.on_eq_of_reg (State.reg_notice _ _ _ _)]
    unfold State.on State.bump
    rw [State.get_put_disj _ _ _ _ _ _ (by decide) (by decide), State.get_put_disj _ _ _ _ _ _ (by decide) (by decide),
      State.get_put_disj _ _ _ _ _ _ (by decide) (by decide), State.get_put_same _ _ _ _ (by decide)]
    rfl
  writer := by
    have lt := partyCode_lt p
    unfold State.arbDrop
    rw [State.get_eq_of_reg (State.reg_notice _ _ _ _), State.get_put_disj _ _ _ _ _ _ (by decide) (by decide),
      State.get_put_same _ _ _ _ (by decide)]
    exact Nat.mod_eq_of_lt lt
  addr := by
    unfold State.arbDrop
    rw [State.get_eq_of_reg (State.reg_notice _ _ _ _), State.get_put_same _ _ _ _ (by decide)]
    exact Nat.mod_eq_of_lt h
  regs k hk := by
    unfold State.arbDrop State.bump
    rw [State.reg_notice, State.reg_put_ne _ hk, State.reg_put_ne _ hk, State.reg_put_ne _ hk, State.reg_put_ne _ hk]
  due := by
    unfold State.arbDrop State.bump
    rw [State.notice_due]; rfl

/-- A write dropped at bit 0, field by field. -/
theorem State.DropShown.andStays {s t u : State} {p : Party} {f : Fld} {i : Nat} (shown : s.DropShown p (f.addr i) t)
    (stays : t.OnStays (f.addr i) u) (lo : f.lo = 0) (width : f.width = 1) (apart : f.addr i ≠ F.SYS_ARB_DROP.base) :
    u.on f i = s.on f i ∧ u.due = s.due ∧ u.on F.SYS_ARB_DROP_VALID = true ∧
      u.get F.SYS_ARB_DROP_WRITER = p.code ∧ u.get F.SYS_ARB_DROP_ADDR = f.addr i := by
  have kept : u.reg F.SYS_ARB_DROP.base = t.reg F.SYS_ARB_DROP.base := stays.regs _ apart.symm
  refine ⟨?_, stays.due.trans shown.due, ?_, ?_, ?_⟩
  · rw [State.on_of_onStays stays lo width]; exact State.on_eq_of_reg (shown.regs _ apart)
  · rw [State.on_eq_of_reg kept]; exact shown.valid
  · rw [State.get_eq_of_reg kept]; exact shown.writer
  · rw [State.get_eq_of_reg kept]; exact shown.addr

theorem chanOn_dropped (s : State) (p : Party) (n : Fin 24) (w : Word) (held : s.held (.chan n) = true)
    (other : p ≠ .reaction) :
    let a := F.CHn_CTRL_ON.addr n
    let u := s.ownedStore p a a w allBits
    u.on F.CHn_CTRL_ON n = s.on F.CHn_CTRL_ON n ∧ u.due = s.due ∧ u.on F.SYS_ARB_DROP_VALID = true ∧
      u.get F.SYS_ARB_DROP_WRITER = p.code ∧ u.get F.SYS_ARB_DROP_ADDR = a := by
  have at' := chanCtrl_addr n
  have bits : s.heldBits (F.CHn_CTRL_ON.addr n) = 1 := by rw [s.heldBits_chanOn, if_pos held]
  dsimp only
  rw [State.ownedStore_held (s.chanOn_writable p n w) other bits]
  exact (s.arbDrop_shown p _ (by omega)).andStays (State.store_chanCtrl _ p n w) rfl rfl (chanCtrl_apart n)

theorem railOn_dropped (s : State) (p : Party) (n : Fin 64) (w : Word) (held : s.held (.rail n) = true)
    (other : p ≠ .reaction) :
    let a := F.SEQ_RAILn_CTRL_ON.addr n
    let u := s.ownedStore p a a w allBits
    s.reservedWord a (s.wouldBe p a w allBits) = false → u.on F.SEQ_RAILn_CTRL_ON n = s.on F.SEQ_RAILn_CTRL_ON n ∧
      u.on F.SYS_ARB_DROP_VALID = true ∧ u.get F.SYS_ARB_DROP_WRITER = p.code ∧ u.get F.SYS_ARB_DROP_ADDR = a := by
  have at' := railCtrl_addr n
  have bits : s.heldBits (F.SEQ_RAILn_CTRL_ON.addr n) = 1 := by rw [s.heldBits_railOn, if_pos held]
  intro a u code
  have stored : u = (s.arbDrop p a).store p a w allButOn :=
    State.ownedStore_held (s.railOn_writable p n w code) other bits
  obtain ⟨on, -, shown⟩ := (s.arbDrop_shown p a (by omega)).andStays
    (State.store_railCtrl (s.arbDrop p a) p n w) rfl rfl (railCtrl_apart n)
  rw [stored]
  exact ⟨on, shown⟩

theorem chanOn_closed (s : State) (p : Party) (n : Fin 24) (w : Word) (taken : s.railTargetsChan n = true)
    (seq : p ≠ .seq) (other : p ≠ .reaction) :
    let u := s.ownedStore p (F.CHn_CTRL_ON.addr n) (F.CHn_CTRL_ON.addr n) w allBits
    u.on F.CHn_CTRL_ON n = s.on F.CHn_CTRL_ON n ∧ u.due = s.due := by
  cases held : s.held (.chan n) with
  | true =>
    obtain ⟨on, due, -⟩ := chanOn_dropped s p n w held other
    exact ⟨on, due⟩
  | false =>
    have free : s.heldBits (F.CHn_CTRL_ON.addr n) = 0 := by rw [s.heldBits_chanOn, held]; rfl
    have stays := State.store_chanCtrl (s.notice p (F.CHn_CTRL_ON.addr n)) p n w
    dsimp only
    rw [State.ownedStore_closed (s.chanOn_writable p n w) free (State.closedBits_chanOn taken seq other)]
    exact ⟨(State.on_of_onStays stays rfl rfl).trans (State.on_eq_of_reg (s.reg_notice _ _ _)),
      stays.due.trans (s.notice_due _ _)⟩

/-- Settles O38: a held ON by `ownedStore_held`, an ON that a rail has taken by `ownedStore_closed`. -/
theorem heldFieldsDropWrites : Obligations.HeldFieldsDropWrites := by
  unfold Obligations.HeldFieldsDropWrites
  exact ⟨chanOn_dropped, railOn_dropped, chanOn_closed⟩

end Sys2Proof.Machine
end

/-! # What an operation keeps of the fabric

The frame rules of the model's operations, as the rules of `pending` above: in the order in which the operations are built
on one another, each from those of the operations it uses. -/

section
namespace Sys2Proof.Machine

variable (s : State)

/-- The blocks taken in this cycle, and whether the start-up oscillator serves. -/
@[simp] abbrev State.Keeps (s t : State) : Prop := t.occupied = s.occupied ∧ t.refFallback = s.refFallback
/-- And the accesses that wait. -/
@[simp] abbrev State.KeepsAccess (s t : State) : Prop := s.Keeps t ∧ t.waiting = s.waiting
/-- And the memory. -/
@[simp] abbrev State.KeepsMemory (s t : State) : Prop := s.Keeps t ∧ t.sram = s.sram ∧ t.sramRaw = s.sramRaw
/-- Memory and waiting accesses. -/
@[simp] abbrev State.KeepsAccessMemory (s t : State) : Prop := s.KeepsMemory t ∧ t.waiting = s.waiting
/-- And the events that wait for the collector. -/
@[simp] abbrev State.KeepsAll (s t : State) : Prop := s.KeepsAccessMemory t ∧ t.events = s.events

@[simp] theorem State.occupied_ite (c : Prop) [Decidable c] (a b : State) :
    (if c then a else b).occupied = if c then a.occupied else b.occupied := apply_ite State.occupied c a b
@[simp] theorem State.refFallback_ite (c : Prop) [Decidable c] (a b : State) :
    (if c then a else b).refFallback = if c then a.refFallback else b.refFallback := apply_ite State.refFallback c a b
@[simp] theorem State.waiting_ite (c : Prop) [Decidable c] (a b : State) :
    (if c then a else b).waiting = if c then a.waiting else b.waiting := apply_ite State.waiting c a b
@[simp] theorem State.sram_ite (c : Prop) [Decidable c] (a b : State) :
    (if c then a else b).sram = if c then a.sram else b.sram := apply_ite State.sram c a b
@[simp] theorem State.sramRaw_ite (c : Prop) [Decidable c] (a b : State) :
    (if c then a else b).sramRaw = if c then a.sramRaw else b.sramRaw := apply_ite State.sramRaw c a b
@[simp] theorem State.events_ite (c : Prop) [Decidable c] (a b : State) :
    (if c then a else b).events = if c then a.events else b.events := apply_ite State.events c a b

@[simp] theorem State.snd_ite {α : Type} (c : Prop) [Decidable c] (a b : α × State) :
    (if c then a else b).2 = if c then a.2 else b.2 := apply_ite Prod.snd c a b

@[simp] theorem State.occupied_foldl {α : Type} (f : State → α → State) (h : ∀ s a, (f s a).occupied = s.occupied)
    (l : List α) : (l.foldl f s).occupied = s.occupied := foldl_keeps State.occupied h l s
@[simp] theorem State.refFallback_foldl {α : Type} (f : State → α → State)
    (h : ∀ s a, (f s a).refFallback = s.refFallback) (l : List α) :
    (l.foldl f s).refFallback = s.refFallback := foldl_keeps State.refFallback h l s
@[simp] theorem State.waiting_foldl {α : Type} (f : State → α → State) (h : ∀ s a, (f s a).waiting = s.waiting)
    (l : List α) : (l.foldl f s).waiting = s.waiting := foldl_keeps State.waiting h l s
@[simp] theorem State.sram_foldl {α : Type} (f : State → α → State) (h : ∀ s a, (f s a).sram = s.sram)
    (l : List α) : (l.foldl f s).sram = s.sram := foldl_keeps State.sram h l s
@[simp] theorem State.sramRaw_foldl {α : Type} (f : State → α → State) (h : ∀ s a, (f s a).sramRaw = s.sramRaw)
    (l : List α) : (l.foldl f s).sramRaw = s.sramRaw := foldl_keeps State.sramRaw h l s
@[simp] theorem State.events_foldl {α : Type} (f : State → α → State) (h : ∀ s a, (f s a).events = s.events)
    (l : List α) : (l.foldl f s).events = s.events := foldl_keeps State.events h l s

theorem State.KeepsAll.trans {s t u : State} (h : s.KeepsAll t) (g : t.KeepsAll u) : s.KeepsAll u := by
  simp only [State.KeepsAll, State.KeepsAccessMemory, State.KeepsMemory, State.Keeps] at h g ⊢
  simp only [g, h, and_self]

theorem State.keepsAll_foldl {α : Type} {f : State → α → State} (h : ∀ (s : State) (a : α), s.KeepsAll (f s a))
    (l : List α) : s.KeepsAll (l.foldl f s) := by
  induction l generalizing s with
  | nil => simp
  | cons a l ih => exact (h s a).trans (ih _)

@[simp] theorem State.putB_keeps (f : Fld) (b : Bool) (i : Nat) : s.KeepsAll (s.putB f b i) := by
  simp [State.putB]

@[simp] theorem State.bump_keeps (f : Fld) (i by' : Nat) : s.KeepsAll (s.bump f i by') := by simp [State.bump]

@[simp] theorem State.setMaskBit_keeps (f : Fld) (n : Nat) (b : Bool) : s.KeepsAll (s.setMaskBit f n b) := by
  simp [State.setMaskBit]

@[simp] theorem State.put64_keeps (f : Fld) (v : Nat) : s.KeepsAll (s.put64 f v) := by simp [State.put64]

@[simp] theorem State.sramWrites_keeps (k : Nat) (l : List Word) : s.KeepsAccess (s.sramWrites k l) := by
  induction l generalizing s k with
  | nil => simp [State.sramWrites]
  | cons w l ih => simp [State.sramWrites, ih]

@[simp] theorem State.raiseReg_keeps (cls ev obj : Nat) (f : Fld) (i : Nat) :
    s.KeepsAccessMemory (s.raiseReg cls ev obj f i) := by
  simp [State.raiseReg]

@[simp] theorem State.notice_keeps (p : Party) (a : Nat) : s.KeepsAccessMemory (s.notice p a) := by
  unfold State.notice
  split <;> simp

@[simp] theorem State.showHolds_keeps : s.KeepsAll s.showHolds := by simp [State.showHolds]

@[simp] theorem State.holdFor_keeps (src : Nat) (o : HoldObj) : s.KeepsAccess (s.holdFor src o) := by
  unfold State.holdFor
  split <;> simp

@[simp] theorem State.slotEvent_keeps (n h data : Nat) : s.KeepsAll (s.slotEvent n h data) := by
  simp [State.slotEvent]

@[simp] theorem State.trigger_keeps (trig arg data : Nat) : s.KeepsAll (s.trigger trig arg data) := by
  simp [State.trigger]

@[simp] theorem State.triggerMbox_keeps (n k data : Nat) : s.KeepsAll (s.triggerMbox n k data) := by
  simp [State.triggerMbox]

@[simp] theorem State.register_keeps (t : Nat × Nat × Nat) : s.KeepsAll (s.register t) := by simp [State.register]

@[simp] theorem State.runTrigs_keeps : s.KeepsAll s.runTrigs := by simp [State.runTrigs]

@[simp] theorem State.memFound_keeps (src k bit : Nat) (last ecc cause : Fld) :
    s.KeepsAll (s.memFound src k bit last ecc cause) := by
  simp -implicitDefEqProofs [State.memFound]

@[simp] theorem State.statRestart_keeps (k : Nat) : s.KeepsAll (s.statRestart k) := by
  unfold State.statRestart
  split <;> simp -implicitDefEqProofs

@[simp] theorem State.sramRead_keeps (src k : Nat) : s.KeepsAccess (s.sramRead src k).2.2 := by
  unfold State.sramRead
  dsimp only
  (repeat' split) <;> simp

@[simp] theorem State.ownRead_keeps (src lo hi : Nat) : s.KeepsAccess (s.ownRead src lo hi) := by
  simp [State.ownRead]

@[simp] theorem State.portWrite_keeps (p : Party) (k : Nat) (w : Word) : s.KeepsAccess (s.portWrite p k w) := by
  simp [State.portWrite]

@[simp] theorem State.queueCmd_keeps (grp : Nat) (bytes : List Byte) (p : CmdFor) :
    s.KeepsAll (s.queueCmd grp bytes p) := by
  simp [State.queueCmd]

@[simp] theorem State.readPoints_keeps (p n : Nat) : s.KeepsAccess (s.readPoints p n) := by simp [State.readPoints]

@[simp] theorem State.readEntry_keeps (slot : Nat) : s.KeepsAccess (s.readEntry slot) := by simp [State.readEntry]

@[simp] theorem State.countTaken_keeps (num : Nat) : s.KeepsAll (s.countTaken num) := by simp [State.countTaken]

@[simp] theorem State.takeId_keeps : s.KeepsAll (s.takeId).2 := by
  unfold State.takeId
  split <;> simp -implicitDefEqProofs

@[simp] theorem State.closeId_keeps (id : Nat) : s.KeepsAll (s.closeId id) := by simp [State.closeId]

@[simp] theorem State.closeSlot_keeps (n : Nat) : s.KeepsAll (s.closeSlot n) := by simp [State.closeSlot]

@[simp] theorem State.armHier_keeps (slot launch targets : Nat) : s.KeepsAll (s.armHier slot launch targets).2 := by
  simp -implicitDefEqProofs [State.armHier]

@[simp] theorem State.armLocal_keeps (slot launch : Nat) : s.KeepsAll (s.armLocal slot launch) := by
  simp [State.armLocal]

@[simp] theorem State.putArmRes_keeps (p : Party) (id result slot : Nat) :
    s.KeepsAll (s.putArmRes p id result slot) := by
  simp -implicitDefEqProofs [State.putArmRes]

@[simp] theorem State.armCmd_keeps (p : Party) (rel hier useMask : Bool) (slot : Nat) :
    s.KeepsAccess (s.armCmd p rel hier useMask slot) := by
  simp [State.armCmd]

@[simp] theorem State.cancelCmd_keeps (p : Party) (hier : Bool) (slot : Nat) :
    s.KeepsAccess (s.cancelCmd p hier slot) := by
  simp [State.cancelCmd]

@[simp] theorem State.armFault_keeps (slot : Nat) : s.KeepsAccess (s.armFault slot) := by simp [State.armFault]

@[simp] theorem State.escCntClr_keeps : s.KeepsAll s.escCntClr := by simp [State.escCntClr]

@[simp] theorem State.setPort_keeps (p : Nat) (x : PortSt) : s.KeepsAll (s.setPort p x) := by simp [State.setPort]

@[simp] theorem State.markEnds_keeps : s.KeepsAll s.markEnds := by simp [State.markEnds]

@[simp] theorem State.showOffset_keeps : s.KeepsAll s.showOffset := by
  unfold State.showOffset
  (repeat' split) <;> simp

@[simp] theorem State.showPhantom_keeps : s.KeepsAll s.showPhantom := by simp [State.showPhantom]

@[simp] theorem State.rdLost_keeps (p : Nat) : s.KeepsAll (s.rdLost p) := by simp [State.rdLost]

@[simp] theorem State.setUpstream_keeps (p : Nat) : s.KeepsAll (s.setUpstream p) := by simp [State.setUpstream]

@[simp] theorem State.heal_keeps (from' : Nat) (send : Bool) : s.KeepsAccessMemory (s.heal from' send) := by
  simp [State.heal]

@[simp] theorem State.lineCut_keeps (p : Nat) : s.KeepsAll (s.lineCut p) := by simp [State.lineCut]

@[simp] theorem State.requestsCut_keeps (p : Nat) : s.KeepsAll (s.requestsCut p) := by simp [State.requestsCut]

@[simp] theorem State.portGoesDown_keeps (p : Nat) (ld : Bool) : s.KeepsAccessMemory (s.portGoesDown p ld) := by
  simp [State.portGoesDown]

@[simp] theorem State.retrain_keeps (p : Nat) : s.KeepsAccessMemory (s.retrain p) := by simp [State.retrain]

@[simp] theorem State.linkCntClr_keeps : s.KeepsAll s.linkCntClr := by simp [State.linkCntClr]

@[simp] theorem State.setSwitch_keeps (w : Nat) (x : SwitchSt) : s.KeepsAll (s.setSwitch w x) := by
  simp [State.setSwitch]

@[simp] theorem State.phantomCleared_keeps (w : Nat) : s.KeepsAll (s.phantomCleared w) := by
  simp [State.phantomCleared]

@[simp] theorem State.gateOff_keeps (n : Nat) (m : GateMode) : s.KeepsAll (s.gateOff n m) := by
  simp [State.gateOff]

@[simp] theorem State.chEnterOff_keeps (n : Nat) (m : GateMode) : s.KeepsAll (s.chEnterOff n m) := by
  simp [State.chEnterOff]

@[simp] theorem State.chEnterStandby_keeps (n : Nat) : s.KeepsAll (s.chEnterStandby n) := by
  simp [State.chEnterStandby]

@[simp] theorem State.chEnterRamp_keeps (n : Nat) : s.KeepsAll (s.chEnterRamp n) := by simp [State.chEnterRamp]

@[simp] theorem State.chEnterEnhance_keeps (n : Nat) (m : GateMode) : s.KeepsAll (s.chEnterEnhance n m) := by
  simp [State.chEnterEnhance]

@[simp] theorem State.memberClose_keeps (n : Nat) (vout : Int) : s.KeepsAll (s.memberClose n vout) := by
  simp [State.memberClose]

@[simp] theorem State.chOnEffect_keeps (n : Nat) (v : Bool) : s.KeepsAll (s.chOnEffect n v) := by
  simp [State.chOnEffect]

@[simp] theorem State.writeChOn_keeps (n : Nat) (v : Bool) : s.KeepsAll (s.writeChOn n v) := by
  simp [State.writeChOn]

@[simp] theorem State.writePmode_keeps (n : Nat) (v : Bool) : s.KeepsAll (s.writePmode n v) := by
  simp [State.writePmode]

@[simp] theorem State.keepParam_keeps (a : Nat) : s.KeepsAll (s.keepParam a) := by simp [State.keepParam]

@[simp] theorem State.reactChOff_keeps (n : Nat) : s.KeepsAll (s.reactChOff n) := by simp [State.reactChOff]

@[simp] theorem State.withdrawAccess_keeps (n : Nat) : s.KeepsMemory (s.withdrawAccess n) := by
  simp [State.withdrawAccess]

@[simp] theorem State.peStop_keeps (n st : Nat) : s.KeepsMemory (s.peStop n st) := by simp [State.peStop]

@[simp] theorem State.peLast_keeps (n cause : Nat) : s.KeepsAll (s.peLast n cause) := by simp [State.peLast]

@[simp] theorem State.peRestart_keeps (n cause : Nat) : s.KeepsMemory (s.peRestart n cause) := by
  simp -implicitDefEqProofs [State.peRestart]

@[simp] theorem State.peHold_keeps (n : Nat) : s.KeepsMemory (s.peHold n) := by simp [State.peHold]

@[simp] theorem State.peRelease_keeps (n : Nat) : s.KeepsAll (s.peRelease n) := by simp [State.peRelease]

@[simp] theorem State.peHalt_keeps (n : Nat) : s.KeepsMemory (s.peHalt n) := by simp [State.peHalt]

@[simp] theorem State.peUnhalt_keeps (n : Nat) : s.KeepsAll (s.peUnhalt n) := by simp [State.peUnhalt]

@[simp] theorem State.peRestartCmd_keeps (n : Nat) : s.KeepsMemory (s.peRestartCmd n) := by simp [State.peRestartCmd]

@[simp] theorem State.peGo_keeps (n : Nat) (p : Party) : s.KeepsMemory (s.peGo n p) := by simp [State.peGo]

@[simp] theorem State.peStopCmd_keeps (n : Nat) : s.KeepsMemory (s.peStopCmd n) := by simp [State.peStopCmd]

@[simp] theorem State.mboxWrite_keeps (n k : Nat) (v : Word) : s.KeepsAll (s.mboxWrite n k v) := by
  simp [State.mboxWrite]

@[simp] theorem State.loopTouch_keeps (n : Nat) : s.KeepsAll (s.loopTouch n) := by
  simp -implicitDefEqProofs [State.loopTouch]

@[simp] theorem State.setPhState_keeps (p st : Nat) : s.KeepsAll (s.setPhState p st) := by simp [State.setPhState]

@[simp] theorem State.throttle_keeps (n : Nat) : s.KeepsAll (s.throttle n) := by simp [State.throttle]

@[simp] theorem State.binClose_keeps (n : Nat) : s.KeepsAccessMemory (s.binClose n) := by simp [State.binClose]

@[simp] theorem State.phaseMidZ_keeps (p : Nat) : s.KeepsAll (s.phaseMidZ p) := by simp [State.phaseMidZ]

@[simp] theorem State.loopOff_keeps (n : Nat) : s.KeepsAccessMemory (s.loopOff n) := by
  simp -implicitDefEqProofs [State.loopOff]

@[simp] theorem State.showMeter_keeps (k : Nat) : s.KeepsAll (s.showMeter k) := by
  unfold State.showMeter
  dsimp only
  (repeat' split) <;> simp

@[simp] theorem State.meterInterrupt_keeps (k : Nat) : s.KeepsAll (s.meterInterrupt k) := by
  unfold State.meterInterrupt
  split <;> simp

@[simp] theorem State.entryInterrupt_keeps (m e : Nat) : s.KeepsAll (s.entryInterrupt m e) := by
  simp [State.entryInterrupt]

@[simp] theorem State.convStart_keeps (m e d : Nat) : s.KeepsAll (s.convStart m e d) := by simp [State.convStart]

@[simp] theorem State.scanGo_keeps (m d : Nat) : s.KeepsAll (s.scanGo m d) := by
  unfold State.scanGo
  dsimp only
  (repeat' split) <;> simp

@[simp] theorem State.maskChanged_keeps (m old : Nat) : s.KeepsAll (s.maskChanged m old) := by
  simp [State.maskChanged]

@[simp] theorem State.urgent_keeps (m e : Nat) : s.KeepsAll (s.urgent m e) := by simp [State.urgent]

@[simp] theorem State.urgentDrop_keeps (m : Nat) : s.KeepsAll (s.urgentDrop m) := by simp [State.urgentDrop]

@[simp] theorem State.monLevels_keeps (n : Nat) (u o : Bool) : s.KeepsAll (s.monLevels n u o) := by
  simp [State.monLevels]

@[simp] theorem State.monRestart_keeps (n : Nat) (befU befO : Bool) : s.KeepsAll (s.monRestart n befU befO) := by
  simp -implicitDefEqProofs [State.monRestart]

@[simp] theorem State.monModeMove_keeps (n : Nat) : s.KeepsAll (s.monModeMove n) := by simp [State.monModeMove]

@[simp] theorem State.sweepAbandon_keeps : s.KeepsAll s.sweepAbandon := by
  unfold State.sweepAbandon
  split <;> simp

@[simp] theorem State.sweepGo_keeps : s.KeepsAll s.sweepGo := by simp [State.sweepGo]

@[simp] theorem State.shedGroup_keeps (g : Nat) (src : Option Nat) : s.KeepsAccess (s.shedGroup g src) := by
  unfold State.shedGroup
  split <;> simp

@[simp] theorem State.chgHold_keeps (hold : Bool) : s.KeepsAll (s.chgHold hold) := by
  unfold State.chgHold
  dsimp only
  (repeat' split) <;> simp

@[simp] theorem State.showAvail_keeps : s.KeepsAll s.showAvail := by simp [State.showAvail]

@[simp] theorem State.chgEnter_keeps (c kept : Nat) : s.KeepsAll (s.chgEnter c kept) := by simp [State.chgEnter]

@[simp] theorem State.chgToIdle_keeps : s.KeepsAll s.chgToIdle := by simp [State.chgToIdle]

@[simp] theorem State.chgToQualify_keeps (keep : Bool) : s.KeepsAll (s.chgToQualify keep) := by
  simp [State.chgToQualify]

@[simp] theorem State.chgToDone_keeps : s.KeepsAll s.chgToDone := by simp [State.chgToDone]

@[simp] theorem State.chgToFast_keeps (kept : Option Nat) : s.KeepsAll (s.chgToFast kept) := by
  simp [State.chgToFast]

@[simp] theorem State.chgToFault_keeps : s.KeepsAccessMemory s.chgToFault := by simp [State.chgToFault]

@[simp] theorem State.chgPass_keeps : s.KeepsAll s.chgPass := by
  unfold State.chgPass
  dsimp only
  (repeat' split) <;> simp

@[simp] theorem State.chgEval_keeps : s.KeepsAccessMemory s.chgEval := by simp [State.chgEval]

@[simp] theorem State.probeBegin_keeps : s.KeepsAll s.probeBegin := by simp [State.probeBegin]

@[simp] theorem State.shortCleared_keeps : s.KeepsAll s.shortCleared := by simp [State.shortCleared]

@[simp] theorem State.chgFaultCleared_keeps : s.KeepsAccessMemory s.chgFaultCleared := by simp [State.chgFaultCleared]

@[simp] theorem State.chgOff_keeps : s.KeepsAll s.chgOff := by simp [State.chgOff]

@[simp] theorem State.chgHeld_keeps : s.KeepsAll s.chgHeld := by simp [State.chgHeld]

@[simp] theorem State.ppGo_keeps (p : Nat) : s.KeepsAll (s.ppGo p) := by simp [State.ppGo]

@[simp] theorem State.shipExit_keeps : s.KeepsAccessMemory s.shipExit := by simp [State.shipExit]

@[simp] theorem State.shipCmd_keeps (p : Party) : s.KeepsAccessMemory (s.shipCmd p) := by
  simp -implicitDefEqProofs [State.shipCmd]

@[simp] theorem State.chgGoCmd_keeps : s.KeepsAccessMemory s.chgGoCmd := by simp [State.chgGoCmd]

@[simp] theorem State.ppCtrl_keeps (p : Party) (w : Word) : s.KeepsAccessMemory (s.ppCtrl p w) := by
  simp [State.ppCtrl]

@[simp] theorem State.ppCfg_keeps : s.KeepsAccessMemory s.ppCfg := by simp [State.ppCfg]

@[simp] theorem State.ppFit_keeps (on : Bool) : s.KeepsAccessMemory (s.ppFit on) := by simp [State.ppFit]

@[simp] theorem State.pwrpStored_keeps (a : Nat) : s.KeepsAccessMemory (s.pwrpStored a) := by simp [State.pwrpStored]

@[simp] theorem State.keepRes_keeps (p result : Nat) : s.KeepsAll (s.keepRes p result) := by simp [State.keepRes]

@[simp] theorem State.showQueue_keeps : s.KeepsAll s.showQueue := by simp [State.showQueue]

theorem State.keepQueue_keeps (c : KeepCommit) : ∀ t ∈ s.keepQueue c, s.KeepsAll t := by
  simp [State.keepQueue]

@[simp] theorem State.keepCmd_keeps (p : Party) (op : Nat) : s.KeepsAll (s.keepCmd p op) := by
  unfold State.keepCmd
  dsimp only
  split
  · simp
  · next t h => simp [State.keepQueue_keeps _ _ t h]

@[simp] theorem State.keepWrite_keeps (p : Party) (c : KeepCommit) : s.KeepsAll (s.keepWrite p c) := by
  unfold State.keepWrite
  split
  · simp
  · next t h => exact s.keepQueue_keeps _ t h

@[simp] theorem State.keepByte_keeps (p : Party) (a b v : Nat) : s.KeepsAccessMemory (s.keepByte p a b v) := by
  unfold State.keepByte
  split
  · simp
  · next t h => simp [s.keepQueue_keeps _ t h]

@[simp] theorem State.keepUnsync_keeps : s.KeepsAll s.keepUnsync := by simp [State.keepUnsync]

@[simp] theorem State.railReact_keeps (n src : Nat) : s.KeepsAll (s.railReact n src) := by simp [State.railReact]

@[simp] theorem State.rlGo_keeps (n st : Nat) : s.KeepsAll (s.rlGo n st) := by simp [State.rlGo]

@[simp] theorem State.showSeq_keeps : s.KeepsAll s.showSeq := by simp -implicitDefEqProofs [State.showSeq]

@[simp] theorem State.marginForward_keeps (n : Nat) : s.KeepsMemory (s.marginForward n) := by
  simp [State.marginForward]

@[simp] theorem State.mirrorFreshen_keeps (d : Nat) : s.KeepsAll (s.mirrorFreshen d) := by
  simp [State.mirrorFreshen]

@[simp] theorem State.railsStart_keeps : s.KeepsAll s.railsStart := by
  unfold State.railsStart
  refine ((State.KeepsAll.trans (s.keepsAll_foldl ?_ _) (State.keepsAll_foldl _ ?_ _)).trans
    (State.keepsAll_foldl _ ?_ _)).trans (State.showSeq_keeps _) <;> intro s n
  · simp
  · split <;> simp
  · dsimp only
    (repeat' split) <;> simp

@[simp] theorem State.scrubWrite_keeps (p : Party) (w : Word) : s.KeepsAccessMemory (s.scrubWrite p w) := by
  simp [State.scrubWrite]

@[simp] theorem State.memCntClr_keeps (w : Word) : s.KeepsAll (s.memCntClr w) := by
  simp -implicitDefEqProofs [State.memCntClr]

@[simp] theorem State.chkCmd_keeps (p : Party) (w : Word) : s.KeepsAccess (s.chkCmd p w) := by
  unfold State.chkCmd
  dsimp only
  (repeat' split) <;> simp -implicitDefEqProofs

@[simp] theorem State.showOtp_keeps : s.KeepsAll s.showOtp := by simp -implicitDefEqProofs [State.showOtp]

@[simp] theorem State.otpEnd_keeps (o : OtpOp) (result failbit : Nat) : s.KeepsAll (s.otpEnd o result failbit) := by
  simp -implicitDefEqProofs [State.otpEnd]

@[simp] theorem State.otpBegin_keeps (op region word : Nat) (bits : List Nat) :
    s.KeepsAll (s.otpBegin op region word bits) := by
  simp [State.otpBegin]

@[simp] theorem State.otpCmd_keeps (p : Party) (w : Word) : s.KeepsAccessMemory (s.otpCmd p w) := by
  simp [State.otpCmd]

@[simp] theorem State.recPut_keeps (i lo width v : Nat) : s.KeepsAccess (s.recPut i lo width v) := by
  simp [State.recPut]

@[simp] theorem State.histAdd_keeps (ws : List Word) (why : Nat) : s.KeepsAccess (s.histAdd ws why) := by
  simp [State.histAdd]

@[simp] theorem State.tableRead_keeps : s.KeepsAccess s.tableRead := by simp [State.tableRead]

@[simp] theorem State.showHeld_keeps (i : Nat) : s.KeepsAccess (s.showHeld i) := by simp [State.showHeld]

@[simp] theorem State.showFlt_keeps : s.KeepsAll s.showFlt := by simp -implicitDefEqProofs [State.showFlt]

@[simp] theorem State.holdSlot_keeps (i : Nat) (o : HoldObj) : s.KeepsAll (s.holdSlot i o) := by
  simp [State.holdSlot]

@[simp] theorem State.cutLoop_keeps (i n : Nat) : s.KeepsAccessMemory (s.cutLoop i n) := by simp [State.cutLoop]

@[simp] theorem State.cutPair_keeps (i k : Nat) : s.KeepsAll (s.cutPair i k) := by simp [State.cutPair]

@[simp] theorem State.cutChan_keeps (i n : Nat) : s.KeepsAll (s.cutChan i n) := by simp [State.cutChan]

@[simp] theorem State.cutRailTarget_keeps (i r : Nat) : s.KeepsAccessMemory (s.cutRailTarget i r) := by
  unfold State.cutRailTarget
  split <;> simp

@[simp] theorem State.isolate_keeps (i q : Nat) : s.KeepsMemory (s.isolate i q) := by simp [State.isolate]

@[simp] theorem State.safeStop_keeps (i : Nat) : s.KeepsAll (s.safeStop i) := by simp [State.safeStop]

@[simp] theorem State.outputsOff_keeps : s.KeepsAccessMemory s.outputsOff := by simp [State.outputsOff]

@[simp] theorem State.haltAll_keeps (i : Nat) : s.KeepsMemory (s.haltAll i) := by simp [State.haltAll]

@[simp] theorem State.extraReaction_keeps (q : Nat) : s.KeepsAccess (s.extraReaction q) := by
  unfold State.extraReaction
  split <;> simp

@[simp] theorem State.react_keeps (i q old lvl : Nat) : s.Keeps (s.react i q old lvl) := by simp [State.react]

@[simp] theorem State.latchHold_keeps (i q : Nat) : s.KeepsAll (s.latchHold i q) := by simp [State.latchHold]

@[simp] theorem State.latchWaits_keeps (q : Nat) : s.KeepsAccess (s.latchWaits q) := by simp [State.latchWaits]

@[simp] theorem State.takeHolds_keeps (i q : Nat) : s.KeepsAll (s.takeHolds i q) := by simp [State.takeHolds]

@[simp] theorem State.recNotify_keeps (q lvl : Nat) (esc : Bool) : s.KeepsAll (s.recNotify q lvl esc) := by
  simp [State.recNotify]

@[simp] theorem State.makeRecord_keeps (i : Nat) (e : Event) (lvl base : Nat) (esc : Bool) :
    s.Keeps (s.makeRecord i e lvl base esc) := by
  simp [State.makeRecord]

@[simp] theorem State.joinRecord_keeps (i : Nat) (e : Event) (lvl : Nat) : s.KeepsAccess (s.joinRecord i e lvl) := by
  simp -implicitDefEqProofs [State.joinRecord]

@[simp] theorem State.atFull_keeps (e : Event) (lvl base : Nat) (esc : Bool) : s.Keeps (s.atFull e lvl base esc) := by
  unfold State.atFull
  dsimp only
  (repeat' split) <;> simp

@[simp] theorem State.processEvent_keeps (e : Event) : s.Keeps (s.processEvent e) := by
  unfold State.processEvent
  dsimp only
  (repeat' split) <;> simp

@[simp] theorem State.freeObj_keeps (o : HoldObj) : s.KeepsAccessMemory (s.freeObj o) := by
  unfold State.freeObj
  (repeat' split) <;> simp

@[simp] theorem State.sourceCleared_keeps (q : Nat) : s.KeepsAccessMemory (s.sourceCleared q) := by
  simp [State.sourceCleared]

@[simp] theorem State.dropRecord_keeps (i why : Nat) : s.KeepsAccess (s.dropRecord i why) := by
  simp -implicitDefEqProofs [State.dropRecord]

@[simp] theorem State.fltCmd_keeps (p : Party) (w : Word) : s.KeepsAccess (s.fltCmd p w) := by simp [State.fltCmd]

@[simp] theorem State.irqSub_keeps : s.KeepsAll s.irqSub := by simp [State.irqSub]

@[simp] theorem State.irqUpdate_keeps : s.KeepsAll s.irqUpdate := by simp -implicitDefEqProofs [State.irqUpdate]

@[simp] theorem State.processAll_keeps : s.Keeps s.processAll := by simp [State.processAll]

@[simp] theorem State.reactions_keeps : s.Keeps s.reactions := by simp [State.reactions]

@[simp] theorem State.settle_keeps : s.Keeps s.settle := by simp [State.settle]

@[simp] theorem State.beforeStore_keeps (a : Nat) : s.KeepsAll (s.beforeStore a) := by
  unfold State.beforeStore
  (repeat' split) <;> simp

@[simp] theorem State.portsFollow_keeps : s.KeepsAccessMemory s.portsFollow := by simp [State.portsFollow]

@[simp] theorem State.linkStored_keeps (a : Nat) : s.KeepsAccessMemory (s.linkStored a) := by simp [State.linkStored]

@[simp] theorem State.loopStored_keeps (a : Nat) : s.KeepsAll (s.loopStored a) := by simp [State.loopStored]

@[simp] theorem State.chanStored_keeps (a : Nat) (m : Word) : s.KeepsAll (s.chanStored a m) := by
  simp [State.chanStored]

@[simp] theorem State.seqStored_keeps (a : Nat) (m : Word) : s.KeepsMemory (s.seqStored a m) := by
  simp [State.seqStored]

@[simp] theorem State.measStored_keeps (a : Nat) (old : Word) : s.KeepsAll (s.measStored a old) := by
  simp [State.measStored]

@[simp] theorem State.thermStored_keeps (a : Nat) (old : Word) : s.KeepsAll (s.thermStored a old) := by
  simp [State.thermStored]

@[simp] theorem State.afterStore_keeps (a : Nat) (old w m : Word) : s.KeepsMemory (s.afterStore a old w m) := by
  unfold State.afterStore
  split <;> simp

@[simp] theorem State.store_keeps (p : Party) (a : Nat) (w m : Word) : s.KeepsMemory (s.store p a w m) := by
  unfold State.store
  split <;> simp

@[simp] theorem State.arbDrop_keeps (p : Party) (named : Nat) : s.KeepsAccessMemory (s.arbDrop p named) := by
  simp -implicitDefEqProofs [State.arbDrop]

@[simp] theorem State.ownedStore_keeps (p : Party) (named a : Nat) (w m : Word) :
    s.KeepsMemory (s.ownedStore p named a w m) := by
  unfold State.ownedStore
  split <;> simp

@[simp] theorem State.stgNext_keeps : s.KeepsAll s.stgNext := by simp [State.stgNext]

@[simp] theorem State.stgWrite_keeps (p : Party) (w : Word) : s.KeepsAccess (s.stgWrite p w) := by
  simp [State.stgWrite]

@[simp] theorem State.sramClear_keeps (region lo hi : Nat) : s.KeepsAccess (s.sramClear region lo hi) := by
  simp [State.sramClear]

@[simp] theorem State.resetRegs_keeps (l : List Nat) : s.KeepsAll (s.resetRegs l) := by
  simp -implicitDefEqProofs [State.resetRegs]

@[simp] theorem State.clearMon_keeps (n : Nat) : s.KeepsAll (s.clearMon n) := by
  unfold State.clearMon
  split <;> simp -implicitDefEqProofs

@[simp] theorem State.clearScan_keeps (m : Nat) : s.KeepsAll (s.clearScan m) := by
  simp -implicitDefEqProofs [State.clearScan]

@[simp] theorem State.clearPlaced_keeps : s.Keeps s.clearPlaced := by
  simp -implicitDefEqProofs [State.clearPlaced]

@[simp] theorem State.clearConfig_keeps : s.Keeps s.clearConfig := by
  simp -implicitDefEqProofs [State.clearConfig]

@[simp] theorem State.loadBegin_keeps (src : Nat) : s.KeepsAll (s.loadBegin src) := by simp [State.loadBegin]

@[simp] theorem State.failCode_keeps (code src : Nat) : s.KeepsAll (s.failCode code src) := by
  simp [State.failCode]

@[simp] theorem State.clearData_keeps : s.KeepsAccess s.clearData := by simp [State.clearData]

@[simp] theorem State.loadFail_keeps (code : Nat) : s.Keeps (s.loadFail code) := by
  simp -implicitDefEqProofs [State.loadFail]

@[simp] theorem State.loadStep_keeps : s.Keeps s.loadStep := by simp [State.loadStep]

@[simp] theorem State.loadFeed_keeps (b : List Byte) : s.Keeps (s.loadFeed b) := by simp [State.loadFeed]

@[simp] theorem State.hostNotice_keeps (p : Party) (a : Nat) : s.KeepsAccessMemory (s.hostNotice p a) := by
  simp [State.hostNotice]

@[simp] theorem State.calStart_keeps (p : Party) : s.Keeps (s.calStart p) := by
  simp -implicitDefEqProofs [State.calStart]

@[simp] theorem State.calAbort_keeps : s.Keeps s.calAbort := by simp [State.calAbort]

@[simp] theorem State.calCtrl_keeps (p : Party) (w : Word) : s.Keeps (s.calCtrl p w) := by simp [State.calCtrl]

@[simp] theorem State.calAp_keeps (p : Party) (a : Nat) (w : Word) : s.Keeps (s.calAp p a w) := by
  simp [State.calAp]

@[simp] theorem State.readStage_keeps (len : Nat) : s.KeepsAccess (s.readStage len) := by simp [State.readStage]

@[simp] theorem State.stageBegin_keeps (id npar len dead : Nat) (got : List Nat) :
    s.KeepsAll (s.stageBegin id npar len dead got) := by
  simp [State.stageBegin]

@[simp] theorem State.stageFree_keeps : s.KeepsAll s.stageFree := by simp [State.stageFree]

@[simp] theorem State.cmtResult_keeps (r : Nat) : s.KeepsAll (s.cmtResult r) := by simp [State.cmtResult]

@[simp] theorem State.queueChunks_keeps (dest : Nat) : s.KeepsAccess (s.queueChunks dest) := by
  simp [State.queueChunks]

@[simp] theorem State.selfCheck_keeps : s.KeepsAll s.selfCheck := by simp [State.selfCheck]

@[simp] theorem State.clearMask_keeps (f : Fld) : s.KeepsAll (s.clearMask f) := by simp [State.clearMask]

@[simp] theorem State.cmtOpen_keeps (p : Party) : s.KeepsAccess (s.cmtOpen p) := by
  simp -implicitDefEqProofs [State.cmtOpen]

@[simp] theorem State.cmtSend_keeps : s.KeepsAccess s.cmtSend := by simp [State.cmtSend]

@[simp] theorem State.cmtPrepare_keeps : s.KeepsAll s.cmtPrepare := by simp [State.cmtPrepare]

@[simp] theorem State.cmtDecide_keeps (commit : Bool) : s.KeepsAll (s.cmtDecide commit) := by
  simp [State.cmtDecide]

@[simp] theorem State.cmtClose_keeps : s.KeepsAll s.cmtClose := by simp [State.cmtClose]

@[simp] theorem State.cmtIdle_keeps : s.KeepsAll s.cmtIdle := by simp [State.cmtIdle]

@[simp] theorem State.cmtRepair_keeps (commit : Bool) (dev : Nat) : s.KeepsAll (s.cmtRepair commit dev) := by
  simp [State.cmtRepair]

@[simp] theorem State.cmtCmd_keeps (p : Party) (op dev : Nat) : s.KeepsAccess (s.cmtCmd p op dev) := by
  simp [State.cmtCmd]

@[simp] theorem State.stageDiscard_keeps : s.KeepsAll s.stageDiscard := by simp [State.stageDiscard]

@[simp] theorem State.dlvBegin_keeps (reload : Bool) (flash : List Byte) : s.Keeps (s.dlvBegin reload flash) := by
  simp [State.dlvBegin]

@[simp] theorem State.dlvAbort_keeps : s.Keeps s.dlvAbort := by simp [State.dlvAbort]

@[simp] theorem State.dlvCmd_keeps (p : Party) (op : Nat) (flash : List Byte) : s.Keeps (s.dlvCmd p op flash) := by
  simp [State.dlvCmd]

@[simp] theorem State.dlvStart_keeps (reload : Bool) : s.Keeps (s.dlvStart reload) := by simp [State.dlvStart]

@[simp] theorem State.dlvData_keeps (chunk : Nat) (b : List Byte) : s.Keeps (s.dlvData chunk b) := by
  simp [State.dlvData]

@[simp] theorem State.reloadStart_keeps (p : Party) (w : Word) : s.Keeps (s.reloadStart p w) := by
  simp [State.reloadStart]

@[simp] theorem State.raDone_keeps (party result : Nat) : s.KeepsAll (s.raDone party result) := by
  simp [State.raDone]

@[simp] theorem State.raEnds_keeps (p : Party) (result : Nat) : s.KeepsMemory (s.raEnds p result) := by
  simp [State.raEnds]

@[simp] theorem State.raLocal_keeps (p : Party) (write : Bool) (a i n : Nat) (ws : List Word) :
    s.KeepsMemory (s.raLocal p write a i n ws) := by
  simp [State.raLocal]

@[simp] theorem State.raCmd_keeps (p : Party) (op : Nat) : s.Keeps (s.raCmd p op) := by simp [State.raCmd]

@[simp] theorem State.restSchedule_keeps (e : Nat) : s.KeepsAll (s.restSchedule e) := by simp [State.restSchedule]

@[simp] theorem State.restEnter_keeps : s.KeepsAll s.restEnter := by simp [State.restEnter]

theorem State.writeSys_keeps (p : Party) (a : Nat) (w m : Word) (h : a ≠ F.SYS_RST_CTRL.base) :
    s.KeepsMemory (s.writeSys p a w m) := by
  simp [State.writeSys, h]

@[simp] theorem State.writeCal_keeps (p : Party) (a : Nat) (w m : Word) : s.Keeps (s.writeCal p a w m) := by
  simp [State.writeCal]

@[simp] theorem State.slotWrite_keeps (p : Party) (a : Nat) (w : Word) : s.KeepsAccess (s.slotWrite p a w) := by
  simp [State.slotWrite]

@[simp] theorem State.writeEsc_keeps (p : Party) (a : Nat) (w m : Word) : s.Keeps (s.writeEsc p a w m) := by
  simp [State.writeEsc]

@[simp] theorem State.writeLink_keeps (p : Party) (a : Nat) (w m : Word) : s.KeepsMemory (s.writeLink p a w m) := by
  simp [State.writeLink]

@[simp] theorem State.writeHier_keeps (p : Party) (a : Nat) (w m : Word) : s.Keeps (s.writeHier p a w m) := by
  simp [State.writeHier]

@[simp] theorem State.writeMeas_keeps (p : Party) (a : Nat) (w m : Word) : s.KeepsMemory (s.writeMeas p a w m) := by
  simp [State.writeMeas]

@[simp] theorem State.writeFlt_keeps (p : Party) (a : Nat) (w m : Word) : s.Keeps (s.writeFlt p a w m) := by
  simp [State.writeFlt]

@[simp] theorem State.writePwrp_keeps (p : Party) (a : Nat) (w m : Word) : s.KeepsMemory (s.writePwrp p a w m) := by
  simp [State.writePwrp]

@[simp] theorem State.writeKeep_keeps (p : Party) (a : Nat) (w m : Word) : s.KeepsMemory (s.writeKeep p a w m) := by
  unfold State.writeKeep
  dsimp only
  (repeat' split) <;> simp

@[simp] theorem State.writePe_keeps (p : Party) (a : Nat) (w m : Word) : s.KeepsMemory (s.writePe p a w m) := by
  simp [State.writePe]

@[simp] theorem State.writeMem_keeps (p : Party) (a : Nat) (w m : Word) : s.Keeps (s.writeMem p a w m) := by
  simp [State.writeMem]

@[simp] theorem State.windowWrite_keeps (p : Party) (a : Nat) (w : Word) : s.KeepsAccess (s.windowWrite p a w) := by
  unfold State.windowWrite
  dsimp only
  (repeat' split) <;> simp

@[simp] theorem State.pointOf_keeps (a : Nat) : s.KeepsAccess (s.pointOf a).2 := by simp [State.pointOf]

@[simp] theorem State.pointAct_keeps (p : Party) (a kind i : Nat) (c : Word) :
    s.KeepsMemory (s.pointAct p a kind i c) := by
  simp [State.pointAct]

@[simp] theorem State.pointWrite_keeps (p : Party) (a : Nat) (w m : Word) : s.Keeps (s.pointWrite p a w m) := by
  simp [State.pointWrite]

theorem State.writeWord_keeps (p : Party) (a : Nat) (w m : Word) (h : a ≠ F.SYS_RST_CTRL.base) :
    s.Keeps (s.writeWord p a w m) := by
  unfold State.writeWord
  (repeat' split) <;> simp [State.writeSys_keeps, h]

end Sys2Proof.Machine
end

/-! # A strike of the batch that comes before the end of holdover (R21, R97) -/

section
namespace Sys2Proof.Machine

/-- A device in holdover that ends in this cycle, which is a beat boundary; the entry of its armed slot 0 writes HARD and
its key to SYS_RST_CTRL. -/
def hardAtBoundary : State :=
  { ({ State.reset with phase := .running } : State).put F.SYS_CLK_STAT_HOLDOVER 1 with
    ticking := true, holdEnd := some 0, beat := { next := some 0 }
    slots := tset State.reset.slots 0 { armed := true }
    sram := [(9 * 16384, 0x0101), (9 * 16384 + 1, 0x20000004), (9 * 16384 + 2, 0x5A000002)] }

theorem hardAtBoundary_holdover : hardAtBoundary.on F.SYS_CLK_STAT_HOLDOVER = true := by decide

/-- The reset of the strike comes first: no holdover is left to end, and the device starts from its own reference. -/
theorem holdoverExpiry_hardAtBoundary :
    (hardAtBoundary.atTime hardAtBoundary.holdEnd State.holdoverExpiry).refFallback = false := by decide +kernel

theorem exec_holdoverExpiry (s : State) :
    exec .holdoverExpiry s = .next (s.atTime s.holdEnd State.holdoverExpiry).settle := rfl

/-- Refutes O7: its sixth clause. The batch of a boundary in the same cycle comes before the end of holdover (R97), and a
strike of it may reset the device, whose reference is then not the fallback. -/
theorem not_clocksAndSupplies : ¬ Obligations.ClocksAndSupplies := by
  unfold Obligations.ClocksAndSupplies
  rintro ⟨-, ⟨-, -, -, -, expires⟩, -⟩
  obtain ⟨u, runs, -, -, -, fallback⟩ := expires hardAtBoundary 0 hardAtBoundary_holdover rfl (le_refl 0)
  rw [exec_holdoverExpiry, Host.Outcome.next.injEq] at runs
  have kept : u.refFallback = (hardAtBoundary.atTime hardAtBoundary.holdEnd State.holdoverExpiry).refFallback := by
    rw [← u.settle_keeps.2, ← runs, (State.settle_keeps _).2]
  rw [fallback, holdoverExpiry_hardAtBoundary] at kept
  exact absurd kept (by decide)

end Sys2Proof.Machine
end

/-! # The accesses that a write starts

A write of ranks 1 to 3 starts no access but the margins that the sequencer forwards (R303), and withdraws
others at most. -/

section
namespace Sys2Proof.Machine

/-- An access with which the sequencer forwards a rail's margin to its loop (R303). -/
def Access.forwardsMargin (x : Access) : Prop :=
  x.party = .seq ∧ x.ra = none ∧ x.word.isSome = true ∧ ∃ t < 256, x.addr = F.LOOPn_TARGET_MARGIN.addr t

def OnlyMargins (l : List Access) : Prop := ∀ x ∈ l, x.forwardsMargin

@[simp] theorem onlyMargins_nil : OnlyMargins [] := List.forall_mem_nil _

theorem OnlyMargins.filter {l : List Access} (h : OnlyMargins l) (p : Access → Bool) : OnlyMargins (l.filter p) :=
  fun x hx => h x (List.mem_of_mem_filter hx)

@[simp] theorem onlyMargins_ite (c : Prop) [Decidable c] (a b : List Access) :
    OnlyMargins (if c then a else b) ↔ (c → OnlyMargins a) ∧ (¬ c → OnlyMargins b) := by
  split <;> simp [*]

theorem onlyMargins_foldl {α : Type} {f : State → α → State}
    (step : ∀ (s : State) (a : α), OnlyMargins s.waiting → OnlyMargins (f s a).waiting) (l : List α) (s : State)
    (h : OnlyMargins s.waiting) : OnlyMargins (l.foldl f s).waiting := by
  induction l generalizing s with
  | nil => exact h
  | cons a l ih => exact ih _ (step s a h)

variable (s : State)

@[simp] theorem State.withdrawAccess_margins (n : Nat) (h : OnlyMargins s.waiting) :
    OnlyMargins (s.withdrawAccess n).waiting := h.filter _

@[simp] theorem State.peStop_margins (n st : Nat) (h : OnlyMargins s.waiting) :
    OnlyMargins (s.peStop n st).waiting := by
  simp [State.peStop, h]

@[simp] theorem State.peRestart_margins (n cause : Nat) (h : OnlyMargins s.waiting) :
    OnlyMargins (s.peRestart n cause).waiting := by
  simp -implicitDefEqProofs [State.peRestart, h]

@[simp] theorem State.peRestartCmd_margins (n : Nat) (h : OnlyMargins s.waiting) :
    OnlyMargins (s.peRestartCmd n).waiting := by
  simp [State.peRestartCmd, h]

@[simp] theorem State.peGo_margins (n : Nat) (p : Party) (h : OnlyMargins s.waiting) :
    OnlyMargins (s.peGo n p).waiting := by
  simp [State.peGo, h]

@[simp] theorem State.peStopCmd_margins (n : Nat) (h : OnlyMargins s.waiting) :
    OnlyMargins (s.peStopCmd n).waiting := by
  simp [State.peStopCmd, h]

@[simp] theorem State.marginForward_margins (n : Nat) (h : OnlyMargins s.waiting) :
    OnlyMargins (s.marginForward n).waiting := by
  have byte : s.railTarget n < 256 := (tget s.railGraph n |>.getD 1 0).isLt
  unfold State.marginForward
  split
  · intro x hx
    rcases List.mem_append.1 hx with old | new
    · exact h x old
    · rw [List.mem_singleton.1 new]; exact ⟨rfl, rfl, rfl, _, byte, rfl⟩
  · exact h

@[simp] theorem State.seqStored_margins (a : Nat) (m : Word) (h : OnlyMargins s.waiting) :
    OnlyMargins (s.seqStored a m).waiting := by
  simp [State.seqStored, h]

@[simp] theorem State.afterStore_margins (a : Nat) (old w m : Word) (h : OnlyMargins s.waiting) :
    OnlyMargins (s.afterStore a old w m).waiting := by
  unfold State.afterStore
  split <;> simp [h]

@[simp] theorem State.store_margins (p : Party) (a : Nat) (w m : Word) (h : OnlyMargins s.waiting) :
    OnlyMargins (s.store p a w m).waiting := by
  unfold State.store
  split <;> simp [h]

@[simp] theorem State.ownedStore_margins (p : Party) (named a : Nat) (w m : Word) (h : OnlyMargins s.waiting) :
    OnlyMargins (s.ownedStore p named a w m).waiting := by
  unfold State.ownedStore
  split <;> simp [h]

@[simp] theorem State.clearPlaced_margins (h : OnlyMargins s.waiting) : OnlyMargins s.clearPlaced.waiting := by
  simp -implicitDefEqProofs [State.clearPlaced]
  exact onlyMargins_foldl (fun s n h => by simp [h]) _ _ (by simp [h])

@[simp] theorem State.clearConfig_margins (h : OnlyMargins s.waiting) :
    OnlyMargins s.clearConfig.waiting := by
  simp -implicitDefEqProofs [State.clearConfig, h]

@[simp] theorem State.loadFail_margins (code : Nat) (h : OnlyMargins s.waiting) :
    OnlyMargins (s.loadFail code).waiting := by
  simp -implicitDefEqProofs [State.loadFail, h]

@[simp] theorem State.loadStep_margins (h : OnlyMargins s.waiting) :
    OnlyMargins s.loadStep.waiting := by
  simp [State.loadStep, h]

@[simp] theorem State.loadFeed_margins (b : List Byte) (h : OnlyMargins s.waiting) :
    OnlyMargins (s.loadFeed b).waiting := by
  simp [State.loadFeed, h]

@[simp] theorem State.calStart_margins (p : Party) (h : OnlyMargins s.waiting) :
    OnlyMargins (s.calStart p).waiting := by
  simp -implicitDefEqProofs [State.calStart, h]

@[simp] theorem State.calAbort_margins (h : OnlyMargins s.waiting) :
    OnlyMargins s.calAbort.waiting := by
  simp [State.calAbort, h]

@[simp] theorem State.calCtrl_margins (p : Party) (w : Word) (h : OnlyMargins s.waiting) :
    OnlyMargins (s.calCtrl p w).waiting := by
  simp [State.calCtrl, h]

@[simp] theorem State.calAp_margins (p : Party) (a : Nat) (w : Word) (h : OnlyMargins s.waiting) :
    OnlyMargins (s.calAp p a w).waiting := by
  simp [State.calAp, h]

@[simp] theorem State.dlvBegin_margins (reload : Bool) (flash : List Byte) (h : OnlyMargins s.waiting) :
    OnlyMargins (s.dlvBegin reload flash).waiting := by
  simp [State.dlvBegin, h]

@[simp] theorem State.dlvAbort_margins (h : OnlyMargins s.waiting) :
    OnlyMargins s.dlvAbort.waiting := by
  simp [State.dlvAbort, h]

@[simp] theorem State.dlvCmd_margins (p : Party) (op : Nat) (flash : List Byte) (h : OnlyMargins s.waiting) :
    OnlyMargins (s.dlvCmd p op flash).waiting := by
  simp [State.dlvCmd, h]

@[simp] theorem State.dlvStart_margins (reload : Bool) (h : OnlyMargins s.waiting) :
    OnlyMargins (s.dlvStart reload).waiting := by
  simp [State.dlvStart, h]

@[simp] theorem State.dlvData_margins (chunk : Nat) (b : List Byte) (h : OnlyMargins s.waiting) :
    OnlyMargins (s.dlvData chunk b).waiting := by
  simp [State.dlvData, h]

@[simp] theorem State.reloadStart_margins (p : Party) (w : Word) (h : OnlyMargins s.waiting) :
    OnlyMargins (s.reloadStart p w).waiting := by
  simp [State.reloadStart, h]

/-- No remote access for the ranks 1 to 3. -/
theorem State.raCmd_margins {p : Party} (op : Nat) (urgent : p.code < 3) (h : OnlyMargins s.waiting) :
    OnlyMargins (s.raCmd p op).waiting := by
  simp [State.raCmd, urgent, h]

theorem State.writeSys_margins (p : Party) (a : Nat) (w m : Word) (reset : a ≠ F.SYS_RST_CTRL.base)
    (h : OnlyMargins s.waiting) : OnlyMargins (s.writeSys p a w m).waiting := by
  simp [State.writeSys, reset, h]

@[simp] theorem State.writeCal_margins (p : Party) (a : Nat) (w m : Word) (h : OnlyMargins s.waiting) :
    OnlyMargins (s.writeCal p a w m).waiting := by
  simp [State.writeCal, h]

@[simp] theorem State.writeEsc_margins (p : Party) (a : Nat) (w m : Word) (h : OnlyMargins s.waiting) :
    OnlyMargins (s.writeEsc p a w m).waiting := by
  simp [State.writeEsc, h]

@[simp] theorem State.writeLink_margins (p : Party) (a : Nat) (w m : Word) (h : OnlyMargins s.waiting) :
    OnlyMargins (s.writeLink p a w m).waiting := by
  simp [State.writeLink, h]

theorem State.writeHier_margins {p : Party} (a : Nat) (w m : Word) (urgent : p.code < 3) (h : OnlyMargins s.waiting) :
    OnlyMargins (s.writeHier p a w m).waiting := by
  simp [State.writeHier, State.raCmd_margins, urgent, h]

@[simp] theorem State.writeMeas_margins (p : Party) (a : Nat) (w m : Word) (h : OnlyMargins s.waiting) :
    OnlyMargins (s.writeMeas p a w m).waiting := by
  simp [State.writeMeas, h]

@[simp] theorem State.writeFlt_margins (p : Party) (a : Nat) (w m : Word) (h : OnlyMargins s.waiting) :
    OnlyMargins (s.writeFlt p a w m).waiting := by
  simp [State.writeFlt, h]

@[simp] theorem State.writePwrp_margins (p : Party) (a : Nat) (w m : Word) (h : OnlyMargins s.waiting) :
    OnlyMargins (s.writePwrp p a w m).waiting := by
  simp [State.writePwrp, h]

@[simp] theorem State.writeKeep_margins (p : Party) (a : Nat) (w m : Word) (h : OnlyMargins s.waiting) :
    OnlyMargins (s.writeKeep p a w m).waiting := by
  unfold State.writeKeep
  dsimp only
  (repeat' split) <;> simp [h]

@[simp] theorem State.writePe_margins (p : Party) (a : Nat) (w m : Word) (h : OnlyMargins s.waiting) :
    OnlyMargins (s.writePe p a w m).waiting := by
  unfold State.writePe
  dsimp only
  split
  · simp [h]
  · have restarts (n : Nat) := State.peRestartCmd_margins _ n (State.peGo_margins s n p h)
    (repeat' split) <;> simp [h, State.peStopCmd_margins _ _ (restarts _)]

@[simp] theorem State.writeMem_margins (p : Party) (a : Nat) (w m : Word) (h : OnlyMargins s.waiting) :
    OnlyMargins (s.writeMem p a w m).waiting := by
  simp [State.writeMem, h]

@[simp] theorem State.pointAct_margins (p : Party) (a kind i : Nat) (c : Word) (h : OnlyMargins s.waiting) :
    OnlyMargins (s.pointAct p a kind i c).waiting := by
  simp [State.pointAct, h]

@[simp] theorem State.pointWrite_margins (p : Party) (a : Nat) (w m : Word) (h : OnlyMargins s.waiting) :
    OnlyMargins (s.pointWrite p a w m).waiting := by
  simp [State.pointWrite, h]

theorem State.writeWord_margins {p : Party} (a : Nat) (w m : Word) (urgent : p.code < 3)
    (reset : a ≠ F.SYS_RST_CTRL.base) (h : OnlyMargins s.waiting) : OnlyMargins (s.writeWord p a w m).waiting := by
  unfold State.writeWord
  (repeat' split) <;> simp [State.writeSys_margins, State.writeHier_margins, urgent, reset, h]

end Sys2Proof.Machine
end

/-! # The events and accesses that a store leaves

A store only adds to the events (`_begins`) and to the accesses that wait (`_waits`). -/

section
namespace Sys2Proof.Machine

variable (s : State) (l : List Event) (x : Access)

@[simp] theorem begins_ite (c : Prop) [Decidable c] (a b : List Event) :
    (l <+: if c then a else b) ↔ (c → l <+: a) ∧ (¬ c → l <+: b) := by
  split <;> simp [*]

@[simp] theorem mem_waiting_ite (c : Prop) [Decidable c] (a b : List Access) :
    (x ∈ if c then a else b) ↔ (c → x ∈ a) ∧ (¬ c → x ∈ b) := by
  split <;> simp [*]

theorem begins_foldl {α : Type} {f : State → α → State}
    (step : ∀ (s : State) (a : α), l <+: s.events → l <+: (f s a).events) (as : List α) (s : State)
    (h : l <+: s.events) : l <+: (as.foldl f s).events := by
  induction as generalizing s with
  | nil => exact h
  | cons a as ih => exact ih _ (step s a h)

@[simp] theorem State.marginForward_events (n : Nat) : (s.marginForward n).events = s.events := by
  simp [State.marginForward]

@[simp] theorem State.seqStored_events (a : Nat) (m : Word) : (s.seqStored a m).events = s.events := by
  simp [State.seqStored]

@[simp] theorem State.portWrite_events (p : Party) (k : Nat) (w : Word) : (s.portWrite p k w).events = s.events := by
  simp [State.portWrite]

@[simp] theorem State.raise_begins (cls ev obj : Nat) (data0 : Word) (dev : Option Nat) (h : l <+: s.events) :
    l <+: (s.raise cls ev obj data0 dev).events := by
  unfold State.raise
  split
  · exact h
  · exact h.trans ⟨_, rfl⟩

@[simp] theorem State.raiseReg_begins (cls ev obj : Nat) (f : Fld) (i : Nat) (h : l <+: s.events) :
    l <+: (s.raiseReg cls ev obj f i).events := by
  simp [State.raiseReg, h]

@[simp] theorem State.notice_begins (p : Party) (a : Nat) (h : l <+: s.events) :
    l <+: (s.notice p a).events := by
  unfold State.notice
  split <;> simp [h]

@[simp] theorem State.sramRead_begins (src k : Nat) (h : l <+: s.events) :
    l <+: (s.sramRead src k).2.2.events := by
  unfold State.sramRead
  dsimp only
  (repeat' split) <;> simp [h]

@[simp] theorem State.heal_begins (from' : Nat) (send : Bool) (h : l <+: s.events) :
    l <+: (s.heal from' send).events := by
  simp [State.heal, h]

@[simp] theorem State.portGoesDown_begins (p : Nat) (ld : Bool) (h : l <+: s.events) :
    l <+: (s.portGoesDown p ld).events := by
  simp [State.portGoesDown, h]

@[simp] theorem State.chgToFault_begins (h : l <+: s.events) :
    l <+: s.chgToFault.events := by
  simp [State.chgToFault, h]

@[simp] theorem State.chgEval_begins (h : l <+: s.events) :
    l <+: s.chgEval.events := by
  simp [State.chgEval, h]

@[simp] theorem State.ppCfg_begins (h : l <+: s.events) :
    l <+: s.ppCfg.events := by
  simp [State.ppCfg, h]

@[simp] theorem State.pwrpStored_begins (a : Nat) (h : l <+: s.events) :
    l <+: (s.pwrpStored a).events := by
  simp [State.pwrpStored, h]

@[simp] theorem State.keepByte_begins (p : Party) (a b v : Nat) (h : l <+: s.events) :
    l <+: (s.keepByte p a b v).events := by
  unfold State.keepByte
  split
  · simp [h]
  · next t queued => simp [s.keepQueue_keeps _ t queued, h]

@[simp] theorem State.portsFollow_begins (h : l <+: s.events) : l <+: s.portsFollow.events := by
  unfold State.portsFollow
  refine begins_foldl l (fun s p h => ?_) _ _ h
  simp [h]

@[simp] theorem State.linkStored_begins (a : Nat) (h : l <+: s.events) :
    l <+: (s.linkStored a).events := by
  simp [State.linkStored, h]

@[simp] theorem State.afterStore_begins (a : Nat) (old w m : Word) (h : l <+: s.events) :
    l <+: (s.afterStore a old w m).events := by
  unfold State.afterStore
  split <;> simp [h]

@[simp] theorem State.store_begins (p : Party) (a : Nat) (w m : Word) (h : l <+: s.events) :
    l <+: (s.store p a w m).events := by
  unfold State.store
  split <;> simp [h]

@[simp] theorem State.arbDrop_begins (p : Party) (named : Nat) (h : l <+: s.events) :
    l <+: (s.arbDrop p named).events := by
  simp -implicitDefEqProofs [State.arbDrop, h]

@[simp] theorem State.ownedStore_begins (p : Party) (named a : Nat) (w m : Word) (h : l <+: s.events) :
    l <+: (s.ownedStore p named a w m).events := by
  unfold State.ownedStore
  split <;> simp [h]

@[simp] theorem State.windowWrite_begins (p : Party) (a : Nat) (w : Word) (h : l <+: s.events) :
    l <+: (s.windowWrite p a w).events := by
  unfold State.windowWrite
  dsimp only
  (repeat' split) <;> simp [h]

@[simp] theorem State.pointOf_begins (a : Nat) (h : l <+: s.events) :
    l <+: (s.pointOf a).2.events := by
  simp [State.pointOf, h]

@[simp] theorem State.pointAct_begins (p : Party) (a kind i : Nat) (c : Word) (h : l <+: s.events) :
    l <+: (s.pointAct p a kind i c).events := by
  simp [State.pointAct, h]

@[simp] theorem State.pointWrite_begins (p : Party) (a : Nat) (w m : Word) (h : l <+: s.events) :
    l <+: (s.pointWrite p a w m).events := by
  simp [State.pointWrite, h]

@[simp] theorem State.marginForward_waits (n : Nat) (h : x ∈ s.waiting) : x ∈ (s.marginForward n).waiting := by
  unfold State.marginForward
  split
  · exact List.mem_append_left _ h
  · exact h

@[simp] theorem State.seqStored_waits (a : Nat) (m : Word) (h : x ∈ s.waiting) :
    x ∈ (s.seqStored a m).waiting := by
  simp [State.seqStored, h]

@[simp] theorem State.afterStore_waits (a : Nat) (old w m : Word) (h : x ∈ s.waiting) :
    x ∈ (s.afterStore a old w m).waiting := by
  unfold State.afterStore
  split <;> simp [h]

@[simp] theorem State.store_waits (p : Party) (a : Nat) (w m : Word) (h : x ∈ s.waiting) :
    x ∈ (s.store p a w m).waiting := by
  unfold State.store
  split <;> simp [h]

@[simp] theorem State.ownedStore_waits (p : Party) (named a : Nat) (w m : Word) (h : x ∈ s.waiting) :
    x ∈ (s.ownedStore p named a w m).waiting := by
  unfold State.ownedStore
  split <;> simp [h]

@[simp] theorem State.pointAct_waits (p : Party) (a kind i : Nat) (c : Word) (h : x ∈ s.waiting) :
    x ∈ (s.pointAct p a kind i c).waiting := by
  simp [State.pointAct, h]

@[simp] theorem State.pointWrite_waits (p : Party) (a : Nat) (w m : Word) (h : x ∈ s.waiting) :
    x ∈ (s.pointWrite p a w m).waiting := by
  simp [State.pointWrite, h]

end Sys2Proof.Machine
end

/-! # Arbitration of the writes of one cycle (R27–R32) -/

section
namespace Sys2Proof.Machine

/-! ### A forwarded margin is written -/

theorem blockOf_above {a : Nat} (above : 0x2000 ≤ a) : 5 ≤ blockOf a := by
  unfold blockOf
  grind

/-- No register with an effect of its own stands at an address where margins are forwarded, but for an engine's
mailbox. -/
theorem State.writeWord_forwarded (s : State) {a : Nat} (w m : Word) (above : 0x2000 ≤ a) (low : a % 256 = 4)
    {C : State → Prop} (owned : C (s.ownedStore .seq a a w m)) (notice : C (s.notice .seq a))
    (window : C (s.windowWrite .seq a w)) (point : C (s.pointWrite .seq a w m))
    (mailbox : ∀ n k v, C (s.mboxWrite n k v)) : C (s.writeWord .seq a w m) := by
  have block := blockOf_above above
  have apart (f : Fld) (h : f.base % 256 ≠ 4) : a ≠ f.base := fun e => h (e ▸ low)
  have meas : s.writeMeas .seq a w m = s.ownedStore .seq a a w m := by
    unfold State.writeMeas
    rw [if_neg (by omega), if_neg (apart F.MON_TEST (by decide))]
  have flt : s.writeFlt .seq a w m = s.ownedStore .seq a a w m := if_neg (apart F.FLT_CMD (by decide))
  have pwrp : s.writePwrp .seq a w m = s.ownedStore .seq a a w m := if_neg (apart F.PWRP_CTRL (by decide))
  have keep : s.writeKeep .seq a w m = s.ownedStore .seq a a w m := by
    unfold State.writeKeep
    rw [if_neg (apart F.KEEP_STAT (by decide)), if_neg (apart F.KEEP_CFG (by decide)),
      if_neg (apart F.KEEP_CMD (by decide))]
  have mem : s.writeMem .seq a w m = s.ownedStore .seq a a w m := by
    unfold State.writeMem
    rw [if_neg (apart F.MEM_SCRUB (by decide)), if_neg (apart F.MEM_CNT_CLR (by decide)),
      if_neg (apart F.MEM_CHK_CMD (by decide)), if_neg (apart F.OTP_CMD (by decide))]
  have pe : C (s.writePe .seq a w m) := by
    unfold State.writePe
    rw [if_neg (apart F.PE_NOTIFY (by decide))]
    split
    · dsimp only
      rw [if_neg (by omega), if_pos (by omega)]
      exact mailbox _ _ _
    · exact owned
  have free : C (if isEngine .seq then s.notice .seq a else s.ownedStore .seq a a w m) := owned
  unfold State.writeWord
  rw [meas, flt, pwrp, keep, mem]
  split
  · exact window
  · exact point
  · exact notice
  · exact notice
  · split
    · exact notice
    · split <;> first | with_reducible assumption | omega

theorem State.writeWord_forwarded_waits (s : State) (x : Access) {a : Nat} (w m : Word) (above : 0x2000 ≤ a)
    (low : a % 256 = 4) (h : x ∈ s.waiting) : x ∈ (s.writeWord .seq a w m).waiting :=
  s.writeWord_forwarded (C := fun t => x ∈ t.waiting) w m above low (s.ownedStore_waits x _ _ _ _ _ h)
    ((s.notice_keeps _ _).2 ▸ h) ((s.windowWrite_keeps _ _ _).2 ▸ h) (s.pointWrite_waits x _ _ _ _ h)
    fun n k v => (s.mboxWrite_keeps n k v).1.2 ▸ h

theorem State.writeWord_forwarded_begins (s : State) (l : List Event) {a : Nat} (w m : Word) (above : 0x2000 ≤ a)
    (low : a % 256 = 4) (h : l <+: s.events) : l <+: (s.writeWord .seq a w m).events :=
  s.writeWord_forwarded (C := fun t => l <+: t.events) w m above low (s.ownedStore_begins l _ _ _ _ _ h)
    (s.notice_begins l _ _ h) (s.windowWrite_begins l _ _ _ h) (s.pointWrite_begins l _ _ _ _ h)
    fun n k v => (s.mboxWrite_keeps n k v).2 ▸ h

/-! ### Which access a block grants -/

theorem State.mem_waiting_of_outstanding (s : State) : ∀ y ∈ s.outstanding, y ∈ s.waiting := by
  unfold State.outstanding
  refine List.foldlRecOn (motive := fun r => ∀ y ∈ r, y ∈ s.waiting) _ _ (by simp) fun r hr x hx y hy => ?_
  split at hy
  · exact hr y hy
  · rcases List.mem_append.1 hy with old | new
    · exact hr y old
    · rw [List.mem_singleton.1 new]; exact List.mem_of_mem_filter hx

/-- A block that ranks 1 to 3 have taken grants nothing; another grants an access that waits at it. -/
theorem State.pick_some {s : State} {b : Nat} {y : Access} (h : s.pick b = some y) :
    b ∉ s.occupied ∧ y ∈ s.waiting ∧ s.grantBlock y.addr = b := by
  unfold State.pick at h
  split at h
  · exact absurd h (by simp)
  · next free =>
    have here : y ∈ s.waitingAt b := by
      refine List.foldlRecOn (motive := fun r => ∀ y, r = some y → y ∈ s.waitingAt b) _ _ (by simp)
        (fun r hr x hx y hy => ?_) y h
      have new := List.mem_of_mem_filter hx
      split at hy
      · exact Option.some.inj hy ▸ new
      · split at hy
        · exact Option.some.inj hy ▸ new
        · exact hr y hy
    exact ⟨fun taken => free (List.contains_iff_mem.2 taken),
      s.mem_waiting_of_outstanding y (List.mem_of_mem_filter here), by simpa using List.of_mem_filter here⟩

theorem mem_dropOne {x y : Access} (ne : x ≠ y) {l : List Access} (h : x ∈ l) : x ∈ dropOne y l := by
  induction l with
  | nil => exact h
  | cons a l ih =>
    unfold dropOne
    split
    · next e =>
      rcases List.mem_cons.1 h with rfl | later
      · exact absurd e ne
      · exact later
    · rcases List.mem_cons.1 h with rfl | later
      · exact List.mem_cons_self
      · exact List.mem_cons_of_mem _ (ih later)

/-! ### An access that waits while margins are forwarded -/

/-- The access waits, and no event of this cycle is taken in it. -/
def State.StillWaits (x : Access) (s : State) : Prop := x ∈ s.waiting ∧ ∀ e ∈ s.events, e.ready = false

theorem State.eventsLater_ready {s t : State} (began : s.events <+: t.events) (h : ∀ e ∈ s.events, e.ready = false) :
    ∀ e ∈ (t.eventsLater s.events.length).events, e.ready = false := by
  intro e he
  obtain ⟨added, began⟩ := began
  unfold State.eventsLater at he
  rw [← began, List.take_left] at he
  rcases List.mem_append.1 he with old | new
  · exact h e old
  · obtain ⟨d, -, rfl⟩ := List.mem_map.1 new
    rfl

theorem State.StillWaits.noteGrant {x y : Access} {s : State} (h : s.StillWaits x) (ne : x ≠ y) (b : Nat) :
    (s.noteGrant b y).StillWaits x := ⟨mem_dropOne ne h.1, h.2⟩

theorem State.StillWaits.serve {x y : Access} {s : State} (h : s.StillWaits x) (margin : y.forwardsMargin) :
    (s.serve y).2.StillWaits x := by
  obtain ⟨party, plain, word, t, -, addr⟩ := margin
  obtain ⟨w, word⟩ := Option.isSome_iff_exists.1 word
  have at' : F.LOOPn_TARGET_MARGIN.addr t = 0x2004 + 0x100 * t := rfl
  have served : (s.serve y).2 = (s.writeWord .seq y.addr w y.mask).eventsLater s.events.length := by
    unfold State.serve State.writeBits
    rw [word, plain, party]
  have waits := s.writeWord_forwarded_waits x (a := y.addr) w y.mask (by omega) (by omega) h.1
  have began := s.writeWord_forwarded_begins s.events (a := y.addr) w y.mask (by omega) (by omega)
    ⟨[], List.append_nil _⟩
  rw [served]
  exact ⟨waits, State.eventsLater_ready began h.2⟩

/-- No access but the margins is granted: the block of the one that waits is taken. -/
theorem State.grantCycle_stillWaits {x : Access} {s : State} (h : s.StillWaits x) (plain : x.ra = none)
    (taken : s.grantBlock x.addr ∈ s.occupied) (others : ∀ y ∈ s.waiting, y = x ∨ y.forwardsMargin) :
    s.grantCycle.2.StillWaits x := by
  have noEnds : s.waiting.filter (fun y => y.isEnd) = [] := by
    refine List.filter_eq_nil_iff.2 fun y hy => ?_
    have none : y.ra = none := by
      rcases others y hy with rfl | ⟨-, none, -⟩
      · exact plain
      · exact none
    simp [Access.isEnd, none]
  unfold State.grantCycle
  rw [noEnds]
  refine List.foldlRecOn (motive := fun (r : List (Access × Word) × State) => r.2.StillWaits x) _ _ h
    fun r hr p hp => ?_
  have any : p ∈ (s.outstanding.map fun y => s.grantBlock y.addr).eraseDups.filterMap
      fun b => (s.pick b).map fun y => (b, y) := by
    rcases List.mem_append.1 hp with write | read
    · exact List.mem_of_mem_filter write
    · exact List.mem_of_mem_filter read
  obtain ⟨b, -, picked⟩ := List.mem_filterMap.1 any
  obtain ⟨y, chosen, rfl⟩ := Option.map_eq_some_iff.1 picked
  obtain ⟨free, waits, block⟩ := State.pick_some chosen
  have ne : x ≠ y := fun e => free (by rw [← block, ← e]; exact taken)
  split
  · exact (hr.noteGrant ne _).serve ((others y waits).resolve_left ne.symm)
  · exact hr

theorem State.StillWaits.settle {x : Access} {s : State} (h : s.StillWaits x) : x ∈ s.settle.waiting := by
  rw [(s.aside_settle h.2).same_waiting]
  exact h.1

theorem State.StillWaits.runTrigs {x : Access} {s : State} (h : s.StillWaits x) : x ∈ s.runTrigs.waiting := by
  rw [s.runTrigs_keeps.1.2]
  exact h.1

theorem State.endCycle_stillWaits {x : Access} {s : State} (h : s.StillWaits x) (plain : x.ra = none)
    (taken : s.grantBlock x.addr ∈ s.occupied) (others : ∀ y ∈ s.waiting, y = x ∨ y.forwardsMargin) (l : List Nat) :
    x ∈ (s.endCycle l).2.waiting := by
  unfold State.endCycle
  split
  · exact h.runTrigs
  · have granted : ({ s with occupied := s.occupied ++ l } : State).grantCycle.2.StillWaits x :=
      State.grantCycle_stillWaits (s := { s with occupied := s.occupied ++ l }) h plain
        (List.mem_append_left _ taken) others
    dsimp only
    split
    · exact granted.runTrigs
    · exact granted.settle

/-! ### The block of an access -/

/-- The block an access reaches depends on the memory alone, which holds the records of the points. -/
theorem State.grantBlock_congr {s t : State} (sram : t.sram = s.sram) (raw : t.sramRaw = s.sramRaw) (b : Nat) :
    t.grantBlock b = s.grantBlock b := by
  unfold State.grantBlock State.pointRec State.eccRead
  rw [sram, raw]

theorem State.grantBlock_register (s : State) {b : Nat} (h : blockOf b ≠ 22) (t : State) :
    t.grantBlock b = s.grantBlock b := by
  unfold State.grantBlock
  simp only [h, if_false]

/-- Blocks that an access to a point reaches. -/
theorem State.grantBlock_point (s : State) {b : Nat} (h : blockOf b = 22) :
    s.grantBlock b ∈ [5, 6, 7, 8, 9, 10, 11, 15, 22] := by
  unfold State.grantBlock
  dsimp only
  rw [if_neg (by omega), if_neg (by omega), if_pos h]
  split <;> decide

theorem State.pointOf_memory (s : State) {a : Nat} (h : blockOf a = 22) : s.KeepsMemory (s.pointOf a).2 := by
  have region : sramKey 9 (2048 + (a - 0x9000)) / 16384 = 9 := by
    have lt : a < 0x9800 := by
      unfold blockOf at h
      grind
    unfold sramKey; omega
  unfold State.pointOf State.sramRead
  simp only [region]
  (repeat' split) <;> simp_all

theorem State.pointWrite_memory (s : State) {p : Party} {a : Nat} (w m : Word) (h : blockOf a = 22) :
    s.KeepsMemory (s.pointWrite p a w m) := by
  obtain ⟨-, sram, raw⟩ := s.pointOf_memory h
  simp [State.pointWrite, sram, raw]

theorem State.writeWord_memory (s : State) {p : Party} {a : Nat} (w m : Word)
    (h : blockOf a ∈ [5, 6, 7, 8, 9, 10, 11, 15, 22]) : s.KeepsMemory (s.writeWord p a w m) := by
  unfold State.writeWord
  split
  case h_2 => exact s.pointWrite_memory w m ‹_›
  case h_5 =>
    split
    · simp
    · split <;> first | simp; done | simp_all
  all_goals simp_all

/-- A write to the block that an access reaches does not change which block that is. -/
theorem State.grantBlock_writeWord (s : State) {p : Party} {a b : Nat} (w m : Word)
    (same : s.grantBlock a = s.grantBlock b) : (s.writeWord p a w m).grantBlock b = s.grantBlock b := by
  by_cases point : blockOf b = 22
  · have block : blockOf a ∈ [5, 6, 7, 8, 9, 10, 11, 15, 22] := by
      have here := same ▸ s.grantBlock_point point
      by_cases other : blockOf a = 22
      · rw [other]; decide
      · unfold State.grantBlock at here
        dsimp only at here
        rw [if_neg other] at here
        split at here
        · exact absurd here (by decide)
        · split at here
          · exact absurd here (by decide)
          · exact here
    obtain ⟨-, sram, raw⟩ := s.writeWord_memory (p := p) w m block
    exact State.grantBlock_congr sram raw b
  · exact s.grantBlock_register point _

/-! ### Writes of one cycle, with nothing else under way -/

/-- The writes of a party of ranks 1 to 3, each of which takes its block. -/
def State.takenBy (p : Party) (l : List (Party × BitVec 16 × Word)) (s : State) : State :=
  (ofParty p l).foldl (fun s x => (s.occupy x.2.1.toNat).writeReg p x.2.1.toNat x.2.2) s

/-- The writes of ranks 4 to 14, which wait for their grants. -/
def State.withWaiting (l : List (Party × BitVec 16 × Word)) (s : State) : State :=
  l.foldl (fun s x =>
    if x.1.urgent then s
    else { s with waiting := s.waiting ++ [{ party := x.1, addr := x.2.1.toNat, word := some x.2.2 }] }) s

/-- The writes of ranks 2 and 3, with which a cycle begins. -/
def State.begun (l : List (Party × BitVec 16 × Word)) (s : State) : State :=
  State.takenBy .test l (State.takenBy .strike l s.cycleStart)

theorem State.Quiet.cycleStart_events {s : State} (h : s.Quiet) : s.cycleStart.events = [] := by
  rw [State.cycleStart_quiet s h.due h.events h.line h.burst, State.cycles_quiet s 1 h.due h.events]
  exact h.events

theorem State.registerWrites_quiet {s : State} (h : s.Quiet) (l : List (Party × BitVec 16 × Word))
    (shut : s.tapOn = false → ∀ x ∈ l, x.1 ≠ .test) :
    s.registerWrites l = (State.endCycle (s.begun l).reactedBlocks (State.withWaiting l
      (if (ofParty .reaction l).isEmpty then (s.begun l).reactions
        else (State.takenBy .reaction l (s.begun l).reactions).reactions))).2 := by
  have due : s.cycleStart.eventsDue = false := by simp [State.eventsDue, h.cycleStart_events]
  have all : (if s.tapOn then l else l.filter (fun x => decide (x.1 ≠ .test))) = l := by
    split
    · rfl
    · next off => exact List.filter_eq_self.2 fun x hx => decide_eq_true (shut (by simpa using off) x hx)
  unfold State.registerWrites
  simp only [h.fabric', all, due, Bool.false_eq_true, if_false]
  rfl

/-- No party of ranks 1 to 3 writes: the writes wait for the grants of the cycle. -/
theorem State.registerWrites_plain {s : State} (h : s.Quiet) (l : List (Party × BitVec 16 × Word))
    (plain : ∀ x ∈ l, x.1.urgent = false) :
    s.registerWrites l = (State.endCycle [] (State.withWaiting l s.cycleStart.reactions)).2 := by
  have none (p : Party) (urgent : p.urgent = true) : ofParty p l = [] :=
    List.filter_eq_nil_iff.2 fun x hx => by
      have := plain x hx
      simp only [decide_eq_true_eq]
      rintro rfl
      simp [urgent] at this
  have begun : s.begun l = s.cycleStart := by
    unfold State.begun State.takenBy
    rw [none .strike rfl, none .test rfl]; rfl
  rw [s.registerWrites_quiet h l fun _ x hx e => by simpa [e, Party.urgent] using plain x hx, begun, none .reaction rfl,
    State.reactedBlocks_none _ h.cycleStart_events]
  rfl

/-! ### The next cycle -/

/-- The state one fabric cycle later, where nothing happens in it. -/
def State.oneLater (s : State) : State :=
  { s with now := s.now + 1, tick := if s.ticking then (s.tick + 1) % 2 ^ 64 else s.tick, occupied := [] }

theorem State.Quiet.aside_react {s : State} (h : s.Quiet) : s.oneLater.Aside s.cycleStart.reactions :=
  s.aside_react h.due h.events h.line h.burst

theorem State.Quiet.aside_start {s : State} (h : s.Quiet) : s.oneLater.Aside s.cycleStart := by
  rw [State.cycleStart_quiet s h.due h.events h.line h.burst, State.cycles_quiet s 1 h.due h.events]
  exact .refl _

theorem State.Aside.nextCycle {s c : State} (h : s.oneLater.Aside c) : s.NextCycle c := by
  unfold State.NextCycle
  rw [h.same_occupied]
  exact h

theorem State.Aside.nextCycle_occupy {s c : State} (h : s.oneLater.Aside c) (a : Nat) : s.NextCycle (c.occupy a) :=
  h.with_occupied _

theorem State.Aside.grantBlock {s c : State} (h : s.oneLater.Aside c) (b : Nat) : c.grantBlock b = s.grantBlock b :=
  State.grantBlock_congr (by rw [h.rest]; rfl) (by rw [h.rest]; rfl) b

theorem State.Aside.fabricOn {s c : State} (h : s.oneLater.Aside c) (on : s.fabricOn = true) : c.fabricOn = true := by
  unfold State.fabricOn at on ⊢
  rw [h.same_phase]
  exact on

/-! ### One write -/

theorem State.withWaiting_urgent (s : State) {p : Party} (a : BitVec 16) (w : Word) (urgent : p.urgent = true) :
    s.withWaiting [(p, a, w)] = s := by
  simp [State.withWaiting, urgent]

theorem State.registerWrites_one {s : State} (h : s.Quiet) (p : Party) (a : BitVec 16) (w : Word)
    (plain : p.urgent = false) :
    s.registerWrites [(p, a, w)] = (s.cycleStart.reactions.writeReg p a.toNat w).settle := by
  let x : Access := { party := p, addr := a.toNat, word := some w }
  have aside := h.aside_react
  set c := s.cycleStart.reactions
  have waiting : c.waiting = [] := aside.same_waiting.trans h.waiting
  have queued : c.withWaiting [(p, a, w)] = { c with waiting := [x] } := by
    simp [State.withWaiting, plain, waiting, x]
  have granted := State.grantCycle_one { c with waiting := [x] } x rfl rfl (aside.same_barred.trans h.barred)
    aside.same_occupied
  have empty : ({ c with waiting := [] } : State) = c := by rw [← waiting]
  rw [s.registerWrites_plain h _ (by simpa using plain), queued,
    State.endCycle_nil { c with waiting := [x] } (by simp) (aside.fabricOn h.fabric), granted]
  dsimp only
  rw [empty]
  rfl

theorem State.registerWrites_one_urgent {s : State} (h : s.Quiet) (p : Party) (a : BitVec 16) (w : Word)
    (urgent : p.urgent = true) (admitted : s.admits p = true) :
    ∃ c l, s.NextCycle c ∧ s.registerWrites [(p, a, w)] = (State.endCycle l (c.writeReg p a.toNat w).reactions).2 := by
  have shut : s.tapOn = false → ∀ x ∈ [(p, a, w)], x.1 ≠ .test := by
    simp only [List.mem_singleton, forall_eq]
    rintro off rfl
    simp [State.admits, off] at admitted
  rw [s.registerWrites_quiet h _ shut, State.withWaiting_urgent _ a w urgent]
  cases p with
  | reaction => exact ⟨s.cycleStart.reactions.occupy a.toNat, _, h.aside_react.nextCycle_occupy _, rfl⟩
  | test => exact ⟨s.cycleStart.occupy a.toNat, _, h.aside_start.nextCycle_occupy _, rfl⟩
  | strike => exact ⟨s.cycleStart.occupy a.toNat, _, h.aside_start.nextCycle_occupy _, rfl⟩
  | seq => exact absurd urgent (by decide)
  | pe n => exact absurd urgent (by simp [Party.urgent])
  | link => exact absurd urgent (by decide)
  | host => exact absurd urgent (by decide)

/-! ### Two writes at one block -/

/-- Of two accesses that wait at a block the one of the lower rank is granted, and its party is barred until the other has
been. -/
theorem State.grantCycle_two {s : State} {x y : Access} {w : Word} (wx : x.word = some w) (px : x.ra = none)
    (py : y.ra = none) (waiting : s.waiting = [y, x]) (barred : s.barred = []) (occupied : s.occupied = [])
    (rank : x.party.code < y.party.code) (same : s.grantBlock x.addr = s.grantBlock y.addr) :
    let u : State := { s with waiting := [y], barred := [(s.grantBlock x.addr, x.party.code, [y.party.code])] }
    s.grantCycle = ([(x, (u.serve x).1)], (u.serve x).2) := by
  have ex : x.isEnd = false := by simp [Access.isEnd, px]
  have ey : y.isEnd = false := by simp [Access.isEnd, py]
  have ne : y ≠ x := fun e => by rw [e] at rank; exact lt_irrefl _ rank
  have out : s.outstanding = [y, x] := by
    simp [State.outstanding, waiting, ex, ey, Access.sameTurn, rank.ne]
  have here : s.waitingAt (s.grantBlock x.addr) = [y, x] := by simp [State.waitingAt, out, same]
  have pick : s.pick (s.grantBlock x.addr) = some x := by
    simp [State.pick, occupied, here, State.mayGrant, barred, rank]
  have note : s.noteGrant (s.grantBlock x.addr) x =
      { s with waiting := [y], barred := [(s.grantBlock x.addr, x.party.code, [y.party.code])] } := by
    simp [State.noteGrant, here, barred, waiting, dropOne, ne, rank.ne', List.eraseDups_cons]
  have once : [s.grantBlock x.addr, s.grantBlock x.addr].eraseDups = [s.grantBlock x.addr] := by
    simp [List.eraseDups_cons]
  unfold State.grantCycle
  simp [waiting, ex, ey, out, ← same, once, pick, note, wx]

theorem State.registerWrites_ranked {s : State} (h : s.Quiet) {p q : Party} {a b : BitVec 16} (v w : Word)
    (plainP : p.urgent = false) (plainQ : q.urgent = false) (rank : p.code < q.code)
    (same : s.grantBlock a.toNat = s.grantBlock b.toNat) :
    ∃ c, s.NextCycle c ∧ s.registerWrites [(q, b, w), (p, a, v)] =
      (({ c with waiting := [{ party := q, addr := b.toNat, word := some w }],
                 barred := [(c.grantBlock a.toNat, p.code, [q.code])] } : State).writeReg p a.toNat v).settle := by
  let x : Access := { party := p, addr := a.toNat, word := some v }
  let y : Access := { party := q, addr := b.toNat, word := some w }
  have aside := h.aside_react
  refine ⟨s.cycleStart.reactions, aside.nextCycle, ?_⟩
  set c := s.cycleStart.reactions
  have queued : c.withWaiting [(q, b, w), (p, a, v)] = { c with waiting := [y, x] } := by
    simp [State.withWaiting, plainP, plainQ, aside.same_waiting.trans h.waiting, x, y]
  have block : c.grantBlock a.toNat = c.grantBlock b.toNat := by rw [aside.grantBlock, aside.grantBlock, same]
  have granted := State.grantCycle_two (s := { c with waiting := [y, x] }) (x := x) (y := y) rfl rfl rfl rfl
    (aside.same_barred.trans h.barred) aside.same_occupied rank block
  rw [s.registerWrites_plain h _ (by simp [plainP, plainQ]), queued,
    State.endCycle_nil { c with waiting := [y, x] } (by simp) (aside.fabricOn h.fabric), granted]
  rfl

/-- The state after a write of ranks 2 and 3 and before the reactions of its cycle. -/
theorem State.begun_second (s : State) {p q : Party} (a b : BitVec 16) (v w : Word) (urgent : p = .strike ∨ p = .test)
    (plain : q.urgent = false) :
    s.begun [(q, b, w), (p, a, v)] = (s.cycleStart.occupy a.toNat).writeReg p a.toNat v ∧
      ofParty .reaction [(q, b, w), (p, a, v)] = [] := by
  have strike : q ≠ .strike := by rintro rfl; exact absurd plain (by decide)
  have test : q ≠ .test := by rintro rfl; exact absurd plain (by decide)
  have reaction : q ≠ .reaction := by rintro rfl; exact absurd plain (by decide)
  rcases urgent with rfl | rfl <;> simp [State.begun, State.takenBy, ofParty, strike, test, reaction]

theorem State.withWaiting_second (s : State) {p q : Party} (a b : BitVec 16) (v w : Word) (urgent : p.urgent = true)
    (plain : q.urgent = false) : s.withWaiting [(q, b, w), (p, a, v)] =
      { s with waiting := s.waiting ++ [{ party := q, addr := b.toNat, word := some w }] } := by
  simp [State.withWaiting, urgent, plain]

/-- What a write leaves to wait, and the block that another access reaches, with no event before it. -/
theorem State.writeReg_urgent {c : State} {p : Party} {a b : Nat} (v : Word) (code : p.code < 3)
    (reset : a ≠ F.SYS_RST_CTRL.base) (events : c.events = []) (waiting : c.waiting = [])
    (same : c.grantBlock a = c.grantBlock b) :
    let u := c.writeReg p a v
    OnlyMargins u.waiting ∧ (∀ e ∈ u.events, e.ready = false) ∧ u.occupied = c.occupied ∧
      u.grantBlock b = c.grantBlock b := by
  refine ⟨c.writeWord_margins a v allBits code reset (by simp [waiting]),
    State.eventsLater_ready (by rw [events]; exact ⟨_, rfl⟩) (by simp [events]),
    (c.writeWord_keeps p a v allBits reset).1, c.grantBlock_writeWord v allBits same⟩

/-- A write of the strike unit or of the test port leaves the other party's access at its block to wait: what the write
starts are margins to be forwarded, and what it raises is taken in the next cycle. -/
theorem State.registerWrites_waits {s : State} (h : s.Quiet) {p q : Party} {a b : BitVec 16} (v w : Word)
    (admitted : s.admits p = true) (urgent : p = .strike ∨ p = .test) (plain : q.urgent = false)
    (reset : a.toNat ≠ F.SYS_RST_CTRL.base) (same : s.grantBlock a.toNat = s.grantBlock b.toNat) :
    { party := q, addr := b.toNat, word := some w } ∈ (s.registerWrites [(q, b, w), (p, a, v)]).waiting := by
  have shut : s.tapOn = false → ∀ x ∈ [(q, b, w), (p, a, v)], x.1 ≠ .test := by
    intro off
    simp only [List.mem_cons, List.not_mem_nil, or_false, forall_eq_or_imp, forall_eq]
    exact ⟨by rintro rfl; exact absurd plain (by decide), by rintro rfl; simp [State.admits, off] at admitted⟩
  have urgent' : p.urgent = true ∧ p.code < 3 := by rcases urgent with rfl | rfl <;> decide
  obtain ⟨begun, none⟩ := s.begun_second a b v w urgent plain
  have aside := h.aside_start
  obtain ⟨margins, later, occupied, block⟩ := State.writeReg_urgent (c := s.cycleStart.occupy a.toNat) (b := b.toNat) v
    urgent'.2 reset h.cycleStart_events (aside.same_waiting.trans h.waiting)
    ((aside.grantBlock _).trans (same.trans (aside.grantBlock _).symm))
  rw [s.registerWrites_quiet h _ shut, begun, none, if_pos List.isEmpty_nil,
    State.withWaiting_second _ a b v w urgent'.1 plain]
  set u := (s.cycleStart.occupy a.toNat).writeReg p a.toNat v
  have reacts := u.aside_reactions later
  refine State.endCycle_stillWaits ⟨by simp, ?_⟩ rfl ?_ (fun y hy => ?_) _
  · exact fun e he => later e (reacts.same_events ▸ he)
  · have here : (s.cycleStart.occupy a.toNat).grantBlock b.toNat ∈ (s.cycleStart.occupy a.toNat).occupied :=
      List.mem_append_right _ (List.mem_singleton.2
        ((aside.grantBlock _).trans (same.symm.trans (aside.grantBlock _).symm)))
    rw [← block, ← occupied, ← reacts.same_occupied] at here
    have kept : u.reactions.grantBlock b.toNat = u.grantBlock b.toNat :=
      State.grantBlock_congr (by rw [reacts.rest]) (by rw [reacts.rest]) _
    exact kept.symm ▸ here
  · rcases List.mem_append.1 hy with started | new
    · exact .inr (margins y (reacts.same_waiting ▸ started))
    · exact .inl (List.mem_singleton.1 new)

/-! ### Writes that are not made -/

theorem State.registerWrites_off {s : State} (off : s.fabricOn = false) (l : List (Party × BitVec 16 × Word)) :
    s.registerWrites l = s := by
  unfold State.registerWrites
  rw [off]
  rfl

theorem State.registerWrites_tapOff {s : State} (off : s.tapOn = false) (a : BitVec 16) (w : Word)
    (l : List (Party × BitVec 16 × Word)) : s.registerWrites ((.test, a, w) :: l) = s.registerWrites l := by
  have dropped : ((.test, a, w) :: l).filter (fun x => decide (x.1 ≠ Party.test)) =
    l.filter (fun x => decide (x.1 ≠ .test)) := by simp
  unfold State.registerWrites
  simp only [off, dropped, Bool.false_eq_true, if_false]

theorem exec_registerWrite (s : State) (l : List (Party × BitVec 16 × Word)) :
    exec (.registerWrite l) s = .next (s.registerWrites l) := rfl

/-- Settles O12: `registerWrites_waits` shows that the write of ranks 4 to 14 still waits when the cycle ends;
`registerWrites_ranked` has the order of ranks 4 to 14. -/
theorem writesAreArbitrated : Obligations.WritesAreArbitrated := by
  unfold Obligations.WritesAreArbitrated
  simp only [exec_registerWrite, Host.Outcome.next.injEq]
  refine ⟨?one, ?urgent, ?waits, ?ranked, ?off, ?tapOff⟩
  case one =>
    exact fun s p a w h plain => ⟨_, h.aside_react.nextCycle, State.registerWrites_one h p a w plain⟩
  case urgent =>
    exact fun s p a w h urgent admitted => State.registerWrites_one_urgent h p a w urgent admitted
  case waits =>
    exact fun s p q a b v w h admitted urgent plain reset same =>
      ⟨_, rfl, State.registerWrites_waits h v w admitted urgent plain reset same⟩
  case ranked =>
    exact fun s p q a b v w h plainP plainQ rank same => State.registerWrites_ranked h v w plainP plainQ rank same
  case off => exact fun s off l => State.registerWrites_off off l
  case tapOff => exact fun s a w l off => State.registerWrites_tapOff off a w l

end Sys2Proof.Machine
end

/-! # A failed rail whose stop time ends in the cycle that grants a reload (R67, R276, R284) -/

section
namespace Sys2Proof.Machine

theorem exec_startLoad (s : State) (p : Party) (both : Bool) :
    exec (.startLoad p both) s = .next (s.written p F.CAL_LOAD_CTRL.base (if both then 3 else 1)) := rfl

/-- Where no event is ready, the end of a cycle leaves the image load as it is. -/
theorem State.settle_load (s : State) (h : ∀ e ∈ s.events, e.ready = false) : s.settle.load = s.load := by
  rw [(s.aside_settle h).rest]

theorem State.NextCycle.load {s c : State} (h : s.NextCycle c) : c.load = s.load := by rw [State.Aside.rest h]

/-- A manager with an image loaded whose RAIL0, on pair 0, has failed: PWRGD0 is still high, and STOP_T, 10 ms by reset, ends
in the next cycle. -/
def railStopsNext : State :=
  { (({ State.reset with phase := .running } : State).put F.CAL_STAT_STATE calLoaded).put F.SEQ_RAILn_STAT_STATE rlFailed with
    now := 999999, railGraph := tset State.reset.railGraph 0 [2], pwrgd := 1 }

theorem quiet_railStopsNext : railStopsNext.Quiet := ⟨rfl, rfl, rfl, rfl, rfl, rfl, rfl, rfl⟩

/-- In this cycle RAIL0 is not un-wound yet. -/
theorem reloadOk_railStopsNext : railStopsNext.reloadOk = false := by decide +kernel

/-- In the next, which grants START, it is: the reload begins. -/
theorem start_railStopsNext : (railStopsNext.written .host F.CAL_LOAD_CTRL.base 1).load.src = 3 := by decide +kernel

/-- Refutes O11: its third clause judges un-wound by the state of the request. START is granted one cycle later, and there the
rail's stop time may have ended, so that the reload is accepted. -/
theorem not_hostLoad : ¬ Obligations.HostLoad := by
  unfold Obligations.HostLoad
  rintro ⟨-, -, refused, -⟩
  obtain ⟨-, runs⟩ := refused railStopsNext .host (by decide) (by decide) rfl rfl (by decide) reloadOk_railStopsNext
  obtain ⟨u, ends, c, next, rfl⟩ := runs quiet_railStopsNext rfl
  have quiet : ((c.failCode 0x10 3).eventsLater 0).events = [] := by
    have none : c.events = [] := next.events_nil quiet_railStopsNext.events
    simp [State.eventsLater, State.failCode, none]
  have kept : ((c.failCode 0x10 3).eventsLater 0).settle.load = railStopsNext.load := by
    rw [State.settle_load _ (by simp [quiet])]
    exact next.load
  rw [exec_startLoad, Host.Outcome.next.injEq] at ends
  have began := start_railStopsNext
  rw [show railStopsNext.written .host F.CAL_LOAD_CTRL.base 1 = _ from ends, kept] at began
  exact absurd began (by decide)

end Sys2Proof.Machine
end

/-! # What the return of an image's destinations changes (R58, R67) -/

section
namespace Sys2Proof.Machine

/-! ### The registers of the units that an image sets up -/

/-- The blocks PH, CHAN, SEQ, MEAS, MON, PWRP and PE. -/
def unitBlocks : List Nat := [6, 7, 8, 9, 10, 14, 17]

theorem blockOf_units {a : Nat} (h : 0x2800 ≤ a ∧ a < 0x4800) : blockOf a ∈ unitBlocks := by
  simp only [unitBlocks, List.mem_cons, List.not_mem_nil, or_false]
  unfold blockOf
  split_ifs <;> omega

/-- `t` is `s` but for registers of those blocks, for what the units hold beside them, and for accesses that wait. -/
structure State.UnitsOnly (s t : State) : Prop where
  regs : ∀ k, blockOf k ∉ unitBlocks → t.reg k = s.reg k
  rest : t = { s with
    regs := t.regs, waiting := t.waiting, eng := t.eng, mon := t.mon, sweep := t.sweep, modl := t.modl
    meter := t.meter, chan := t.chan, rail := t.rail, trigs := t.trigs, pp := t.pp }

namespace State.UnitsOnly

variable {s t u : State}

theorem refl (s : State) : s.UnitsOnly s := ⟨fun _ _ => rfl, rfl⟩

theorem trans (h : s.UnitsOnly t) (g : t.UnitsOnly u) : s.UnitsOnly u :=
  ⟨fun k hk => (g.regs k hk).trans (h.regs k hk), by rw [g.rest, h.rest]⟩

theorem foldl {α : Type} (f : State → α → State) (l : List α) (h : ∀ (s : State), ∀ a ∈ l, s.UnitsOnly (f s a))
    (s : State) : s.UnitsOnly (l.foldl f s) := by
  induction l generalizing s with
  | nil => exact refl s
  | cons a l ih => exact (h s a (by simp)).trans (ih (fun s b hb => h s b (by simp [hb])) _)

theorem setReg (h : s.UnitsOnly t) {k : Nat} (hk : blockOf k ∈ unitBlocks) (w : Word) : s.UnitsOnly (t.setReg k w) :=
  h.trans ⟨fun j hj => t.reg_setReg_ne (fun e => hj (by rw [e]; exact hk)) w, rfl⟩

theorem putAt (h : s.UnitsOnly t) (f : Fld) (v i : Nat) (hf : blockOf (f.addr i) ∈ unitBlocks) :
    s.UnitsOnly (t.put f v i) := h.setReg hf _

/-- A field of a copy up to the last, `n`, of a register of the blocks PH to MON. -/
theorem put (h : s.UnitsOnly t) (f : Fld) (v : Nat) {i : Nat} (n : Nat) (hi : i ≤ n)
    (hf : 0x2800 ≤ f.base ∧ f.base + f.stride * n < 0x4800 := by decide) : s.UnitsOnly (t.put f v i) := by
  have last : f.stride * i ≤ f.stride * n := Nat.mul_le_mul_left _ hi
  refine h.putAt f v i (blockOf_units ?_)
  unfold Fld.addr
  omega

theorem putB (h : s.UnitsOnly t) (f : Fld) (b : Bool) {i : Nat} (n : Nat) (hi : i ≤ n)
    (hf : 0x2800 ≤ f.base ∧ f.base + f.stride * n < 0x4800 := by decide) : s.UnitsOnly (t.putB f b i) := h.put f _ n hi hf

theorem setMaskBit (h : s.UnitsOnly t) (f : Fld) {n : Nat} (hn : n < 64) (b : Bool)
    (hf : 0x2800 ≤ f.base ∧ f.base + f.stride * 1 < 0x4800 := by decide) : s.UnitsOnly (t.setMaskBit f n b) := by
  have last : f.stride * (n / 32) ≤ f.stride * 1 := Nat.mul_le_mul_left _ (by omega)
  refine h.setReg (blockOf_units ?_) _
  unfold Fld.addr
  omega

theorem resetRegs (h : s.UnitsOnly t) (l : List Nat) (hl : ∀ a ∈ l, 0x2800 ≤ a ∧ a < 0x4800) :
    s.UnitsOnly (t.resetRegs l) :=
  h.trans (foldl _ l (fun t a ha => (refl t).setReg (blockOf_units (hl a ha)) _) t)

theorem setMc (h : s.UnitsOnly t) (n : Nat) (x : MonSt) : s.UnitsOnly (t.setMc n x) := h.trans ⟨fun _ _ => rfl, rfl⟩
theorem setMd (h : s.UnitsOnly t) (m : Nat) (x : ModSt) : s.UnitsOnly (t.setMd m x) := h.trans ⟨fun _ _ => rfl, rfl⟩
theorem setMtr (h : s.UnitsOnly t) (k : Nat) (x : MeterSt) : s.UnitsOnly (t.setMtr k x) := h.trans ⟨fun _ _ => rfl, rfl⟩
theorem setCh (h : s.UnitsOnly t) (c : Nat) (x : ChanSt) : s.UnitsOnly (t.setCh c x) := h.trans ⟨fun _ _ => rfl, rfl⟩
theorem setRl (h : s.UnitsOnly t) (n : Nat) (x : RailSt) : s.UnitsOnly (t.setRl n x) := h.trans ⟨fun _ _ => rfl, rfl⟩
theorem setPe (h : s.UnitsOnly t) (n : Nat) (x : EngSt) : s.UnitsOnly (t.setPe n x) := h.trans ⟨fun _ _ => rfl, rfl⟩
theorem trigger (h : s.UnitsOnly t) (g a d : Nat) : s.UnitsOnly (t.trigger g a d) := h.trans ⟨fun _ _ => rfl, rfl⟩
theorem withdrawAccess (h : s.UnitsOnly t) (n : Nat) : s.UnitsOnly (t.withdrawAccess n) :=
  h.trans ⟨fun _ _ => rfl, rfl⟩
theorem withSweep (h : s.UnitsOnly t) (x : Option SweepSt) : s.UnitsOnly { t with sweep := x } :=
  h.trans ⟨fun _ _ => rfl, rfl⟩
theorem withPp (h : s.UnitsOnly t) (x : PpSt) : s.UnitsOnly { t with pp := x } := h.trans ⟨fun _ _ => rfl, rfl⟩

theorem ofMeas (h : s.MeasOnly t) : s.UnitsOnly t :=
  ⟨fun k hk => h.regs k (fun e => hk (by rw [e]; decide)), by rw [h.rest]⟩

theorem sramPeek (h : s.UnitsOnly t) (k : Nat) : t.sramPeek k = s.sramPeek k := by rw [h.rest]; rfl
theorem slot (h : s.UnitsOnly t) (n : Nat) : t.slot n = s.slot n := by rw [h.rest]; rfl
theorem hdr (h : s.UnitsOnly t) : t.hdr = s.hdr := by rw [h.rest]
theorem sections (h : s.UnitsOnly t) : t.sections = s.sections := by rw [h.rest]
theorem cellMap (h : s.UnitsOnly t) : t.cellMap = s.cellMap := by rw [h.rest]
theorem curveFlags (h : s.UnitsOnly t) : t.curveFlags = s.curveFlags := by rw [h.rest]

end State.UnitsOnly

/-! ### Each unit -/

theorem blockOf_engine {n : Nat} (h : n < 8) : blockOf (F.PEn_STAT_STATE.addr n) ∈ unitBlocks ∧
    blockOf (F.PEn_STAT_INIT.addr n) ∈ unitBlocks ∧ blockOf (F.PEn_PEND_PEND.addr n) ∈ unitBlocks := by
  have all : ∀ n : Fin 8, blockOf (F.PEn_STAT_STATE.addr n) ∈ unitBlocks ∧
    blockOf (F.PEn_STAT_INIT.addr n) ∈ unitBlocks ∧ blockOf (F.PEn_PEND_PEND.addr n) ∈ unitBlocks := by decide
  exact all ⟨n, h⟩

theorem State.peStop_unitsOnly (s : State) {n : Nat} (hn : n < 8) (st : Nat) : s.UnitsOnly (s.peStop n st) := by
  obtain ⟨stat, init, pend⟩ := blockOf_engine hn
  have withdrawn := (State.UnitsOnly.refl s).withdrawAccess n
  have stopped := ((withdrawn.putAt F.PEn_STAT_STATE st n stat).putAt F.PEn_STAT_INIT 0 n init).putAt F.PEn_PEND_PEND 0 n pend
  exact stopped.setPe n _

theorem State.sweepAbandon_unitsOnly {s : State} {w : SweepSt} (sweeps : s.sweep = some w) (cell : w.cell < 64) :
    s.UnitsOnly s.sweepAbandon := by
  unfold State.sweepAbandon
  rw [sweeps]
  exact (((State.UnitsOnly.refl s).put F.MONn_STAT_TEST 0 63 (by omega)).put F.MON_TEST_STAT_BUSY 0 0 (le_refl 0)).withSweep _

theorem State.clearMon_unitsOnly (s : State) {n : Nat} (hn : n < 64) : s.UnitsOnly (s.clearMon n) := by
  unfold State.clearMon
  extract_lets s1 c s2 s3
  have last : n ≤ 63 := by omega
  have swept : s.UnitsOnly s1 := by
    dsimp only [s1]
    split
    · next w sweeps =>
      split
      · next here => exact State.sweepAbandon_unitsOnly sweeps (by omega)
      · exact .refl s
    · exact .refl s
  have configured : s.UnitsOnly s2 :=
    ((swept.put F.MONn_CFG_FILT_K _ 63 last).put F.MONn_CFG_FILT_N _ 63 last).put F.MONn_CFG_MODE _ 63 last
  have routed : s.UnitsOnly s3 := configured.resetRegs _ (by
    simp only [F.MONn_ROUTE, F.MONn_STAT, Fld.addr, List.mem_cons, List.not_mem_nil, or_false]
    omega)
  exact ((routed.setMaskBit F.MON_UV hn _).setMaskBit F.MON_OV hn _).setMc _ _

theorem State.clearScan_unitsOnly (s : State) {m : Nat} (hm : m < 4) : s.UnitsOnly (s.clearScan m) := by
  unfold State.clearScan
  extract_lets s1 s2 s3 s4
  have last : m ≤ 3 := by omega
  have stopped : s.UnitsOnly s1 :=
    (State.UnitsOnly.ofMeas (s.urgentDrop_measOnly ⟨m, hm⟩)).put F.MEASm_STAT_RUN _ 3 last
  have planned : s.UnitsOnly s2 := stopped.resetRegs _ (by
    simp only [F.MEASm_MASK, F.MEASm_VALID, F.MEASm_WSTATE, F.MEASm_ENT_WORD, Fld.addr, Fld.off, List.mem_append,
      List.mem_cons, List.not_mem_nil, or_false, List.mem_map, List.mem_range]
    rintro a ((rfl | rfl | rfl) | ⟨e, he, rfl⟩) <;> omega)
  have metered : s3.UnitsOnly s4 := .foldl _ _ (fun s j hj => by
    have meter : 4 * m + j ≤ 15 := by have := List.mem_range.mp hj; omega
    have reset : s.UnitsOnly (s.resetRegs [F.MEAS_METERk_STAT.addr (4 * m + j)]) :=
      (State.UnitsOnly.refl s).resetRegs _ (by
        simp only [F.MEAS_METERk_STAT, Fld.addr, List.mem_cons, List.not_mem_nil, or_false]
        omega)
    exact (reset.put F.MEAS_METERk_STAT_GAP _ 15 meter).setMtr _ _) s3
  exact ((planned.put F.MEASm_CFG_RATE _ 3 last).trans metered).setMd _ _

/-- What CURVES and CELL_MAP place of channel and phase `c` returns to its reset value. -/
def State.clearSite (s : State) (c : Nat) : State :=
  let s := s.resetRegs ((List.range 22).map (fun j => 0x3010 + 0x40 * c + j))
  let s := (s.put F.CHn_STAT_STATE chOff c).setCh c { s.ch c with gate := .normalDown }
  s.setPhState c (bitsOf (regReset (F.PHn_STAT_STATE.addr c)) F.PHn_STAT_STATE.lo F.PHn_STAT_STATE.width)

theorem State.clearSite_unitsOnly (s : State) {c : Nat} (hc : c < 24) : s.UnitsOnly (s.clearSite c) := by
  have last : c ≤ 23 := by omega
  unfold State.clearSite State.setPhState
  extract_lets s1 s2
  have curve : s.UnitsOnly s1 := (State.UnitsOnly.refl s).resetRegs _ (by
    simp only [List.mem_map, List.mem_range]
    rintro a ⟨j, hj, rfl⟩
    omega)
  exact ((curve.put F.CHn_STAT_STATE chOff 23 last).setCh _ _).put F.PHn_STAT_STATE _ 23 last

theorem State.showSeq_unitsOnly (s : State) : s.UnitsOnly s.showSeq := by
  unfold State.showSeq
  extract_lets us cnt st s1 s2 map s3 rp
  have counts : s.UnitsOnly s1 := (((State.UnitsOnly.refl s).put F.SEQ_STAT_NUP _ 0 (le_refl 0)).put
    F.SEQ_STAT_NGOOD _ 0 (le_refl 0)).put F.SEQ_STAT_NFAIL _ 0 (le_refl 0)
  have flags : s.UnitsOnly s2 :=
    (counts.putB F.SEQ_STAT_LETDOWN _ 0 (le_refl 0)).putB F.SEQ_STAT_WINDING _ 0 (le_refl 0)
  have sums : s2.UnitsOnly s3 := .foldl _ _ (fun t h hh => by
    have half := List.mem_range.mp hh
    have word (j : Nat) (hj : j < 6) : blockOf ((F.SEQ_SUM_V.off j).addr 0) ∈ unitBlocks := blockOf_units (by
      simp only [F.SEQ_SUM_V, Fld.off, Fld.addr]; omega)
    exact (((State.UnitsOnly.refl t).putAt _ _ _ (word h (by omega))).putAt _ _ _ (word (2 + h) (by omega))).putAt _ _ _
      (word (4 + h) (by omega))) s2
  refine (flags.trans sums).trans (.foldl _ (List.range 8) (fun t j hj => ?_) s3)
  have place := List.mem_range.mp hj
  exact (State.UnitsOnly.refl t).putAt _ _ _ (blockOf_units (by
    simp only [F.SEQ_RPAR_HOLD, Fld.off, Fld.addr]; omega))

theorem State.railsStart_unitsOnly (s : State) : s.UnitsOnly s.railsStart := by
  unfold State.railsStart
  extract_lets s1 rp s2 s3
  have cleared : s.UnitsOnly s1 := .foldl _ _ (fun t j hj => by
    have place := List.mem_range.mp hj
    exact (State.UnitsOnly.refl t).setReg (blockOf_units (by simp only [F.SEQ_RPAR, Fld.off]; omega)) _) s
  have parents : s1.UnitsOnly s2 := .foldl _ _ (fun t j hj => by
    have place := List.mem_range.mp hj
    split
    · exact (State.UnitsOnly.refl t).putAt _ _ _ (blockOf_units (by
        simp only [F.SEQ_RPAR_POINT, Fld.off, Fld.addr]; omega))
    · exact .refl t) s1
  have rails : s2.UnitsOnly s3 := .foldl _ _ (fun t n hn => by
    have last : n ≤ 63 := by have := List.mem_range.mp hn; omega
    extract_lets t1 on now t2 t3
    have fresh : t.UnitsOnly t1 := (State.UnitsOnly.refl t).setRl n {}
    have stat : t.UnitsOnly (t1.setReg (F.SEQ_RAILn_STAT.addr n) 0) := fresh.setReg (blockOf_units (by
      simp only [F.SEQ_RAILn_STAT, Fld.addr]; omega)) 0
    split
    · exact stat
    · have wanted : t.UnitsOnly t3 :=
        (stat.putB F.SEQ_RAILn_CTRL_ON on 63 last).putB F.SEQ_RAILn_STAT_DEMAND now 63 last
      split
      · unfold State.rlGo
        exact (((wanted.put F.SEQ_RAILn_STAT_STATE _ 63 last).put F.SEQ_RAILn_TICK_TICK _ 63 last).setRl _ _).trigger _ _ _
      · exact wanted.put F.SEQ_RAILn_STAT_STATE _ 63 last) s2
  exact ((cleared.trans parents).trans rails).trans s3.showSeq_unitsOnly

theorem State.chgToIdle_unitsOnly (s : State) : s.UnitsOnly s.chgToIdle := by
  unfold State.chgToIdle State.chgEnter
  refine .withPp ?_ _
  split
  · exact .refl s
  · exact ((State.UnitsOnly.refl s).putAt F.PWRP_STAT_CHG _ 0 (by decide)).withPp _

theorem State.chgOff_unitsOnly (s : State) : s.UnitsOnly s.chgOff :=
  ((State.UnitsOnly.refl s).withPp _).trans (State.chgToIdle_unitsOnly _)

theorem State.ppFit_unitsOnly (s : State) : s.UnitsOnly (s.ppFit false) := by
  unfold State.ppFit
  split
  · exact .refl s
  · exact s.chgOff_unitsOnly.withPp _

end Sys2Proof.Machine
end

/-! # A load that fails (R58, R60, R64) -/

section
namespace Sys2Proof.Machine

/-! ### A region of memory that is cleared -/

theorem SMap.get_filter (d : Nat → Word) (m : SMap) (p : Nat → Bool) (k : Nat) :
    SMap.get d (m.filter (fun e => p e.1)) k = if p k then SMap.get d m k else d k := by
  induction m with
  | nil => simp [SMap.get]
  | cons e m ih =>
    obtain ⟨j, w⟩ := e
    by_cases here : k = j
    · subst here
      cases kept : p k <;> simp_all [SMap.get]
    · cases kept : p j <;> simp_all [SMap.get]

/-- A word of the words cleared reads 0, every other as before. -/
theorem State.sramPeek_sramClear (s : State) (region lo hi k : Nat) : (s.sramClear region lo hi).sramPeek k =
    if sramKey region lo ≤ k ∧ k < sramKey region hi then 0 else s.sramPeek k := by
  set out : Nat → Bool := fun j => decide (j < sramKey region lo) || decide (sramKey region hi ≤ j) with hout
  have raw : (s.sramClear region lo hi).sramRaw.find? (fun e => e.1 == k) =
      if out k then s.sramRaw.find? (fun e => e.1 == k) else none := by
    show (s.sramRaw.filter (fun e => out e.1)).find? (fun e => e.1 == k) = _
    rw [List.find?_filter]
    cases kept : out k with
    | true =>
      refine congrArg (fun p => s.sramRaw.find? p) (funext fun e => ?_)
      by_cases here : e.1 = k <;> simp [here, kept]
    | false =>
      rw [if_neg Bool.false_ne_true, List.find?_eq_none]
      intro e _
      by_cases here : e.1 = k <;> simp [here, kept]
  have word : SMap.get sramDefault (s.sramClear region lo hi).sram k =
      if out k then SMap.get sramDefault s.sram k else 0 := SMap.get_filter sramDefault s.sram out k
  have inside : (sramKey region lo ≤ k ∧ k < sramKey region hi) ↔ out k = false := by
    simp only [hout, Bool.or_eq_false_iff, decide_eq_false_iff_not, Nat.not_lt, Nat.not_le]
  unfold State.sramPeek State.eccRead
  rw [raw, word]
  simp only [inside]
  cases out k <;> rfl

theorem State.sramPeek_sramClear_zero {s : State} {k : Nat} (zero : s.sramPeek k = 0) (region lo hi : Nat) :
    (s.sramClear region lo hi).sramPeek k = 0 := by
  rw [State.sramPeek_sramClear, zero, ite_self]

/-! ### What a fold over a list brings about at each of its entries -/

theorem foldl_reaches {α β : Type} {f : β → α → β} (P : α → β → Prop) (l : List α)
    (make : ∀ b, ∀ a ∈ l, P a (f b a)) (keep : ∀ b, ∀ a ∈ l, ∀ x, P x b → P x (f b a)) (b : β) :
    ∀ a ∈ l, P a (l.foldl f b) := by
  induction l generalizing b with
  | nil => exact fun a ha => absurd ha List.not_mem_nil
  | cons a l ih =>
    have rest : ∀ b, ∀ a ∈ l, ∀ x, P x b → P x (f b a) := fun b a ha => keep b a (List.mem_cons_of_mem _ ha)
    intro x hx
    rcases List.mem_cons.mp hx with rfl | later
    · exact List.foldlRecOn l f (make b x List.mem_cons_self) (fun b h a ha => rest b a ha x h)
    · exact ih (fun b a ha => make b a (List.mem_cons_of_mem _ ha)) rest (f b a) x later

/-! ### Slots, engines, and everything that no image has placed -/

/-- `t` is `s` but for what the sections of an image place and what closing its strikes leaves. -/
structure State.PlacedOnly (s t : State) : Prop where
  regs : ∀ k, blockOf k ∉ unitBlocks → t.reg k = s.reg k
  rest : t = { s with
    regs := t.regs, waiting := t.waiting, eng := t.eng, mon := t.mon, sweep := t.sweep, modl := t.modl
    meter := t.meter, chan := t.chan, rail := t.rail, trigs := t.trigs, pp := t.pp
    sram := t.sram, sramRaw := t.sramRaw, writeBack := t.writeBack
    slots := t.slots, quarantine := t.quarantine, openIds := t.openIds
    hdr := t.hdr, sections := t.sections, cellMap := t.cellMap, loopMap := t.loopMap, railGraph := t.railGraph
    curveFlags := t.curveFlags }

namespace State.PlacedOnly

variable {s t u : State}

theorem refl (s : State) : s.PlacedOnly s := ⟨fun _ _ => rfl, rfl⟩

theorem trans (h : s.PlacedOnly t) (g : t.PlacedOnly u) : s.PlacedOnly u :=
  ⟨fun k hk => (g.regs k hk).trans (h.regs k hk), by rw [g.rest, h.rest]⟩

theorem foldl {α : Type} (f : State → α → State) (l : List α) (h : ∀ (s : State), ∀ a ∈ l, s.PlacedOnly (f s a))
    (s : State) : s.PlacedOnly (l.foldl f s) := by
  induction l generalizing s with
  | nil => exact refl s
  | cons a l ih => exact (h s a (by simp)).trans (ih (fun s b hb => h s b (by simp [hb])) _)

theorem ofUnits (h : s.UnitsOnly t) : s.PlacedOnly t := ⟨h.regs, by rw [h.rest]⟩

theorem sramClear (s : State) (region lo hi : Nat) : s.PlacedOnly (s.sramClear region lo hi) := ⟨fun _ _ => rfl, rfl⟩

theorem closeSlot (s : State) (n : Nat) : s.PlacedOnly (s.closeSlot n) := by
  unfold State.closeSlot State.closeId
  dsimp only
  split <;> exact ⟨fun _ _ => rfl, rfl⟩

theorem collector (h : s.PlacedOnly t) : t.collector = s.collector := by rw [h.rest]
theorem tick (h : s.PlacedOnly t) : t.tick = s.tick := by rw [h.rest]

end State.PlacedOnly

/-- What ENGINE_PROG places of engine `n` returns to its reset value. -/
def State.clearEngine (s : State) (n : Nat) : State :=
  ((s.sramClear n 0 4096).peStop n peNone).setPe n { (s.peStop n peNone).pe n with codeLen := 0, halted := false }

/-- A strike slot is disarmed. -/
def State.disarm (s : State) (n : Nat) : State := if (s.slot n).armed then s.closeSlot n else s

/-- The shared data of the programs, the engines' memories, and the strike slots with the memory of their entries. -/
def State.clearStores (s : State) : State :=
  let s := (s.secRecs 10).foldl (fun s r => s.sramClear 8 (leAt r 8 2 / 4) ((leAt r 8 2 + leAt r 10 2) / 4)) s
  (List.range 256).foldl State.disarm (((List.range 8).foldl State.clearEngine s).sramClear 9 0 8192)

/-- The monitors and modulators. -/
def State.clearMeas (s : State) : State :=
  (List.range 4).foldl (fun s m => s.clearScan m) ((List.range 64).foldl (fun s n => s.clearMon n) s)

/-- No image is loaded. -/
def State.noImage (s : State) : State :=
  { s with
    hdr := [], sections := [], cellMap := List.replicate 176 0, loopMap := List.replicate 8 []
    railGraph := Vector.replicate 64 [], curveFlags := List.replicate 24 0 }

/-- The channels, phases and rails, and the power path. -/
def State.clearUnits (s : State) : State := ((List.range 24).foldl State.clearSite s).railsStart.ppFit false

theorem State.clearPlaced_eq (s : State) : s.clearPlaced = s.clearStores.clearMeas.noImage.clearUnits := rfl

theorem State.clearEngine_placedOnly (s : State) {n : Nat} (hn : n < 8) : s.PlacedOnly (s.clearEngine n) :=
  (State.PlacedOnly.sramClear s n 0 4096).trans (.ofUnits ((State.peStop_unitsOnly _ hn peNone).setPe _ _))

theorem State.disarm_placedOnly (s : State) (n : Nat) : s.PlacedOnly (s.disarm n) := by
  unfold State.disarm
  split
  · exact .closeSlot s n
  · exact .refl s

theorem State.clearStores_placedOnly (s : State) : s.PlacedOnly s.clearStores :=
  (((State.PlacedOnly.foldl _ _ (fun s _ _ => .sramClear s _ _ _) s).trans
    (.foldl _ _ (fun s _ hn => s.clearEngine_placedOnly (List.mem_range.mp hn)) _)).trans (.sramClear _ 9 0 8192)).trans
      (.foldl _ _ (fun s n _ => s.disarm_placedOnly n) _)

theorem State.clearMeas_unitsOnly (s : State) : s.UnitsOnly s.clearMeas :=
  (State.UnitsOnly.foldl _ _ (fun s _ hn => s.clearMon_unitsOnly (List.mem_range.mp hn)) s).trans
    (.foldl _ _ (fun s _ hm => s.clearScan_unitsOnly (List.mem_range.mp hm)) _)

theorem State.clearUnits_unitsOnly (s : State) : s.UnitsOnly s.clearUnits :=
  ((State.UnitsOnly.foldl _ _ (fun s _ hc => s.clearSite_unitsOnly (List.mem_range.mp hc)) s).trans
    (State.railsStart_unitsOnly _)).trans (State.ppFit_unitsOnly _)

theorem State.noImage_placedOnly (s : State) : s.PlacedOnly s.noImage := ⟨fun _ _ => rfl, rfl⟩

theorem State.clearPlaced_placedOnly (s : State) : s.PlacedOnly s.clearPlaced := by
  rw [State.clearPlaced_eq]
  exact ((s.clearStores_placedOnly.trans (.ofUnits (State.clearMeas_unitsOnly _))).trans
    (State.noImage_placedOnly _)).trans (.ofUnits (State.clearUnits_unitsOnly _))

/-! ### What is empty after it -/

theorem State.disarm_sramPeek (s : State) (n k : Nat) : (s.disarm n).sramPeek k = s.sramPeek k := by
  unfold State.disarm State.closeSlot State.closeId
  dsimp only
  split
  · split <;> rfl
  · rfl

theorem State.clearEngine_zero {s : State} {k n : Nat} (hn : n < 8) (zero : s.sramPeek k = 0) :
    (s.clearEngine n).sramPeek k = 0 := by
  have units : (s.sramClear n 0 4096).UnitsOnly (s.clearEngine n) := (State.peStop_unitsOnly _ hn peNone).setPe _ _
  rw [units.sramPeek]
  exact State.sramPeek_sramClear_zero zero n 0 4096

theorem State.clearEngine_cleared (s : State) {n w : Nat} (hn : n < 8) (hw : w < 4096) :
    (s.clearEngine n).sramPeek (sramKey n w) = 0 := by
  have units : (s.sramClear n 0 4096).UnitsOnly (s.clearEngine n) := (State.peStop_unitsOnly _ hn peNone).setPe _ _
  rw [units.sramPeek, State.sramPeek_sramClear, if_pos]
  unfold sramKey
  omega

theorem State.slot_closeSlot_ne (s : State) {n j : Nat} (other : j ≠ n) : (s.closeSlot n).slot j = s.slot j := by
  unfold State.closeSlot State.closeId State.setSlot State.slot
  dsimp only
  rw [tget_tset, if_neg (fun e => other e.1)]
  split <;> rfl

theorem State.closeSlot_disarms (s : State) {n : Nat} (hn : n < 256) : ((s.closeSlot n).slot n).armed = false := by
  unfold State.closeSlot State.setSlot State.slot
  dsimp only
  rw [tget_tset, if_pos ⟨rfl, hn⟩]

theorem State.disarm_disarms (s : State) {n : Nat} (hn : n < 256) : ((s.disarm n).slot n).armed = false := by
  unfold State.disarm
  split
  · exact s.closeSlot_disarms hn
  · next off => exact Bool.eq_false_iff.mpr off

theorem State.disarm_keeps_disarmed {s : State} {n j : Nat} (hn : n < 256) (off : (s.slot j).armed = false) :
    ((s.disarm n).slot j).armed = false := by
  by_cases same : j = n
  · rw [same]; exact s.disarm_disarms hn
  · unfold State.disarm
    split
    · rw [State.slot_closeSlot_ne s same]; exact off
    · exact off

/-- The stores that an image fills. -/
structure State.StoresEmpty (s : State) : Prop where
  engines : ∀ (n : Fin 8) (w : Fin 4096), s.sramPeek (sramKey n w) = 0
  entries : ∀ w : Fin 8192, s.sramPeek (sramKey 9 w) = 0
  slots : ∀ n : Fin 256, (s.slot n).armed = false

theorem State.StoresEmpty.ofUnits {s t : State} (h : s.StoresEmpty) (g : s.UnitsOnly t) : t.StoresEmpty where
  engines n w := by rw [g.sramPeek]; exact h.engines n w
  entries w := by rw [g.sramPeek]; exact h.entries w
  slots n := by rw [g.slot]; exact h.slots n

theorem State.StoresEmpty.noImage {s : State} (h : s.StoresEmpty) : s.noImage.StoresEmpty := ⟨h.engines, h.entries, h.slots⟩

theorem State.disarms_sramPeek (s : State) (l : List Nat) (k : Nat) : (l.foldl State.disarm s).sramPeek k = s.sramPeek k :=
  foldl_keeps (fun s => s.sramPeek k) (fun s n => s.disarm_sramPeek n k) l s

theorem State.clearStores_empty (s : State) : s.clearStores.StoresEmpty where
  engines n w := by
    unfold State.clearStores
    extract_lets s1
    rw [State.disarms_sramPeek]
    refine State.sramPeek_sramClear_zero ?_ 9 0 8192
    exact foldl_reaches (fun m (t : State) => t.sramPeek (sramKey m w) = 0) _
      (fun t m hm => t.clearEngine_cleared (List.mem_range.mp hm) w.isLt)
      (fun t m hm j zero => State.clearEngine_zero (List.mem_range.mp hm) zero) s1 n (List.mem_range.mpr n.isLt)
  entries w := by
    unfold State.clearStores
    extract_lets s1
    rw [State.disarms_sramPeek, State.sramPeek_sramClear, if_pos]
    have := w.isLt
    unfold sramKey
    omega
  slots n := by
    unfold State.clearStores
    extract_lets s1
    exact foldl_reaches (fun m (t : State) => (t.slot m).armed = false) _ (fun t m hm => t.disarm_disarms (List.mem_range.mp hm))
      (fun t m hm j off => State.disarm_keeps_disarmed (List.mem_range.mp hm) off) _ n (List.mem_range.mpr n.isLt)

/-- Every destination of the sections but REG_PRESET is at its reset value. -/
structure State.Unplaced (s : State) : Prop extends s.StoresEmpty where
  hdr : s.hdr = []
  sections : s.sections = []
  cellMap : s.cellMap = List.replicate 176 0
  curveFlags : s.curveFlags = List.replicate 24 0

theorem State.clearPlaced_unplaced (s : State) : s.clearPlaced.Unplaced := by
  rw [State.clearPlaced_eq]
  have units := s.clearStores.clearMeas.noImage.clearUnits_unitsOnly
  have stores := (s.clearStores_empty.ofUnits s.clearStores.clearMeas_unitsOnly).noImage
  exact ⟨stores.ofUnits units, units.hdr, units.sections, units.cellMap, units.curveFlags⟩

/-! ### The failure -/

theorem State.clearData_placedOnly (s : State) : s.PlacedOnly s.clearData := by
  unfold State.clearData
  split
  · exact .refl s
  · exact .foldl _ _ (fun s _ _ => .sramClear s _ _ _) s

/-- The load of source `src` has failed with a code, which CAL_STAT shows: the device waits for its next source. -/
def State.failShown (s : State) (code src : Nat) : State :=
  { (s.failCode code src).put F.CAL_STAT_STATE calWaiting with load := { nextSrc := if src = 1 then 2 else 0 } }

/-- Event of the CFG record: an empty slot (R60) or a load that failed (R64). -/
def failEvent (code src : Nat) : Nat := if code = 1 ∧ src ≤ 2 then 2 else 1

theorem State.loadFail_eq (s : State) (code : Nat) : s.loadFail code =
    (s.clearData.clearPlaced.failShown code s.load.src).raiseReg 13 (failEvent code s.load.src) s.load.src F.CAL_STAT := by
  unfold State.loadFail failEvent
  dsimp only
  split <;> rfl

theorem State.failShown_eq (s : State) (code src : Nat) : s.failShown code src =
    { ((s.put F.CAL_STAT_FAIL_CODE code).put F.CAL_STAT_FAIL_SRC src).put F.CAL_STAT_STATE calWaiting with
      load := { nextSrc := if src = 1 then 2 else 0 } } := rfl

/-- What a load holds is no part of a register. -/
@[simp] theorem State.get_withLoad (s : State) (l : LoadSt) (f : Fld) (i : Nat) :
    ({ s with load := l } : State).get f i = s.get f i := rfl
@[simp] theorem State.reg_withLoad (s : State) (l : LoadSt) (k : Nat) : ({ s with load := l } : State).reg k = s.reg k := rfl

theorem State.failShown_code (s : State) {code : Nat} (h : code < 32) (src : Nat) :
    (s.failShown code src).get F.CAL_STAT_FAIL_CODE = code := by
  rw [State.failShown_eq, State.get_withLoad, State.get_put_disj _ _ _ _ _ _ (by decide) (by decide),
    State.get_put_disj _ _ _ _ _ _ (by decide) (by decide), State.get_put_same _ _ _ _ (by decide)]
  exact Nat.mod_eq_of_lt (by simp only [F.CAL_STAT_FAIL_CODE]; omega)

theorem State.failShown_src (s : State) (code : Nat) {src : Nat} (h : src < 8) :
    (s.failShown code src).get F.CAL_STAT_FAIL_SRC = src := by
  rw [State.failShown_eq, State.get_withLoad, State.get_put_disj _ _ _ _ _ _ (by decide) (by decide),
    State.get_put_same _ _ _ _ (by decide)]
  exact Nat.mod_eq_of_lt (by simp only [F.CAL_STAT_FAIL_SRC]; omega)

theorem State.failShown_waits (s : State) (code src : Nat) : (s.failShown code src).calState = calWaiting := by
  rw [State.calState, State.failShown_eq, State.get_withLoad, State.get_put_same _ _ _ _ (by decide)]
  rfl

theorem State.failShown_reg (s : State) (code src : Nat) {k : Nat} (cal : k ≠ F.CAL_STAT.base) :
    (s.failShown code src).reg k = s.reg k := by
  rw [State.failShown_eq, State.reg_withLoad, State.reg_put_ne _ cal, State.reg_put_ne _ cal, State.reg_put_ne _ cal]

theorem State.failShown_collector (s : State) (code src : Nat) : (s.failShown code src).collector = s.collector := rfl
theorem State.failShown_tick (s : State) (code src : Nat) : (s.failShown code src).tick = s.tick := rfl

theorem State.Unplaced.failShown {s : State} (h : s.Unplaced) (code src : Nat) : (s.failShown code src).Unplaced :=
  ⟨⟨h.engines, h.entries, h.slots⟩, h.hdr, h.sections, h.cellMap, h.curveFlags⟩

theorem State.Unplaced.raise {s : State} (h : s.Unplaced) (cls ev obj : Nat) (d : Word) : (s.raise cls ev obj d).Unplaced := by
  rw [State.raise_eq]
  exact ⟨⟨h.engines, h.entries, h.slots⟩, h.hdr, h.sections, h.cellMap, h.curveFlags⟩

/-- An event of the present tick that the collector takes in this cycle. -/
theorem State.raise_collected (s : State) (h : s.collector = true) {cls ev : Nat} (obj : Nat) (d : Word) (event : ev ≠ 0)
    (late : 6 < cls) : (s.raise cls ev obj d).events = s.events ++ [⟨sourceOf cls ev obj, d, none, s.tick, true⟩] := by
  have mon : (cls == 6) = false := by simp; omega
  have upper : decide (cls ≤ 6) = false := by simp; omega
  unfold State.raise
  simp [h, mon, upper, event]

theorem State.loadFail_load (s : State) (code : Nat) :
    (s.loadFail code).load = { nextSrc := if s.load.src = 1 then 2 else 0 } := by
  rw [State.loadFail_eq, State.raiseReg, State.raise_load]
  rfl

theorem State.loadFail_reg (s : State) (code k : Nat) :
    (s.loadFail code).reg k = (s.clearData.clearPlaced.failShown code s.load.src).reg k := by
  rw [State.loadFail_eq, State.raiseReg, State.reg_raise]

theorem State.loadFail_unplaced (s : State) (code : Nat) : (s.loadFail code).Unplaced := by
  rw [State.loadFail_eq]
  exact (s.clearData.clearPlaced_unplaced.failShown _ _).raise _ _ _ _

/-- A failed load writes registers of CAL and of the units that an image sets up, and no other. -/
theorem State.loadFail_reg_kept (s : State) (code : Nat) {k : Nat} (cal : k ≠ F.CAL_STAT.base)
    (units : blockOf k ∉ unitBlocks) : (s.loadFail code).reg k = s.reg k := by
  rw [State.loadFail_reg, State.failShown_reg _ _ _ cal, s.clearData.clearPlaced_placedOnly.regs k units,
    s.clearData_placedOnly.regs k units]

theorem State.loadFail_record (s : State) (code : Nat) (h : s.collector = true) :
    ∃ l, (s.loadFail code).events = l ++ [⟨sourceOf 13 (failEvent code s.load.src) s.load.src,
      (s.loadFail code).reg F.CAL_STAT.base, none, s.tick, true⟩] := by
  have placed := s.clearData_placedOnly.trans s.clearData.clearPlaced_placedOnly
  set t := s.clearData.clearPlaced.failShown code s.load.src with ht
  have collects : t.collector = true := by rw [ht, State.failShown_collector, placed.collector, h]
  have ticks : t.tick = s.tick := by rw [ht, State.failShown_tick, placed.tick]
  have event : failEvent code s.load.src ≠ 0 := by unfold failEvent; split <;> decide
  refine ⟨t.events, ?_⟩
  rw [State.loadFail_reg, State.loadFail_eq, ← ht, State.raiseReg, State.raise_collected t collects _ _ event (by decide),
    ticks]
  rfl

end Sys2Proof.Machine
end

/-! # The checks of an image as it arrives (R43, R58, R61) -/

section
namespace Sys2Proof.Machine

/-! ### The directory -/

theorem offsetsEnd_above {l : List DirEntry} {last ends : Nat} (h : offsetsEnd l last = some ends) :
    ∀ e ∈ l, e.length ≠ 0 → last ≤ e.offset := by
  induction l generalizing last with
  | nil => exact fun e he => absurd he List.not_mem_nil
  | cons d l ih =>
    intro e he filled
    unfold offsetsEnd at h
    split at h
    · next empty =>
      rcases List.mem_cons.mp he with rfl | later
      · exact absurd empty filled
      · exact ih h e later filled
    · split at h
      · exact absurd h (by simp)
      · next above =>
        rcases List.mem_cons.mp he with rfl | later
        · omega
        · have := ih h e later filled
          omega

/-- An entry of a directory that is in order is empty, or its section lies behind the directory. -/
theorem dirEntry_of_ok {img : List Byte} (ok : directoryOk img = true) (i : Fin 12) :
    dirEntry img i = ⟨0, 0, 0⟩ ∨ 0x140 < (dirEntry img i).offset + (dirEntry img i).length := by
  unfold directoryOk at ok
  simp only [Bool.and_eq_true, List.all_eq_true, List.mem_range] at ok
  obtain ⟨⟨forms, -⟩, ends⟩ := ok
  have form := forms i i.isLt
  unfold entryForm at form
  simp only [Bool.and_eq_true] at form
  obtain ⟨-, lengths⟩ := form
  split at lengths
  · next empty =>
    simp only [Bool.and_eq_true, beq_iff_eq] at lengths
    left
    obtain ⟨offset, count⟩ := lengths
    rw [DirEntry.mk.injEq]
    exact ⟨offset, empty, count⟩
  · next filled =>
    right
    split at ends
    · next e found =>
      have mem : dirEntry img i ∈ directory img := List.mem_map.mpr ⟨i, List.mem_range.mpr i.isLt, rfl⟩
      have above := offsetsEnd_above found _ mem filled
      omega
    · exact absurd ends (by decide)

/-- With only the directory received, no ENGINE_PROG body is there to be checked. -/
theorem progs_not_checked {img : List Byte} (ok : directoryOk img = true) {n : Nat} (h : n ≤ 320) :
    ¬ ((dirEntry img 9).offset + (dirEntry img 9).length ≤ n ∧
      (progRecords (dirEntry img 9).count (sectionBody img 9)).isNone = true) := by
  rintro ⟨reached, none⟩
  rcases dirEntry_of_ok ok 9 with empty | behind
  · have e : dirEntry img 9 = ⟨0, 0, 0⟩ := empty
    rw [sectionBody, e] at none
    simp [slice, progRecords] at none
  · have : 0x140 < (dirEntry img 9).offset + (dirEntry img 9).length := behind
    omega

/-! ### The bytes of a header in a longer list -/

theorem byteAt_take {b : List Byte} {n i : Nat} (h : i < n) : byteAt (b.take n) i = byteAt b i := by
  unfold byteAt
  rw [List.getD_eq_getElem?_getD, List.getElem?_take_of_lt h, ← List.getD_eq_getElem?_getD]

theorem leAt_take {b : List Byte} {n : Nat} (o k : Nat) (h : o + k ≤ n) : leAt (b.take n) o k = leAt b o k := by
  induction k generalizing o with
  | zero => rfl
  | succ k ih => rw [leAt, leAt, byteAt_take (by omega), ih (o + 1) (by omega)]

/-! ### What a load checks at each stage -/

/-- The bytes that the load holds. -/
def State.holding (s : State) (b : List Byte) : State := { s with load := { s.load with bytes := b } }

/-- The load has passed to a stage. -/
def State.toStage (s : State) (k : Nat) : State := { s with load := { s.load with stage := k } }

/-- The check of the header, where it has arrived. -/
def State.checkHeader (s : State) (b : List Byte) : State :=
  if s.load.stage = 0 ∧ 64 ≤ b.length then
    if headerCode s.isManager s.heldNumber (s.get F.SYS_ID_STEP) b ≠ 0 then
      s.loadFail (headerCode s.isManager s.heldNumber (s.get F.SYS_ID_STEP) b)
    else s.toStage 1
  else s

/-- The check of the directory, where it has arrived. -/
def State.checkDirectory (s : State) (b : List Byte) : State :=
  if s.load.stage = 1 ∧ 320 ≤ b.length then if directoryOk b then s.toStage 2 else s.loadFail 0x08 else s

/-- The check of the programs, where their section has arrived, and of the stream at its end. -/
def State.checkStream (s : State) (b : List Byte) : State :=
  if s.load.stage = 2 ∧ (dirEntry b 9).offset + (dirEntry b 9).length ≤ b.length ∧
    (progRecords (dirEntry b 9).count (sectionBody b 9)).isNone = true then s.loadFail 0x08
  else if s.load.stage = 2 ∧ leAt b 0xC 4 ≤ b.length then
    if s.streamCode b ≠ 0 then s.loadFail (s.streamCode b) else s.toStage 3
  else s

theorem State.loadStep_eq (s : State) :
    s.loadStep = ((s.checkHeader s.load.bytes).checkDirectory s.load.bytes).checkStream s.load.bytes := rfl

theorem State.loadFail_stage (s : State) (code : Nat) : (s.loadFail code).load.stage = 0 := by rw [State.loadFail_load]
theorem State.loadFail_source (s : State) (code : Nat) : (s.loadFail code).load.src = 0 := by rw [State.loadFail_load]

theorem State.checkHeader_later {s : State} (b : List Byte) (h : s.load.stage ≠ 0) : s.checkHeader b = s :=
  if_neg fun c => h c.1

theorem State.checkDirectory_other {s : State} (b : List Byte) (h : s.load.stage ≠ 1) : s.checkDirectory b = s :=
  if_neg fun c => h c.1

theorem State.checkDirectory_short (s : State) {b : List Byte} (h : b.length < 320) : s.checkDirectory b = s :=
  if_neg fun c => by omega

theorem State.checkStream_other {s : State} (b : List Byte) (h : s.load.stage ≠ 2) : s.checkStream b = s :=
  (if_neg fun c => h c.1).trans (if_neg fun c => h c.1)

/-- The header alone has arrived. -/
theorem State.loadStep_header {s : State} (stage : s.load.stage = 0) (len : s.load.bytes.length = 64) :
    s.loadStep =
      if headerCode s.isManager s.heldNumber (s.get F.SYS_ID_STEP) s.load.bytes ≠ 0 then
        s.loadFail (headerCode s.isManager s.heldNumber (s.get F.SYS_ID_STEP) s.load.bytes)
      else s.toStage 1 := by
  rw [State.loadStep_eq, State.checkDirectory_short _ (by omega), State.checkHeader, if_pos ⟨stage, len.ge⟩]
  split
  · exact State.checkStream_other _ (by rw [State.loadFail_stage]; decide)
  · exact State.checkStream_other _ (by decide : (1 : Nat) ≠ 2)

/-- The directory has arrived, and nothing behind it. -/
theorem State.loadStep_directory {s : State} (stage : s.load.stage = 1) (len : s.load.bytes.length = 320)
    (more : 320 < leAt s.load.bytes 0xC 4) :
    s.loadStep = if directoryOk s.load.bytes then s.toStage 2 else s.loadFail 0x08 := by
  rw [State.loadStep_eq, State.checkHeader_later _ (by omega), State.checkDirectory, if_pos ⟨stage, len.ge⟩]
  split
  · next ok => exact (if_neg fun c => progs_not_checked ok len.le c.2).trans (if_neg fun c => by omega)
  · exact State.checkStream_other _ (by rw [State.loadFail_stage]; decide)

/-- The whole stream has arrived. -/
theorem State.loadStep_stream {s : State} (stage : s.load.stage = 2)
    (len : leAt s.load.bytes 0xC 4 ≤ s.load.bytes.length) :
    s.loadStep =
      if (dirEntry s.load.bytes 9).offset + (dirEntry s.load.bytes 9).length ≤ s.load.bytes.length ∧
        (progRecords (dirEntry s.load.bytes 9).count (sectionBody s.load.bytes 9)).isNone = true then s.loadFail 0x08
      else if s.streamCode s.load.bytes ≠ 0 then s.loadFail (s.streamCode s.load.bytes)
      else s.toStage 3 := by
  rw [State.loadStep_eq, State.checkHeader_later _ (by omega), State.checkDirectory_other _ (by omega), State.checkStream]
  simp only [stage, true_and, len, if_true]

/-! ### What a flash load takes -/

theorem State.flashAt_iff (s : State) (k : Nat) :
    s.flashAt k = true ↔ (s.load.src = 1 ∨ s.load.src = 2) ∧ s.load.stage = k := by
  simp [State.flashAt]

theorem State.loadFeed_first {s : State} (b : List Byte) (stage : s.load.stage = 0) :
    s.loadFeed b = (s.holding (s.load.bytes ++ b)).loadStep :=
  congrArg (fun all => (s.holding all).loadStep) (if_neg fun c => c.2 stage)

/-- Behind the header, bytes beyond IMAGE_LEN are not taken. -/
theorem State.loadFeed_later {s : State} (b : List Byte) (stage : s.load.stage ≠ 0) (header : 64 ≤ s.load.bytes.length) :
    s.loadFeed b = (s.holding ((s.load.bytes ++ b).take (leAt (s.load.bytes ++ b) 0xC 4))).loadStep :=
  congrArg (fun all => (s.holding all).loadStep) (if_pos ⟨by rw [List.length_append]; omega, stage⟩)

theorem State.flashFeed_first {s : State} (b : List Byte) (stage : s.load.stage = 0) :
    s.flashFeed b =
      if ((s.loadFeed b).load.src = s.load.src ∧ (s.loadFeed b).load.stage = 1) ∧
        (byteAt (s.loadFeed b).load.bytes 9).testBit 1 = true then (s.loadFeed b).flashCommand 0x6B (flashSlot s.load.src + 64)
      else s.loadFeed b := by
  unfold State.flashFeed
  simp only [stage, beq_self_eq_true, Bool.true_and, Bool.and_eq_true, beq_iff_eq]

theorem State.flashFeed_later {s : State} (b : List Byte) (stage : s.load.stage ≠ 0) : s.flashFeed b = s.loadFeed b := by
  have first : (s.load.stage == 0) = false := beq_eq_false_iff_ne.mpr stage
  unfold State.flashFeed
  simp only [first, Bool.false_and, Bool.false_eq_true, if_false]

/-- The header of a flash load with its checks, and the command for the rest of the image (R40, R61). -/
theorem State.flashFeed_header {s : State} {b : List Byte} (len : b.length = 64) (at' : s.flashAt 0 = true)
    (empty : s.load.bytes = []) :
    let c := headerCode s.isManager s.heldNumber (s.get F.SYS_ID_STEP) b
    (c ≠ 0 → s.flashFeed b = (s.holding b).loadFail c) ∧
    (c = 0 → (byteAt b 9).testBit 1 = false → s.flashFeed b = (s.holding b).toStage 1) ∧
    (c = 0 → (byteAt b 9).testBit 1 = true → s.flashFeed b =
      ((s.holding b).toStage 1).flashCommand 0x6B (flashSlot s.load.src + 64)) := by
  intro c
  obtain ⟨-, stage⟩ := (s.flashAt_iff 0).mp at'
  have fed : s.loadFeed b = if c ≠ 0 then (s.holding b).loadFail c else (s.holding b).toStage 1 := by
    rw [State.loadFeed_first b stage, empty]
    exact State.loadStep_header (s := s.holding b) stage len
  rw [State.flashFeed_first b stage, fed]
  refine ⟨fun bad => ?_, fun good plain => ?_, fun good quad => ?_⟩
  · rw [if_pos bad, State.loadFail_stage]
    exact if_neg fun h => absurd h.1.2 (by decide)
  · rw [if_neg (not_not.mpr good)]
    exact if_neg fun h => Bool.false_ne_true (plain.symm.trans h.2)
  · rw [if_neg (not_not.mpr good)]
    exact if_pos ⟨⟨rfl, rfl⟩, quad⟩

/-- The directory of a flash load with its check. -/
theorem State.flashFeed_directory {s : State} {b : List Byte} (len : b.length = 256) (at' : s.flashAt 1 = true)
    (header : s.load.bytes.length = 64) (more : 320 < leAt (s.load.bytes ++ b) 0xC 4) :
    s.flashFeed b = if directoryOk (s.load.bytes ++ b) then (s.holding (s.load.bytes ++ b)).toStage 2
      else (s.holding (s.load.bytes ++ b)).loadFail 0x08 := by
  obtain ⟨-, stage⟩ := (s.flashAt_iff 1).mp at'
  have length : (s.load.bytes ++ b).length = 320 := by rw [List.length_append, header, len]
  rw [State.flashFeed_later b (by omega), State.loadFeed_later b (by omega) (by omega), List.take_of_length_le (by omega)]
  exact State.loadStep_directory (s := s.holding (s.load.bytes ++ b)) stage length more

/-- The rest of a flash load's stream with its checks. -/
theorem State.flashFeed_stream {s : State} {b : List Byte} (at' : s.flashAt 2 = true) (header : 64 ≤ s.load.bytes.length)
    (all : leAt (s.load.bytes ++ b) 0xC 4 ≤ (s.load.bytes ++ b).length) (least : 16 ≤ leAt (s.load.bytes ++ b) 0xC 4) :
    let img := (s.load.bytes ++ b).take (leAt (s.load.bytes ++ b) 0xC 4)
    s.flashFeed b =
      if (dirEntry img 9).offset + (dirEntry img 9).length ≤ img.length ∧
        (progRecords (dirEntry img 9).count (sectionBody img 9)).isNone = true then (s.holding img).loadFail 0x08
      else if s.streamCode img ≠ 0 then (s.holding img).loadFail (s.streamCode img)
      else (s.holding img).toStage 3 := by
  intro img
  obtain ⟨-, stage⟩ := (s.flashAt_iff 2).mp at'
  have size : leAt img 0xC 4 = leAt (s.load.bytes ++ b) 0xC 4 := leAt_take 0xC 4 least
  have length : img.length = leAt (s.load.bytes ++ b) 0xC 4 := by rw [List.length_take, Nat.min_eq_left all]
  rw [State.flashFeed_later b (by omega), State.loadFeed_later b (by omega) header]
  exact State.loadStep_stream (s := s.holding img) stage (size.trans length.symm).le

/-! ### When bytes arrive, and what they meet -/

theorem exec_imageSourceTry (s : State) : exec .imageSourceTry s = done s.sourceTry := rfl
theorem exec_imageChecksDone (s : State) : exec .imageChecksDone s = done s.checksDone := rfl

theorem exec_flashBytes (s : State) {b : List Byte} {i : Instr} {k : Nat}
    (row : (i, k) ∈ [(Instr.headerArrived b, 0), (.directoryArrived b, 1), (.imageStreamEnd b, 2)])
    (formed : i.wellFormed = true) : exec i s = done (s.flashArrives k b) := by
  simp only [List.mem_cons, Prod.mk.injEq, List.not_mem_nil, or_false] at row
  rcases row with ⟨rfl, rfl⟩ | ⟨rfl, rfl⟩ | ⟨rfl, rfl⟩
  · exact if_pos (by simpa [Instr.wellFormed] using formed)
  · exact if_pos (by simpa [Instr.wellFormed] using formed)
  · rfl

theorem completes_done {i : Instr} {s u : State} {P : State → Prop} (ends : exec i s = done u) (h : P u) : Completes i s P :=
  ⟨u, ends, h⟩

theorem State.flashArrives_off {s : State} {k : Nat} (b : List Byte) (off : s.flashAt k = false) : s.flashArrives k b = s := by
  simp [State.flashArrives, off]

theorem State.flashArrives_on {s : State} {k : Nat} (b : List Byte) (on : s.flashAt k = true) :
    let c := s.passTo (s.flashDue (s.flashRead b.length))
    s.flashArrives k b = if c.flashAt k then c.flashFeed b else c := by
  simp [State.flashArrives, on]

theorem State.flashDue_oscillator {s : State} (n : Nat) (lock : s.on F.SYS_CLK_STAT_PLL_LOCK = false) :
    s.flashDue n = s.load.began + 8 * s.sckCount n := by
  simp [State.flashDue, lock]

theorem State.flashDue_locked {s : State} (n : Nat) (lock : s.on F.SYS_CLK_STAT_PLL_LOCK = true)
    (before : s.pllLockAt ≤ s.load.began) : s.flashDue n = s.load.began + 2 * s.sckCount n := by
  have slow : (s.pllLockAt - s.load.began + 7) / 8 = 0 := by omega
  simp [State.flashDue, lock, slow]

/-! ### Sources and the end of the checks -/

theorem State.sourceTry_begins {s : State} (runs : s.phase = .running) (waits : s.calState = calWaiting)
    (free : s.load.src = 0) (next : s.load.nextSrc ≠ 0) :
    s.sourceTry = { s.put F.CAL_STAT_STATE calLoading with
      load := { src := s.load.nextSrc, bytes := [], stage := 0, lastAt := s.now, nextSrc := 0, command := 0x0B
                address := if s.load.nextSrc = 1 then 0x000000 else 0x080000, began := s.now } } := by
  unfold State.sourceTry
  rw [if_pos (by simp [runs, waits, free, next])]
  rfl

theorem State.sourceTry_none {s : State}
    (h : s.phase ≠ .running ∨ s.calState ≠ calWaiting ∨ s.load.src ≠ 0 ∨ s.load.nextSrc = 0) : s.sourceTry = s := by
  unfold State.sourceTry
  rw [if_neg]
  simp only [Bool.and_eq_true, beq_iff_eq, bne_iff_ne]
  tauto

theorem State.checksDone_none {s : State} (h : s.load.src = 0 ∨ s.load.stage ≠ 3) : s.checksDone = s := by
  have other : (s.load.src == srcDelivery && s.load.stage == 3) = false := by
    simp only [Bool.and_eq_false_iff, beq_eq_false_iff_ne]
    rcases h with none | open'
    · exact .inl (by rw [none]; decide)
    · exact .inr open'
  unfold State.checksDone
  rw [other]
  exact if_pos h

theorem State.checksDone_load {s : State} (src : s.load.src ≠ 0) (own : s.load.src ≠ srcDelivery)
    (closed : s.load.stage = 3) :
    s.checksDone = if s.imageCode.1 = 0 then s.imageCode.2 else s.loadFail s.imageCode.1 := by
  have other : (s.load.src == srcDelivery && s.load.stage == 3) = false := by simp [own]
  unfold State.checksDone
  rw [other]
  exact if_neg (not_or.mpr ⟨src, not_not.mpr closed⟩)

theorem State.checksDone_delivery {s : State} (src : s.load.src = srcDelivery) (closed : s.load.stage = 3) :
    s.checksDone.deliv.takes = false ∧
      s.checksDone.deliv.outcome = if s.checksDone.calState = calLoaded then ansReady else ansRefuse := by
  have own : (s.load.src == srcDelivery && s.load.stage == 3) = true := by simp [src, closed]
  unfold State.checksDone
  rw [own]
  generalize s.imageChecks = t
  exact ⟨rfl, rfl⟩

/-- What a failed load leaves, every clause of R58, R60 and R64. -/
theorem State.loadFail_leaves (s : State) (code : Nat) (hc : code < 32) (hs : s.load.src < 8) :
    let u := s.loadFail code
    u.get F.CAL_STAT_FAIL_CODE = code ∧ u.get F.CAL_STAT_FAIL_SRC = s.load.src ∧ u.calState = calWaiting ∧
      u.load = { nextSrc := if s.load.src = 1 then 2 else 0 } ∧
      u.sections = [] ∧ u.hdr = [] ∧ u.cellMap = List.replicate 176 0 ∧ u.curveFlags = List.replicate 24 0 ∧
      (∀ (n : Fin 8) (w : Fin 4096), u.sramPeek (sramKey n w) = 0) ∧ (∀ w : Fin 8192, u.sramPeek (sramKey 9 w) = 0) ∧
      (∀ n : Fin 256, (u.slot n).armed = false) ∧
      (∀ k, blockOf k ∈ [3, 4, 16, 18] → u.reg k = s.reg k) ∧
      (s.collector = true → ∃ l, u.events = l ++ [⟨sourceOf 13 (if code = 1 ∧ s.load.src ≤ 2 then 2 else 1) s.load.src,
        u.reg F.CAL_STAT.base, none, s.tick, true⟩]) := by
  intro u
  have empty := s.loadFail_unplaced code
  have shown (f : Fld) : u.get f = (s.clearData.clearPlaced.failShown code s.load.src).get f :=
    State.get_eq_of_reg (s.loadFail_reg code _)
  refine ⟨?_, ?_, ?_, s.loadFail_load code, empty.sections, empty.hdr, empty.cellMap, empty.curveFlags, empty.engines,
    empty.entries, empty.slots, fun k hk => ?_, s.loadFail_record code⟩
  · rw [shown, State.failShown_code _ hc]
  · rw [shown, State.failShown_src _ _ hs]
  · rw [State.calState, shown]; exact State.failShown_waits _ _ _
  · refine s.loadFail_reg_kept code (fun e => ?_) (fun units => ?_)
    · rw [e] at hk; exact absurd hk (by decide)
    · simp only [unitBlocks, List.mem_cons, List.not_mem_nil, or_false] at hk units
      omega

/-- Settles O10: the checks by `flashFeed_header`, `flashFeed_directory` and `flashFeed_stream`, a failure by
`loadFail_leaves`. -/
theorem flashLoads : Obligations.FlashLoads := by
  unfold Obligations.FlashLoads
  refine ⟨⟨fun s runs waits free next => ?_, fun s h => ?_, fun s h => ?_, fun s src own closed => ?_,
    fun s src closed => ?_⟩, ⟨fun s b i k row formed => ⟨fun off => ?_, fun on => ?_⟩, fun s n => ⟨?_, ?_⟩,
    fun s b len at' empty => State.flashFeed_header len at' empty,
    fun s b len at' header more => ⟨fun bad => ?_, fun ok => ?_⟩,
    fun s b at' header all least => ⟨fun bad reached => ?_, fun good code => ?_, fun good code => ?_⟩⟩,
    State.loadFail_leaves⟩
  · exact completes_done (exec_imageSourceTry s) (State.sourceTry_begins runs waits free next)
  · exact completes_done (exec_imageSourceTry s) (State.sourceTry_none h)
  · exact completes_done (exec_imageChecksDone s) (State.checksDone_none h)
  · refine completes_done (exec_imageChecksDone s) ?_
    rw [State.checksDone_load src own closed]
    exact ⟨fun ok => if_pos ok, fun bad => if_neg bad⟩
  · exact completes_done (exec_imageChecksDone s) (State.checksDone_delivery src closed)
  · exact completes_done (exec_flashBytes s row formed) (State.flashArrives_off b off)
  · exact completes_done (exec_flashBytes s row formed) (State.flashArrives_on b on)
  · exact State.flashDue_oscillator n
  · exact State.flashDue_locked n
  · exact (State.flashFeed_directory len at' header more).trans (if_neg (Bool.eq_false_iff.mp bad))
  · exact (State.flashFeed_directory len at' header more).trans (if_pos ok)
  · rw [State.flashFeed_stream at' header all least]
    exact if_pos ⟨reached, Option.isNone_iff_eq_none.mpr (Option.not_isSome_iff_eq_none.mp (Bool.eq_false_iff.mp bad))⟩
  · rw [State.flashFeed_stream at' header all least, if_neg fun h => by simp_all]
    exact if_pos code
  · rw [State.flashFeed_stream at' header all least, if_neg fun h => by simp_all]
    exact if_neg (not_not.mpr code)

end Sys2Proof.Machine
end

/-! # Link commands on a worker (R88–R91, R95, R101, R123, R124) -/

section
namespace Sys2Proof.Machine

/-! ### Whom a command names -/

theorem linkRow_formed {op : Nat} {b : List Byte} (f : State → State) (s : State) (formed : linkForm op b = true) :
    linkRow op b f s = done (if s.isManager || !s.fabricOn then s else f s) :=
  if_pos ((linkForm_iff op b).mp formed)

theorem State.onTarget_named {s : State} {b : List Byte} (f : State → State) (worker : s.isManager = false)
    (runs : s.fabricOn = true) (named : s.targeted b = true) : s.onTarget b f = f s := by
  simp [State.onTarget, worker, runs, named]

theorem State.onTarget_unnamed {s : State} {b : List Byte} (f : State → State)
    (h : s.isManager = true ∨ s.fabricOn = false ∨ s.targeted b = false) : s.onTarget b f = s :=
  if_pos (by rcases h with h | h | h <;> simp [h])

theorem State.onDest_named {s : State} {b : List Byte} (f : State → State) (worker : s.isManager = false)
    (runs : s.fabricOn = true) (named : s.addressed (byteAt b 4) = true) : s.onDest b f = f s := by
  simp [State.onDest, worker, runs, named]

theorem State.onDest_unnamed {s : State} {b : List Byte} (f : State → State)
    (h : s.isManager = true ∨ s.fabricOn = false ∨ s.addressed (byteAt b 4) = false) : s.onDest b f = s :=
  if_pos (by rcases h with h | h | h <;> simp [h])

/-- A row whose meaning leaves the state leaves it, on a manager too. -/
theorem completes_linkRow_self {i : Instr} {op : Nat} {b : List Byte} {f : State → State} {s : State}
    (formed : linkForm op b = true) (row : exec i s = linkRow op b f s) (self : f s = s) :
    Completes i s (fun u => u = s) := by
  refine completes_done (u := s) ?_ rfl
  rw [row, linkRow_formed f s formed, self, ite_self]

/-- A worker that hears a command of the first kind, which names workers by TARGETS, does what it means. -/
theorem Hears.completes_target {op : Nat} {b : List Byte} {s : State} {i : Instr} {f : State → State} {P : State → Prop}
    (hears : Hears op b s) (kind : op < 4) (row : exec i s = linkRow op b (State.onTarget b f) s) (h : P (f s)) :
    Completes i s P := by
  obtain ⟨formed, worker, runs, named⟩ := hears
  rw [if_pos kind] at named
  refine completes_done ?_ h
  rw [row, linkRow_formed _ s formed, State.onTarget_named f worker runs named]
  simp [worker, runs]

/-- And one of the second kind, which names them by DEST. -/
theorem Hears.completes_dest {op : Nat} {b : List Byte} {s : State} {i : Instr} {f : State → State} {P : State → Prop}
    (hears : Hears op b s) (kind : 4 ≤ op) (row : exec i s = linkRow op b (State.onDest b f) s) (h : P (f s)) :
    Completes i s P := by
  obtain ⟨formed, worker, runs, named⟩ := hears
  rw [if_neg (Nat.not_lt.mpr kind)] at named
  refine completes_done ?_ h
  rw [row, linkRow_formed _ s formed, State.onDest_named f worker runs named]
  simp [worker, runs]

theorem exec_strikeCommand {b : List Byte} {op : Nat} {i : Instr} (h : (op, i) ∈ strikeCommands b) (s : State) :
    ∃ f, exec i s = linkRow op b (State.onTarget b f) s := by
  simp only [strikeCommands, List.mem_cons, Prod.mk.injEq, List.not_mem_nil, or_false] at h
  rcases h with ⟨rfl, rfl⟩ | ⟨rfl, rfl⟩ | ⟨rfl, rfl⟩ <;> exact ⟨_, rfl⟩

theorem exec_destCommand {b : List Byte} {op : Nat} {i : Instr} (h : (op, i) ∈ destCommands b) (s : State) :
    ∃ f, exec i s = linkRow op b (State.onDest b f) s := by
  simp only [destCommands, List.mem_cons, Prod.mk.injEq, List.not_mem_nil, or_false] at h
  rcases h with ⟨rfl, rfl⟩ | ⟨rfl, rfl⟩ | ⟨rfl, rfl⟩ | ⟨rfl, rfl⟩ | ⟨rfl, rfl⟩ | ⟨rfl, rfl⟩ | ⟨rfl, rfl⟩ | ⟨rfl, rfl⟩ |
    ⟨rfl, rfl⟩ | ⟨rfl, rfl⟩ | ⟨rfl, rfl⟩ | ⟨rfl, rfl⟩ | ⟨rfl, rfl⟩ | ⟨rfl, rfl⟩ | ⟨rfl, rfl⟩ | ⟨rfl, rfl⟩ |
    ⟨rfl, rfl⟩ | ⟨rfl, rfl⟩ <;> exact ⟨_, rfl⟩

theorem strikeCommand_unnamed {s : State} {b : List Byte} {op : Nat} {i : Instr} (h : (op, i) ∈ strikeCommands b)
    (formed : linkForm op b = true) (off : s.isManager = true ∨ s.fabricOn = false ∨ s.targeted b = false) :
    Completes i s (fun u => u = s) := by
  obtain ⟨f, row⟩ := exec_strikeCommand h s
  exact completes_linkRow_self formed row (State.onTarget_unnamed f off)

theorem destCommand_unnamed {s : State} {b : List Byte} {op : Nat} {i : Instr} (h : (op, i) ∈ destCommands b)
    (formed : linkForm op b = true) (off : s.isManager = true ∨ s.fabricOn = false ∨ s.addressed (byteAt b 4) = false) :
    Completes i s (fun u => u = s) := by
  obtain ⟨f, row⟩ := exec_destCommand h s
  exact completes_linkRow_self formed row (State.onDest_unnamed f off)

theorem State.addressed_all (s : State) : s.addressed 0xFF = true := by simp [State.addressed]

theorem State.addressed_number {s : State} {d : Nat} (least : 1 ≤ d) (most : d ≤ 63) (has : s.hasNumber = true)
    (single : s.link.dupStop = false) : s.addressed d = decide (d = s.devNo) := by
  have all : d ≠ 0xFF := by omega
  have set : ¬ 0x40 ≤ d := by omega
  have pos : d ≠ 0 := by omega
  simp [State.addressed, has, single, all, set, pos, beq_eq_decide]

theorem State.targeted_number {s : State} (b : List Byte) (has : s.hasNumber = true) (single : s.link.dupStop = false) :
    s.targeted b = (leAt b 12 8).testBit s.devNo := by
  simp [State.targeted, has, single, cmdTargets]

theorem State.addressed_none {s : State} {d : Nat} (all : d ≠ 0xFF) (h : s.hasNumber = false ∨ s.link.dupStop = true) :
    s.addressed d = false := by
  rcases h with h | h <;> simp [State.addressed, all, h]

/-! ### REST and ASSIGN (R146, R428) -/

theorem State.restSchedule_shows (s : State) (e : Nat) : (s.restSchedule e).get F.SYS_REST_STAT_STATE = 1 :=
  s.get_put_same F.SYS_REST_STAT_STATE 1 0 (by decide)

theorem State.reg_restSchedule_ne (s : State) (e : Nat) {k : Nat} (h : k ≠ F.SYS_REST_STAT.base) :
    (s.restSchedule e).reg k = s.reg k :=
  s.reg_put_ne (f := F.SYS_REST_STAT_STATE) (i := 0) h 1

/-- The worker takes number `n` (R146). -/
def State.numbered (n : Nat) (s : State) : State := (s.put F.HIER_STAT_DEV n).put F.HIER_STAT_DEV_SRC 2

theorem State.devNo_numbered (s : State) {n : Nat} (most : n ≤ 63) : (s.numbered n).devNo = n := by
  unfold State.numbered State.devNo
  rw [State.get_put_disj _ _ _ _ _ _ (by decide) (by decide), State.get_put_same _ _ _ _ (by decide)]
  exact Nat.mod_eq_of_lt (Nat.lt_succ_of_le most)

theorem State.hasNumber_numbered (s : State) (n : Nat) : (s.numbered n).hasNumber = true := by
  unfold State.numbered State.hasNumber
  rw [State.get_put_same _ _ _ _ (by decide)]
  rfl

theorem State.reg_numbered_ne (s : State) (n : Nat) {k : Nat} (h : k ≠ F.HIER_STAT.base) :
    (s.numbered n).reg k = s.reg k := by
  unfold State.numbered
  rw [State.reg_put_ne _ h, State.reg_put_ne _ h]

theorem State.calState_numbered (s : State) (n : Nat) : (s.numbered n).calState = s.calState :=
  State.get_eq_of_reg (s.reg_numbered_ne n (by decide))

/-- A worker that waits for its source tries flash again (R60). -/
def State.flashAgain (s : State) : State :=
  if s.calState == calWaiting && s.load.src == 0 && s.phase == .running then
    { s with load := { s.load with nextSrc := 1 } } else s

theorem State.reg_flashAgain (s : State) (k : Nat) : s.flashAgain.reg k = s.reg k := by
  unfold State.flashAgain
  split <;> rfl

theorem State.nextSrc_flashAgain (s : State) : s.flashAgain.load.nextSrc =
    if s.calState = calWaiting ∧ s.load.src = 0 ∧ s.phase = .running then 1 else s.load.nextSrc := by
  simp only [State.flashAgain, Bool.and_eq_true, beq_iff_eq, and_assoc]
  split <;> rfl

/-- A base that gives no number above 63 is taken with it (R146, R60). -/
theorem State.numbered_taken (s : State) {n : Nat} (most : n ≤ 63) : (s.numbered n).flashAgain.devNo = n ∧
    (s.numbered n).flashAgain.hasNumber = true ∧
    (∀ k, k ≠ F.HIER_STAT.base → (s.numbered n).flashAgain.reg k = s.reg k) ∧
    (s.numbered n).flashAgain.load.nextSrc =
      if s.calState = calWaiting ∧ s.load.src = 0 ∧ s.phase = .running then 1 else s.load.nextSrc := by
  have stat := (s.numbered n).reg_flashAgain F.HIER_STAT.base
  refine ⟨?_, ?_, fun k h => ?_, ?_⟩
  · exact (State.get_eq_of_reg (f := F.HIER_STAT_DEV) (i := 0) stat).trans (s.devNo_numbered most)
  · have src := State.get_eq_of_reg (f := F.HIER_STAT_DEV_SRC) (i := 0) stat
    unfold State.hasNumber
    rw [src]
    exact s.hasNumber_numbered n
  · rw [State.reg_flashAgain, s.reg_numbered_ne n h]
  · rw [State.nextSrc_flashAgain, State.calState_numbered]
    rfl

/-- Settles O22: each command by what its meaning does on a worker that hears it (`Hears.completes_dest`); a command that
does not name the worker by `strikeCommand_unnamed` and `destCommand_unnamed`. -/
theorem controlCommandsAct : Obligations.ControlCommandsAct := by
  unfold Obligations.ControlCommandsAct
  refine ⟨⟨fun s b hears => ?_, fun s b hears => ?_, fun s b hears => ?_, fun s b hears => ?_, fun s b hears unknown => ?_,
    fun s b p hears has up => ?_⟩, fun s b op i => strikeCommand_unnamed, fun s b op i => destCommand_unnamed,
    State.addressed_all, fun s d => State.addressed_number, fun s b => State.targeted_number b,
    fun s d => State.addressed_none⟩
  · exact hears.completes_dest (by decide) rfl rfl
  · exact hears.completes_dest (by decide) rfl rfl
  · exact hears.completes_dest (by decide) rfl rfl
  · refine hears.completes_dest (by decide) rfl ⟨fun h => if_pos ?_, fun free ahead => ?_⟩
    · simpa [Option.isSome_iff_ne_none] using h
    · have takes : ¬ (s.rest.entry.isSome || decide (leAt b 8 8 < s.tick + 200)) = true := by simp [free, ahead]
      simp only [if_neg takes]
      exact ⟨rfl, s.restSchedule_shows _, fun k => s.reg_restSchedule_ne _⟩
  · refine hears.completes_dest (by decide) rfl ?_
    rcases unknown with has | noUp
    · exact if_pos has
    · simp [noUp]
  · refine hears.completes_dest (by decide) rfl ?_
    simp only [has, up, Bool.false_eq_true, if_false]
    refine ⟨fun zero => if_pos zero, fun base above => ?_, fun base most => ?_⟩
    · rw [if_neg base, if_pos above]
    · rw [if_neg base, if_neg (Nat.not_lt.mpr most)]
      exact s.numbered_taken most

end Sys2Proof.Machine
end

/-! # ARM, CANCEL and BEAT on a worker (R88–R91, R101) -/

section
namespace Sys2Proof.Machine

/-! ### The order of the refusals (R88) -/

/-- A request that is refused for its first cause. -/
theorem refused_first {α : Type} (invalid scope nosync state late : Bool) {code : Nat} (refuses : code ≠ armAccepted)
    (refuse : Nat → α) (ok : α) :
    (if armResult false invalid scope nosync state late code ≠ armAccepted then
      refuse (armResult false invalid scope nosync state late code) else ok) =
    if invalid = true then refuse 3 else if scope = true then refuse 5 else if nosync = true then refuse 4
      else if state = true then refuse code else if late = true then refuse 1 else ok := by
  cases invalid with
  | true => rfl
  | false => cases scope with
    | true => rfl
    | false => cases nosync with
      | true => rfl
      | false => cases state with
        | true => exact if_pos refuses
        | false => cases late <;> rfl

/-- A link command is counted as stale before all others. -/
theorem counted_first {α : Type} (stale invalid scope nosync state late : Bool) {code : Nat} (refuses : code ≠ armAccepted)
    (notStale : code ≠ armStale) (count : α) (refuse : Nat → α) (ok : α) :
    (if armResult stale invalid scope nosync state late code = armStale then count
      else if armResult stale invalid scope nosync state late code ≠ armAccepted then
        refuse (armResult stale invalid scope nosync state late code) else ok) =
    if stale = true then count else if invalid = true then refuse 3 else if scope = true then refuse 5
      else if nosync = true then refuse 4 else if state = true then refuse code else if late = true then refuse 1
      else ok := by
  cases stale with
  | true => rfl
  | false =>
    have fresh : armResult false invalid scope nosync state late code ≠ armStale := by
      simp only [armResult, Bool.false_eq_true, if_false]
      split_ifs
      · decide
      · decide
      · decide
      · exact notStale
      · decide
      · decide
    rw [if_neg fresh, refused_first _ _ _ _ _ refuses]
    rfl

theorem State.nosync_iff (s : State) : (!s.syncOk) = true ↔ s.sync ≠ syncSynced ∧ s.sync ≠ syncManager := by
  simp [State.syncOk]

theorem late_iff (launch tick : Nat) : decide ((launch : Int) - tick < 200) = true ↔ launch < tick + 200 := by
  rw [decide_eq_true_eq]
  omega

theorem State.armLink_eq (r : State) (b : List Byte) :
    let s := r.readEntry (byteAt b 1)
    let e := s.entryBytes (byteAt b 1)
    r.armLink b =
      if (s.idQuarantined (leAt b 2 2) || s.idOpen (leAt b 2 2)) = true then s.bump F.ESC_CNT_STALE_ID
      else if (!entryValid e || !s.entryOk e) = true then s.refuseLink (byteAt b 1) 3 (leAt b 2 2)
      else if entryScope e ≠ 1 then s.refuseLink (byteAt b 1) 5 (leAt b 2 2)
      else if s.sync ≠ syncSynced ∧ s.sync ≠ syncManager then s.refuseLink (byteAt b 1) 4 (leAt b 2 2)
      else if (s.slot (byteAt b 1)).armed = true then s.refuseLink (byteAt b 1) 2 (leAt b 2 2)
      else if leAt b 4 8 < s.tick + 200 then s.refuseLink (byteAt b 1) 1 (leAt b 2 2)
      else s.setSlot (byteAt b 1) { s.slot (byteAt b 1) with
        armed := true, launch := leAt b 4 8, id := leAt b 2 2, targets := 0, ownRun := true } := by
  intro s e
  refine (counted_first _ _ _ _ _ _ (by decide) (by decide) (s.bump F.ESC_CNT_STALE_ID)
    (fun k => s.refuseLink (byteAt b 1) k (leAt b 2 2)) _).trans ?_
  simp only [State.nosync_iff, late_iff, bne_iff_ne]
  rfl

theorem State.cancelLink_eq (r : State) (b : List Byte) :
    let s := r.readEntry (byteAt b 1)
    let e := s.entryBytes (byteAt b 1)
    r.cancelLink b =
      if (s.idQuarantined (leAt b 2 2) ||
        !((s.slot (byteAt b 1)).armed && (s.slot (byteAt b 1)).id == leAt b 2 2)) = true then s.bump F.ESC_CNT_STALE_ID
      else if (!entryValid e || !s.entryOk e) = true then s.refuseLink (byteAt b 1) 3 (leAt b 2 2)
      else if entryScope e ≠ 1 then s.refuseLink (byteAt b 1) 5 (leAt b 2 2)
      else if s.sync ≠ syncSynced ∧ s.sync ≠ syncManager then s.refuseLink (byteAt b 1) 4 (leAt b 2 2)
      else if (s.slot (byteAt b 1)).launch < s.tick + 200 then s.refuseLink (byteAt b 1) 1 (leAt b 2 2)
      else s.closeSlot (byteAt b 1) := by
  intro s e
  refine (counted_first _ _ _ _ _ _ (by decide) (by decide) (s.bump F.ESC_CNT_STALE_ID)
    (fun k => s.refuseLink (byteAt b 1) k (leAt b 2 2)) _).trans ?_
  simp only [State.nosync_iff, late_iff, bne_iff_ne]
  refine ite_congr rfl (fun _ => rfl) fun fresh => ?_
  have armed : ((r.readEntry (cmdSlot b)).slot (cmdSlot b)).armed = true := by
    simp only [Bool.or_eq_true, Bool.not_eq_true', Bool.and_eq_false_iff, not_or, Bool.not_eq_false] at fresh
    exact fresh.2.1
  simp only [armed, Bool.not_true, Bool.false_eq_true, if_false]
  rfl

/-! ### BEAT (R101) -/

/-- The boundaries between the number a worker expects and the number `n` that BEAT carries. -/
def State.beatGap (s : State) (n : Nat) : Nat :=
  if s.on F.ESC_BEAT_STAT_RUN = true ∧ s.beat.next = none ∧ (n + 2 ^ 32 - s.beat.nextNum) % 2 ^ 32 < 2 ^ 31 then
    (n + 2 ^ 32 - s.beat.nextNum) % 2 ^ 32 else 0

theorem State.beatGap_stopped {s : State} (stopped : s.on F.ESC_BEAT_STAT_RUN = false) (n : Nat) : s.beatGap n = 0 :=
  if_neg fun h => Bool.false_ne_true (stopped.symm.trans h.1)

theorem State.beatGap_expected {s : State} {n : Nat} (expected : s.beat.nextNum = n) : s.beatGap n = 0 := by
  unfold State.beatGap
  rw [expected, Nat.add_sub_cancel_left, Nat.mod_self, ite_self]

theorem State.beatGap_beyond {s : State} {n g : Nat} (runs : s.on F.ESC_BEAT_STAT_RUN = true) (unset : s.beat.next = none)
    (near : g < 2 ^ 31) (beyond : n = s.beat.nextNum + g) : s.beatGap n = g := by
  have gap : (n + 2 ^ 32 - s.beat.nextNum) % 2 ^ 32 = g := by omega
  unfold State.beatGap
  rw [gap]
  exact if_pos ⟨runs, unset, near⟩

/-- The worker has received BEAT. -/
def State.beatSeen (s : State) (b : List Byte) : State :=
  { s with beat := { s.beat with seen := some (leAt b 20 4, leAt b 4 8) } }

/-- BEAT gives the next boundary and its number. -/
def State.beatTaken (s : State) (b : List Byte) : State :=
  let t := if s.beatGap (leAt b 20 4) = 0 then s.beatSeen b else (s.beatSeen b).beatMissed (s.beatGap (leAt b 20 4))
  { t with beat := { t.beat with prior := s.beat.seen, next := some (leAt b 4 8), nextNum := leAt b 20 4 } }

/-- A BEAT that is not taken: its boundary is missed too. -/
def State.beatRefused (s : State) (b : List Byte) : State :=
  let t := (s.beatSeen b).beatMissed (s.beatGap (leAt b 20 4) + 1)
  { t with beat := { t.beat with nextNum := (leAt b 20 4 + 1) % 2 ^ 32 } }

/-- A BEAT that the worker has judged already, taken or not. -/
def State.beatJudged (s : State) (b : List Byte) : Prop :=
  s.beat.next = some (leAt b 4 8) ∨ (s.on F.ESC_BEAT_STAT_RUN = true ∧ s.get F.ESC_BEAT_NUM = leAt b 20 4) ∨
    (s.beat.merged = true ∧ s.beat.nextNum = (leAt b 20 4 + 1) % 2 ^ 32)

theorem State.beatLink_judged {s : State} {b : List Byte} (h : s.beatJudged b) : s.beatLink b = s := if_pos h

theorem State.beatLink_refused {s : State} {b : List Byte} (new : ¬ s.beatJudged b)
    (late : s.sync ≠ syncSynced ∨ leAt b 4 8 < s.tick + 200) : s.beatLink b = s.beatRefused b :=
  (if_neg new).trans (if_pos late)

theorem State.beatLink_taken {s : State} {b : List Byte} (new : ¬ s.beatJudged b) (synced : s.sync = syncSynced)
    (ahead : s.tick + 200 ≤ leAt b 4 8) : s.beatLink b = s.beatTaken b := by
  have late : ¬ (s.sync ≠ syncSynced ∨ leAt b 4 8 < s.tick + 200) := by
    rintro (h | h)
    · exact h synced
    · omega
  exact (if_neg new).trans (if_neg late)

theorem State.beatNew {s : State} {b : List Byte} (next : s.beat.next ≠ some (leAt b 4 8))
    (num : s.on F.ESC_BEAT_STAT_RUN = true → s.get F.ESC_BEAT_NUM ≠ leAt b 20 4) (merged : s.beat.merged = false) :
    ¬ s.beatJudged b := by
  rintro (h | ⟨runs, h⟩ | ⟨h, -⟩)
  · exact next h
  · exact num runs h
  · exact Bool.false_ne_true (merged.symm.trans h)

theorem State.beatTaken_none (s : State) {b : List Byte} (noGap : s.beatGap (leAt b 20 4) = 0) : s.beatTaken b =
    { s with beat := { s.beat with
      seen := some (leAt b 20 4, leAt b 4 8), prior := s.beat.seen, next := some (leAt b 4 8), nextNum := leAt b 20 4 } } := by
  unfold State.beatTaken
  rw [if_pos noGap]
  rfl

/-- A BEAT taken gives the boundary, its number and the boundaries missed before it, and touches no register. -/
theorem State.beatTaken_beat (s : State) (b : List Byte) : (s.beatTaken b).beat.next = some (leAt b 4 8) ∧
    (s.beatTaken b).beat.nextNum = leAt b 20 4 ∧ (s.beatTaken b).regs = s.regs ∧ (s.beatTaken b).events = s.events ∧
    (s.beatTaken b).beat.missed = s.beat.missed + s.beatGap (leAt b 20 4) ∧
    (s.beatTaken b).beat.merged = (s.beat.merged || decide (0 < s.beatGap (leAt b 20 4))) := by
  unfold State.beatTaken
  split
  · next noGap => simp [State.beatSeen, noGap]
  · next lost => simp [State.beatSeen, State.beatMissed, Nat.pos_of_ne_zero lost]

/-- Settles O23: `armLink_eq` and `cancelLink_eq` for the order of refusals; BEAT by whether it is judged already, taken or
refused, with the boundaries missed in between (`beatGap`). -/
theorem strikeCommandsAct : Obligations.StrikeCommandsAct := by
  unfold Obligations.StrikeCommandsAct
  refine ⟨fun r b hears => hears.completes_target (by decide) rfl (r.armLink_eq b),
    fun r b hears => hears.completes_target (by decide) rfl (r.cancelLink_eq b), ?_, ?_, ?_, ?_, ?_⟩
  · intro s b hears next stopped merged synced ahead
    refine hears.completes_target (by decide) rfl ?_
    have new := State.beatNew next (fun runs => absurd (stopped.symm.trans runs) Bool.false_ne_true) merged
    exact (State.beatLink_taken new synced ahead).trans (s.beatTaken_none (State.beatGap_stopped stopped _))
  · intro s b hears next runs num merged synced ahead
    refine hears.completes_target (by decide) rfl ?_
    have taken := State.beatLink_taken (State.beatNew next (fun _ => num) merged) synced ahead
    obtain ⟨boundary, number, regs, events, missed, merges⟩ := s.beatTaken_beat b
    simp only [taken]
    refine ⟨boundary, number, regs, events, fun _ expected => ?_, fun g unset pos near beyond => ?_⟩
    · rw [missed, merges, State.beatGap_expected expected]
      exact ⟨rfl, by simp [merged]⟩
    · rw [missed, merges, State.beatGap_beyond runs unset near beyond]
      exact ⟨rfl, by simp [pos]⟩
  · intro s b g hears unset runs num merged late near beyond
    refine hears.completes_target (by decide) rfl ?_
    have new := State.beatNew (by simp [unset]) (fun _ => num) merged
    simp only [State.beatLink_refused new late]
    refine ⟨?_, rfl, unset, rfl, rfl⟩
    exact congrArg (fun k => s.beat.missed + (k + 1)) (State.beatGap_beyond runs unset near beyond)
  · intro s b hears judged
    exact hears.completes_target (by decide) rfl (State.beatLink_judged (judged.imp_right .inl))
  · intro s b hears next stopped merged late
    refine hears.completes_target (by decide) rfl ?_
    have new := State.beatNew next (fun runs => absurd (stopped.symm.trans runs) Bool.false_ne_true) merged
    simp only [State.beatLink_refused new late]
    refine ⟨?_, rfl, rfl, rfl, rfl⟩
    exact congrArg (fun k => s.beat.missed + (k + 1)) (State.beatGap_stopped stopped _)

end Sys2Proof.Machine
end

/-! # The tick count, and arming and cancelling by register (R74, R84–R90, R102) -/

section
namespace Sys2Proof.Machine

/-! ### One write or read by any party, with nothing else under way -/

theorem State.reactions_waiting_later (s : State) : (s.eventsLater 0).reactions.waiting = s.waiting := by
  refine (State.aside_reactions _ fun e he => ?_).same_waiting
  simp only [State.eventsLater, List.take_zero, List.nil_append, List.drop_zero, List.mem_map] at he
  obtain ⟨x, -, rfl⟩ := he
  rfl

/-- A write whose effect starts no access. -/
theorem grants_of_keeps {i : Instr} {s : State} {f : State → State} (p : Party) (a : Nat) (w : Word)
    (row : exec i s = .next (s.written p a w)) (effect : ∀ c, c.writeWord p a w allBits = f c)
    (keeps : ∀ c, (f c).waiting = c.waiting) : Grants p i s f := by
  refine ⟨fun off => by rw [row, s.written_shut p a w off], fun quiet admits => ?_⟩
  refine (grants_intro p a w row (fun c _ => effect c) fun c next => ?_).2 quiet admits
  rw [State.reactions_waiting_later, keeps]
  exact (State.Aside.same_waiting next).trans quiet.waiting

/-- A read of ranks 1 to 3 with nothing else under way. -/
theorem State.readBy_urgent (s : State) (p : Party) (a : Nat) (h : s.Quiet) (admits : s.admits p = true)
    (urgent : p.urgent = true) : ∃ c, s.NextCycle c ∧
      s.readBy p a = { (c.readReg p a).2.settle with busWord := (c.readReg p a).1 } := by
  have start : s.cycleStart = s.cycles 1 := s.cycleStart_quiet h.due h.events h.line h.burst
  have cycle := s.cycles_quiet 1 h.due h.events
  have calm : ∀ e ∈ (s.cycleStart.occupy a).events, e.ready = false := by
    rw [start, cycle]; simp [State.occupy, h.events]
  have waits : (s.cycleStart.occupy a).reactions.waiting = [] := by
    rw [(State.aside_reactions _ calm).same_waiting, start, cycle]; exact h.waiting
  have aside := State.aside_settle _ calm
  refine ⟨(s.cycleStart.occupy a).settle, ?_, ?_⟩
  · unfold State.NextCycle
    rw [aside.same_occupied]
    rw [start, cycle] at aside ⊢
    exact aside
  · unfold State.readBy State.urgentAccess
    simp only [h.fabric', admits, urgent, Bool.not_true, Bool.or_false, Bool.false_eq_true, if_false, if_true,
      Option.isSome_none, and_false, State.reactCycle_settle _ waits]

theorem State.readBy_quiet (s : State) (p : Party) (a : Nat) (h : s.Quiet) (admits : s.admits p = true) :
    ∃ c, s.NextCycle c ∧ s.readBy p a = { (c.readReg p a).2.settle with busWord := (c.readReg p a).1 } := by
  cases urgent : p.urgent with
  | false => obtain ⟨c, next, -, read⟩ := s.readBy_plain p a h admits urgent; exact ⟨c, next, read⟩
  | true => exact s.readBy_urgent p a h admits urgent

theorem State.readBy_shut (s : State) (p : Party) (a : Nat) (h : s.fabricOn = false ∨ s.admits p = false) :
    s.readBy p a = s := by
  unfold State.readBy
  rcases h with h | h <;> simp [h]

/-- A read whose word and effect are `f`. -/
theorem reads_intro {i : Instr} {s : State} {f : State → Word × State} (p : Party) (a : Nat)
    (row : exec i s = .next (s.readBy p a)) (effect : ∀ c, c.readWord p a = f c) : Reads p i s f := by
  refine ⟨fun off => by rw [row, s.readBy_shut p a off], fun quiet admits => ?_⟩
  obtain ⟨c, next, read⟩ := s.readBy_quiet p a quiet admits
  have calm : c.events = [] := next.events_nil quiet.events
  have word : c.readReg p a = ((f c).1, (f c).2.eventsLater 0) := by
    unfold State.readReg
    rw [effect, calm]
    rfl
  exact ⟨c, next, by rw [row, read, word]⟩

/-! ### The registers of the escapement -/

theorem State.writeWord_esc (s : State) (p : Party) {a : Nat} (w m : Word) (block : blockOf a = 2)
    (row : (regDef a).isNone = false) : s.writeWord p a w m = s.writeEsc p a w m := by
  unfold State.writeWord
  rw [block]
  simp only [row, Bool.false_eq_true, if_false]

theorem State.writeWord_escCntClr (s : State) (p : Party) :
    s.writeWord p F.ESC_CNT_CLR.base 1 allBits = s.setReg F.ESC_CNT.base 0 :=
  s.writeWord_esc p 1 allBits (by decide) (by decide)

/-- ESC_TICK_LO is no live statistic. -/
theorem tickLo_notLive : bankRegs.find? (fun w => w.2 == F.ESC_TICK_LO.base) = none := by decide +kernel

theorem regDef_tickLo : regDef F.ESC_TICK_LO.base = some ⟨0x0800, 0x0, 1, 0, 1, 0, 0, 0, 0, 0, false, false⟩ := by decide

theorem State.readWord_tickLo (s : State) (p : Party) : s.readWord p F.ESC_TICK_LO.base = s.readTick p := by
  have live : s.liveRead 2 F.ESC_TICK_LO.base = s := by
    unfold State.liveRead
    rw [tickLo_notLive]
    exact ite_self s
  have block : blockOf F.ESC_TICK_LO.base = 2 := by decide
  unfold State.readWord
  rw [block, regDef_tickLo]
  unfold State.readRegister
  simp only [live]
  rfl

/-! ### The step of the count (R74) -/

theorem State.reg_bump_ne (s : State) {f : Fld} {i k : Nat} (h : k ≠ f.addr i) (n : Nat) : (s.bump f i n).reg k = s.reg k :=
  s.reg_put_ne h _

/-- A counter that counts on, or stands at its greatest value. -/
theorem State.get_bump_same (s : State) (f : Fld) (i n : Nat) (h : f.lo + f.width ≤ 32) :
    (s.bump f i n).get f i = min (s.get f i + n) (2 ^ f.width - 1) := by
  unfold State.bump
  rw [State.get_put_same _ _ _ _ h]
  have := Nat.two_pow_pos f.width
  exact Nat.mod_eq_of_lt (by omega)

/-- The count after the step that `e` calls for, before its registers show it. -/
def State.stepped (s : State) (e : Int) : State := { s with tick := stepTarget s.tick e, stepDue := none, errRun := 0 }

/-- ESC_STAT and ESC_CNT show the step. -/
def State.stepShown (s : State) (e : Int) : State :=
  (((s.stepped e).put F.ESC_STAT_STEPPED 1).putB F.ESC_STAT_STEP_DIR (decide (0 < e))).bump F.ESC_CNT_STEP

theorem State.stepCount_eq {s : State} {e : Int} (due : s.stepDue = some e) :
    s.stepCount = (s.stepShown e).raiseReg 11 11 0 F.ESC_STAT := by
  unfold State.stepCount
  rw [due]
  rfl

theorem State.reg_stepShown_ne (s : State) (e : Int) {k : Nat} (stat : k ≠ F.ESC_STAT.base) (cnt : k ≠ F.ESC_CNT.base) :
    (s.stepShown e).reg k = s.reg k := by
  unfold State.stepShown
  rw [State.reg_bump_ne _ cnt, State.reg_putB_ne _ stat, State.reg_put_ne _ stat]
  rfl

theorem State.stepShown_stepped (s : State) (e : Int) : (s.stepShown e).on F.ESC_STAT_STEPPED = true := by
  unfold State.stepShown State.on State.bump State.putB
  rw [State.get_put_ne _ _ _ _ _ _ (by decide), State.get_put_disj _ _ _ _ _ _ (by decide) (by decide),
    State.get_put_same _ _ _ _ (by decide)]
  rfl

theorem State.stepShown_dir (s : State) (e : Int) : (s.stepShown e).on F.ESC_STAT_STEP_DIR = decide (0 < e) := by
  unfold State.stepShown State.bump
  rw [State.on, State.get_put_ne _ _ _ _ _ _ (by decide)]
  exact State.on_putB_same _ _ _ _ (by decide) rfl

theorem State.stepShown_count (s : State) (e : Int) :
    (s.stepShown e).get F.ESC_CNT_STEP = min (s.get F.ESC_CNT_STEP + 1) 255 := by
  unfold State.stepShown
  rw [State.get_bump_same _ _ _ _ (by decide), State.get_putB_ne _ _ _ _ _ _ (by decide),
    State.get_put_ne _ _ _ _ _ _ (by decide)]
  rfl

/-- An event of the link unit is ready in its cycle (R364). -/
theorem State.raise_events_link (s : State) (ev obj : Nat) (d : Word) (event : ev ≠ 0) : (s.raise 11 ev obj d).events =
    if s.collector then s.events ++ [⟨sourceOf 11 ev obj, d, none, s.tick, true⟩] else s.events := by
  cases on : s.collector with
  | true => exact s.raise_collected on obj d event (by decide)
  | false => simp [State.raise, on]

/-- Settles O13: the read and the clear by `reads_intro` and `grants_of_keeps`; the step by its registers (`stepShown`) and its
record. -/
theorem theCount : Obligations.TheCount := by
  unfold Obligations.TheCount
  refine ⟨fun s p => reads_intro p F.ESC_TICK_LO.base rfl fun c => c.readWord_tickLo p,
    fun s p => grants_of_keeps p F.ESC_CNT_CLR.base 1 rfl (fun c => c.writeWord_escCntClr p) fun _ => rfl,
    fun s still => ⟨s, ?_, rfl⟩, fun s due => ⟨_, ?_, rfl⟩, fun s e due => ?_⟩
  · exact congrArg done (if_pos (by simp [still]))
  · exact congrArg done (if_neg (by simpa using due))
  · simp only [State.stepCount_eq due]
    simp only [State.raiseReg, State.raise_tick, State.raise_stepDue, State.raise_errRun, State.raise_sram, State.raise_slots,
      State.on_raise, State.get_raise, State.reg_raise]
    refine ⟨rfl, rfl, rfl, s.stepShown_stepped e, s.stepShown_dir e, s.stepShown_count e, rfl, rfl, fun k other => ?_, ?_⟩
    · simp only [List.mem_cons, List.not_mem_nil, or_false, not_or] at other
      exact s.reg_stepShown_ne e other.1 other.2
    · exact (s.stepShown e).raise_events_link 11 0 _ (by decide)

end Sys2Proof.Machine
end

/-! # Arming and cancelling by register (R84–R90) -/

section
namespace Sys2Proof.Machine

/-! ### The fields of a word of ESC_ARM_CMD -/

theorem armWord_toNat {op : Nat} (two : op < 4) (hier useMask : Bool) (slot : Fin 256) :
    (armWord op hier useMask slot).toNat = op * 2 ^ 30 + b2n hier * 2 ^ 29 + b2n useMask * 2 ^ 28 + slot.val := by
  have hierBit : b2n hier ≤ 1 := by cases hier <;> decide
  have maskBit : b2n useMask ≤ 1 := by cases useMask <;> decide
  have slotBits := slot.isLt
  rw [armWord, BitVec.toNat_ofNat, Nat.mod_eq_of_lt (by omega)]

theorem bitOf_eq_decide (w : Word) (i : Nat) : bitOf w i = decide (w.toNat / 2 ^ i % 2 = 1) := by
  rw [bitOf, BitVec.getLsbD, Nat.testBit_eq_decide_div_mod_eq]

theorem armWord_fields {op : Nat} (two : op < 4) (hier useMask : Bool) (slot : Fin 256) :
    bitsOf (armWord op hier useMask slot) 30 2 = op ∧ bitOf (armWord op hier useMask slot) 29 = hier ∧
      bitOf (armWord op hier useMask slot) 28 = useMask ∧ bitsOf (armWord op hier useMask slot) 0 8 = slot.val := by
  have slotBits := slot.isLt
  simp only [bitsOf, bitOf_eq_decide, armWord_toNat two, Nat.shiftRight_eq_div_pow]
  cases hier <;> cases useMask <;> simp only [b2n, if_true, if_false, Bool.false_eq_true, decide_eq_true_eq,
    decide_eq_false_iff_not] <;> omega

theorem State.writeWord_armCmd (s : State) (p : Party) (w : Word) :
    s.writeWord p F.ESC_ARM_CMD.base w allBits = s.writeEsc p F.ESC_ARM_CMD.base w allBits :=
  s.writeWord_esc p w allBits (by decide) (by decide)

theorem State.writeWord_arm (s : State) (p : Party) (rel hier useMask : Bool) (slot : Fin 256) :
    s.writeWord p F.ESC_ARM_CMD.base (armWord (b2n rel) hier useMask slot) allBits =
      s.armCmd p rel hier useMask slot := by
  obtain ⟨opBits, hierBit, maskBit, slotBits⟩ :=
    armWord_fields (op := b2n rel) (by cases rel <;> decide) hier useMask slot
  rw [State.writeWord_armCmd, State.writeEsc, if_pos rfl, opBits, hierBit, maskBit, slotBits]
  cases rel <;> rfl

theorem State.writeWord_cancel (s : State) (p : Party) (hier : Bool) (slot : Fin 256) :
    s.writeWord p F.ESC_ARM_CMD.base (armWord 2 hier false slot) allBits = s.cancelCmd p hier slot := by
  obtain ⟨opBits, hierBit, -, slotBits⟩ := armWord_fields (op := 2) (by decide) hier false slot
  rw [State.writeWord_armCmd, State.writeEsc, if_pos rfl, opBits, hierBit, slotBits]
  rfl

theorem grants_arm {s : State} (p : Party) (rel hier useMask : Bool) (slot : Fin 256) {f : State → State}
    (effect : ∀ c : State, c.armCmd p rel hier useMask slot = f c) :
    Grants p (if rel then .armRelative p hier useMask slot else .armAbsolute p hier useMask slot) s f := by
  refine grants_of_keeps p F.ESC_ARM_CMD.base (armWord (b2n rel) hier useMask slot) ?_ (fun c => ?_) fun c => ?_
  · cases rel <;> rfl
  · rw [State.writeWord_arm, effect]
  · rw [← effect]; exact (c.armCmd_keeps p rel hier useMask slot).2

theorem grants_cancel {s : State} (p : Party) (hier : Bool) (slot : Fin 256) {f : State → State}
    (effect : ∀ c : State, c.cancelCmd p hier slot = f c) : Grants p (.cancelCmd p hier slot) s f := by
  refine grants_of_keeps p F.ESC_ARM_CMD.base (armWord 2 hier false slot) rfl (fun c => ?_) fun c => ?_
  · rw [State.writeWord_cancel, effect]
  · rw [← effect]; exact (c.cancelCmd_keeps p hier slot).2

/-! ### What refuses a request (R87, R88, R90) -/

theorem State.scopeBad_eq (s : State) (e : List Byte) (hier : Bool) :
    s.scopeBad e hier = ((entryScope e == 1) != hier || (hier && !s.isManager)) := by
  unfold State.scopeBad
  cases entryScope e == 1 <;> cases hier <;> cases s.isManager <;> rfl

/-- A request whose scope is right has the lead of its scope. -/
theorem State.minLead_eq {s : State} {e : List Byte} {hier : Bool} (right : ¬ s.scopeBad e hier = true) :
    s.minLead hier = if hier then 12000 else 200 := by
  rw [State.scopeBad_eq] at right
  unfold State.minLead
  cases hier with
  | false => rfl
  | true =>
    have manager : s.isManager = true := by simp at right; exact right.2
    rw [manager]
    rfl

/-- A register request that is refused for its first cause (R88). -/
theorem State.refused_register {α : Type} (s : State) (e : List Byte) (hier state : Bool) (launch : Int) {code : Nat}
    (refuses : code ≠ armAccepted) (refuse : Nat → α) (ok : α) :
    let r := armResult false (!entryValid e || !s.entryOk e) (s.scopeBad e hier) (!s.syncOk) state
      (decide (launch - s.tick < s.minLead hier)) code
    (if r ≠ armAccepted then refuse r else ok) =
      if (!entryValid e || !s.entryOk e) = true then refuse 3
      else if ((entryScope e == 1) != hier || (hier && !s.isManager)) = true then refuse 5
      else if s.sync ≠ syncSynced ∧ s.sync ≠ syncManager then refuse 4
      else if state = true then refuse code
      else if launch - s.tick < (if hier then 12000 else 200) then refuse 1 else ok := by
  intro r
  refine (refused_first _ _ _ _ _ refuses refuse ok).trans ?_
  rw [← s.scopeBad_eq]
  refine ite_congr rfl (fun _ => rfl) fun _ => ite_congr rfl (fun _ => rfl) fun right => ?_
  simp only [State.nosync_iff, decide_eq_true_eq, s.minLead_eq right]

theorem State.readEntry_sound {s : State} (slot : Nat) (sound : s.sramRaw = []) : s.readEntry slot = s :=
  if_pos (by rw [sound]; rfl)

/-- Settles O14: the write is the request (`grants_arm`, `grants_cancel`), and its refusals come in the order of
`State.refused_register`. -/
theorem slotsArmAndCancel : Obligations.SlotsArmAndCancel := by
  unfold Obligations.SlotsArmAndCancel
  refine ⟨⟨fun s slot => State.readEntry_sound slot, fun s p rel hier useMask slot => grants_arm p rel hier useMask slot
    fun g => ?_⟩, fun s p hier slot => grants_cancel p hier slot fun g => ?_⟩
  · refine ((g.readEntry slot).refused_register _ hier _ _ (by decide) (fun r => (g.readEntry slot).putArmRes p 0 r slot) _).trans ?_
    cases hier <;> rfl
  · refine ((g.readEntry slot).refused_register _ hier _ _ (by decide) (fun r => (g.readEntry slot).putArmRes p 0 r slot) _).trans ?_
    simp only [Bool.not_eq_true', apply_ite (fun t : State => (t.closeSlot slot).putArmRes p 0 armAccepted slot)]
    rfl

end Sys2Proof.Machine
end

/-! # Down frames on a worker (R74, R114, R115, R118, R120, R137, R144) -/

section
namespace Sys2Proof.Machine

/-! ### What the passing of a down frame changes -/

/-- `t` is `s` but for the code error counters, and what the ports send and the link unit holds of the frame that passes. -/
structure State.PassesOnly (s t : State) : Prop where
  regs : ∀ k, k ≠ F.LINK_CNT0.base → t.reg k = s.reg k
  rest : t = { s with
    regs := t.regs, free := t.free
    link := { s.link with port := t.link.port, passing := t.link.passing, header := t.link.header } }

namespace State.PassesOnly

variable {s t u : State}

theorem refl (s : State) : s.PassesOnly s := ⟨fun _ _ => rfl, rfl⟩

theorem trans (h : s.PassesOnly t) (g : t.PassesOnly u) : s.PassesOnly u :=
  ⟨fun k other => (g.regs k other).trans (h.regs k other), by rw [g.rest, h.rest]⟩

theorem bump (s : State) (f : Fld) (i n : Nat) (h : f.addr i = F.LINK_CNT0.base) : s.PassesOnly (s.bump f i n) :=
  ⟨fun _ other => s.reg_bump_ne (h ▸ other) n, rfl⟩

theorem codeErrors (s : State) (p n : Nat) : s.PassesOnly (s.codeErrors p n) := by
  unfold State.codeErrors
  split <;> exact bump s _ 0 n rfl

theorem downForward (s : State) (head more : List Byte) : s.PassesOnly (s.downForward head more) := by
  unfold State.downForward
  cases s.downstream with
  | none => exact refl s
  | some d =>
    dsimp only
    split_ifs <;> exact ⟨fun _ _ => rfl, rfl⟩

theorem get (h : s.PassesOnly t) (f : Fld) (i : Nat) (other : f.addr i ≠ F.LINK_CNT0.base) : t.get f i = s.get f i :=
  State.get_eq_of_reg (h.regs _ other)

theorem on (h : s.PassesOnly t) (f : Fld) (i : Nat) (other : f.addr i ≠ F.LINK_CNT0.base) : t.on f i = s.on f i :=
  State.on_eq_of_reg (h.regs _ other)

theorem isManager (h : s.PassesOnly t) : t.isManager = s.isManager := by
  unfold State.isManager; rw [h.on _ _ (by decide)]

theorem upstream (h : s.PassesOnly t) : t.upstream = s.upstream := by
  unfold State.upstream; rw [h.on _ _ (by decide), h.on _ _ (by decide)]

theorem pathDelay (h : s.PassesOnly t) : t.pathDelay = s.pathDelay := by
  unfold State.pathDelay; rw [h.get _ _ (by decide), h.get _ _ (by decide)]

theorem syncUnder (h : s.PassesOnly t) : t.syncUnder = s.syncUnder := by
  have before : t.syncBefore = s.syncBefore := by rw [h.rest]
  unfold State.syncUnder State.sync
  rw [h.on _ _ (by decide), h.get _ _ (by decide), before]

theorem tick (h : s.PassesOnly t) : t.tick = s.tick := by rw [h.rest]
theorem sram (h : s.PassesOnly t) : t.sram = s.sram := by rw [h.rest]
theorem errRun (h : s.PassesOnly t) : t.errRun = s.errRun := by rw [h.rest]
theorem stepDue (h : s.PassesOnly t) : t.stepDue = s.stepDue := by rw [h.rest]
theorem taken (h : s.PassesOnly t) : t.link.taken = s.link.taken := by rw [h.rest]
theorem shift (h : s.PassesOnly t) : t.link.shift = s.link.shift := by rw [h.rest]
theorem warmWake (h : s.PassesOnly t) : t.link.warmWake = s.link.warmWake := by rw [h.rest]

end State.PassesOnly

theorem State.portRepeats_codeErrors (s : State) (p n : Nat) (q : Fin 2) :
    (s.codeErrors p n).portRepeats q = s.portRepeats q := by
  have same := State.PassesOnly.codeErrors s p n
  have apart : F.LINK_PORT_STAT_STATE.addr q ≠ F.LINK_CNT0.base := by revert q; decide
  have state : (s.codeErrors p n).portState q = s.portState q := same.get _ _ apart
  unfold State.portRepeats State.portEn State.portUp
  rw [same.regs _ (by decide), state]
  rfl

theorem State.passing_downForward (s : State) (head more : List Byte) :
    (s.downForward head more).link.passing = s.link.passing := by
  unfold State.downForward
  cases s.downstream with
  | none => rfl
  | some d => dsimp only; split_ifs <;> rfl

theorem State.header_downForward (s : State) (head more : List Byte) :
    (s.downForward head more).link.header = s.link.header := by
  unfold State.downForward
  cases s.downstream with
  | none => rfl
  | some d => dsimp only; split_ifs <;> rfl

theorem withBits_self (w : Word) (lo n : Nat) : withBits w lo n (bitsOf w lo n) = w := by
  refine BitVec.eq_of_getLsbD_eq fun i hi => ?_
  rw [getLsbD_withBits _ _ _ _ _ hi, testBit_bitsOf]
  split
  · next inside =>
    have least : i - lo < n := by omega
    have place : lo + (i - lo) = i := by omega
    simp [least, place]
  · rfl

theorem State.get_lt (s : State) (f : Fld) (i : Nat) : s.get f i < 2 ^ f.width := Nat.mod_lt _ (Nat.two_pow_pos _)

/-- A counter that nothing is counted on. -/
theorem State.reg_bump_zero (s : State) (f : Fld) (i k : Nat) : (s.bump f i 0).reg k = s.reg k := by
  have most := s.get_lt f i
  unfold State.bump
  rw [Nat.add_zero, Nat.min_eq_left (by omega), State.reg_put]
  split
  · next same => rw [same, State.get, withBits_self]
  · rfl

theorem State.reg_codeErrors_none (s : State) (p k : Nat) : (s.codeErrors p 0).reg k = s.reg k := s.reg_bump_zero _ _ _

theorem slice_all {b : List Byte} {n : Nat} (len : b.length = n) : slice b 0 n = b := by
  refine List.ext_getElem (by simp [slice, len]) fun i h inside => ?_
  simp [slice, inside]

/-! ### The error of the count that is judged (R74) -/

/-- A signed field reads the number written, as far as it holds it. -/
theorem toS_ofS {z : Int} (least : -2 ^ 15 ≤ z) (most : z < 2 ^ 15) : toS 16 (ofS 16 z % 2 ^ 16) = z := by
  unfold toS ofS
  dsimp only
  split <;> omega

theorem State.getS_err (s : State) (e : Int) : (s.putS F.ESC_ERR_ERR (clampS 16 e)).getS F.ESC_ERR_ERR = clampS 16 e := by
  unfold State.getS State.putS
  rw [State.get_put_same _ _ _ _ (by decide)]
  refine toS_ofS ?_ ?_ <;> unfold clampS <;> omega

/-- What is judged: the error shown, the run of swings above 2 ticks, and the step that the third calls for. -/
theorem State.judgeError_eq (s : State) (e : Int) : s.judgeError e = { s with
    regs := (s.putS F.ESC_ERR_ERR (clampS 16 e)).regs
    errRun := if e.natAbs ≤ 64 then 0 else if 3 ≤ s.errRun + 1 then 0 else s.errRun + 1
    stepDue := if 64 < e.natAbs ∧ 3 ≤ s.errRun + 1 then some e else s.stepDue
    pllPhase := if e.natAbs ≤ 64 then s.pllPhase - e.sign else s.pllPhase } := by
  unfold State.judgeError State.putS
  simp only [State.put_errRun, State.put_pllPhase, ge_iff_le]
  by_cases small : e.natAbs ≤ 64
  · simp only [small, not_lt.mpr small, if_true, if_false, false_and]
    rfl
  · by_cases third : 3 ≤ s.errRun + 1
    · simp only [small, third, not_le.mp small, and_self, if_true, if_false]
      rfl
    · simp only [small, third, and_false, if_false]
      rfl

theorem State.judgeError_err (s : State) (e : Int) : (s.judgeError e).getS F.ESC_ERR_ERR = clampS 16 e := by
  rw [State.judgeError_eq]
  exact s.getS_err e

theorem State.judgeError_errRun (s : State) (e : Int) : (s.judgeError e).errRun =
    if e.natAbs ≤ 64 then 0 else if 3 ≤ s.errRun + 1 then 0 else s.errRun + 1 := by rw [State.judgeError_eq]

theorem State.judgeError_stepDue (s : State) (e : Int) : (s.judgeError e).stepDue =
    if 64 < e.natAbs ∧ 3 ≤ s.errRun + 1 then some e else s.stepDue := by rw [State.judgeError_eq]

theorem State.reg_of_regs {s t : State} (h : t.regs = s.regs) (k : Nat) : t.reg k = s.reg k := by
  unfold State.reg; rw [h]

/-! ### The header (R114, R115, R120) -/

/-- The header of a down frame passes the worker, which forwards it; a frame before it is lost. -/
def State.headerPasses (s : State) (p : Nat) (b : List Byte) (bad : Nat) : State :=
  let c := s.codeErrors p bad
  ({ c with link := { c.link with passing := some b, header := none } } : State).downForward b []

theorem State.headerPasses_only (s : State) (p : Nat) (b : List Byte) (bad : Nat) :
    s.PassesOnly (s.headerPasses p b bad) := by
  let c := s.codeErrors p bad
  have held : c.PassesOnly { c with link := { c.link with passing := some b, header := none } } := ⟨fun _ _ => rfl, rfl⟩
  exact ((State.PassesOnly.codeErrors s p bad).trans held).trans (.downForward _ b [])

theorem State.headerPasses_passing (s : State) (p : Nat) (b : List Byte) (bad : Nat) :
    (s.headerPasses p b bad).link.passing = some b := State.passing_downForward _ _ _

theorem State.reg_downForward (s : State) (head more : List Byte) (k : Nat) : (s.downForward head more).reg k = s.reg k := by
  unfold State.downForward
  cases s.downstream with
  | none => rfl
  | some d => dsimp only; split_ifs <;> rfl

theorem State.headerPasses_regs (s : State) (p : Nat) (b : List Byte) (k : Nat) :
    (s.headerPasses p b 0).reg k = s.reg k :=
  (State.reg_downForward _ _ _ _).trans (s.reg_codeErrors_none p k)

/-- Does a worker pass over a header that is sound: of another type, of a swing whose frame it has taken, or not of its
own swing? -/
def State.headerOther (s : State) (b : List Byte) : Prop :=
  byteAt b 1 / 16 ≠ 1 ∨ s.link.taken = some (leAt b 2 8 / 4000) ∨
    (s.syncUnder ≠ syncUnsynced ∧ leAt b 2 8 ≠ 4000 * (s.tick / 4000))

/-- The error of the count that a down frame shows, in 1/32 tick (R74). -/
def State.frameError (s : State) (b : List Byte) (arr : Nat) : Int := (arr : Int) - 32 * leAt b 2 8 - s.pathDelay

/-- The worker holds the header of a frame, which shows the error `e`. -/
def State.headerHeld (b : List Byte) (e : Int) (s : State) : State :=
  { s with link := { s.link with
      taken := some (leAt b 2 8 / 4000), header := some (slice b 0 14), shift := e, everTaken := true
      missed := 0, grants := [byteAt b 10, byteAt b 11, byteAt b 12], grantSwing := leAt b 2 8 / 4000 } }

theorem State.getS_headerHeld (s : State) (b : List Byte) (e : Int) (f : Fld) : (s.headerHeld b e).getS f = s.getS f := rfl
theorem State.errRun_headerHeld (s : State) (b : List Byte) (e : Int) : (s.headerHeld b e).errRun = s.errRun := rfl
theorem State.stepDue_headerHeld (s : State) (b : List Byte) (e : Int) : (s.headerHeld b e).stepDue = s.stepDue := rfl

/-- The frame is taken (R115). -/
def State.headerTakes (s : State) (b : List Byte) (arr : Nat) : State :=
  (if s.syncUnder == syncUnsynced then s else s.judgeError (s.frameError b arr)).headerHeld b (s.frameError b arr)

theorem State.downHeader_manager {s : State} (p : Nat) (b : List Byte) (arr bad : Nat) (manager : s.isManager = true) :
    s.downHeader p b arr bad = (s.codeErrors p bad).secondManager p :=
  if_pos ((State.PassesOnly.codeErrors s p bad).isManager.trans manager)

theorem State.downHeader_aside {s : State} {p : Fin 2} (b : List Byte) (arr bad : Nat) (worker : s.isManager = false)
    (aside : s.upstream ≠ some p.val ∨ s.portRepeats p = false) : s.downHeader p b arr bad = s.codeErrors p bad := by
  have same := State.PassesOnly.codeErrors s p bad
  have off : (s.codeErrors p bad).upstream != some p.val || !(s.codeErrors p bad).portRepeats p := by
    rw [same.upstream, State.portRepeats_codeErrors]
    simpa using aside
  unfold State.downHeader
  dsimp only
  rw [if_neg (by rw [same.isManager, worker]; exact Bool.false_ne_true), if_pos off]

theorem State.downHeader_passes {s : State} {p : Fin 2} (b : List Byte) (arr bad : Nat) (worker : s.isManager = false)
    (up : s.upstream = some p.val) (repeats : s.portRepeats p = true) :
    s.downHeader p b arr bad =
      let t := s.headerPasses p b bad
      if bad ≠ 0 ∨ crc8 (slice b 1 12) ≠ byteAt b 13 then t.bump F.LINK_CNT0_HCRC_ERR
      else if byteAt b 1 / 16 ≠ 1 then t
      else if t.link.taken == some (leAt b 2 8 / 4000) ||
        (!(t.syncUnder == syncUnsynced) && decide (leAt b 2 8 ≠ 4000 * (t.tick / 4000))) then t
      else t.headerTakes b arr := by
  have same := State.PassesOnly.codeErrors s p bad
  have on : ¬ ((s.codeErrors p bad).upstream != some p.val || !(s.codeErrors p bad).portRepeats p) = true := by
    rw [same.upstream, State.portRepeats_codeErrors]
    simp [up, repeats]
  refine (if_neg (by rw [same.isManager, worker]; exact Bool.false_ne_true)).trans ((if_neg on).trans ?_)
  rfl

theorem State.downHeader_bad {s : State} {p : Fin 2} {b : List Byte} {arr bad : Nat} (worker : s.isManager = false)
    (up : s.upstream = some p.val) (repeats : s.portRepeats p = true) (fails : bad ≠ 0 ∨ crc8 (slice b 1 12) ≠ byteAt b 13) :
    s.downHeader p b arr bad = (s.headerPasses p b bad).bump F.LINK_CNT0_HCRC_ERR :=
  (State.downHeader_passes b arr bad worker up repeats).trans (if_pos fails)

theorem State.downHeader_sound {s : State} {p : Fin 2} {b : List Byte} {arr : Nat} (worker : s.isManager = false)
    (up : s.upstream = some p.val) (repeats : s.portRepeats p = true) (sound : crc8 (slice b 1 12) = byteAt b 13) :
    (s.headerOther b → s.downHeader p b arr 0 = s.headerPasses p b 0) ∧
      (¬ s.headerOther b → s.downHeader p b arr 0 = (s.headerPasses p b 0).headerTakes b arr) := by
  have only := s.headerPasses_only p b 0
  have passes : ¬ ((0 : Nat) ≠ 0 ∨ crc8 (slice b 1 12) ≠ byteAt b 13) := by simp [sound]
  have judged : ((s.headerPasses p b 0).link.taken == some (leAt b 2 8 / 4000) ||
      (!((s.headerPasses p b 0).syncUnder == syncUnsynced) &&
        decide (leAt b 2 8 ≠ 4000 * ((s.headerPasses p b 0).tick / 4000)))) = true ↔
      s.link.taken = some (leAt b 2 8 / 4000) ∨
        (s.syncUnder ≠ syncUnsynced ∧ leAt b 2 8 ≠ 4000 * (s.tick / 4000)) := by
    rw [only.taken, only.syncUnder, only.tick]
    simp
  rw [State.downHeader_passes b arr 0 worker up repeats]
  simp only [if_neg passes]
  refine ⟨fun other => ?_, fun own => ?_⟩
  · split
    · rfl
    · next kind => exact if_pos (judged.mpr (other.resolve_left kind))
  · unfold State.headerOther at own
    rw [not_or] at own
    rw [if_neg own.1, if_neg (mt judged.mp own.2)]

theorem State.headerTakes_link (t : State) (b : List Byte) (arr : Nat) : (t.headerTakes b arr).link = { t.link with
    taken := some (leAt b 2 8 / 4000), header := some (slice b 0 14), shift := t.frameError b arr, everTaken := true
    missed := 0, grants := [byteAt b 10, byteAt b 11, byteAt b 12], grantSwing := leAt b 2 8 / 4000 } := by
  unfold State.headerTakes
  rw [State.judgeError_eq]
  dsimp only
  split <;> rfl

theorem State.headerTakes_tick (t : State) (b : List Byte) (arr : Nat) : (t.headerTakes b arr).tick = t.tick := by
  unfold State.headerTakes
  rw [State.judgeError_eq]
  split <;> rfl

theorem State.headerTakes_sram (t : State) (b : List Byte) (arr : Nat) : (t.headerTakes b arr).sram = t.sram := by
  unfold State.headerTakes
  rw [State.judgeError_eq]
  split <;> rfl

/-- An unsynced worker judges no error. -/
theorem State.headerTakes_unsynced {t : State} (b : List Byte) (arr : Nat) (un : t.syncUnder = syncUnsynced) :
    (t.headerTakes b arr).regs = t.regs ∧ (t.headerTakes b arr).errRun = t.errRun := by
  unfold State.headerTakes
  rw [un]
  exact ⟨rfl, rfl⟩

theorem State.headerTakes_judged {t : State} (b : List Byte) (arr : Nat) (on : t.syncUnder ≠ syncUnsynced) :
    let e := t.frameError b arr
    (t.headerTakes b arr).getS F.ESC_ERR_ERR = clampS 16 e ∧
    (t.headerTakes b arr).errRun = (if e.natAbs ≤ 64 then 0 else if 3 ≤ t.errRun + 1 then 0 else t.errRun + 1) ∧
    (t.headerTakes b arr).stepDue = (if 64 < e.natAbs ∧ 3 ≤ t.errRun + 1 then some e else t.stepDue) := by
  have off : ¬ (t.syncUnder == syncUnsynced) = true := by simpa using on
  unfold State.headerTakes
  rw [if_neg off]
  rw [State.getS_headerHeld, State.errRun_headerHeld, State.stepDue_headerHeld, State.judgeError_err,
    State.judgeError_errRun, State.judgeError_stepDue]
  exact ⟨rfl, rfl, rfl⟩

/-- What a worker holds of a header it takes. -/
theorem State.header_taken (s : State) (p : Fin 2) (b : List Byte) (arr : Nat) (len : b.length = 14) :
    let e : Int := (arr : Int) - 32 * leAt b 2 8 - s.pathDelay
    let u := (s.headerPasses p b 0).headerTakes b arr
    u.link.taken = some (leAt b 2 8 / 4000) ∧ u.link.header = some b ∧ u.link.passing = some b ∧ u.link.shift = e ∧
      u.link.missed = 0 ∧ u.link.grants = [byteAt b 10, byteAt b 11, byteAt b 12] ∧
      u.link.grantSwing = leAt b 2 8 / 4000 ∧ u.tick = s.tick ∧ u.sram = s.sram ∧
      (s.syncUnder = syncUnsynced → (∀ k, u.reg k = s.reg k) ∧ u.errRun = s.errRun) ∧
      (s.syncUnder ≠ syncUnsynced → u.getS F.ESC_ERR_ERR = clampS 16 e ∧
        u.errRun = (if e.natAbs ≤ 64 then 0 else if 3 ≤ s.errRun + 1 then 0 else s.errRun + 1) ∧
        u.stepDue = (if 64 < e.natAbs ∧ 3 ≤ s.errRun + 1 then some e else s.stepDue)) := by
  intro e u
  have only := s.headerPasses_only p b 0
  have err : (s.headerPasses p b 0).frameError b arr = e := by rw [State.frameError, only.pathDelay]
  have whole : slice b 0 14 = b := slice_all len
  have link : u.link = _ := (s.headerPasses p b 0).headerTakes_link b arr
  rw [err, whole] at link
  have tick : u.tick = s.tick := (State.headerTakes_tick _ _ _).trans only.tick
  have sram : u.sram = s.sram := (State.headerTakes_sram _ _ _).trans only.sram
  rw [link]
  refine ⟨rfl, rfl, s.headerPasses_passing p b 0, rfl, rfl, rfl, rfl, tick, sram,
    fun un => ?_, fun on => ?_⟩
  · obtain ⟨regs, run⟩ := State.headerTakes_unsynced b arr (only.syncUnder.trans un)
    exact ⟨fun k => (State.reg_of_regs regs k).trans (s.headerPasses_regs p b k), run.trans only.errRun⟩
  · have judged := State.headerTakes_judged b arr (fun un => on (only.syncUnder.symm.trans un))
    rwa [err, only.errRun, only.stepDue] at judged

end Sys2Proof.Machine
end

/-! # The rest of a down frame, and a swing without one (R115, R118, R120, R124, R137, R144) -/

section
namespace Sys2Proof.Machine

/-! ### Another manager on a port (R120) -/

theorem State.port_setPort (s : State) (p : Fin 2) (x : PortSt) : (s.setPort p x).port p = x :=
  (tget_tset s.link.port p p x).trans (if_pos ⟨rfl, p.isLt⟩)

theorem State.portState_markEnds (s : State) (p : Nat) : s.markEnds.portState p = s.portState p := by
  unfold State.markEnds State.portState
  rw [State.get_putB_disj _ _ _ _ _ _ (by decide) (by decide), State.get_putB_disj _ _ _ _ _ _ (by decide) (by decide)]

theorem State.isManager_markEnds (s : State) : s.markEnds.isManager = s.isManager := by
  unfold State.markEnds State.isManager State.on
  rw [State.get_putB_ne _ _ _ _ _ _ (by decide), State.get_putB_ne _ _ _ _ _ _ (by decide)]

/-- LINK_PORTx_STAT of a port whose receiver goes down. -/
def State.portDownShown (s : State) (p : Nat) (ld : Bool) : State :=
  ((s.put F.LINK_PORT_STAT_STATE portDownSt p).put F.LINK_PORT_STAT_NB_ADOPT 0 p).putB F.LINK_PORT_STAT_LD_RX ld p

theorem State.portState_portDownShown (s : State) (p : Nat) (ld : Bool) : (s.portDownShown p ld).portState p = 0 := by
  unfold State.portDownShown State.portState
  rw [State.get_putB_disj _ _ _ _ _ _ (by decide) (by decide), State.get_put_disj _ _ _ _ _ _ (by decide) (by decide),
    State.get_put_same _ _ _ _ (by decide)]
  rfl

theorem State.isManager_portDownShown (s : State) (p : Fin 2) (ld : Bool) :
    (s.portDownShown p ld).isManager = s.isManager := by
  have apart (f : Fld) (base : f.base = 0xC01) (stride : f.stride = 1) : F.SYS_DOM_STAT_ROLE.addr 0 ≠ f.addr p := by
    rw [Fld.addr, Fld.addr, base, stride, F.SYS_DOM_STAT_ROLE]
    dsimp only
    omega
  unfold State.portDownShown State.isManager State.on
  rw [State.get_putB_ne _ _ _ _ _ _ (apart _ rfl rfl), State.get_put_ne _ _ _ _ _ _ (apart _ rfl rfl),
    State.get_put_ne _ _ _ _ _ _ (apart _ rfl rfl)]

/-- What stands on a port is lost with its receiver; an up port's fall is an event. -/
def State.portCut (p : Nat) (ld wasUp : Bool) (s : State) : State :=
  let t := ((s.setPort p { s.port p with
    cs := [], rxT := none, lastI2 := none, healEnd := none, rdKept := false
    lastSignal := if ld then s.now else s.now - 100 }).lineCut p).requestsCut p
  if wasUp then t.raiseReg 11 1 p F.LINK_PORT_STAT p else t

theorem State.regs_portCut (s : State) (p : Nat) (ld wasUp : Bool) : (s.portCut p ld wasUp).regs = s.regs := by
  have cut (t : State) : (t.requestsCut p).regs = t.regs := by unfold State.requestsCut; split <;> rfl
  unfold State.portCut
  dsimp only
  split
  · rw [State.raiseReg, State.raise_regs, cut]; rfl
  · rw [cut]; rfl

/-- On a manager no heal follows. -/
theorem State.portGoesDown_manager {s : State} (p : Fin 2) (ld : Bool) (manager : s.isManager = true) :
    s.portGoesDown p ld = ((s.portDownShown p ld).portCut p ld (s.portUp p)).markEnds := by
  have stays : ((s.portDownShown p ld).portCut p ld (s.portUp p)).markEnds.isManager = true := by
    rw [State.isManager_markEnds, ← manager, ← s.isManager_portDownShown p ld]
    exact congrArg not (State.on_eq_of_reg (State.reg_of_regs (State.regs_portCut _ _ _ _) _))
  refine if_neg ?_
  intro heals
  rw [Bool.and_eq_true, Bool.and_eq_true] at heals
  exact Bool.false_ne_true ((congrArg not stays).symm.trans heals.1.1)

theorem State.secondManager_down {s : State} {p : Fin 2} (manager : s.isManager = true)
    (first : (s.port p).secondMgr = false) :
    (s.secondManager p).portState p = 0 ∧ ((s.secondManager p).port p).secondMgr = true := by
  have found : s.secondManager p = ((s.portGoesDown p false).setPort p
      { (s.portGoesDown p false).port p with secondMgr := true }).raise 11 6 p :=
    if_neg (by rw [first]; exact Bool.false_ne_true)
  rw [found]
  constructor
  · rw [State.portState, State.get_raise, State.portGoesDown_manager p false manager]
    refine ((State.portState_markEnds _ p).trans ?_)
    exact (State.get_eq_of_reg (State.reg_of_regs (State.regs_portCut _ _ _ _) _)).trans (s.portState_portDownShown p false)
  · rw [State.port, State.raise_link]
    exact congrArg PortSt.secondMgr (State.port_setPort _ p _)

/-! ### What is repeated downstream (R114, R142) -/

theorem State.portRepeats_eq (s : State) (p : Nat) : s.portRepeats p = (s.linkOn && s.portEn p && (s.portUp p ||
    ((s.port p).warm && decide (s.portState p ≠ 0)))) := by
  unfold State.portRepeats
  rw [bne, beq_eq_decide, ← decide_not]
  rfl

theorem State.downForward_repeats {s : State} {d : Nat} (b : List Byte) (two : d < 2) (down : s.downstream = some d)
    (repeats : s.portRepeats d = true) :
    ((s.downForward b []).port d).frame = b ∧ ((s.downForward b []).port d).frameAt = some (s.now - 116) ∧
      ∀ r, r ≠ [] → ((s.downForward b r).port d).frame = b ++ r := by
  have on : ¬ (!s.portRepeats d) = true := by simp [repeats]
  have put (t : State) (x : PortSt) : (t.setPort d x).port d = x := t.port_setPort ⟨d, two⟩ x
  have head : s.downForward b [] = (s.setPort d { s.port d with
      frame := b, frameAt := some (s.now - 116), rd := s.rdStart d, rdKept := false }).draw := by
    unfold State.downForward
    rw [down]
    exact if_neg on
  refine ⟨?_, ?_, fun r more => ?_⟩
  · rw [head]
    exact congrArg PortSt.frame (put s _)
  · rw [head]
    exact congrArg PortSt.frameAt (put s _)
  · have rest : s.downForward b r = s.setPort d { s.port d with frame := b ++ r, rdKept := true } := by
      have empty : ¬ r.isEmpty = true := by simpa using more
      unfold State.downForward
      rw [down]
      exact (if_neg on).trans (if_neg empty)
    rw [rest, put]

/-! ### The count and SYNC at an accepted frame (R118, R142) -/

theorem State.syncUnder_setSync (s : State) {v : Nat} (code : v < 8) : (s.setSync v).syncUnder = v := by
  unfold State.setSync
  split
  · next held => exact if_pos held
  · next free =>
    have still : ¬ (s.put F.ESC_STAT_SYNC v).on F.SYS_CLK_STAT_HOLDOVER = true := by
      rwa [State.on, State.get_put_ne _ _ _ _ _ _ (by decide)]
    refine (if_neg still).trans ((s.get_put_same F.ESC_STAT_SYNC v 0 (by decide)).trans ?_)
    exact Nat.mod_eq_of_lt code

theorem State.setSync_count (s : State) (v : Nat) : (s.setSync v).tick = s.tick ∧ (s.setSync v).ticking = s.ticking := by
  unfold State.setSync
  split <;> exact ⟨rfl, rfl⟩

/-- Can the worker set its count: is the PLL locked to the hierarchy's clock? -/
theorem State.syncStep_unlocked {s : State} (off : s.refFallback = true ∨ s.on F.SYS_CLK_STAT_PLL_LOCK = false) :
    s.syncStep = s :=
  if_pos (by rcases off with h | h <;> simp [h])

theorem State.syncStep_locked {s : State} (own : s.refFallback = false) (lock : s.on F.SYS_CLK_STAT_PLL_LOCK = true) :
    let t := s.syncStep
    (s.syncUnder = syncUnsynced → t.tick = ((s.tick : Int) - s.link.shift / 32).toNat ∧ t.ticking = true ∧
      t.syncUnder = (if s.link.warmWake then syncSynced else syncCoarse)) ∧
    (s.syncUnder = syncCoarse → t.syncUnder = syncSynced ∧ t.tick = s.tick) ∧
    (s.syncUnder ≠ syncUnsynced → s.syncUnder ≠ syncCoarse → t = s) := by
  have on : ¬ (s.refFallback || !s.on F.SYS_CLK_STAT_PLL_LOCK) = true := by simp [own, lock]
  unfold State.syncStep
  rw [if_neg on]
  refine ⟨fun un => ?_, fun coarse => ?_, fun un coarse => ?_⟩
  · simp only [un, beq_self_eq_true, if_true]
    refine ⟨(State.setSync_count _ _).1, (State.setSync_count _ _).2, State.syncUnder_setSync _ ?_⟩
    split <;> decide
  · have un : ¬ (syncCoarse == syncUnsynced) = true := by decide
    simp only [coarse, un, beq_self_eq_true, if_true]
    exact ⟨State.syncUnder_setSync s (by decide), (s.setSync_count _).1⟩
  · simp [un, coarse]

/-! ### The rest of a frame (R115, R124, R144) -/

/-- Errors in the code groups of the rest of a frame count on the upstream port. -/
def State.restErrors (bad : Nat) (s : State) : State :=
  match s.upstream with
  | none => s
  | some p => s.codeErrors p bad

theorem State.restErrors_only (s : State) (bad : Nat) : s.PassesOnly (s.restErrors bad) := by
  unfold State.restErrors
  cases s.upstream with
  | none => exact .refl s
  | some p => exact .codeErrors s p bad

theorem State.restErrors_link (s : State) (bad : Nat) : (s.restErrors bad).link = s.link := by
  unfold State.restErrors
  cases s.upstream <;> rfl

/-- The rest of the frame that passes is forwarded. -/
def State.restForwarded (b : List Byte) (s : State) : State :=
  match s.link.passing with
  | none => s
  | some h => ({ s with link := { s.link with passing := none } } : State).downForward h b

theorem State.downPasses_eq (s : State) (b : List Byte) (bad : Nat) :
    s.downPasses b bad = (s.restErrors bad).restForwarded b := rfl

theorem State.restForwarded_only (s : State) (b : List Byte) : s.PassesOnly (s.restForwarded b) := by
  unfold State.restForwarded
  cases s.link.passing with
  | none => exact .refl s
  | some h =>
    have passed : s.PassesOnly { s with link := { s.link with passing := none } } := ⟨fun _ _ => rfl, rfl⟩
    exact passed.trans (.downForward _ h b)

theorem State.restForwarded_header (s : State) (b : List Byte) : (s.restForwarded b).link.header = s.link.header := by
  unfold State.restForwarded
  cases s.link.passing with
  | none => rfl
  | some h => exact State.header_downForward _ h b

theorem State.downPasses_only (s : State) (b : List Byte) (bad : Nat) : s.PassesOnly (s.downPasses b bad) :=
  (s.restErrors_only bad).trans (State.restForwarded_only _ b)

theorem State.downPasses_header (s : State) (b : List Byte) (bad : Nat) :
    (s.downPasses b bad).link.header = s.link.header := by
  rw [State.downPasses_eq, State.restForwarded_header, State.restErrors_link]

/-- The worker has the rest of a frame it has taken; where it is sound, it accepts the frame. -/
def State.restTaken (accepts : Bool) (s : State) : State :=
  { s with link := { s.link with
      header := none
      accepted := if accepts then s.link.taken else s.link.accepted
      acceptedLog := if accepts then (s.link.accepted.toList ++ s.link.acceptedLog).take 3 else s.link.acceptedLog } }

theorem State.downAccept_untaken {s : State} (b : List Byte) (bad : Nat) (untaken : s.link.header = none) :
    s.downAccept b bad = s.downPasses b bad := by
  have header := (s.downPasses_header b bad).trans untaken
  unfold State.downAccept
  dsimp only
  rw [header]

theorem State.downAccept_fails {s : State} {b h : List Byte} {bad : Nat} (took : s.link.header = some h)
    (fails : bad ≠ 0 ∨ crc16 (b.drop 2) ≠ leAt b 0 2) :
    s.downAccept b bad = (((s.downPasses b bad).restTaken false).bump F.LINK_CNT0_CCRC_ERR).lateLoss := by
  have header := (s.downPasses_header b bad).trans took
  unfold State.downAccept
  dsimp only
  rw [header]
  exact if_pos fails

theorem State.downAccept_sound {s : State} {b h : List Byte} {bad : Nat} (took : s.link.header = some h)
    (whole : bad = 0) (sound : crc16 (b.drop 2) = leAt b 0 2) :
    s.downAccept b bad =
      (((s.downPasses b bad).restTaken true).syncStep.cmdsAct (byteAt h 1 % 16) (b.drop 2)).settle := by
  have header := (s.downPasses_header b bad).trans took
  have passes : ¬ (bad ≠ 0 ∨ crc16 (b.drop 2) ≠ leAt b 0 2) := by simp [whole, sound]
  unfold State.downAccept
  dsimp only
  rw [header]
  exact if_neg passes

theorem State.lateLoss_eq (s : State) : s.lateLoss = (match s.link.taken with
    | none => s
    | some k => if k < s.tick / 4000 then s.bump F.LINK_LATE_CNT_DLOST else s) := by
  unfold State.lateLoss
  cases s.link.taken with
  | none => rfl
  | some k => simp only [Option.map_some, Option.getD_some, decide_eq_true_eq]; rfl

theorem State.cmdsAct_unread {s : State} (n : Nat) {b : List Byte}
    (unread : cmdMeaning (byteAt b 0) = none ∨ cmdLength b = 0 ∨ b.length < cmdLength b) :
    s.cmdsAct (n + 1) b = s.raise 11 9 0 := by
  unfold State.cmdsAct
  cases meaning : cmdMeaning (byteAt b 0) with
  | none => rfl
  | some f => exact if_pos (unread.resolve_left (by simp [meaning]))

/-! ### The end of a swing (R137, R144) -/

theorem State.swingWithout_first {c : State} (k : Nat) (first : c.link.everTaken = false) : c.swingWithout k = c :=
  if_pos (by rw [first]; rfl)

/-- A frame of the swing that is accepted, or whose last byte is still to come, is not lost. -/
def State.lossCounted (k : Nat) (c : State) : State :=
  if c.link.wasAccepted k || (c.link.taken == some k && c.link.header.isSome) then c else c.bump F.LINK_LATE_CNT_DLOST

/-- A swing in which no frame was taken; the fifth in a row is an event. -/
def State.missCounted (k : Nat) (c : State) : State :=
  if c.link.taken == some k then c
  else
    let t : State := { c with link := { c.link with missed := c.link.missed + 1 } }
    if c.link.missed + 1 = 5 then t.raise 11 5 0 else t

theorem State.swingWithout_later {c : State} (k : Nat) (ever : c.link.everTaken = true) :
    c.swingWithout k = (c.lossCounted k).missCounted k := by
  exact if_neg (by rw [ever]; decide)

theorem State.lossCounted_rest (c : State) (k : Nat) : c.lossCounted k = { c with regs := (c.lossCounted k).regs } := by
  unfold State.lossCounted
  split <;> rfl

theorem State.lossCounted_lost (c : State) (k : Nat) : (c.lossCounted k).get F.LINK_LATE_CNT_DLOST =
    if c.link.accepted = some k ∨ k ∈ c.link.acceptedLog ∨ (c.link.taken = some k ∧ c.link.header ≠ none) then
      c.get F.LINK_LATE_CNT_DLOST
    else min (c.get F.LINK_LATE_CNT_DLOST + 1) (2 ^ F.LINK_LATE_CNT_DLOST.width - 1) := by
  have same : (c.link.wasAccepted k || (c.link.taken == some k && c.link.header.isSome)) = true ↔
      c.link.accepted = some k ∨ k ∈ c.link.acceptedLog ∨ (c.link.taken = some k ∧ c.link.header ≠ none) := by
    simp [LinkSt.wasAccepted, Option.isSome_iff_ne_none, or_assoc]
  unfold State.lossCounted
  rw [apply_ite (fun t : State => t.get F.LINK_LATE_CNT_DLOST), c.get_bump_same _ _ _ (by decide)]
  exact if_congr same rfl rfl

theorem State.missCounted_regs (c : State) (k : Nat) : (c.missCounted k).regs = c.regs := by
  unfold State.missCounted
  dsimp only
  split
  · rfl
  · split
    · exact State.raise_regs _ _ _ _ _ _
    · rfl

theorem State.missCounted_missed (c : State) (k : Nat) : (c.missCounted k).link.missed =
    if c.link.taken = some k then c.link.missed else c.link.missed + 1 := by
  unfold State.missCounted
  simp only [beq_iff_eq]
  split
  · rfl
  · split
    · rw [State.raise_link]
    · rfl

theorem State.missCounted_events (c : State) (k : Nat) : (c.missCounted k).events =
    if c.collector ∧ c.link.taken ≠ some k ∧ c.link.missed + 1 = 5 then
      c.events ++ [⟨sourceOf 11 5 0, 0, none, c.tick, true⟩] else c.events := by
  unfold State.missCounted
  simp only [beq_iff_eq]
  by_cases took : c.link.taken = some k
  · simp [took]
  · by_cases fifth : c.link.missed + 1 = 5
    · rw [if_neg took, if_pos fifth, State.raise_events_link _ _ _ _ (by decide)]
      simp [took, fifth]
    · rw [if_neg took, if_neg fifth, if_neg (fun h => fifth h.2.2)]

theorem State.swingWithout_counts {c : State} (k : Nat) (ever : c.link.everTaken = true) :
    let u := c.swingWithout k
    u.get F.LINK_LATE_CNT_DLOST = (if c.link.accepted = some k ∨ k ∈ c.link.acceptedLog ∨
      (c.link.taken = some k ∧ c.link.header ≠ none) then c.get F.LINK_LATE_CNT_DLOST
        else min (c.get F.LINK_LATE_CNT_DLOST + 1) (2 ^ F.LINK_LATE_CNT_DLOST.width - 1)) ∧
    u.link.missed = (if c.link.taken = some k then c.link.missed else c.link.missed + 1) ∧
    u.events = (if c.collector ∧ c.link.taken ≠ some k ∧ c.link.missed + 1 = 5 then
      c.events ++ [⟨sourceOf 11 5 0, 0, none, c.tick, true⟩] else c.events) := by
  rw [State.swingWithout_later k ever]
  refine ⟨?_, ?_, ?_⟩
  · rw [← c.lossCounted_lost k]
    exact State.get_eq_of_reg (State.reg_of_regs (State.missCounted_regs _ k) _)
  · rw [State.missCounted_missed, State.lossCounted_rest]
  · rw [State.missCounted_events, State.lossCounted_rest]

/-! ### The rows -/

theorem completes_downFrameHeader {p : Fin 2} {b : List Byte} {arr bad : Nat} {s u : State} {P : State → Prop}
    (len : b.length = 14) (on : s.linkOn = true) (ends : s.downHeader p b arr bad = u) (h : P u) :
    Completes (.downFrameHeader p b arr bad) s P := by
  have row : exec (.downFrameHeader p b arr bad) s = done (s.onLink (State.downHeader p b arr bad)) := if_pos len
  refine completes_done (row.trans (congrArg done ?_)) h
  exact (if_pos on).trans ends

theorem completes_downFrameAccept {b : List Byte} {bad : Nat} {s u : State} {P : State → Prop} (on : s.linkOn = true)
    (ends : s.downAccept b bad = u) (h : P u) : Completes (.downFrameAccept b bad) s P := by
  have row : exec (.downFrameAccept b bad) s = done (s.onLink (State.downAccept b bad)) := rfl
  refine completes_done (row.trans (congrArg done ?_)) h
  exact (if_pos on).trans ends

/-- Settles O20: the header by `downHeader_manager`, `downHeader_aside`, `downHeader_bad` and `downHeader_sound`, the rest of the
frame by `downAccept_fails` and `downAccept_sound`, a swing without a frame by `swingWithout_counts`. -/
theorem downFramesAreTaken : Obligations.DownFramesAreTaken := by
  unfold Obligations.DownFramesAreTaken
  refine ⟨⟨?_, ?_, ?_, ?_, ?_, State.portRepeats_eq, fun s b d => State.downForward_repeats b⟩,
    ⟨fun s b bad off => ?_, fun s b bad on untaken => ?_, fun s b h bad on took => ⟨fun fails => ?_, fun whole sound => ?_⟩,
      fun s => State.syncStep_unlocked, fun s => State.syncStep_locked, State.lateLoss_eq, fun s n b => s.cmdsAct_unread n⟩,
    fun s manager => ?_, fun s worker => ?_, fun c k => State.swingWithout_first k, fun c k => State.swingWithout_counts k⟩
  · intro s p b arr bad len off
    refine completes_done (u := s) ?_ rfl
    exact (if_pos len).trans (congrArg done (if_neg (by rw [off]; exact Bool.false_ne_true)))
  · intro s p b arr bad len on manager
    refine completes_downFrameHeader len on (State.downHeader_manager p b arr bad manager) ⟨rfl, fun first => ?_⟩
    exact State.secondManager_down ((State.PassesOnly.codeErrors s p bad).isManager.trans manager) first
  · intro s p b arr bad len on worker aside
    exact completes_downFrameHeader len on (State.downHeader_aside b arr bad worker aside) rfl
  · intro s p b arr bad len on worker up repeats
    by_cases fails : bad ≠ 0 ∨ crc8 (slice b 1 12) ≠ byteAt b 13
    · refine completes_downFrameHeader len on (State.downHeader_bad worker up repeats fails) ⟨fun _ => rfl, ?_⟩
      intro whole sound
      exact absurd sound (fails.resolve_left (not_not.mpr whole))
    · rw [not_or, not_not, not_not] at fails
      obtain ⟨rfl, sound⟩ := fails
      obtain ⟨passes, -⟩ := State.downHeader_sound (arr := arr) worker up repeats sound
      refine completes_downFrameHeader len on rfl ⟨?_, fun _ _ other => passes other⟩
      exact fun fails => absurd sound (fails.resolve_left (not_not.mpr rfl))
  · intro s p b arr len on worker up repeats sound kind new own
    obtain ⟨-, takes⟩ := State.downHeader_sound (arr := arr) worker up repeats sound
    refine completes_downFrameHeader len on (takes ?_) (s.header_taken p b arr len)
    rintro (other | taken | ⟨synced, other⟩)
    · exact other kind
    · exact new taken
    · exact own.elim synced other
  · exact completes_done (u := s) (congrArg done (if_neg (by rw [off]; exact Bool.false_ne_true))) rfl
  · exact completes_downFrameAccept on (State.downAccept_untaken b bad untaken) rfl
  · exact completes_downFrameAccept on (State.downAccept_fails took fails) rfl
  · have only := s.downPasses_only b bad
    exact completes_downFrameAccept on (State.downAccept_sound took whole sound)
      ⟨_, rfl, only.taken, rfl, only.syncUnder, only.tick, only.shift, only.warmWake⟩
  · exact completes_done (u := s) (congrArg done (if_pos manager)) rfl
  · refine comesAtTick_intro (congrArg done (if_neg ?_))
    rw [worker]
    exact Bool.false_ne_true

end Sys2Proof.Machine
end


/-! # Remote accesses on a worker (R134, R156, R477) -/

section
namespace Sys2Proof.Machine

/-! ### What the reading of points leaves -/

/-- The link unit and the count. -/
@[simp] abbrev State.KeepsLink (s t : State) : Prop := t.link = s.link ∧ t.tick = s.tick

@[simp] theorem State.link_ite (c : Prop) [Decidable c] (a b : State) :
    (if c then a else b).link = if c then a.link else b.link := apply_ite State.link c a b
@[simp] theorem State.tick_ite (c : Prop) [Decidable c] (a b : State) :
    (if c then a else b).tick = if c then a.tick else b.tick := apply_ite State.tick c a b

@[simp] theorem State.memFound_link (s : State) (src k bit : Nat) (last ecc cause : Fld) :
    s.KeepsLink (s.memFound src k bit last ecc cause) := by
  simp -implicitDefEqProofs [State.memFound, State.bump]

@[simp] theorem State.statRestart_link (s : State) (k : Nat) : s.KeepsLink (s.statRestart k) := by
  unfold State.statRestart
  split <;> simp -implicitDefEqProofs

@[simp] theorem State.sramRead_link (s : State) (src k : Nat) : s.KeepsLink (s.sramRead src k).2.2 := by
  unfold State.sramRead
  dsimp only
  split
  · exact ⟨rfl, rfl⟩
  · split_ifs <;> simp
  · split <;> simp

theorem State.ownRead_link (s : State) (src lo hi : Nat) : s.KeepsLink (s.ownRead src lo hi) := by
  unfold State.ownRead
  split
  · exact ⟨rfl, rfl⟩
  · exact ⟨foldl_keeps State.link (fun t k => (t.sramRead_link src k).1) _ s,
      foldl_keeps State.tick (fun t k => (t.sramRead_link src k).2) _ s⟩

theorem State.ownRead_sound {s : State} (src lo hi : Nat) (sound : s.sramRaw = []) : s.ownRead src lo hi = s :=
  if_pos (by rw [sound]; rfl)

theorem State.readAsked_sound {s : State} (b : List Byte) (sound : s.sramRaw = []) : s.readAsked b = s :=
  (congrArg _ (State.ownRead_sound _ _ _ sound)).trans (ite_self s)

theorem State.readAsked_held {s : State} {b : List Byte} (held : s.heldTag b = true) : s.readAsked b = s :=
  if_pos (by rw [held]; rfl)

theorem State.heldTag_readAsked (s : State) (b : List Byte) : (s.readAsked b).heldTag b = s.heldTag b := by
  unfold State.readAsked
  split
  · rfl
  · obtain ⟨link, tick⟩ := s.ownRead_link 3 (sramKey 9 (2048 + cmdPoint b))
      (sramKey 9 (2048 + min 2048 (cmdPoint b + byteAt b 7)))
    unfold State.heldTag State.replyHeld State.readPoints
    rw [link, tick]

/-! ### The request -/

/-- A request that carries the tag of a reply still held is ignored (R134). -/
theorem State.linkRead_held {s : State} {b : List Byte} (a r : Nat) (held : s.heldTag b = true) : s.linkRead b a r = s :=
  if_pos held

theorem State.linkWrite_held {s : State} {b : List Byte} (a r : Nat) (held : s.heldTag b = true) : s.linkWrite b a r = s :=
  if_pos held

/-- A read is refused for its cause, or fetches its words. -/
theorem State.linkRead_free {s : State} {b : List Byte} (a r : Nat) (free : s.heldTag b = false) :
    (r ≠ 0 → s.linkRead b a r = s.ptDone b r [] s.tick) ∧
    (r = 0 → s.linkRead b a r =
      (s.fetch .link 1 a (byteAt b 7)).2.ptDone b 0 ((s.fetch .link 1 a (byteAt b 7)).1.map (fun y => y.1)) s.tick) := by
  have runs : ¬ s.heldTag b = true := by rw [free]; exact Bool.false_ne_true
  exact ⟨fun refused => (if_neg runs).trans (if_pos refused), fun ok => (if_neg runs).trans (if_neg (not_not.mpr ok))⟩

/-- A write is refused for its cause, or writes its words. -/
theorem State.linkWrite_free {s : State} {b : List Byte} (a r : Nat) (free : s.heldTag b = false) :
    (r ≠ 0 → s.linkWrite b a r = s.ptDone b r [] s.tick) ∧
    (r = 0 → s.linkWrite b a r = (s.burst .link 1 a (cmdWords b)).ptDone b 0 [] s.tick) := by
  have runs : ¬ s.heldTag b = true := by rw [free]; exact Bool.false_ne_true
  exact ⟨fun refused => (if_neg runs).trans (if_pos refused), fun ok => (if_neg runs).trans (if_neg (not_not.mpr ok))⟩

theorem State.pointsCheck_ok (s : State) (write : Bool) (first n : Nat) : s.pointsCheck write first n = 0 ↔
    first + n ≤ 2048 ∧ ∀ i, i < n → (s.pointRec (first + i)).1 ≠ 0 ∧ (s.pointRec (first + i)).2.2.testBit (b2n write) = true := by
  unfold State.pointsCheck
  split
  · next beyond => simp [raRange, Nat.not_le.mpr beyond]
  · next fits =>
    rw [Nat.not_lt] at fits
    split
    · next none =>
      simp only [List.find?_eq_none, List.mem_range] at none
      simpa [fits, raOk] using none
    · next i found =>
      have bad := List.find?_some found
      have inside : i < n := List.mem_range.mp (List.mem_of_find?_eq_some found)
      have refused : (if (s.pointRec (first + i)).1 == 0 then raEmpty else raDenied) ≠ 0 := by split <;> decide
      refine iff_of_false refused fun all => ?_
      obtain ⟨record, access⟩ := all.2 i inside
      simp [record, access] at bad

theorem State.pointsOk_iff (s : State) (b : List Byte) (write : Bool) : s.pointsOk b write = 0 ↔
    1 ≤ byteAt b 7 ∧ byteAt b 7 ≤ 8 ∧ leAt b 5 2 % 2048 + byteAt b 7 ≤ 2048 ∧ ∀ i, i < byteAt b 7 →
      (s.pointRec (leAt b 5 2 % 2048 + i)).1 ≠ 0 ∧ (s.pointRec (leAt b 5 2 % 2048 + i)).2.2.testBit (b2n write) = true := by
  unfold State.pointsOk countCheck
  split
  · next out => exact iff_of_false (by decide) (by omega)
  · next counted =>
    rw [State.pointsCheck_ok, cmdPoint]
    have least : 1 ≤ byteAt b 7 := by omega
    have most : byteAt b 7 ≤ 8 := by omega
    simp only [least, most, true_and]

/-! ### Its end -/

/-- A request ends: a refusal is recorded, a reply held, an answer kept. -/
def State.refusalNoted (r : Nat) (s : State) : State := if r = raOk then s else s.raise 11 10 0
def State.replyKept (b : List Byte) (r : Nat) (ws : List Word) (t : Nat) (s : State) : State :=
  if wantsReply b then s.holdReply t (byteAt b 2) (leBytes r 4 ++ bytesOf ws) else s
def State.answerKept (b : List Byte) (r : Nat) (s : State) : State :=
  if wantsAns b then s.setAnswer (if r = raOk then ansReady else ansRefuse) else s

theorem State.ptDone_eq (s : State) (b : List Byte) (r : Nat) (ws : List Word) (t : Nat) :
    s.ptDone b r ws t = ((s.refusalNoted r).replyKept b r ws t).answerKept b r := rfl

theorem State.refusalNoted_rest (s : State) (r : Nat) : s.refusalNoted r = { s with events := (s.refusalNoted r).events } := by
  unfold State.refusalNoted
  split
  · rfl
  · rw [State.raise_eq]

theorem State.replyKept_rest (s : State) (b : List Byte) (r : Nat) (ws : List Word) (t : Nat) :
    s.replyKept b r ws t = { s with link := { s.link with replies := (s.replyKept b r ws t).link.replies } } := by
  unfold State.replyKept
  split <;> rfl

theorem State.answerKept_rest (s : State) (b : List Byte) (r : Nat) :
    s.answerKept b r = { s with link := { s.link with answers := (s.answerKept b r).link.answers } } := by
  unfold State.answerKept
  split <;> rfl

theorem State.ptDone_reply {s : State} {b : List Byte} (r t : Nat) (ws : List Word) (reply : wantsReply b = true) :
    (s.ptDone b r ws t).link.replies = s.link.replies.filter (fun x => x.tag != byteAt b 2) ++
      [⟨byteAt b 2, s.frameSwing, t, leBytes r 4 ++ bytesOf ws⟩] := by
  rw [State.ptDone_eq, State.answerKept_rest, State.replyKept, if_pos reply, State.refusalNoted_rest]
  rfl

theorem State.ptDone_answer {s : State} {b : List Byte} (r t : Nat) (ws : List Word) (ans : wantsAns b = true) :
    (s.ptDone b r ws t).link.answers.head? = some (s.frameSwing, if r = 0 then ansReady else ansRefuse) := by
  rw [State.ptDone_eq, State.answerKept, if_pos ans, State.replyKept_rest, State.refusalNoted_rest]
  rfl

/-- Beside its reply, its answer and its record a request ends without effect. -/
theorem State.ptDone_rest (s : State) (b : List Byte) (r t : Nat) (ws : List Word) :
    (s.ptDone b r ws t).regs = s.regs ∧ (s.ptDone b r ws t).sram = s.sram ∧ (s.ptDone b 0 ws t).events = s.events := by
  have kept : (s.ptDone b r ws t).regs = s.regs ∧ (s.ptDone b r ws t).sram = s.sram := by
    rw [State.ptDone_eq, State.answerKept_rest, State.replyKept_rest, State.refusalNoted_rest]
    exact ⟨rfl, rfl⟩
  have calm : (s.ptDone b 0 ws t).events = s.events := by
    rw [State.ptDone_eq, State.answerKept_rest, State.replyKept_rest]
    rfl
  exact ⟨kept.1, kept.2, calm⟩

/-- The rows of remote accesses, which name their workers by DEST. -/
theorem exec_remoteAccess {b : List Byte} {op : Nat} {i : Instr} (s : State)
    (h : (op, i) ∈ [(0x21, .ptRead b), (0x22, .ptWrite b), (0x23, .regRead b), (0x24, .regWrite b)]) :
    4 ≤ op ∧ ∃ f : State → State, exec i s = linkRow op b (State.onDest b f) s ∧ (s.heldTag b = true → f s = s) := by
  simp only [List.mem_cons, Prod.mk.injEq, List.not_mem_nil, or_false] at h
  rcases h with ⟨rfl, rfl⟩ | ⟨rfl, rfl⟩ | ⟨rfl, rfl⟩ | ⟨rfl, rfl⟩
  · refine ⟨by decide, _, rfl, fun held => ?_⟩
    simp only [State.readAsked_held held]
    exact State.linkRead_held _ _ held
  · refine ⟨by decide, _, rfl, fun held => ?_⟩
    simp only [State.readAsked_held held]
    exact State.linkWrite_held _ _ held
  · exact ⟨by decide, _, rfl, State.linkRead_held _ _⟩
  · exact ⟨by decide, _, rfl, State.linkWrite_held _ _⟩

/-- Settles O24: a request by what it does once its tag is free (`linkRead_free`, `linkWrite_free`), the points it may name by
`pointsOk_iff`, its end by `ptDone_reply`, `ptDone_answer` and `ptDone_rest`. -/
theorem remoteAccessesAct : Obligations.RemoteAccessesAct := by
  unfold Obligations.RemoteAccessesAct
  refine ⟨fun s b op i row hears reply tag => ?_, fun r b hears free => ?_, fun r b hears free => ?_,
    fun s b hears free => ?_, fun s b hears free => ?_, fun s b => State.readAsked_sound b,
    fun s b => s.pointsOk_iff b false, fun s b => s.pointsOk_iff b true, fun s b r t ws reply fresh => ?_,
    fun s b r t ws ans => State.ptDone_answer r t ws ans, fun s b r t ws => s.ptDone_rest b r t ws⟩
  · obtain ⟨kind, f, ends, ignores⟩ := exec_remoteAccess s row
    exact hears.completes_dest kind ends (ignores (by rw [State.heldTag, reply, tag]; rfl))
  · exact hears.completes_dest (by decide) rfl (State.linkRead_free _ _ ((r.heldTag_readAsked b).trans free))
  · exact hears.completes_dest (by decide) rfl (State.linkWrite_free _ _ ((r.heldTag_readAsked b).trans free))
  · exact hears.completes_dest (by decide) rfl (State.linkRead_free _ _ free)
  · exact hears.completes_dest (by decide) rfl (State.linkWrite_free _ _ free)
  · rw [State.ptDone_reply r t ws reply, List.filter_eq_self.mpr (fun x held => by simpa using fresh x held)]
    rfl

end Sys2Proof.Machine
end


/-! # What the link unit shows of its ports (R109, R112, R113, R117, R138) -/

section
namespace Sys2Proof.Machine

/-! ### A command of the link unit -/

theorem completes_onLink {i : Instr} {s : State} {f : State → State} {P : State → Prop}
    (row : exec i s = done (s.onLink f)) (on : s.linkOn = true) (h : P (f s)) : Completes i s P :=
  completes_done (row.trans (congrArg done (if_pos on))) h

theorem completes_offLink {i : Instr} {s : State} {f : State → State} (row : exec i s = done (s.onLink f))
    (off : s.linkOn = false) : Completes i s (fun u => u = s) :=
  completes_done (row.trans (congrArg done (if_neg (by rw [off]; exact Bool.false_ne_true)))) rfl

theorem comes_onLink {i : Instr} {s : State} {g f : State → State} {due : Option Nat} (row : exec i s = done (s.onLink g))
    (on : s.linkOn = true) (waits : g s = s.atTime due f) : Comes i s due f :=
  comes_intro (row.trans (congrArg done ((if_pos on).trans waits)))

/-! ### A field of LINK_PORTx_STAT beside the others -/

theorem State.get_markEnds (s : State) (f : Fld) (i : Nat) (apart : f.lo + f.width ≤ 4 ∨ 5 ≤ f.lo) (fits : f.lo + f.width ≤ 32) :
    s.markEnds.get f i = s.get f i := by
  unfold State.markEnds
  rw [State.get_putB_disj _ _ _ _ _ _ apart fits, State.get_putB_disj _ _ _ _ _ _ apart fits]

theorem State.reg_markEnds_ne (s : State) {k : Nat} (a : k ≠ F.LINK_PORT_STAT.addr 0) (b : k ≠ F.LINK_PORT_STAT.addr 1) :
    s.markEnds.reg k = s.reg k := by
  unfold State.markEnds
  exact (State.reg_putB_ne _ (f := F.LINK_PORT_STAT_END) b _).trans (State.reg_putB_ne _ (f := F.LINK_PORT_STAT_END) a _)

/-- `t` is `s` but for registers. -/
def State.RegsOnly (s t : State) : Prop := t = { s with regs := t.regs }

theorem State.RegsOnly.trans {s t u : State} (h : s.RegsOnly t) (g : t.RegsOnly u) : s.RegsOnly u := by
  unfold State.RegsOnly at *
  rw [g, h]

theorem State.RegsOnly.link {s t : State} (h : s.RegsOnly t) : t.link = s.link := by
  unfold State.RegsOnly at h
  rw [h]

theorem State.regsOnly_showOffset (s : State) : s.RegsOnly s.showOffset := by
  unfold State.showOffset
  cases s.upstream with
  | none => rfl
  | some p => dsimp only; cases s.pathVia p <;> rfl

theorem State.regsOnly_markEnds (s : State) : s.RegsOnly s.markEnds := rfl

theorem State.regsOnly_showPhantom (s : State) : s.RegsOnly s.showPhantom := rfl

theorem State.reg_showOffset_ne (s : State) {k : Nat} (h : k ≠ F.ESC_OFFSET.base) : s.showOffset.reg k = s.reg k := by
  unfold State.showOffset
  cases s.upstream with
  | none => rfl
  | some p =>
    dsimp only
    cases s.pathVia p with
    | none => rfl
    | some v => dsimp only; rw [State.reg_put_ne _ h, State.reg_put_ne _ h]

theorem State.reg_showPhantom_ne (s : State) {k : Nat} (h : k ≠ F.LINK_PH_STAT.base) : s.showPhantom.reg k = s.reg k := by
  unfold State.showPhantom
  rw [State.reg_putB_ne _ h, State.reg_putB_ne _ h]

theorem State.portStat_apart (p : Fin 2) : F.LINK_PORT_STAT.addr p ≠ F.ESC_OFFSET.base ∧
    F.LINK_PORT_STAT.addr p ≠ F.LINK_PH_STAT.base ∧ F.LINK_PORT_STAT.addr p ≠ F.LINK_CNT1.base := by
  revert p; decide

/-- Ports and their registers depend on the words LINK_PORTx_STAT alone. -/
theorem State.upstream_of_reg {s t : State} (same : ∀ p : Fin 2, t.reg (F.LINK_PORT_STAT.addr p) = s.reg (F.LINK_PORT_STAT.addr p)) :
    t.upstream = s.upstream := by
  unfold State.upstream
  rw [State.on_eq_of_reg (f := F.LINK_PORT_STAT_UPSTREAM) (i := 0) (same 0),
    State.on_eq_of_reg (f := F.LINK_PORT_STAT_UPSTREAM) (i := 1) (same 1)]

theorem State.upstream_of_on {s t : State} (same : ∀ p : Fin 2, t.on F.LINK_PORT_STAT_UPSTREAM p = s.on F.LINK_PORT_STAT_UPSTREAM p) :
    t.upstream = s.upstream := by
  unfold State.upstream
  have first : t.on F.LINK_PORT_STAT_UPSTREAM 0 = s.on F.LINK_PORT_STAT_UPSTREAM 0 := same 0
  have second : t.on F.LINK_PORT_STAT_UPSTREAM 1 = s.on F.LINK_PORT_STAT_UPSTREAM 1 := same 1
  rw [first, second]

theorem State.upstream_markEnds (s : State) : s.markEnds.upstream = s.upstream :=
  State.upstream_of_on fun p => congrArg (· != 0) (s.get_markEnds _ p (by decide) (by decide))

/-! ### The upstream port moves (R109, R112) -/

/-- LINK_PORTx_STAT.UPSTREAM shows port `p`. -/
def State.upstreamShown (p : Nat) (s : State) : State :=
  (s.put F.LINK_PORT_STAT_UPSTREAM 0 (otherPort p)).put F.LINK_PORT_STAT_UPSTREAM 1 p

theorem State.setUpstream_eq (s : State) (p : Nat) :
    s.setUpstream p = ((s.rdLost p).upstreamShown p).showOffset.markEnds.showPhantom := rfl

theorem State.regsOnly_setUpstream (s : State) (p : Nat) : (s.rdLost p).RegsOnly (s.setUpstream p) := by
  have moved : (s.rdLost p).RegsOnly ((s.rdLost p).upstreamShown p) := rfl
  exact ((moved.trans (State.regsOnly_showOffset _)).trans (State.regsOnly_markEnds _)).trans (State.regsOnly_showPhantom _)

theorem State.get_setUpstream (s : State) (p : Nat) (f : Fld) (i : Nat) (apart : f.lo + f.width ≤ 3 ∨ 5 ≤ f.lo)
    (fits : f.lo + f.width ≤ 32) (offset : f.addr i ≠ F.ESC_OFFSET.base) (phantom : f.addr i ≠ F.LINK_PH_STAT.base) :
    (s.setUpstream p).get f i = s.get f i := by
  have upstream : f.lo + f.width ≤ 3 ∨ 4 ≤ f.lo := by omega
  have ends : f.lo + f.width ≤ 4 ∨ 5 ≤ f.lo := by omega
  rw [State.setUpstream_eq, State.get_eq_of_reg (State.reg_showPhantom_ne _ phantom), State.get_markEnds _ _ _ ends fits,
    State.get_eq_of_reg (State.reg_showOffset_ne _ offset), State.upstreamShown,
    State.get_put_disj _ _ _ _ _ _ upstream fits,
    State.get_put_disj _ _ _ _ _ _ upstream fits]
  rfl

theorem State.reg_setUpstream_ne (s : State) (p : Fin 2) {k : Nat} (stat : ∀ q : Fin 2, k ≠ F.LINK_PORT_STAT.addr q)
    (offset : k ≠ F.ESC_OFFSET.base) (phantom : k ≠ F.LINK_PH_STAT.base) : (s.setUpstream p).reg k = s.reg k := by
  have other : k ≠ F.LINK_PORT_STAT_UPSTREAM.addr (otherPort p) := by
    fin_cases p
    · exact stat 1
    · exact stat 0
  rw [State.setUpstream_eq, State.reg_showPhantom_ne _ phantom, State.reg_markEnds_ne _ (stat 0) (stat 1),
    State.reg_showOffset_ne _ offset]
  exact (State.reg_put_ne _ (f := F.LINK_PORT_STAT_UPSTREAM) (stat p) _).trans (State.reg_put_ne _ other _)

theorem State.upstream_upstreamShown (s : State) (p : Fin 2) : (s.upstreamShown p).upstream = some p.val := by
  unfold State.upstreamShown State.upstream
  fin_cases p
  · refine if_pos ?_
    exact (State.on_put_same _ F.LINK_PORT_STAT_UPSTREAM 1 0 (by decide)).trans rfl
  · refine (if_neg ?_).trans (if_pos ?_)
    · rw [State.on, State.get_put_ne _ _ _ _ _ _ (by decide)]
      exact ne_of_eq_of_ne (State.on_put_same _ F.LINK_PORT_STAT_UPSTREAM 0 0 (by decide)) (by decide)
    · exact (State.on_put_same _ F.LINK_PORT_STAT_UPSTREAM 1 1 (by decide)).trans rfl

theorem State.upstream_setUpstream (s : State) (p : Fin 2) : (s.setUpstream p).upstream = some p.val := by
  rw [← (s.rdLost p).upstream_upstreamShown p, State.setUpstream_eq]
  refine (State.upstream_of_reg fun q => State.reg_showPhantom_ne _ (State.portStat_apart q).2.1).trans ?_
  refine (State.upstream_markEnds _).trans ?_
  exact State.upstream_of_reg fun q => State.reg_showOffset_ne _ (State.portStat_apart q).1

theorem State.port_setPort_ne (s : State) {p q : Nat} (h : q ≠ p) (x : PortSt) : (s.setPort p x).port q = s.port q :=
  (tget_tset s.link.port p q x).trans (if_neg fun same => h same.1)

theorem State.port_setUpstream (s : State) (p q : Nat) : ∃ kept, (s.setUpstream p).port q = { s.port q with rdKept := kept } := by
  have port : (s.setUpstream p).port q = (s.rdLost p).port q := congrArg (fun l : LinkSt => tget l.port q) (s.regsOnly_setUpstream p).link
  have set : (s.rdLost p).port q = if q = p ∧ p < 2 then { s.port p with rdKept := false } else s.port q :=
    tget_tset s.link.port p q _
  rw [port, set]
  split
  · next same => exact ⟨false, by rw [same.1]⟩
  · exact ⟨_, rfl⟩

/-! ### The heal (R138) -/

/-- The upstream has moved away from port `q`; /HL/ is sent there where the worker sends it on. -/
def State.healMoved (q : Nat) (send : Bool) (s : State) : State :=
  let t := s.setUpstream (otherPort q)
  let t := if send then t.setPort (otherPort q) { t.port (otherPort q) with healEnd := some (t.now + 200) } else t
  { t with link := { t.link with healed := true } }

theorem State.heal_eq (s : State) (q : Nat) (send : Bool) :
    s.heal q send = ((s.healMoved q send).bump F.LINK_CNT1_HEAL).raise 11 2 0 := rfl

theorem State.healMoved_regs (s : State) (q : Nat) (send : Bool) :
    (s.healMoved q send).regs = (s.setUpstream (otherPort q)).regs := by
  unfold State.healMoved
  cases send <;> rfl

theorem State.heal_link (s : State) (q : Nat) (send : Bool) : (s.heal q send).link = (s.healMoved q send).link := by
  rw [State.heal_eq, State.raise_link]
  rfl

theorem State.heal_rest (s : State) (q : Nat) (send : Bool) :
    (s.heal q send).link = { s.link with port := (s.heal q send).link.port, healed := true } := by
  have moved := (s.regsOnly_setUpstream (otherPort q)).link
  rw [State.heal_link]
  unfold State.healMoved
  cases send <;> simp only [if_true, Bool.false_eq_true, if_false, State.setPort, moved] <;> rfl

theorem State.get_heal (s : State) (q : Nat) (send : Bool) (f : Fld) (i : Nat) (apart : f.lo + f.width ≤ 3 ∨ 5 ≤ f.lo)
    (fits : f.lo + f.width ≤ 32) (offset : f.addr i ≠ F.ESC_OFFSET.base) (phantom : f.addr i ≠ F.LINK_PH_STAT.base)
    (counts : f.addr i ≠ F.LINK_CNT1.base) : (s.heal q send).get f i = s.get f i := by
  rw [State.heal_eq, State.get_raise, State.get_eq_of_reg (State.reg_bump_ne _ (f := F.LINK_CNT1_HEAL) (i := 0) counts 1),
    State.get_eq_of_reg (State.reg_of_regs (s.healMoved_regs q send) _)]
  exact s.get_setUpstream _ f i apart fits offset phantom

theorem State.heal_count (s : State) (q : Fin 2) (send : Bool) : (s.heal q send).get F.LINK_CNT1_HEAL =
    min (s.get F.LINK_CNT1_HEAL + 1) (2 ^ F.LINK_CNT1_HEAL.width - 1) := by
  have other : otherPort q = (1 - q : Fin 2).val := by revert q; decide
  have before : (s.healMoved q send).get F.LINK_CNT1_HEAL = s.get F.LINK_CNT1_HEAL := by
    refine State.get_eq_of_reg ((State.reg_of_regs (s.healMoved_regs q send) _).trans ?_)
    rw [other]
    exact s.reg_setUpstream_ne _ (by decide) (by decide) (by decide)
  rw [State.heal_eq, State.get_raise, State.get_bump_same _ _ _ _ (by decide), before]

theorem State.heal_upstream (s : State) (q : Fin 2) (send : Bool) : (s.heal q send).upstream = some (1 - q.val) := by
  have other : otherPort q = (1 - q : Fin 2).val := by revert q; decide
  have same : (s.heal q send).upstream = (s.setUpstream (otherPort q)).upstream := by
    refine State.upstream_of_reg fun p => ?_
    rw [State.heal_eq, State.reg_raise, State.reg_bump_ne _ (f := F.LINK_CNT1_HEAL) (i := 0) (State.portStat_apart p).2.2]
    exact State.reg_of_regs (s.healMoved_regs q send) _
  rw [same, other, State.upstream_setUpstream, ← other]
  rfl

/-- The port healed from keeps what it holds. -/
theorem State.port_heal_from (s : State) (q : Fin 2) (send : Bool) :
    ∃ kept, (s.heal q send).port q = { s.port q with rdKept := kept } := by
  have apart : q.val ≠ otherPort q := by revert q; decide
  have port : (s.heal q send).port q = (s.setUpstream (otherPort q)).port q := by
    rw [State.port, State.heal_link]
    unfold State.healMoved
    cases send with
    | false => rfl
    | true => exact State.port_setPort_ne _ apart _
  rw [port]
  exact s.port_setUpstream _ _

/-- The port healed to sends /HL/ for 200 ticks where the worker sends it on. -/
theorem State.healEnd_heal (s : State) (q : Fin 2) (send : Bool) : ((s.heal q send).port (1 - q.val)).healEnd =
    if send then some (s.now + 200) else (s.port (1 - q.val)).healEnd := by
  have other : otherPort q = (1 - q : Fin 2).val := by revert q; decide
  obtain ⟨kept, moved⟩ := s.port_setUpstream (otherPort q) (otherPort q)
  have now : (s.setUpstream (otherPort q)).now = s.now := by
    have only := s.regsOnly_setUpstream (otherPort q)
    unfold State.RegsOnly at only
    rw [only]
    rfl
  change ((s.heal q send).port (otherPort q)).healEnd = _
  rw [State.port, State.heal_link]
  unfold State.healMoved
  cases send with
  | false =>
    have kept : ((s.setUpstream (otherPort q)).port (otherPort q)).healEnd = (s.port (otherPort q)).healEnd := by rw [moved]
    exact kept
  | true =>
    rw [other] at now ⊢
    refine (congrArg PortSt.healEnd (State.port_setPort _ (1 - q) _)).trans ?_
    rw [now]
    rfl

/-! ### A receiver that goes down (R106, R115, R129, R138) -/

/-- What a port that goes down leaves before a heal. -/
def State.portLeft (p : Nat) (ld : Bool) (s : State) : State := ((s.portDownShown p ld).portCut p ld (s.portUp p)).markEnds

theorem State.get_portCut (s : State) (p : Nat) (ld wasUp : Bool) (f : Fld) (i : Nat) :
    (s.portCut p ld wasUp).get f i = s.get f i :=
  State.get_eq_of_reg (State.reg_of_regs (s.regs_portCut p ld wasUp) _)

theorem State.get_portLeft (s : State) (p : Nat) (ld : Bool) (f : Fld) (i : Nat) (apart : f.lo + f.width ≤ 4 ∨ 5 ≤ f.lo)
    (fits : f.lo + f.width ≤ 32) : (s.portLeft p ld).get f i = (s.portDownShown p ld).get f i := by
  rw [State.portLeft, State.get_markEnds _ _ _ apart fits, State.get_portCut]

theorem State.portDownShown_shows (s : State) (p : Nat) (ld : Bool) : (s.portDownShown p ld).portState p = 0 ∧
    (s.portDownShown p ld).on F.LINK_PORT_STAT_NB_ADOPT p = false ∧ (s.portDownShown p ld).on F.LINK_PORT_STAT_LD_RX p = ld := by
  refine ⟨s.portState_portDownShown p ld, ?_, State.on_putB_same _ _ _ _ (by decide) rfl⟩
  unfold State.portDownShown
  rw [State.on, State.get_putB_disj _ _ _ _ _ _ (by decide) (by decide), State.get_put_same _ _ _ _ (by decide)]
  rfl

theorem State.upstream_portLeft (s : State) (p : Nat) (ld : Bool) : (s.portLeft p ld).upstream = s.upstream := by
  refine State.upstream_of_on fun q => congrArg (· != 0) ?_
  rw [State.get_portLeft _ _ _ _ _ (by decide) (by decide), State.portDownShown, State.get_putB_disj _ _ _ _ _ _ (by decide) (by decide),
    State.get_put_disj _ _ _ _ _ _ (by decide) (by decide), State.get_put_disj _ _ _ _ _ _ (by decide) (by decide)]

theorem State.isManager_portLeft (s : State) (p : Fin 2) (ld : Bool) : (s.portLeft p ld).isManager = s.isManager := by
  rw [State.portLeft, State.isManager_markEnds, ← s.isManager_portDownShown p ld]
  exact congrArg not (congrArg (· != 0) (State.get_portCut _ _ _ _ _ _))

/-- A worker heals where its upstream port was receiving; any other device stays. -/
theorem State.portGoesDown_eq (s : State) (p : Fin 2) (ld : Bool) : s.portGoesDown p ld =
    if s.isManager = false ∧ s.upstream = some p.val ∧ s.portState p ≠ 0 then (s.portLeft p ld).heal p true
    else s.portLeft p ld := by
  have model : s.portGoesDown p ld = if (!(s.portLeft p ld).isManager && (s.portLeft p ld).upstream == some p.val &&
      s.portState p != portDownSt) = true then (s.portLeft p ld).heal p true else s.portLeft p ld := rfl
  rw [model, State.isManager_portLeft, State.upstream_portLeft]
  refine if_congr ?_ rfl rfl
  simp [portDownSt, and_assoc]

/-- What stands on the port is gone before what passes there is cut. -/
def State.portEmptied (p : Nat) (ld : Bool) (s : State) : State :=
  s.setPort p { s.port p with
    cs := [], rxT := none, lastI2 := none, healEnd := none, rdKept := false, lastSignal := if ld then s.now else s.now - 100 }

theorem State.portCut_link (s : State) (p : Nat) (ld wasUp : Bool) :
    (s.portCut p ld wasUp).link = (((s.portEmptied p ld).lineCut p).requestsCut p).link := by
  unfold State.portCut
  cases wasUp with
  | false => rfl
  | true => exact State.raise_link ..

theorem State.requestsCut_rest (s : State) (p : Nat) :
    s.requestsCut p = { s with link := { s.link with wkr := (s.requestsCut p).link.wkr } } := by
  unfold State.requestsCut
  split <;> rfl

theorem State.lineCut_rest (s : State) (p : Nat) : s.lineCut p = { s with link := { s.link with
    lineDue := s.link.lineDue.filter (fun e => !e.2.onPort p)
    header := (s.lineCut p).link.header, passing := (s.lineCut p).link.passing } } := by
  unfold State.lineCut
  dsimp only
  split <;> rfl

theorem State.portLeft_link (s : State) (p : Nat) (ld : Bool) : (s.portLeft p ld).link =
    ((((s.portDownShown p ld).portEmptied p ld).lineCut p).requestsCut p).link := by
  rw [← State.portCut_link _ p ld (s.portUp p)]
  rfl

theorem State.portLeft_port (s : State) (p : Fin 2) (ld : Bool) : (s.portLeft p ld).port p = { s.port p with
    cs := [], rxT := none, lastI2 := none, healEnd := none, rdKept := false, lastSignal := if ld then s.now else s.now - 100 } := by
  rw [State.port, State.portLeft_link, State.requestsCut_rest, State.lineCut_rest]
  exact State.port_setPort _ p _

theorem State.portLeft_lineDue (s : State) (p : Nat) (ld : Bool) :
    (s.portLeft p ld).link.lineDue = s.link.lineDue.filter (fun e => !e.2.onPort p) := by
  rw [State.portLeft_link, State.requestsCut_rest, State.lineCut_rest]
  rfl

theorem State.portCut_now (s : State) (p : Nat) (ld wasUp : Bool) : (s.portCut p ld wasUp).now = s.now := by
  have cut : (((s.portEmptied p ld).lineCut p).requestsCut p).now = s.now := by
    rw [State.requestsCut_rest, State.lineCut_rest]
    rfl
  unfold State.portCut
  cases wasUp with
  | false => exact cut
  | true => exact (State.raise_now ..).trans cut

theorem State.portLeft_now (s : State) (p : Nat) (ld : Bool) : (s.portLeft p ld).now = s.now :=
  State.portCut_now (s.portDownShown p ld) p ld (s.portUp p)

theorem State.reg_portLeft_ne (s : State) (p : Fin 2) (ld : Bool) {k : Nat} (stat : ∀ q : Fin 2, k ≠ F.LINK_PORT_STAT.addr q) :
    (s.portLeft p ld).reg k = s.reg k := by
  rw [State.portLeft, State.reg_markEnds_ne _ (stat 0) (stat 1), State.reg_of_regs (State.regs_portCut _ _ _ _)]
  unfold State.portDownShown
  rw [State.reg_putB_ne _ (f := F.LINK_PORT_STAT_LD_RX) (stat p), State.reg_put_ne _ (f := F.LINK_PORT_STAT_NB_ADOPT) (stat p),
    State.reg_put_ne _ (f := F.LINK_PORT_STAT_STATE) (stat p)]

theorem State.isManager_portEmptied (s : State) (p : Fin 2) (ld : Bool) :
    ((s.portDownShown p ld).portEmptied p ld).isManager = s.isManager := s.isManager_portDownShown p ld

theorem State.upstream_portEmptied (s : State) (p : Fin 2) (ld : Bool) :
    ((s.portDownShown p ld).portEmptied p ld).upstream = s.upstream := by
  rw [← s.upstream_portLeft p ld]
  refine (State.upstream_of_on fun q => congrArg (· != 0) ?_).symm
  exact s.get_portLeft _ _ _ _ (by decide) (by decide)

theorem State.lineCut_upstream {s : State} {p : Nat} (worker : s.isManager = false) (up : s.upstream = some p) :
    (s.lineCut p).link.header = none ∧ (s.lineCut p).link.passing = none := by
  simp [State.lineCut, worker, up]

theorem State.portLeft_passing {s : State} (p : Fin 2) (ld : Bool) (worker : s.isManager = false)
    (up : s.upstream = some p.val) : (s.portLeft p ld).link.header = none ∧ (s.portLeft p ld).link.passing = none := by
  rw [State.portLeft_link, State.requestsCut_rest]
  exact State.lineCut_upstream ((s.isManager_portEmptied p ld).trans worker) ((s.upstream_portEmptied p ld).trans up)

theorem tget_map {α β : Type} {n : Nat} [Inhabited α] [Inhabited β] (f : α → β) (v : Vector α n) {i : Nat} (h : i < n) :
    tget (v.map f) i = f (tget v i) := by
  simp [tget, h]

/-- A worker whose word came by the port asks for no slot (R129). -/
theorem State.portLeft_request {s : State} (p : Fin 2) (ld : Bool) (d : Fin 64) (manager : s.isManager = true)
    (came : (tget s.link.wkr d).lastPort = p) : (tget (s.portLeft p ld).link.wkr d).req = false := by
  have cut : (((s.portDownShown p ld).portEmptied p ld).lineCut p).isManager = true :=
    (s.isManager_portEmptied p ld).trans manager
  have wkr : (((s.portDownShown p ld).portEmptied p ld).lineCut p).link.wkr = s.link.wkr := by
    rw [State.lineCut_rest]; rfl
  rw [State.portLeft_link, State.requestsCut, if_pos cut, wkr]
  dsimp only
  rw [tget_map _ _ d.isLt, if_pos came]

/-! ### What stands after it -/

/-- A port that goes down is down, heal or not. -/
theorem State.get_portGoesDown (s : State) (p : Fin 2) (ld : Bool) (f : Fld) (i : Nat) (apart : f.lo + f.width ≤ 3 ∨ 5 ≤ f.lo)
    (fits : f.lo + f.width ≤ 32) (offset : f.addr i ≠ F.ESC_OFFSET.base) (phantom : f.addr i ≠ F.LINK_PH_STAT.base)
    (counts : f.addr i ≠ F.LINK_CNT1.base) : (s.portGoesDown p ld).get f i = (s.portDownShown p ld).get f i := by
  have ends : f.lo + f.width ≤ 4 ∨ 5 ≤ f.lo := by omega
  rw [State.portGoesDown_eq]
  split
  · rw [State.get_heal _ _ _ _ _ apart fits offset phantom counts, State.get_portLeft _ _ _ _ _ ends fits]
  · exact s.get_portLeft _ _ _ _ ends fits

theorem State.portGoesDown_shows (s : State) (p : Fin 2) (ld : Bool) : (s.portGoesDown p ld).portState p = 0 ∧
    (s.portGoesDown p ld).on F.LINK_PORT_STAT_NB_ADOPT p = false ∧ (s.portGoesDown p ld).on F.LINK_PORT_STAT_LD_RX p = ld := by
  obtain ⟨state, adopt, disp⟩ := s.portDownShown_shows p ld
  obtain ⟨offset, phantom, counts⟩ := State.portStat_apart p
  refine ⟨?_, ?_, ?_⟩
  · exact (s.get_portGoesDown p ld F.LINK_PORT_STAT_STATE p (by decide) (by decide) offset phantom counts).trans state
  · refine Eq.trans ?_ adopt
    exact congrArg (· != 0) (s.get_portGoesDown p ld F.LINK_PORT_STAT_NB_ADOPT p (by decide) (by decide) offset phantom counts)
  · refine Eq.trans ?_ disp
    exact congrArg (· != 0) (s.get_portGoesDown p ld F.LINK_PORT_STAT_LD_RX p (by decide) (by decide) offset phantom counts)

theorem State.portGoesDown_port (s : State) (p : Fin 2) (ld : Bool) :
    ((s.portGoesDown p ld).port p).cs = [] ∧ ((s.portGoesDown p ld).port p).secondMgr = (s.port p).secondMgr := by
  have left := s.portLeft_port p ld
  rw [State.portGoesDown_eq]
  split
  · obtain ⟨kept, from'⟩ := (s.portLeft p ld).port_heal_from p true
    rw [from', left]
    exact ⟨rfl, rfl⟩
  · rw [left]
    exact ⟨rfl, rfl⟩

/-- Beside its ports and the mark of a heal the link unit stands as the port left it. -/
theorem State.portGoesDown_link (s : State) (p : Fin 2) (ld : Bool) : (s.portGoesDown p ld).link = { (s.portLeft p ld).link with
    port := (s.portGoesDown p ld).link.port, healed := (s.portGoesDown p ld).link.healed } := by
  rw [State.portGoesDown_eq]
  split
  · conv_lhs => rw [State.heal_rest]
    rw [State.heal_rest]
  · rfl

theorem State.portGoesDown_lineDue (s : State) (p : Fin 2) (ld : Bool) :
    ∀ e ∈ (s.portGoesDown p ld).link.lineDue, LineEvent.onPort p e.2 = false := by
  intro e due
  rw [State.portGoesDown_link, State.portLeft_lineDue] at due
  simpa using (List.mem_filter.mp due).2

/-- A worker whose upstream port was receiving heals, and counts it. -/
theorem State.portGoesDown_heals {s : State} {p : Fin 2} (ld : Bool)
    (heals : s.isManager = false ∧ s.upstream = some p.val ∧ s.portState p ≠ 0) : let u := s.portGoesDown p ld
    u.upstream = some (1 - p.val) ∧ (u.port (1 - p.val)).healEnd = some (s.now + 200) ∧ u.link.healed = true ∧
      u.get F.LINK_CNT1_HEAL = min (s.get F.LINK_CNT1_HEAL + 1) (2 ^ F.LINK_CNT1_HEAL.width - 1) := by
  have now := s.portLeft_now p ld
  have count : (s.portLeft p ld).get F.LINK_CNT1_HEAL = s.get F.LINK_CNT1_HEAL :=
    State.get_eq_of_reg (s.reg_portLeft_ne p ld (by decide))
  dsimp only
  rw [State.portGoesDown_eq, if_pos heals, State.heal_upstream, State.healEnd_heal, State.heal_rest, State.heal_count, now, count]
  exact ⟨rfl, rfl, rfl, rfl⟩

theorem State.portGoesDown_stays {s : State} {p : Fin 2} (ld : Bool)
    (stays : s.isManager = true ∨ s.upstream ≠ some p.val ∨ s.portState p = 0) :
    (s.portGoesDown p ld).upstream = s.upstream := by
  have not : ¬ (s.isManager = false ∧ s.upstream = some p.val ∧ s.portState p ≠ 0) := by
    rintro ⟨worker, up, receives⟩
    rcases stays with manager | other | down
    · exact Bool.false_ne_true (worker.symm.trans manager)
    · exact other up
    · exact receives down
  rw [State.portGoesDown_eq, if_neg not, State.upstream_portLeft]

end Sys2Proof.Machine
end


/-! # Branches that form, end and heal; the phantom switches (R106, R108, R112, R113, R118, R138, R140, R144) -/

section
namespace Sys2Proof.Machine

/-! ### The choice of the upstream port (R112, R118, R140) -/

/-- A manager, and a worker that has chosen, do not choose. -/
theorem upstreamSelect_none {s : State} (h : s.linkOn = false ∨ s.isManager = true ∨ s.link.coldDone = true) :
    Completes .upstreamSelect s (fun u => u = s) := by
  rcases h with off | h
  · exact completes_offLink rfl off
  · by_cases on : s.linkOn = true
    · refine completes_onLink rfl on (if_neg ?_)
      rcases h with h | h <;> simp [State.mayChoose, h]
    · exact completes_offLink rfl (eq_false_of_ne_true on)

theorem upstreamSelect_comes {s : State} (on : s.linkOn = true) (worker : s.isManager = false) (cold : s.link.coldDone = false) :
    Comes .upstreamSelect s s.selectDue State.upstreamSelect :=
  comes_onLink rfl on (if_pos (by simp [State.mayChoose, worker, cold]))

theorem State.bestPort_lt (s : State) : s.bestPort < 2 := by
  unfold State.bestPort
  dsimp only
  split_ifs <;> decide

/-- The port a cold worker chooses: the better of two that are up, else the one that is. -/
def State.chosenPort (s : State) : Nat :=
  if s.portUp 0 = true ∧ s.portUp 1 = true then s.bestPort else if s.portUp 0 = true then 0 else 1

theorem State.chosenPort_lt (s : State) : s.chosenPort < 2 := by
  have best := s.bestPort_lt
  unfold State.chosenPort
  split_ifs <;> omega

/-- The worker's choice is made. -/
def State.choiceMade (s : State) : State :=
  ({ s with link := { s.link with coldDone := true, healed := false } } : State).setUpstream s.chosenPort

theorem State.upstreamSelect_eq (s : State) : s.upstreamSelect =
    if s.choiceMade.refFallback then s.choiceMade else s.choiceMade.put F.SYS_CLK_STAT_REF_SRC (1 + s.chosenPort) := by
  have model : (if (s.portUp 0 && s.portUp 1) = true then s.bestPort else if s.portUp 0 = true then 0 else 1) = s.chosenPort :=
    if_congr (by rw [Bool.and_eq_true]) rfl rfl
  unfold State.upstreamSelect
  dsimp only
  rw [model]
  rfl

theorem State.upstreamSelect_chosen (s : State) : s.upstreamSelect.upstream = some s.chosenPort ∧
    s.upstreamSelect.link.coldDone = true ∧ s.upstreamSelect.link.healed = false ∧
    (s.refFallback = false → s.upstreamSelect.get F.SYS_CLK_STAT_REF_SRC = 1 + s.chosenPort) := by
  have two := s.chosenPort_lt
  have up : s.choiceMade.upstream = some s.chosenPort := State.upstream_setUpstream _ ⟨s.chosenPort, two⟩
  have link : s.choiceMade.link = _ := (State.regsOnly_setUpstream _ _).link
  have fallback : s.choiceMade.refFallback = s.refFallback := (State.setUpstream_keeps _ _).1.1.1.2
  rw [State.upstreamSelect_eq]
  refine ⟨?_, ?_, ?_, fun own => ?_⟩
  · split
    · exact up
    · exact (State.upstream_of_reg fun q => State.reg_put_ne _ (by revert q; decide) _).trans up
  · split <;> exact congrArg LinkSt.coldDone link
  · split <;> exact congrArg LinkSt.healed link
  · rw [if_neg (by rw [fallback, own]; exact Bool.false_ne_true), State.get_put_same _ _ _ _ (by decide)]
    exact Nat.mod_eq_of_lt (by change 1 + s.chosenPort < 4; omega)

/-! ### /HL/ on a port (R138) -/

theorem State.downstream_lt {s : State} {d : Nat} (down : s.downstream = some d) : d < 2 := by
  obtain ⟨p, -, rfl⟩ := Option.map_eq_some_iff.mp down
  unfold otherPort
  omega

theorem State.portStat_counts (p : Fin 2) : F.LINK_PORT_STAT.addr p ≠ F.LINK_CNT0.base := by revert p; decide

theorem State.isEnd_codeErrors (s : State) (p n : Nat) : (s.codeErrors p n).isEnd = s.isEnd := by
  have same := State.PassesOnly.codeErrors s p n
  have down : (s.codeErrors p n).downstream = s.downstream := congrArg (Option.map otherPort) same.upstream
  unfold State.isEnd
  rw [down]
  split
  · next d ends => exact same.on F.LINK_PORT_STAT_END d (State.portStat_counts ⟨d, State.downstream_lt ends⟩)
  · rfl

theorem State.healReceive_heals {s : State} {p : Fin 2} (worker : s.isManager = false) (up : s.upstream = some p.val) :
    s.healReceive p = s.heal p (!s.isEnd) :=
  if_neg (by simp [worker, up])

theorem State.healReceive_aside {s : State} {p : Fin 2} (h : s.isManager = true ∨ s.upstream ≠ some p.val) :
    s.healReceive p = s :=
  if_pos (by simpa using h)

theorem State.healReceive_effect {s : State} {p : Fin 2} (bad : Nat) (worker : s.isManager = false) (up : s.upstream = some p.val) :
    let u := (s.codeErrors p bad).healReceive p
    u.upstream = some (1 - p.val) ∧ u.link.healed = true ∧
      (u.port (1 - p.val)).healEnd = (if s.isEnd then (s.port (1 - p.val)).healEnd else some (s.now + 200)) ∧
      u.get F.LINK_CNT1_HEAL = min (s.get F.LINK_CNT1_HEAL + 1) (2 ^ F.LINK_CNT1_HEAL.width - 1) := by
  have same := State.PassesOnly.codeErrors s p bad
  dsimp only
  rw [State.healReceive_heals (same.isManager.trans worker) (same.upstream.trans up), State.heal_upstream, State.healEnd_heal,
    State.heal_rest, State.heal_count, State.isEnd_codeErrors, same.get _ _ (by decide)]
  refine ⟨rfl, rfl, ?_, rfl⟩
  cases s.isEnd <;> rfl

/-! ### The end of a branch (R113) -/

theorem State.markEnds_end (s : State) (d : Fin 2) : s.markEnds.on F.LINK_PORT_STAT_END d =
    (!s.isManager && s.downstream == some d.val && (!s.portUp d || !s.on F.LINK_PORT_STAT_NB_ADOPT d)) := by
  fin_cases d
  · exact (congrArg (· != 0) (State.get_putB_ne _ _ _ _ _ _ (by decide))).trans (State.on_putB_same _ _ _ _ (by decide) rfl)
  · exact State.on_putB_same _ _ _ _ (by decide) rfl

theorem State.downstream_markEnds (s : State) : s.markEnds.downstream = s.downstream :=
  congrArg (Option.map otherPort) s.upstream_markEnds

/-- Without /I2/ a worker is the end of its branch. -/
theorem State.branchEnd_ends {s : State} {d : Nat} (worker : s.isManager = false) (down : s.downstream = some d) :
    s.branchEnd.isEnd = true ∧ s.branchEnd.downstream = some d := by
  have two := State.downstream_lt down
  have ends : s.branchEnd = (s.put F.LINK_PORT_STAT_NB_ADOPT 0 d).markEnds := by
    unfold State.branchEnd
    rw [down]
  have still : (s.put F.LINK_PORT_STAT_NB_ADOPT 0 d).downstream = some d := by
    rw [← down]
    refine congrArg (Option.map otherPort) (State.upstream_of_on fun q => congrArg (· != 0) ?_)
    exact State.get_put_disj _ _ _ _ _ _ (by decide) (by decide)
  have role : (s.put F.LINK_PORT_STAT_NB_ADOPT 0 d).isManager = false := by
    rw [← worker]
    refine congrArg not (State.on_eq_of_reg (State.reg_put_ne _ ?_ _))
    have apart : ∀ q : Fin 2, F.SYS_DOM_STAT_ROLE.addr 0 ≠ F.LINK_PORT_STAT_NB_ADOPT.addr q := by decide
    exact apart ⟨d, two⟩
  have alone : (s.put F.LINK_PORT_STAT_NB_ADOPT 0 d).on F.LINK_PORT_STAT_NB_ADOPT d = false :=
    State.on_put_same _ _ _ _ (by decide)
  rw [ends]
  have down' := (State.downstream_markEnds _).trans still
  refine ⟨?_, down'⟩
  unfold State.isEnd
  rw [down']
  refine (State.markEnds_end _ ⟨d, two⟩).trans ?_
  simp [role, still, alone]

/-- /I2/ on an up port is noted, and ends the end of the branch there. -/
theorem State.i2Received_up {s : State} {p : Fin 2} (up : s.portUp p = true) :
    s.i2Received p = ((s.put F.LINK_PORT_STAT_NB_ADOPT 1 p).setPort p
      { (s.put F.LINK_PORT_STAT_NB_ADOPT 1 p).port p with lastI2 := some s.now, lastSignal := s.now }).markEnds :=
  if_neg (by rw [up]; decide)

theorem State.i2Received_down {s : State} {p : Fin 2} (down : s.portUp p = false) : s.i2Received p = s :=
  if_pos (by rw [down]; rfl)

theorem State.i2Received_notes {s : State} {p : Fin 2} (up : s.portUp p = true) :
    ((s.i2Received p).port p).lastI2 = some s.now ∧ (s.i2Received p).on F.LINK_PORT_STAT_NB_ADOPT p = true ∧
      (s.downstream = some p.val → (s.i2Received p).isEnd = false) := by
  let t := (s.put F.LINK_PORT_STAT_NB_ADOPT 1 p).setPort p
    { (s.put F.LINK_PORT_STAT_NB_ADOPT 1 p).port p with lastI2 := some s.now, lastSignal := s.now }
  have noted : t.on F.LINK_PORT_STAT_NB_ADOPT p = true := State.on_put_same s F.LINK_PORT_STAT_NB_ADOPT 1 p (by decide)
  have upstill : t.portUp p = true := by
    rw [← up]
    exact congrArg (· == portUpSt) (s.get_put_disj F.LINK_PORT_STAT_NB_ADOPT F.LINK_PORT_STAT_STATE 1 p p (by decide) (by decide))
  rw [State.i2Received_up up]
  refine ⟨congrArg PortSt.lastI2 (State.port_setPort _ p _), ?_, fun down => ?_⟩
  · rw [State.on, State.get_markEnds _ _ _ (by decide) (by decide)]
    exact noted
  · have down' : t.markEnds.downstream = some p.val := by
      rw [← down, State.downstream_markEnds]
      refine congrArg (Option.map otherPort) (State.upstream_of_on fun q => congrArg (· != 0) ?_)
      exact s.get_put_disj F.LINK_PORT_STAT_NB_ADOPT F.LINK_PORT_STAT_UPSTREAM 1 p q (by decide) (by decide)
    unfold State.isEnd
    rw [down']
    refine (State.markEnds_end t p).trans ?_
    simp [noted, upstill]

theorem State.reg_i2Received (s : State) (p : Fin 2) : (s.i2Received p).reg F.LINK_CNT0.base = s.reg F.LINK_CNT0.base := by
  cases up : s.portUp p with
  | false => rw [State.i2Received_down up]
  | true =>
    rw [State.i2Received_up up, State.reg_markEnds_ne _ (by decide) (by decide)]
    exact State.reg_put_ne s (f := F.LINK_PORT_STAT_NB_ADOPT) (Ne.symm (State.portStat_counts p)) 1

theorem State.portUp_codeErrors (s : State) (p n : Nat) (q : Fin 2) : (s.codeErrors p n).portUp q = s.portUp q :=
  congrArg (· == portUpSt) ((State.PassesOnly.codeErrors s p n).get F.LINK_PORT_STAT_STATE q (State.portStat_counts q))

/-! ### LINK_CTRL and LINK_CNT_CLR (R140, R144) -/

theorem State.writeWord_link (s : State) (p : Party) {a : Nat} (w m : Word) (block : blockOf a = 3)
    (row : (regDef a).isNone = false) : s.writeWord p a w m = s.writeLink p a w m := by
  unfold State.writeWord
  rw [block]
  simp only [row, Bool.false_eq_true, if_false]

/-- A port trains anew. -/
theorem State.retrain_down (s : State) (p : Fin 2) : (s.retrain p).portState p = 0 ∧
    ((s.retrain p).port p).secondMgr = false ∧ (s.retrain p).link.coldDone = false :=
  ⟨(s.portGoesDown_shows p false).1, congrArg PortSt.secondMgr (State.port_setPort (s.portGoesDown p false) p _), rfl⟩

/-- A store in LINK_CTRL starts no access. -/
theorem State.ownedStore_linkCtrl_waiting (s : State) (p : Party) (w : Word) :
    (s.ownedStore p F.LINK_CTRL.base F.LINK_CTRL.base w allBits).waiting = s.waiting := by
  have block : blockOf F.LINK_CTRL.base = 3 := by decide
  have stored (t : State) (m : Word) : (t.store p F.LINK_CTRL.base w m).waiting = t.waiting := by
    unfold State.store State.afterStore
    rw [block]
    split <;> simp
  unfold State.ownedStore
  split <;> simp [stored]

theorem grants_linkRetrain (s : State) (p : Party) (w : BitVec 4) : Grants p (.linkRetrain p w) s (fun c =>
    let t := c.ownedStore p F.LINK_CTRL.base F.LINK_CTRL.base (w.zeroExtend 32) allBits
    let t := if w.getLsbD 2 then t.retrain 0 else t
    if w.getLsbD 3 then t.retrain 1 else t) := by
  refine grants_of_keeps p F.LINK_CTRL.base (w.zeroExtend 32) rfl (fun c => ?_) fun c => ?_
  · rw [State.writeWord_link _ _ _ _ (by decide) (by decide), State.writeLink, if_pos rfl]
    simp [bitOf]
  · have store := c.ownedStore_linkCtrl_waiting p (w.zeroExtend 32)
    dsimp only
    split_ifs <;> simp [store]

theorem grants_linkCntClr (s : State) (p : Party) : Grants p (.linkCntClr p) s (fun c =>
    ((c.setReg F.LINK_CNT0.base 0).setReg F.LINK_CNT1.base 0).setReg F.LINK_LATE_CNT.base 0) := by
  refine grants_of_keeps p F.LINK_CNT_CLR.base 1 rfl (fun c => ?_) fun c => rfl
  rw [State.writeWord_link _ _ _ _ (by decide) (by decide)]
  rfl

/-! ### The phantom switches (R108) -/

/-- Bits LIM and OFF of a switch are in LINK_PH_STAT, apart from each other and from the bits ON. -/
theorem phantomBits (w : Fin 3) : (limFld w).addr 0 = F.LINK_PH_STAT.base ∧ (offFld w).addr 0 = F.LINK_PH_STAT.base ∧
    (limFld w).width = 1 ∧ (offFld w).width = 1 ∧
    ((limFld w).lo + 1 ≤ 5 ∨ 7 ≤ (limFld w).lo) ∧ ((offFld w).lo + 1 ≤ 5 ∨ 7 ≤ (offFld w).lo) ∧
    ((limFld w).lo < (offFld w).lo) ∧ (offFld w).lo < 32 := by
  revert w; decide

theorem State.get_showPhantom (s : State) (f : Fld) (i : Nat) (apart : f.lo + f.width ≤ 5 ∨ 7 ≤ f.lo)
    (fits : f.lo + f.width ≤ 32) : s.showPhantom.get f i = s.get f i := by
  have first : f.lo + f.width ≤ 5 ∨ 6 ≤ f.lo := by omega
  have second : f.lo + f.width ≤ 6 ∨ 7 ≤ f.lo := by omega
  unfold State.showPhantom
  rw [State.get_putB_disj _ _ _ _ _ _ second fits, State.get_putB_disj _ _ _ _ _ _ first fits]

/-- How many trips in a row a trip of the switch makes. -/
def State.tripCount (w : Nat) (s : State) : Nat :=
  if (tget s.link.sw w).trips = 0 ∨ (tget s.link.sw w).closedAt + 100000 < s.now then 1 else (tget s.link.sw w).trips + 1

/-- The switch opens; the third trip in a row leaves it so. -/
def State.tripShown (w n : Nat) (s : State) : State :=
  let x := tget s.link.sw w
  let t := s.put (limFld w) 1
  if 3 ≤ n then (t.put (offFld w) 1).setSwitch w { x with trips := n, reclose := none }
  else t.setSwitch w { x with trips := n, reclose := some (s.now + 10000000) }

/-- The records of a trip. -/
def State.tripNoted (w n : Nat) (s : State) : State :=
  let t := s.raiseReg 11 7 w F.LINK_PH_STAT
  if 3 ≤ n then t.raiseReg 11 8 w F.LINK_PH_STAT else t

theorem State.phantomTrip_eq {s : State} {w : Nat} (on : s.switchConducts w = true) :
    s.phantomTrip w = (s.tripShown w (s.tripCount w)).showPhantom.tripNoted w (s.tripCount w) :=
  if_neg (by rw [on]; decide)

theorem State.tripNoted_kept (s : State) (w n : Nat) : (s.tripNoted w n).regs = s.regs ∧ (s.tripNoted w n).link = s.link := by
  unfold State.tripNoted State.raiseReg
  dsimp only
  split <;> simp

theorem State.tripShown_switch (s : State) (w : Fin 3) (n : Nat) : tget (s.tripShown w n).link.sw w =
    { tget s.link.sw w with trips := n, reclose := if 3 ≤ n then none else some (s.now + 10000000) } := by
  unfold State.tripShown State.setSwitch
  dsimp only
  split <;> exact (tget_tset _ _ _ _).trans (if_pos ⟨rfl, w.isLt⟩)

theorem State.tripShown_lim (s : State) (w : Fin 3) (n : Nat) : (s.tripShown w n).on (limFld w) = true := by
  obtain ⟨-, -, lim, -, -, -, below, fits⟩ := phantomBits w
  have set : (s.put (limFld w) 1).on (limFld w) = true := by
    rw [State.on_put_same _ _ _ _ (by omega), lim]; rfl
  unfold State.tripShown
  dsimp only
  split
  · refine Eq.trans ?_ set
    exact congrArg (· != 0) ((s.put (limFld w) 1).get_put_disj _ _ 1 0 0 (by omega) (by omega))
  · exact set

theorem State.tripShown_off (s : State) (w : Fin 3) {n : Nat} (third : 3 ≤ n) : (s.tripShown w n).on (offFld w) = true := by
  obtain ⟨-, -, -, off, -, -, -, fits⟩ := phantomBits w
  unfold State.tripShown
  dsimp only
  rw [if_pos third]
  refine (State.on_put_same (s.put (limFld w) 1) (offFld w) 1 0 (by omega)).trans ?_
  rw [off]
  rfl

theorem State.reg_tripShown_ne (s : State) (w : Fin 3) (n : Nat) {k : Nat} (h : k ≠ F.LINK_PH_STAT.base) :
    (s.tripShown w n).reg k = s.reg k := by
  obtain ⟨lim, off, -⟩ := phantomBits w
  have first : (s.put (limFld w) 1).reg k = s.reg k := State.reg_put_ne _ (lim ▸ h) _
  unfold State.tripShown
  dsimp only
  split
  · exact (State.reg_put_ne (s.put (limFld w) 1) (off ▸ h) _).trans first
  · exact first

theorem State.phantomTrip_trips {s : State} {w : Fin 3} (on : s.switchConducts w = true) :
    let x := tget s.link.sw w
    let n := s.tripCount w
    let u := s.phantomTrip w
    u.on (limFld w) = true ∧ (tget u.link.sw w).trips = n ∧ (tget u.link.sw w).closedAt = x.closedAt ∧
      (tget u.link.sw w).reclose = (if 3 ≤ n then none else some (s.now + 10000000)) ∧
      (3 ≤ n → u.on (offFld w) = true) ∧ (∀ k, k ≠ F.LINK_PH_STAT.base → u.reg k = s.reg k) := by
  obtain ⟨-, -, limWidth, offWidth, lim, off, below, fits⟩ := phantomBits w
  let t := s.tripShown w (s.tripCount w)
  obtain ⟨regs, link⟩ := t.showPhantom.tripNoted_kept w (s.tripCount w)
  have bit (f : Fld) (width : f.width = 1) (apart : f.lo + 1 ≤ 5 ∨ 7 ≤ f.lo) (fits : f.lo < 32) (set : t.on f = true) :
      (s.phantomTrip w).on f = true := by
    rw [State.phantomTrip_eq on, State.on_eq_of_reg (State.reg_of_regs regs _), ← set]
    exact congrArg (· != 0) (t.get_showPhantom f 0 (by omega) (by omega))
  have switch : tget (s.phantomTrip w).link.sw w = { tget s.link.sw w with
      trips := s.tripCount w, reclose := if 3 ≤ s.tripCount w then none else some (s.now + 10000000) } := by
    rw [State.phantomTrip_eq on, link]
    exact s.tripShown_switch w (s.tripCount w)
  dsimp only
  rw [switch]
  refine ⟨bit _ limWidth lim (by omega) (s.tripShown_lim w _), rfl, rfl, rfl,
    fun third => bit _ offWidth off fits (s.tripShown_off w third), fun k other => ?_⟩
  rw [State.phantomTrip_eq on, State.reg_of_regs regs, State.reg_showPhantom_ne _ other]
  exact s.reg_tripShown_ne w _ other

/-- Settles O18: the choice by `upstreamSelect_chosen`, a port that goes down by `portGoesDown_shows`, `portGoesDown_heals` and
`portLeft_request`, /HL/ by `healReceive_effect`, the end of a branch by `branchEnd_ends` and `i2Received_notes`, LINK_CTRL by
`grants_linkRetrain`, the phantom switches by `phantomTrip_trips`. -/
theorem branchesFormAndHeal : Obligations.BranchesFormAndHeal := by
  unfold Obligations.BranchesFormAndHeal
  refine ⟨⟨fun s => upstreamSelect_none, fun s => upstreamSelect_comes, State.upstreamSelect_chosen, fun s => rfl⟩,
    ⟨fun s p ld bad on => completes_onLink rfl on rfl, fun s p ld => ?_, fun s p ld bad => completes_offLink rfl,
      fun s p bad on worker up => completes_onLink rfl on (State.healReceive_effect bad worker up),
      fun s p bad => completes_offLink rfl, fun s p bad on aside => ?_, fun s p ld worker up => ?_, fun s p ld d manager came => ?_⟩,
    ⟨fun s on => comes_onLink rfl on rfl, fun s d => State.branchEnd_ends, fun s => completes_offLink rfl,
      fun s p bad on up => ?_, fun s p bad on => completes_onLink rfl on ((s.codeErrors p bad).reg_i2Received p),
      fun s p bad => completes_offLink rfl, fun s p bad on down => ?_⟩,
    ⟨grants_linkRetrain, State.retrain_down, grants_linkCntClr⟩,
    fun s w off => completes_done rfl (if_pos (by rw [off]; rfl)), fun s w on => completes_done rfl (State.phantomTrip_trips on),
    fun s w => comes_intro rfl⟩
  · obtain ⟨down, adopt, disp⟩ := s.portGoesDown_shows p ld
    exact ⟨down, adopt, disp, (s.portGoesDown_port p ld).1, s.portGoesDown_lineDue p ld, State.portGoesDown_heals ld,
      State.portGoesDown_stays ld⟩
  · have same := State.PassesOnly.codeErrors s p bad
    refine completes_onLink rfl on (State.healReceive_aside ?_)
    rwa [same.isManager, same.upstream]
  · rw [State.portGoesDown_link]
    exact State.portLeft_passing p ld worker up
  · rw [State.portGoesDown_link]
    exact State.portLeft_request p ld d manager came
  · have same := State.PassesOnly.codeErrors s p bad
    have down : (s.codeErrors p bad).downstream = s.downstream := congrArg (Option.map otherPort) same.upstream
    refine completes_onLink rfl on ?_
    rw [← down]
    exact State.i2Received_notes ((s.portUp_codeErrors p bad p).trans up)
  · exact completes_onLink rfl on (State.i2Received_down ((s.portUp_codeErrors p bad p).trans down))

end Sys2Proof.Machine
end


/-! # Bytes of frames and TRAIN sets, and their checks -/

section
namespace Sys2Proof.Machine

/-! ### Lists of bytes -/

theorem length_leBytes (v n : Nat) : (leBytes v n).length = n := by
  induction n generalizing v with
  | zero => rfl
  | succ n ih => rw [leBytes, List.length_cons, ih]

theorem length_slice (b : List Byte) (o n : Nat) : (slice b o n).length = n := by simp [slice]

theorem byteAt_append_left {a : List Byte} (b : List Byte) {i : Nat} (h : i < a.length) : byteAt (a ++ b) i = byteAt a i := by
  rw [byteAt, List.getD_append _ _ _ _ h, byteAt]

theorem byteAt_append_right (a b : List Byte) (i : Nat) : byteAt (a ++ b) (a.length + i) = byteAt b i := by
  rw [byteAt, List.getD_append_right _ _ _ _ (Nat.le_add_right _ _), Nat.add_sub_cancel_left, byteAt]

theorem leAt_append_left {a : List Byte} (b : List Byte) {o n : Nat} (h : o + n ≤ a.length) : leAt (a ++ b) o n = leAt a o n := by
  induction n generalizing o with
  | zero => rfl
  | succ n ih => rw [leAt, leAt, byteAt_append_left b (by omega), ih (by omega)]

theorem leAt_append_right (a b : List Byte) (o n : Nat) : leAt (a ++ b) (a.length + o) n = leAt b o n := by
  induction n generalizing o with
  | zero => rfl
  | succ n ih => rw [leAt, leAt, byteAt_append_right, Nat.add_assoc, ih]

theorem leAt_leBytes (v n : Nat) : leAt (leBytes v n) 0 n = v % 256 ^ n := by
  induction n generalizing v with
  | zero => simp [leAt, Nat.mod_one]
  | succ n ih =>
    have first : byteAt (leBytes v (n + 1)) 0 = v % 256 := by simp [leBytes, byteAt]
    have rest : leAt (leBytes v (n + 1)) 1 n = leAt (leBytes (v / 256) n) 0 n := leAt_append_right [BitVec.ofNat 8 v] _ 0 n
    rw [leAt, first, rest, ih, Nat.pow_succ', Nat.mod_mul]

/-- A number within a list of bytes. -/
theorem leAt_within (a c : List Byte) (v n : Nat) : leAt (a ++ leBytes v n ++ c) a.length n = v % 256 ^ n := by
  rw [leAt_append_left c (by rw [List.length_append, length_leBytes]), ← leAt_leBytes v n]
  exact leAt_append_right a _ 0 n

theorem byteAt_within (a c : List Byte) (v : Nat) : byteAt (a ++ leBytes v 1 ++ c) a.length = v % 256 := by
  have number := leAt_within a c v 1
  rwa [leAt, leAt, Nat.mul_zero, Nat.add_zero] at number

/-- A stretch of a list of bytes. -/
theorem slice_within (a b c : List Byte) : slice (a ++ b ++ c) a.length b.length = b := by
  refine List.ext_getElem (length_slice _ _ _) fun i h inside => ?_
  have here : a.length + i < (a ++ b).length := by rw [List.length_append]; omega
  rw [length_slice] at h
  simp only [slice, List.getElem_map, List.getElem_range]
  rw [List.getD_append _ _ _ _ here, List.getD_append_right _ _ _ _ (Nat.le_add_right _ _), Nat.add_sub_cancel_left,
    List.getD_eq_getElem _ _ inside]

/-! ### Checks -/

theorem crcStep_lt {n poly : Nat} (fits : poly < 2 ^ n) (bit : Bool) (r : Nat) : crcStep n poly bit r < 2 ^ n := by
  have shifted : r * 2 % 2 ^ n < 2 ^ n := Nat.mod_lt _ (Nat.two_pow_pos n)
  unfold crcStep
  dsimp only
  split
  · exact Nat.xor_lt_two_pow shifted fits
  · exact shifted

theorem crcBits_lt {n poly init : Nat} (fits : poly < 2 ^ n) (start : init < 2 ^ n) (l : List Bool) :
    crcBits n poly init l < 2 ^ n := by
  unfold crcBits
  induction l generalizing init with
  | nil => exact start
  | cons b l ih => exact ih (crcStep_lt fits b init)

theorem crc8_lt (b : List Byte) : crc8 b < 256 := crcBits_lt (n := 8) (by decide) (by decide) _

theorem crc5_lt (w : Nat) : crc5 w < 32 := crcBits_lt (n := 5) (by decide) (by decide) _

/-- Bytes after a control octet with their check after them: the check is found where it stands. -/
theorem crc8_within (a body c : List Byte) : crc8 (slice (a ++ (body ++ leBytes (crc8 body) 1) ++ c) a.length body.length) =
    byteAt (a ++ (body ++ leBytes (crc8 body) 1) ++ c) (a.length + body.length) := by
  have content : a ++ (body ++ leBytes (crc8 body) 1) ++ c = a ++ body ++ (leBytes (crc8 body) 1 ++ c) := by simp
  have check : a ++ (body ++ leBytes (crc8 body) 1) ++ c = a ++ body ++ leBytes (crc8 body) 1 ++ c := by simp
  have place := byteAt_within (a ++ body) c (crc8 body)
  rw [List.length_append, Nat.mod_eq_of_lt (crc8_lt body)] at place
  rw [check, place, ← check, content, slice_within]

end Sys2Proof.Machine
end


/-! # TRAIN sets sent, and what stands on a transmit pair (R105, R106, R112, R116, R118, R119) -/

section
namespace Sys2Proof.Machine

/-! ### A TRAIN set (R116) -/

/-- What a TRAIN set echoes of the last one received: its time and how long ago it came, or zeros. -/
def PortSt.echo (x : PortSt) (tTx : Nat) : List Byte :=
  match x.rxT with
  | none => leBytes 0 8
  | some (t, r) => leBytes t 4 ++ leBytes (tTx + 2 ^ 32 - r % 2 ^ 32) 4

theorem PortSt.echo_length (x : PortSt) (tTx : Nat) : (x.echo tTx).length = 8 := by
  unfold PortSt.echo
  cases x.rxT with
  | none => exact length_leBytes _ _
  | some e => simp [length_leBytes]

/-- What a TRAIN set says, between its control octet and its check. -/
def State.trainBody (s : State) (p tTx : Nat) : List Byte :=
  let x := s.port p
  let mgr := s.isManager
  leBytes (b2n (!mgr) + 2 * b2n x.warm) 1 ++ leBytes (if mgr then 0 else if s.hasNumber then s.devNo else 0xFF) 1 ++
    leBytes (if mgr then 0 else s.get F.LINK_PORT_STAT_HOPS_VIA (otherPort p)) 1 ++ leBytes tTx 4 ++ x.echo tTx ++
    pathBytes (if mgr then some 0 else s.pathVia (otherPort p))

theorem State.trainSet_eq (s : State) (p tTx : Nat) :
    s.trainSet p tTx = leBytes 0x3C 1 ++ s.trainBody p tTx ++ leBytes (crc8 (s.trainBody p tTx)) 1 := rfl

theorem State.trainBody_length (s : State) (p tTx : Nat) : (s.trainBody p tTx).length = 18 := by
  have path (v : Option Nat) : (pathBytes v).length = 3 := by cases v <;> exact length_leBytes _ _
  simp [State.trainBody, length_leBytes, PortSt.echo_length, path]

theorem State.trainSet_length (s : State) (p tTx : Nat) : (s.trainSet p tTx).length = 20 := by
  simp [State.trainSet_eq, length_leBytes, s.trainBody_length]

theorem State.trainSet_check (s : State) (p tTx : Nat) :
    crc8 (slice (s.trainSet p tTx) 1 18) = byteAt (s.trainSet p tTx) 19 := by
  have within := crc8_within (leBytes 0x3C 1) (s.trainBody p tTx) []
  rw [List.append_nil, ← List.append_assoc, ← State.trainSet_eq, State.trainBody_length, length_leBytes] at within
  exact within

theorem State.trainSet_kind (s : State) (p tTx : Nat) : byteAt (s.trainSet p tTx) 1 % 2 = b2n (!s.isManager) := by
  have kind : byteAt (s.trainSet p tTx) 1 = (b2n (!s.isManager) + 2 * b2n (s.port p).warm) % 256 := by
    rw [State.trainSet_eq, State.trainBody]
    simp only [List.append_assoc]
    rw [← List.append_assoc]
    exact byteAt_within (leBytes 0x3C 1) _ _
  rw [kind]
  cases s.isManager <;> cases (s.port p).warm <;> rfl

theorem State.trainSet_count (s : State) (p : Nat) {tTx : Nat} (fits : tTx < 2 ^ 32) : leAt (s.trainSet p tTx) 4 4 = tTx := by
  have count (a b c d : List Byte) (len : a.length = 4) : leAt (a ++ leBytes tTx 4 ++ b ++ c ++ d) 4 4 = tTx := by
    have number := leAt_within a (b ++ c ++ d) tTx 4
    have whole : tTx % 256 ^ 4 = tTx := Nat.mod_eq_of_lt fits
    rw [len, whole] at number
    simpa only [List.append_assoc] using number
  rw [State.trainSet_eq, State.trainBody]
  simp only [← List.append_assoc]
  exact count _ _ _ _ rfl

theorem portCount_lt (p cycle fine : Nat) : portCount p cycle fine < 2 ^ 32 := Nat.mod_lt _ (by decide)

theorem State.port_trainOut (s : State) (p : Fin 2) : (s.trainOut p).port p = { s.port p with
    sent := s.trainSet p (portCount p s.now 0), sentAt := some s.now, rd := s.rdStart p
    rdKept := s.upstream != some p.val } := State.port_setPort s p _

/-! ### When one leaves (R118, R119) -/

/-- In training a set leaves when 400 ticks have passed, and the port is in training with it. -/
theorem State.trainSend_training {s : State} {p : Fin 2} (en : s.portEn p = true)
    (training : s.portState p = 1 ∨ s.portState p = 2) (due : s.trainDue p ≤ s.now) :
    s.trainSend p = (s.put F.LINK_PORT_STAT_STATE portTraining p).trainOut p := by
  have receives : ¬ (s.portState p == portDownSt || !s.portEn p) = true := by
    rcases training with h | h <;> simp [h, en, portDownSt]
  have notUp : ¬ (s.portState p == portUpSt) = true := by
    rcases training with h | h <;> simp [h, portUpSt]
  exact (if_neg receives).trans ((if_neg notUp).trans (if_neg (Nat.not_lt.mpr due)))

theorem State.trainSend_up {s : State} {p : Fin 2} (en : s.portEn p = true) (up : s.portUp p = true) :
    s.trainSend p = if s.trainFits p then
      (s.trainOut p).setPort p { (s.trainOut p).port p with sentSwing := some s.swing } else s := by
  have state : s.portState p = portUpSt := by simpa [State.portUp] using up
  have receives : ¬ (s.portState p == portDownSt || !s.portEn p) = true := by simp [state, en, portUpSt, portDownSt]
  exact (if_neg receives).trans (if_pos (by simp [state]))

theorem State.trainSend_sends {s : State} {p : Fin 2} (en : s.portEn p = true)
    (training : s.portState p = 1 ∨ s.portState p = 2) (due : s.trainDue p ≤ s.now) : let u := s.trainSend p
    (u.port p).sent.length = 20 ∧ crc8 (slice (u.port p).sent 1 18) = byteAt (u.port p).sent 19 ∧
      leAt (u.port p).sent 4 4 = portCount p s.now 0 ∧ byteAt (u.port p).sent 1 % 2 = b2n (!s.isManager) ∧
      (u.port p).sentAt = some s.now ∧ u.portState p = 2 ∧ u.sram = s.sram ∧
      (∀ k, k ≠ F.LINK_PORT_STAT_STATE.addr p → u.reg k = s.reg k) := by
  let t := s.put F.LINK_PORT_STAT_STATE portTraining p
  have role : t.isManager = s.isManager := by
    have apart : ∀ q : Fin 2, F.SYS_DOM_STAT_ROLE.addr 0 ≠ F.LINK_PORT_STAT_STATE.addr q := by decide
    exact congrArg not (State.on_eq_of_reg (s.reg_put_ne (apart p) _))
  have port := t.port_trainOut p
  dsimp only
  rw [State.trainSend_training en training due, port, ← role]
  exact ⟨t.trainSet_length _ _, t.trainSet_check _ _, t.trainSet_count _ (portCount_lt _ _ _), t.trainSet_kind _ _, rfl,
    s.get_put_same F.LINK_PORT_STAT_STATE portTraining p (by decide), rfl, fun k other => s.reg_put_ne other _⟩

theorem State.trainFits_swing {s : State} {p : Nat} (fits : s.trainFits p = true) :
    s.swing % 256 = 0 ∧ (s.port p).sentSwing ≠ some s.swing := by
  unfold State.trainFits at fits
  simp only [Bool.and_eq_true, beq_iff_eq, bne_iff_ne] at fits
  obtain ⟨⟨⟨⟨-, zero⟩, fresh⟩, -⟩, -⟩ := fits
  exact ⟨zero, fresh⟩

/-- On an up port a set leaves once in its swing, where it fits. -/
theorem State.trainSend_once {s : State} {p : Fin 2} (en : s.portEn p = true) (up : s.portUp p = true) :
    (s.trainFits p = false → s.trainSend p = s) ∧
    (s.trainFits p = true → s.swing % 256 = 0 ∧ (s.port p).sentSwing ≠ some s.swing ∧
      ((s.trainSend p).port p).sentSwing = some s.swing ∧ ((s.trainSend p).port p).sentAt = some s.now ∧
      crc8 (slice ((s.trainSend p).port p).sent 1 18) = byteAt ((s.trainSend p).port p).sent 19) := by
  refine ⟨fun not => ?_, fun fits => ?_⟩
  · rw [State.trainSend_up en up, not]
    exact if_neg Bool.false_ne_true
  · obtain ⟨zero, fresh⟩ := State.trainFits_swing fits
    have port : (s.trainSend p).port p = { (s.trainOut p).port p with sentSwing := some s.swing } := by
      rw [State.trainSend_up en up, if_pos fits, State.port_setPort]
    rw [port, State.port_trainOut]
    exact ⟨zero, fresh, rfl, rfl, s.trainSet_check _ _⟩

/-- A port that is no port in training sends what its state lets it. -/
theorem completes_trainSend {s : State} {p : Fin 2} (on : s.linkOn = true) (other : s.portState p ≠ 2) :
    Completes (.trainSend p) s (fun u => u = s.trainSend p) :=
  completes_onLink rfl on (if_neg (by simpa [portTraining] using other))

theorem comes_trainSend {s : State} {p : Fin 2} (on : s.linkOn = true) (training : s.portState p = 2) :
    Comes (.trainSend p) s (some (s.trainDue p)) (State.trainSend p) :=
  comes_onLink rfl on (if_pos (by simp [training, portTraining]))

/-! ### What stands on the pair (R105) -/

theorem State.lineOut_off {s : State} (p : Nat) (off : s.linkOn = false) : s.lineOut p = .off :=
  if_pos (by rw [off]; rfl)

theorem State.leaving_now {s : State} {t n : Nat} (began : t ≤ s.now) (lasts : s.now < t + 10 * n) :
    s.leaving (some t) n = true := by
  simp [State.leaving, began, lasts]

theorem State.lineOut_burst {s : State} {t : Nat} (p : Nat) (on : s.linkOn = true) (burst : s.link.burst = some t)
    (began : t ≤ s.now) (lasts : s.now < t + 400) : s.lineOut p = .burst := by
  have leaves : s.leaving s.link.burst 40 = true := by rw [burst]; exact State.leaving_now began lasts
  simp [State.lineOut, on, leaves]

/-- Past the wake burst and with RDEF clear, a port's own state says what it sends. -/
theorem State.lineOut_port {s : State} (p : Nat) (on : s.linkOn = true) (noBurst : s.link.burst = none)
    (sound : s.on F.SYS_RST_STAT_RDEF = false) : s.lineOut p =
      if s.portEn p = false then .off
      else if s.portState p = 0 then .ld
      else if (((s.port p).healEnd.map (fun t => decide (s.now < t))).getD false) = true then .heal
      else if (s.portRepeats p && s.leaving (s.port p).frameAt (s.port p).frame.length) = true then .frame
      else if s.leaving (s.port p).sentAt (s.port p).sent.length = true then .train
      else if s.upstream = some p then .idle2 else .idle1 := by
  simp [State.lineOut, on, noBurst, sound, State.leaving, portDownSt]

theorem State.portRepeats_up {s : State} {p : Nat} (on : s.linkOn = true) (en : s.portEn p = true) (up : s.portUp p = true) :
    s.portRepeats p = true := by
  simp [State.portRepeats, on, en, up]

theorem State.portState_up {s : State} {p : Nat} (up : s.portUp p = true) : s.portState p ≠ 0 := by
  have state : s.portState p = portUpSt := by simpa [State.portUp] using up
  rw [state]
  decide

theorem State.lineOut_sends {s : State} {p : Fin 2} (on : s.linkOn = true) (noBurst : s.link.burst = none)
    (sound : s.on F.SYS_RST_STAT_RDEF = false) :
    (s.portEn p = false → s.lineOut p = .off) ∧
    (s.portEn p = true → s.portState p = 0 → s.lineOut p = .ld) ∧
    (∀ t, s.portEn p = true → s.portState p ≠ 0 → (s.port p).healEnd = some t → s.now < t → s.lineOut p = .heal) ∧
    (∀ t, s.portEn p = true → s.portUp p = true → (s.port p).healEnd = none → (s.port p).frameAt = some t → t ≤ s.now →
      s.now < t + 10 * (s.port p).frame.length → s.lineOut p = .frame) ∧
    (s.portEn p = true → s.portState p ≠ 0 → (s.port p).healEnd = none → (s.port p).frameAt = none →
      (s.port p).sentAt = none → s.lineOut p = if s.upstream = some p.val then .idle2 else .idle1) := by
  rw [State.lineOut_port p on noBurst sound]
  refine ⟨fun off => ?_, fun en down => ?_, fun t en receives heals before => ?_, fun t en up calm frame began lasts => ?_,
    fun en receives calm noFrame noTrain => ?_⟩
  · simp [off]
  · simp [en, down]
  · simp [en, receives, heals, before]
  · have leaves := State.leaving_now (s := s) began lasts
    simp [en, State.portState_up up, calm, frame, State.portRepeats_up on en up, leaves]
  · simp [en, receives, calm, noFrame, noTrain, State.leaving]

/-! ### The code groups (R105) -/

/-- The number that a sub-block of `n` bits stands for in a table, by itself or by its complement. -/
def subBlockNumber (n : Nat) (table : List Nat) (w : Nat) : Nat :=
  if table.contains w then table.idxOf w else table.idxOf (2 ^ n - 1 - w)

/-- The byte that a data group stands for; the groups of the alternative form of D.7 are those no table holds. -/
def groupByte (g : Nat) : Nat := subBlockNumber 6 sixTable (g / 16) + 32 * min 7 (subBlockNumber 4 fourTable (g % 16))

theorem groupByte_dataGroup : ∀ (b : Fin 256) (rd : Bool), groupByte (dataGroup b rd).1.toNat = b := by decide +kernel

theorem dataGroup_ones : ∀ (b : Fin 256) (rd : Bool), 4 ≤ onesIn 10 (dataGroup b rd).1.toNat ∧
    onesIn 10 (dataGroup b rd).1.toNat ≤ 6 ∧ (dataGroup b rd).2 = nextRd 10 (dataGroup b rd).1.toNat rd := by decide +kernel

theorem dataGroup_injective (b c : Fin 256) (rd : Bool) (same : (dataGroup b rd).1 = (dataGroup c rd).1) : b = c := by
  refine Fin.ext ?_
  rw [← groupByte_dataGroup b rd, same, groupByte_dataGroup]

end Sys2Proof.Machine
end


/-! # TRAIN sets received (R106, R116–R118, R120, R142) -/

section
namespace Sys2Proof.Machine

/-! ### The stages of a set that is taken -/

/-- Is the neighbour the one of before: its number and its hops? -/
def State.sameNeighbour (s : State) (p : Nat) (b : List Byte) : Bool :=
  s.get F.LINK_PORT_STAT_NB_DEV p == byteAt b 2 &&
    (s.port p).hopsThru == (if byteAt b 3 = 0xFF then none else some (byteAt b 3))

/-- The neighbour's number and role are shown. -/
def State.neighbourShown (p : Nat) (b : List Byte) (s : State) : State :=
  ((s.put F.LINK_PORT_STAT_NB_DEV (byteAt b 2) p).put F.LINK_PORT_STAT_NB_ROLE (byteAt b 1 % 2) p).put F.LINK_PORT_STAT_LD_RX 0 p

/-- Twice the delay that a set shows: the round trip less the neighbour's hold, in 1/32 tick. -/
def roundTrip (b : List Byte) (t4 : Nat) : Int := toS 32 (t4 + 2 ^ 33 - leAt b 8 4 - leAt b 12 4)

/-- The delay measured, where the set echoes one; the rounding of half a unit is free. -/
def State.measured (b : List Byte) (t4 : Nat) (s : State) : Option Int × State :=
  if leAt b 8 4 = 0 ∧ leAt b 12 4 = 0 then (none, s)
  else if roundTrip b t4 % 2 = 0 then (some (roundTrip b t4 / 2), s)
  else (some (roundTrip b t4 / 2 + (b2n (Config.freeBit s.free) : Nat)), s.draw)

/-- The delays of the training with one more. -/
def delaysWith (cs : List Int) : Option Int → List Int
  | none => cs
  | some c => (c :: cs).take 16

/-- The port holds what the set said and the delays measured. -/
def State.setHeld (p : Nat) (b : List Byte) (t4 : Nat) (cs : List Int) (warm : Bool) (s : State) : State :=
  s.setPort p { s.port p with
    rxT := some (leAt b 4 4, t4)
    pathThru := if leAt b 16 3 % 2 ^ 21 = 0x1FFFFF then none else some (leAt b 16 3 % 2 ^ 21)
    hopsThru := if byteAt b 3 = 0xFF then none else some (byteAt b 3)
    cs := cs, lastSignal := s.now, warm := warm }

/-- The delay in force is the mean of some, and the path shown follows. -/
def State.delayTaken (p : Nat) (l : List Int) (s : State) : State :=
  let m := s.meanDelay l
  (m.2.setPort p { m.2.port p with c := m.1 }).showPath p

/-- The port is judged: a port that is up stays so, one that confirms the values of before rest is up at once, another once
16 delays lie within 4 units (R118, R142). -/
def State.portJudged (p : Nat) (cs : List Int) (took confirmed : Bool) (s : State) : State :=
  if s.portUp p then (if took && decide (4 ≤ cs.length) then s.delayTaken p (cs.take 4) else s.showPath p)
  else if confirmed then (s.showPath p).portComesUp p
  else
    let t := s.put F.LINK_PORT_STAT_STATE portTraining p
    if cs.length = 16 ∧ cs.foldl max (cs.headD 0) - cs.foldl min (cs.headD 0) ≤ 4 then (t.delayTaken p cs).portComesUp p else t

/-- Stored upstream values that do not hold are given up (R142). -/
def State.warmJudged (p : Nat) (b : List Byte) (s : State) : State :=
  if (s.port p).warm && !s.sameNeighbour p b then s.trainsCold p else s

/-- The state in which the delay is measured, the delays of the training then, and what the port holds with them. -/
def State.setShown (p : Nat) (b : List Byte) (s : State) : State := (s.warmJudged p b).neighbourShown p b
def State.delaysNow (p : Nat) (b : List Byte) (t4 : Nat) (s : State) : List Int :=
  delaysWith (s.port p).cs ((s.setShown p b).measured b t4).1
def State.setTaken (p : Nat) (b : List Byte) (t4 : Nat) (s : State) : State :=
  ((s.setShown p b).measured b t4).2.setHeld p b t4 (s.delaysNow p b t4) ((s.port p).warm && s.sameNeighbour p b)

/-- A set that passes its check is taken, and the port judged. -/
def State.trainTaken (p : Nat) (b : List Byte) (t4 : Nat) (s : State) : State :=
  (s.setTaken p b t4).portJudged p (s.delaysNow p b t4) ((s.setShown p b).measured b t4).1.isSome
    ((s.port p).warm && s.sameNeighbour p b)

theorem State.trainReceive_down {s : State} {p : Fin 2} (b : List Byte) (fine bad idle : Nat) (down : s.portState p = 0) :
    s.trainReceive p b fine bad idle = s.codeErrors p (bad + idle) := by
  have same := State.PassesOnly.codeErrors s p (bad + idle)
  have state : (s.codeErrors p (bad + idle)).portState p = 0 :=
    (same.get F.LINK_PORT_STAT_STATE p (State.portStat_counts p)).trans down
  exact if_pos (by rw [state]; rfl)

theorem State.trainReceive_bad {s : State} {p : Fin 2} {b : List Byte} (fine : Nat) {bad : Nat} (idle : Nat)
    (receives : s.portState p ≠ 0) (fails : bad ≠ 0 ∨ crc8 (slice b 1 18) ≠ byteAt b 19) :
    s.trainReceive p b fine bad idle = (s.codeErrors p (bad + idle)).bump F.LINK_CNT0_HCRC_ERR := by
  have same := State.PassesOnly.codeErrors s p (bad + idle)
  have state : (s.codeErrors p (bad + idle)).portState p = s.portState p :=
    same.get F.LINK_PORT_STAT_STATE p (State.portStat_counts p)
  have on : ¬ ((s.codeErrors p (bad + idle)).portState p == portDownSt) = true := by simpa [state, portDownSt] using receives
  exact (if_neg on).trans (if_pos fails)

/-- A set that passes its check is another manager's on a manager, or is taken. -/
theorem State.trainReceive_sound {s : State} {p : Fin 2} {b : List Byte} (fine idle : Nat) (receives : s.portState p ≠ 0)
    (sound : crc8 (slice b 1 18) = byteAt b 19) : s.trainReceive p b fine 0 idle =
      if s.isManager = true ∧ byteAt b 1 % 2 = 0 then (s.codeErrors p idle).secondManager p
      else (s.codeErrors p idle).trainTaken p b (portCount p s.now fine) := by
  have same := State.PassesOnly.codeErrors s p idle
  have state : (s.codeErrors p idle).portState p = s.portState p :=
    same.get F.LINK_PORT_STAT_STATE p (State.portStat_counts p)
  have on : ¬ ((s.codeErrors p idle).portState p == portDownSt) = true := by simpa [state, portDownSt] using receives
  have passes : ¬ ((0 : Nat) ≠ 0 ∨ crc8 (slice b 1 18) ≠ byteAt b 19) := by simp [sound]
  have model : s.trainReceive p b fine 0 idle =
      let t := s.codeErrors p (0 + idle)
      if t.portState p == portDownSt then t
      else if (0 : Nat) ≠ 0 ∨ crc8 (slice b 1 18) ≠ byteAt b 19 then t.bump F.LINK_CNT0_HCRC_ERR
      else if t.isManager && byteAt b 1 % 2 == 0 then t.secondManager p
      else t.trainTaken p b (portCount p s.now fine) := by
    rfl
  rw [model, Nat.zero_add]
  dsimp only
  rw [if_neg on, if_neg passes, same.isManager]
  exact if_congr (by simp) rfl rfl

/-! ### What the judging of a port leaves -/

/-- Of port `p` the neighbour shown, the delays and the times of the last set stand, and of the link unit all but its ports. -/
structure State.HoldsSet (p : Nat) (s t : State) : Prop where
  dev : t.get F.LINK_PORT_STAT_NB_DEV p = s.get F.LINK_PORT_STAT_NB_DEV p
  role : t.get F.LINK_PORT_STAT_NB_ROLE p = s.get F.LINK_PORT_STAT_NB_ROLE p
  cs : (t.port p).cs = (s.port p).cs
  rxT : (t.port p).rxT = (s.port p).rxT
  link : t.link = { s.link with port := t.link.port }

theorem State.HoldsSet.trans {p : Nat} {s t u : State} (h : s.HoldsSet p t) (g : t.HoldsSet p u) : s.HoldsSet p u where
  dev := g.dev.trans h.dev
  role := g.role.trans h.role
  cs := g.cs.trans h.cs
  rxT := g.rxT.trans h.rxT
  link := by rw [g.link, h.link]

/-- A register written beside the neighbour's fields. -/
theorem State.HoldsSet.of_regs {p : Nat} {s t : State} (only : s.RegsOnly t)
    (dev : t.get F.LINK_PORT_STAT_NB_DEV p = s.get F.LINK_PORT_STAT_NB_DEV p)
    (role : t.get F.LINK_PORT_STAT_NB_ROLE p = s.get F.LINK_PORT_STAT_NB_ROLE p) : s.HoldsSet p t := by
  have link := only.link
  have port : t.port p = s.port p := by rw [State.port, link, State.port]
  exact ⟨dev, role, congrArg PortSt.cs port, congrArg PortSt.rxT port, by rw [link]⟩

/-- HOPS_VIA of the port and its path are shown, and ESC_OFFSET where it is the upstream port. -/
theorem State.showPath_get (s : State) (p : Fin 2) (f : Fld) (stat : f.addr p = F.LINK_PORT_STAT.addr p)
    (apart : f.lo + f.width ≤ 16 ∨ 24 ≤ f.lo) (fits : f.lo + f.width ≤ 32) : (s.showPath p).get f p = s.get f p := by
  have path : ∀ q : Fin 2, F.LINK_PORT_STAT.addr q ≠ F.LINK_PATH.addr q := by decide
  have offPath : f.addr p ≠ F.LINK_PATH.addr p := stat ▸ path p
  have offset : f.addr p ≠ F.ESC_OFFSET.base := stat ▸ (State.portStat_apart p).1
  have shown (t : State) (v : Nat) : (t.put F.LINK_PORT_STAT_HOPS_VIA v p).get f p = t.get f p :=
    t.get_put_disj _ _ _ _ _ apart fits
  unfold State.showPath
  dsimp only
  have inner (t : State) (h : t.get f p = s.get f p) : (if t.upstream == some p.val then t.showOffset else t).get f p = s.get f p := by
    split
    · rw [State.get_eq_of_reg (State.reg_showOffset_ne _ offset), h]
    · exact h
  refine inner _ ((shown _ _).trans ?_)
  cases (s.port p).pathThru with
  | none => exact s.get_setReg_ne _ _ _ _ offPath
  | some v =>
    dsimp only
    rw [State.get_put_ne _ F.LINK_PATH_PATH_FRAC _ _ _ _ offPath, State.get_put_ne _ F.LINK_PATH_PATH_INT _ _ _ _ offPath,
      State.get_put_ne _ F.LINK_PATH_VALID _ _ _ _ offPath]

theorem State.regsOnly_showPath (s : State) (p : Nat) : s.RegsOnly (s.showPath p) := by
  have last (t : State) (h : s.RegsOnly t) : s.RegsOnly (if t.upstream == some p then t.showOffset else t) := by
    split
    · exact h.trans t.regsOnly_showOffset
    · exact h
  unfold State.showPath
  refine last _ ?_
  dsimp only
  cases (s.port p).pathThru <;> rfl

theorem State.holdsSet_showPath (s : State) (p : Fin 2) : s.HoldsSet p (s.showPath p) :=
  .of_regs (s.regsOnly_showPath p) (s.showPath_get p _ rfl (by decide) (by decide)) (s.showPath_get p _ rfl (by decide) (by decide))

theorem State.portState_showPath (s : State) (p : Fin 2) : (s.showPath p).portState p = s.portState p :=
  s.showPath_get p F.LINK_PORT_STAT_STATE rfl (by decide) (by decide)

theorem State.holdsSet_setPort (s : State) (p : Fin 2) {x : PortSt} (cs : x.cs = (s.port p).cs) (rxT : x.rxT = (s.port p).rxT) :
    s.HoldsSet p (s.setPort p x) := by
  have port := s.port_setPort p x
  exact ⟨rfl, rfl, by rw [port, cs], by rw [port, rxT], rfl⟩

/-- The mean of delays may draw its rounding, and does nothing else. -/
theorem State.meanDelay_rest (s : State) (l : List Int) : (s.meanDelay l).2 = { s with free := (s.meanDelay l).2.free } := by
  unfold State.meanDelay
  dsimp only
  split_ifs <;> rfl

theorem State.holdsSet_delayTaken (s : State) (p : Fin 2) (l : List Int) : s.HoldsSet p (s.delayTaken p l) := by
  have drawn : s.HoldsSet p (s.meanDelay l).2 := by
    rw [State.meanDelay_rest]
    exact ⟨rfl, rfl, rfl, rfl, rfl⟩
  have set := (s.meanDelay l).2.holdsSet_setPort p (x := { (s.meanDelay l).2.port p with c := (s.meanDelay l).1 }) rfl rfl
  exact (drawn.trans set).trans (State.holdsSet_showPath _ p)

theorem State.portState_delayTaken (s : State) (p : Fin 2) (l : List Int) : (s.delayTaken p l).portState p = s.portState p := by
  unfold State.delayTaken
  dsimp only
  rw [State.portState_showPath, State.meanDelay_rest]
  rfl

theorem State.holdsSet_put (s : State) (p : Fin 2) (f : Fld) (v : Nat) (apart : f.lo + f.width ≤ 6 ∧ f.lo + f.width ≤ 32) :
    s.HoldsSet p (s.put f v p) :=
  .of_regs rfl (s.get_put_disj _ _ _ _ _ (.inr (by change f.lo + f.width ≤ 24; omega)) (by decide))
    (s.get_put_disj _ _ _ _ _ (.inr apart.1) (by decide))

theorem State.holdsSet_portComesUp (s : State) (p : Fin 2) : s.HoldsSet p (s.portComesUp p) := by
  have up := s.holdsSet_put p F.LINK_PORT_STAT_STATE portUpSt (by decide)
  have port := (s.put F.LINK_PORT_STAT_STATE portUpSt p).holdsSet_setPort p
    (x := { (s.put F.LINK_PORT_STAT_STATE portUpSt p).port p with upOnce := true, warm := false }) rfl rfl
  refine (up.trans port).trans (.of_regs rfl ?_ ?_)
  · exact State.get_markEnds _ _ _ (by decide) (by decide)
  · exact State.get_markEnds _ _ _ (by decide) (by decide)

theorem State.portUp_portComesUp (s : State) (p : Nat) : (s.portComesUp p).portUp p = true := by
  have state : (s.portComesUp p).portState p = 3 :=
    (State.portState_markEnds _ p).trans (s.get_put_same F.LINK_PORT_STAT_STATE portUpSt p (by decide))
  rw [State.portUp, state]
  rfl

theorem State.holdsSet_portJudged (s : State) (p : Fin 2) (cs : List Int) (took confirmed : Bool) :
    s.HoldsSet p (s.portJudged p cs took confirmed) := by
  have training := s.holdsSet_put p F.LINK_PORT_STAT_STATE portTraining (by decide)
  unfold State.portJudged
  dsimp only
  split_ifs
  · exact s.holdsSet_delayTaken p _
  · exact s.holdsSet_showPath p
  · exact (s.holdsSet_showPath p).trans (State.holdsSet_portComesUp _ p)
  · exact (training.trans (State.holdsSet_delayTaken _ p cs)).trans (State.holdsSet_portComesUp _ p)
  · exact training

theorem State.portUp_portJudged (s : State) (p : Fin 2) (cs : List Int) (took confirmed : Bool) :
    (s.portJudged p cs took confirmed).portUp p = (s.portUp p || confirmed || (decide (cs.length = 16) &&
      decide (cs.foldl max (cs.headD 0) - cs.foldl min (cs.headD 0) ≤ 4))) := by
  rw [← Bool.decide_and]
  unfold State.portJudged
  dsimp only
  split_ifs with up took' confirmed' steady
  · rw [State.portUp, State.portState_delayTaken, ← State.portUp, up]; rfl
  · rw [State.portUp, State.portState_showPath, ← State.portUp, up]; rfl
  · rw [State.portUp_portComesUp, confirmed', Bool.or_true]; rfl
  · rw [State.portUp_portComesUp, decide_eq_true steady, Bool.or_true]
  · have training : (s.put F.LINK_PORT_STAT_STATE portTraining p).portUp p = false :=
      congrArg (· == portUpSt) (s.get_put_same F.LINK_PORT_STAT_STATE portTraining p (by decide))
    rw [training, decide_eq_false steady, eq_false_of_ne_true up, eq_false_of_ne_true confirmed']
    rfl

/-! ### What a set that is taken brings (R116–R118, R142) -/

/-- A measured delay is half the round trip less the neighbour's hold. -/
theorem State.measured_cases (s : State) (b : List Byte) (t4 : Nat) :
    (leAt b 8 4 = 0 ∧ leAt b 12 4 = 0 ∧ (s.measured b t4).1 = none) ∨
    (¬ (leAt b 8 4 = 0 ∧ leAt b 12 4 = 0) ∧ ∃ c : Int, (s.measured b t4).1 = some c ∧
      (roundTrip b t4 = 2 * c ∨ roundTrip b t4 = 2 * c + 1 ∨ roundTrip b t4 = 2 * c - 1)) := by
  unfold State.measured
  split_ifs with first even
  · exact .inl ⟨first.1, first.2, rfl⟩
  · exact .inr ⟨first, _, rfl, .inl (by omega)⟩
  · refine .inr ⟨first, _, rfl, .inr ?_⟩
    cases Config.freeBit s.free with
    | false => exact .inl (by simp [b2n]; omega)
    | true => exact .inr (by simp [b2n]; omega)

theorem State.measured_rest (s : State) (b : List Byte) (t4 : Nat) :
    (s.measured b t4).2 = { s with free := (s.measured b t4).2.free } := by
  unfold State.measured
  split_ifs <;> rfl

/-- A cold port's stored values are given up in the link unit alone. -/
theorem State.warmJudged_rest (s : State) (p : Nat) (b : List Byte) :
    s.warmJudged p b = { s with link := (s.warmJudged p b).link } := by
  unfold State.warmJudged State.trainsCold
  dsimp only
  split_ifs <;> rfl

theorem State.neighbourShown_shows {s : State} {p : Nat} {b : List Byte} :
    (s.neighbourShown p b).get F.LINK_PORT_STAT_NB_DEV p = byteAt b 2 ∧
    (s.neighbourShown p b).get F.LINK_PORT_STAT_NB_ROLE p = byteAt b 1 % 2 ∧
    (s.neighbourShown p b).portUp p = s.portUp p := by
  unfold State.neighbourShown State.portUp State.portState
  refine ⟨?_, ?_, ?_⟩
  · rw [State.get_put_disj _ _ _ _ _ _ (by decide) (by decide), State.get_put_disj _ _ _ _ _ _ (by decide) (by decide),
      State.get_put_same _ _ _ _ (by decide)]
    exact Nat.mod_eq_of_lt (BitVec.isLt _)
  · rw [State.get_put_disj _ _ _ _ _ _ (by decide) (by decide), State.get_put_same _ _ _ _ (by decide)]
    exact Nat.mod_mod _ _
  · rw [State.get_put_disj _ _ _ _ _ _ (by decide) (by decide), State.get_put_disj _ _ _ _ _ _ (by decide) (by decide),
      State.get_put_disj _ _ _ _ _ _ (by decide) (by decide)]

/-- A worker whose stored upstream values do not hold is cold again (R142). -/
theorem State.warmJudged_cold {s : State} {p : Nat} {b : List Byte} (worker : s.isManager = false) (up : s.upstream = some p)
    (warm : (s.port p).warm = true) (other : s.sameNeighbour p b = false) :
    (s.warmJudged p b).link.coldDone = false ∧ (s.warmJudged p b).link.warmWake = false := by
  have cold : s.warmJudged p b = s.trainsCold p := if_pos (by rw [warm, other]; rfl)
  rw [cold]
  unfold State.trainsCold
  have here : (!(s.setPort p { s.port p with warm := false }).isManager &&
      (s.setPort p { s.port p with warm := false }).upstream == some p) = true := by
    change (!s.isManager && s.upstream == some p) = true
    simp [worker, up]
  dsimp only
  rw [if_pos here]
  exact ⟨rfl, rfl⟩

theorem State.delaysNow_cases (s : State) (p : Nat) (b : List Byte) (t4 : Nat) :
    (leAt b 8 4 = 0 ∧ leAt b 12 4 = 0 → s.delaysNow p b t4 = (s.port p).cs) ∧
    (¬(leAt b 8 4 = 0 ∧ leAt b 12 4 = 0) → ∃ c : Int, s.delaysNow p b t4 = (c :: (s.port p).cs).take 16 ∧
      (roundTrip b t4 = 2 * c ∨ roundTrip b t4 = 2 * c + 1 ∨ roundTrip b t4 = 2 * c - 1)) := by
  unfold State.delaysNow
  rcases (s.setShown p b).measured_cases b t4 with ⟨time, hold, none⟩ | ⟨echoes, c, took, half⟩
  · rw [none]
    exact ⟨fun _ => rfl, fun echoes => absurd ⟨time, hold⟩ echoes⟩
  · rw [took]
    exact ⟨fun first => absurd first echoes, fun _ => ⟨c, rfl, half⟩⟩

theorem State.setHeld_port (s : State) (p : Fin 2) (b : List Byte) (t4 : Nat) (cs : List Int) (warm : Bool) :
    ((s.setHeld p b t4 cs warm).port p).cs = cs ∧ ((s.setHeld p b t4 cs warm).port p).rxT = some (leAt b 4 4, t4) := by
  have port : (s.setHeld p b t4 cs warm).port p = _ := s.port_setPort p _
  rw [port]
  exact ⟨rfl, rfl⟩

theorem State.setHeld_rest (s : State) (p : Nat) (b : List Byte) (t4 : Nat) (cs : List Int) (warm : Bool) :
    (s.setHeld p b t4 cs warm).link = { s.link with port := (s.setHeld p b t4 cs warm).link.port } ∧
      (s.setHeld p b t4 cs warm).regs = s.regs := ⟨rfl, rfl⟩

theorem State.setTaken_shows (s : State) (p : Fin 2) (b : List Byte) (t4 : Nat) :
    (s.setTaken p b t4).get F.LINK_PORT_STAT_NB_DEV p = byteAt b 2 ∧
    (s.setTaken p b t4).get F.LINK_PORT_STAT_NB_ROLE p = byteAt b 1 % 2 ∧ (s.setTaken p b t4).portUp p = s.portUp p := by
  obtain ⟨dev, role, up⟩ := (s.warmJudged p b).neighbourShown_shows (p := p) (b := b)
  have regs : (s.setTaken p b t4).regs = (s.setShown p b).regs := by
    rw [State.setTaken, (State.setHeld_rest _ _ _ _ _ _).2, State.measured_rest]
  have kept (f : Fld) : (s.setTaken p b t4).get f p = (s.setShown p b).get f p := State.get_eq_of_reg (State.reg_of_regs regs _)
  have before : (s.warmJudged p b).portUp p = s.portUp p := by rw [State.warmJudged_rest]; rfl
  exact ⟨(kept _).trans dev, (kept _).trans role, (congrArg (· == portUpSt) (kept F.LINK_PORT_STAT_STATE)).trans (up.trans before)⟩

theorem State.setTaken_link (s : State) (p : Nat) (b : List Byte) (t4 : Nat) :
    (s.setTaken p b t4).link = { (s.warmJudged p b).link with port := (s.setTaken p b t4).link.port } := by
  have shown : (s.setShown p b).link = (s.warmJudged p b).link := rfl
  rw [State.setTaken, (State.setHeld_rest _ _ _ _ _ _).1, State.measured_rest]
  dsimp only
  rw [shown]

/-- What a set that is taken brings about. -/
theorem State.trainTaken_brings (s : State) (p : Fin 2) (b : List Byte) (t4 : Nat) : let u := s.trainTaken p b t4
    u.get F.LINK_PORT_STAT_NB_DEV p = byteAt b 2 ∧ u.get F.LINK_PORT_STAT_NB_ROLE p = byteAt b 1 % 2 ∧
      (u.port p).rxT = some (leAt b 4 4, t4) ∧
      (leAt b 8 4 = 0 ∧ leAt b 12 4 = 0 → (u.port p).cs = (s.port p).cs) ∧
      (¬(leAt b 8 4 = 0 ∧ leAt b 12 4 = 0) → ∃ c : Int, (u.port p).cs = (c :: (s.port p).cs).take 16 ∧
        (roundTrip b t4 = 2 * c ∨ roundTrip b t4 = 2 * c + 1 ∨ roundTrip b t4 = 2 * c - 1)) ∧
      (s.isManager = false → s.upstream = some p.val → (s.port p).warm = true → s.sameNeighbour p b = false →
        u.link.coldDone = false ∧ u.link.warmWake = false) ∧
      u.portUp p = (s.portUp p || ((s.port p).warm && s.sameNeighbour p b) || (decide ((u.port p).cs.length = 16) &&
        decide ((u.port p).cs.foldl max ((u.port p).cs.headD 0) - (u.port p).cs.foldl min ((u.port p).cs.headD 0) ≤ 4))) := by
  intro u
  have held : (s.setTaken p b t4).HoldsSet p u := State.holdsSet_portJudged _ p _ _ _
  obtain ⟨dev, role, up⟩ := s.setTaken_shows p b t4
  obtain ⟨delays, time⟩ := ((s.setShown p b).measured b t4).2.setHeld_port p b t4 (s.delaysNow p b t4)
    ((s.port p).warm && s.sameNeighbour p b)
  obtain ⟨first, later⟩ := s.delaysNow_cases p b t4
  have kept : (u.port p).cs = s.delaysNow p b t4 := held.cs.trans delays
  rw [kept, ← up]
  refine ⟨held.dev.trans dev, held.role.trans role, held.rxT.trans time, first, later, fun worker upstream warm other => ?_,
    State.portUp_portJudged _ p _ _ _⟩
  rw [held.link, State.setTaken_link]
  exact State.warmJudged_cold worker upstream warm other

/-! ### The rows -/

theorem completes_trainReceive {p : Fin 2} {b : List Byte} {fine : Fin 32} {bad idle : Nat} {s u : State} {P : State → Prop}
    (len : b.length = 20) (on : s.linkOn = true) (ends : s.trainReceive p b fine bad idle = u) (h : P u) :
    Completes (.trainReceive p b fine bad idle) s P := by
  have row : exec (.trainReceive p b fine bad idle) s = done (s.onLink (State.trainReceive p b fine bad idle)) := if_pos len
  exact completes_onLink row on (ends ▸ h)

/-- Code groups in error count on their port alone. -/
theorem State.codeErrors_counts (s : State) (p : Fin 2) (n : Nat) :
    let f := if p = 0 then F.LINK_CNT0_CODE_ERR_A else F.LINK_CNT0_CODE_ERR_B
    (s.codeErrors p n).get f = min (s.get f + n) (2 ^ f.width - 1) ∧
      (∀ k, k ≠ F.LINK_CNT0.base → (s.codeErrors p n).reg k = s.reg k) := by
  refine ⟨?_, (State.PassesOnly.codeErrors s p n).regs⟩
  fin_cases p
  · exact s.get_bump_same F.LINK_CNT0_CODE_ERR_A 0 n (by decide)
  · exact s.get_bump_same F.LINK_CNT0_CODE_ERR_B 0 n (by decide)

theorem State.sameNeighbour_codeErrors (s : State) (p : Fin 2) (n : Nat) (b : List Byte) :
    (s.codeErrors p n).sameNeighbour p b = s.sameNeighbour p b := by
  unfold State.sameNeighbour
  rw [(State.PassesOnly.codeErrors s p n).get F.LINK_PORT_STAT_NB_DEV p (State.portStat_counts p)]
  rfl

/-- A port that is down, enabled and has no other manager on it locks to valid code groups (R118, R120). -/
theorem State.portTrainStart_locks {s : State} {p : Fin 2} (bad : Nat) (down : s.portState p = 0) (en : s.portEn p = true)
    (single : (s.port p).secondMgr = false) (sound : s.on F.SYS_RST_STAT_RDEF = false) :
    (s.codeErrors p bad).portTrainStart p = (((s.codeErrors p bad).put F.LINK_PORT_STAT_STATE 1 p).setPort p { s.port p with
      cs := [], rxT := none, lastSignal := s.now, sentAt := none, sentSwing := none }).clockReturns p := by
  have same := State.PassesOnly.codeErrors s p bad
  have state : (s.codeErrors p bad).portState p = 0 :=
    (same.get F.LINK_PORT_STAT_STATE p (State.portStat_counts p)).trans down
  have en' : (s.codeErrors p bad).portEn p = true := (congrArg (bitOf · p) (same.regs _ (by decide))).trans en
  have sound' := (same.on F.SYS_RST_STAT_RDEF 0 (by decide)).trans sound
  have single' : ((s.codeErrors p bad).port p).secondMgr = false := single
  exact if_neg (by simp [state, en', single', sound', portDownSt])

theorem State.portTrainStart_stays {s : State} {p : Fin 2} (bad : Nat) (h : s.portState p ≠ 0 ∨ s.portEn p = false ∨
    (s.port p).secondMgr = true ∨ s.on F.SYS_RST_STAT_RDEF = true) :
    (s.codeErrors p bad).portTrainStart p = s.codeErrors p bad := by
  have same := State.PassesOnly.codeErrors s p bad
  have state : (s.codeErrors p bad).portState p = s.portState p := same.get F.LINK_PORT_STAT_STATE p (State.portStat_counts p)
  have en : (s.codeErrors p bad).portEn p = s.portEn p := congrArg (bitOf · p) (same.regs _ (by decide))
  have sound := same.on F.SYS_RST_STAT_RDEF 0 (by decide)
  have single : ((s.codeErrors p bad).port p).secondMgr = (s.port p).secondMgr := rfl
  refine if_pos ?_
  rw [state, en, sound, single]
  rcases h with h | h | h | h <;> simp [h, portDownSt]

/-- Settles O17: a port locks by `portTrainStart_locks`, sends by `trainSend_sends` and `trainSend_once`, shows on its pair what
`lineOut_sends` says in the groups of `dataGroup_ones`, and takes a set by `trainTaken_brings`. -/
theorem portsTrain : Obligations.PortsTrain := by
  unfold Obligations.PortsTrain
  refine ⟨⟨fun s p bad on down en single sound => completes_onLink rfl on (State.portTrainStart_locks bad down en single sound),
      fun s p bad => completes_offLink rfl, fun s p bad on other => completes_onLink rfl on (State.portTrainStart_stays bad other),
      fun s p h => ?_, fun s p => comes_trainSend, fun s p => completes_trainSend,
      fun s p => State.trainSend_sends, fun s p => State.trainSend_once⟩,
    ⟨fun s p => State.lineOut_off p, fun s p t => State.lineOut_burst p, fun s p => State.lineOut_sends, fun s p rd frame => ?_,
      dataGroup_ones, dataGroup_injective⟩,
    fun s p b fine bad idle len => completes_offLink (if_pos len), fun s p b fine bad idle len on down => ?_,
    fun s p b fine bad idle len on receives fails => ?_, State.codeErrors_counts,
    fun s p b fine idle len on receives sound manager kind first => ?_,
    fun s p b fine idle len on receives sound worker => ?_⟩
  · rcases Bool.eq_false_or_eq_true s.linkOn with on | off
    · have down := h.resolve_left (by rw [on]; decide)
      have stays : s.trainSend p = s := if_pos (by rw [down]; rfl)
      refine completes_onLink rfl on ((if_neg ?_).trans stays)
      simp [down, portTraining]
    · exact completes_offLink rfl off
  · unfold State.portGroups
    rw [frame]
  · exact completes_trainReceive len on (State.trainReceive_down b fine bad idle down) rfl
  · exact completes_trainReceive len on (State.trainReceive_bad fine idle receives fails) rfl
  · refine completes_trainReceive len on ((State.trainReceive_sound fine idle receives sound).trans
      (if_pos ⟨manager, kind⟩)) ?_
    exact State.secondManager_down ((State.PassesOnly.codeErrors s p idle).isManager.trans manager) first
  · have same := State.PassesOnly.codeErrors s p idle
    have own : ¬ (s.isManager = true ∧ byteAt b 1 % 2 = 0) := by
      rintro ⟨manager, kind⟩
      rcases worker with worker | odd
      · exact Bool.false_ne_true (worker.symm.trans manager)
      · omega
    refine completes_trainReceive len on ((State.trainReceive_sound fine idle receives sound).trans (if_neg own)) ?_
    have brings := (s.codeErrors p idle).trainTaken_brings p b (portCount p s.now fine)
    rw [same.isManager, same.upstream, State.portUp_codeErrors, State.sameNeighbour_codeErrors] at brings
    exact brings

end Sys2Proof.Machine
end


/-! # Up frames on a worker (R114, R121, R125–R128, R134, R149) -/

section
namespace Sys2Proof.Machine

/-! ### Fields of a frame -/

theorem byteAt_replicate (n i : Nat) : byteAt (List.replicate n (0 : Byte)) i = 0 := by
  by_cases inside : i < n <;> simp [byteAt, List.getD, inside]

/-- Numbers read from the same bytes are the same. -/
theorem leAt_congr {a b : List Byte} {o n : Nat} (same : ∀ i, o ≤ i → i < o + n → byteAt a i = byteAt b i) :
    leAt a o n = leAt b o n := by
  induction n generalizing o with
  | zero => rfl
  | succ n ih =>
    rw [leAt, leAt, same o (Nat.le_refl _) (by omega), ih (fun i least most => same i (by omega) (by omega))]

theorem length_splice {b x : List Byte} {o : Nat} (fits : o + x.length ≤ b.length) : (splice b o x).length = b.length := by
  simp only [splice, List.length_append, List.length_take, List.length_drop]
  omega

theorem slice_splice {b x : List Byte} {o : Nat} (fits : o + x.length ≤ b.length) : slice (splice b o x) o x.length = x := by
  have front : (b.take o).length = o := by rw [List.length_take]; omega
  have within := slice_within (b.take o) x (b.drop (o + x.length))
  rwa [front] at within

theorem leAt_splice {b : List Byte} {o n : Nat} (v : Nat) (fits : o + n ≤ b.length) :
    leAt (splice b o (leBytes v n)) o n = v % 256 ^ n := by
  have front : (b.take o).length = o := by rw [List.length_take]; omega
  have within := leAt_within (b.take o) (b.drop (o + (leBytes v n).length)) v n
  rwa [front] at within

/-- A byte beside the bytes replaced. -/
theorem byteAt_splice_ne {b x : List Byte} {o i : Nat} (fits : o + x.length ≤ b.length) (beside : i < o ∨ o + x.length ≤ i) :
    byteAt (splice b o x) i = byteAt b i := by
  have front : (b.take o).length = o := by rw [List.length_take]; omega
  unfold splice
  rcases beside with before | after
  · rw [List.append_assoc, byteAt_append_left _ (by rw [front]; exact before), byteAt_take before]
  · obtain ⟨j, rfl⟩ := Nat.exists_eq_add_of_le after
    have place : o + x.length + j = (b.take o ++ x).length + j := by rw [List.length_append, front]
    rw [place, byteAt_append_right]
    simp [byteAt, List.getD, List.getElem?_drop, front]

/-! ### The frame that a branch end starts (R125) -/

theorem longSlot_length (owner kind tag : Nat) (payload : List Byte) : (longSlot owner kind tag payload).length = 64 := by
  simp [longSlot, length_leBytes, length_slice]

/-- Up frame `k` with the grants `a`, `b`, `c`, every word and slot empty; `bit` names the branch. -/
def upHeaderBytes (bit k a b c : Nat) : List Byte :=
  leBytes (0x20 + bit) 1 ++ leBytes k 2 ++ (leBytes a 1 ++ leBytes b 1 ++ leBytes c 1)
def emptyFrame (bit k a b c : Nat) : List Byte :=
  leBytes 0xFD 1 ++ upHeaderBytes bit k a b c ++ leBytes (crc8 (upHeaderBytes bit k a b c)) 1 ++ List.replicate 126 (0 : Byte) ++
    (longSlot a 0 0 [] ++ longSlot b 0 0 [] ++ longSlot c 0 0 []) ++ List.replicate 8 (0 : Byte)

theorem upHeaderBytes_length (bit k a b c : Nat) : (upHeaderBytes bit k a b c).length = 6 := by
  simp [upHeaderBytes, length_leBytes]

theorem emptyFrame_length (bit k a b c : Nat) : (emptyFrame bit k a b c).length = 334 := by
  simp [emptyFrame, upHeaderBytes_length, longSlot_length, length_leBytes]

theorem emptyFrame_check (bit k a b c : Nat) :
    crc8 (slice (emptyFrame bit k a b c) 1 6) = byteAt (emptyFrame bit k a b c) 7 := by
  have within := crc8_within (leBytes 0xFD 1) (upHeaderBytes bit k a b c)
    (List.replicate 126 (0 : Byte) ++ (longSlot a 0 0 [] ++ longSlot b 0 0 [] ++ longSlot c 0 0 []) ++ List.replicate 8 (0 : Byte))
  simp only [upHeaderBytes_length, length_leBytes] at within
  simpa only [emptyFrame, List.append_assoc] using within

theorem emptyFrame_swing (bit k a b c : Nat) : leAt (emptyFrame bit k a b c) 2 2 = k % 65536 := by
  have number (x y : List Byte) (len : x.length = 2) : leAt (x ++ leBytes k 2 ++ y) 2 2 = k % 65536 := by
    have within := leAt_within x y k 2
    rwa [len] at within
  simpa only [emptyFrame, upHeaderBytes, List.append_assoc] using number (leBytes 0xFD 1 ++ leBytes (0x20 + bit) 1) _ rfl

/-- Each grant stands in its byte of the header. -/
theorem emptyFrame_grants (bit k a b c : Nat) (i : Fin 3) :
    byteAt (emptyFrame bit k a b c) (4 + i) = [a, b, c].getD i 0 % 256 := by
  have number (x y : List Byte) (v n : Nat) (len : x.length = n) : byteAt (x ++ leBytes v 1 ++ y) n = v % 256 := by
    rw [← len]; exact byteAt_within x y v
  let front := leBytes 0xFD 1 ++ leBytes (0x20 + bit) 1 ++ leBytes k 2
  let back := leBytes (crc8 (upHeaderBytes bit k a b c)) 1 ++ List.replicate 126 (0 : Byte) ++
    (longSlot a 0 0 [] ++ longSlot b 0 0 [] ++ longSlot c 0 0 []) ++ List.replicate 8 (0 : Byte)
  fin_cases i
  · have parts : emptyFrame bit k a b c = front ++ leBytes a 1 ++ (leBytes b 1 ++ (leBytes c 1 ++ back)) := by
      simp only [emptyFrame, upHeaderBytes, front, back, List.append_assoc]
    rw [parts]
    exact number front _ a 4 rfl
  · have parts : emptyFrame bit k a b c = front ++ leBytes a 1 ++ leBytes b 1 ++ (leBytes c 1 ++ back) := by
      simp only [emptyFrame, upHeaderBytes, front, back, List.append_assoc]
    rw [parts]
    exact number (front ++ leBytes a 1) _ b 5 rfl
  · have parts : emptyFrame bit k a b c = front ++ leBytes a 1 ++ leBytes b 1 ++ leBytes c 1 ++ back := by
      simp only [emptyFrame, upHeaderBytes, front, back, List.append_assoc]
    rw [parts]
    exact number (front ++ leBytes a 1 ++ leBytes b 1) _ c 6 rfl

theorem emptyFrame_words (bit k a b c : Nat) {i : Nat} (least : 8 ≤ i) (most : i < 134) :
    byteAt (emptyFrame bit k a b c) i = 0 := by
  have empty (x y : List Byte) (len : x.length = 8) : byteAt (x ++ (List.replicate 126 (0 : Byte) ++ y)) i = 0 := by
    have place : i = x.length + (i - 8) := by omega
    rw [place, byteAt_append_right, byteAt_append_left _ (by rw [List.length_replicate]; omega), byteAt_replicate]
  have front : (leBytes 0xFD 1 ++ upHeaderBytes bit k a b c ++ leBytes (crc8 (upHeaderBytes bit k a b c)) 1).length = 8 := by
    simp [upHeaderBytes_length, length_leBytes]
  simpa only [emptyFrame, List.append_assoc] using empty _ _ front

/-! ### A frame that leaves (R121, R125) -/

theorem State.upLeaves_port (s : State) {u : Nat} (two : u < 2) (k t : Nat) (b : List Byte) :
    ((s.upLeaves u k t b).port u).frame = b ∧ ((s.upLeaves u k t b).port u).frameAt = some t := by
  have port := s.port_setPort ⟨u, two⟩ { s.port u with frame := b, frameAt := some t, rd := s.rdStart u, rdKept := false }
  unfold State.upLeaves
  dsimp only
  split
  · exact ⟨congrArg PortSt.frame port, congrArg PortSt.frameAt port⟩
  · exact ⟨congrArg PortSt.frame port, congrArg PortSt.frameAt port⟩

theorem State.upLeaves_upSent (s : State) (u k t : Nat) (b : List Byte) : (s.upLeaves u k t b).link.upSent = s.link.upSent := by
  unfold State.upLeaves
  dsimp only
  split <;> rfl

/-- The worker's own word and map byte enter as their bytes pass. -/
theorem State.upLeaves_own {s : State} (u k t : Nat) (b : List Byte) (has : s.hasNumber = true) :
    (t + 10 * wordOffset s.devNo, LineEvent.ownWord u k) ∈ (s.upLeaves u k t b).link.lineDue ∧
      (t + 10 * mapOffset s.devNo, LineEvent.ownMap u k) ∈ (s.upLeaves u k t b).link.lineDue := by
  have still : ((s.setPort u { s.port u with frame := b, frameAt := some t, rd := s.rdStart u, rdKept := false }).draw).hasNumber
      = true := has
  unfold State.upLeaves
  dsimp only
  rw [if_pos still]
  simp

/-- The grants that a branch end puts in its frame: those of the down frame taken in this swing that has not failed. -/
def State.grantsNow (s : State) : List Nat :=
  if s.link.taken == some s.swing && (s.link.header.isSome || s.link.wasAccepted s.swing) then s.link.grants else [0, 0, 0]

theorem State.upStart_leaves {s : State} {p a b c : Nat} (up : s.upstream = some p) (repeats : s.portRepeats p = true)
    (grants : s.grantsNow = [a, b, c]) : s.upStart =
      ({ s with link := { s.link with upSent := some s.swing } } : State).upLeaves p s.swing s.now
        (emptyFrame (b2n s.branchBit) s.swing a b c) := by
  let t : State := { s with link := { s.link with upSent := some s.swing } }
  have model : s.upStart =
      let h := leBytes (0x20 + b2n s.branchBit) 1 ++ leBytes s.swing 2 ++ s.grantsNow.flatMap (fun x => leBytes x 1)
      if t.portRepeats p then t.upLeaves p s.swing s.now (leBytes 0xFD 1 ++ h ++ leBytes (crc8 h) 1 ++
        List.replicate 126 (0 : Byte) ++ s.grantsNow.flatMap (fun x => longSlot x 0 0 []) ++ List.replicate 8 (0 : Byte)) else t := by
    unfold State.upStart
    rw [up]
    rfl
  have header : leBytes (0x20 + b2n s.branchBit) 1 ++ leBytes s.swing 2 ++ [a, b, c].flatMap (fun x => leBytes x 1) =
      upHeaderBytes (b2n s.branchBit) s.swing a b c := by simp [upHeaderBytes]
  have slots : [a, b, c].flatMap (fun x => longSlot x 0 0 []) = longSlot a 0 0 [] ++ longSlot b 0 0 [] ++ longSlot c 0 0 [] := by
    simp
  rw [model, grants]
  dsimp only
  rw [header, slots]
  exact if_pos repeats

theorem State.grantsNow_length {s : State} (three : s.link.grants.length = 3) : s.grantsNow.length = 3 := by
  unfold State.grantsNow
  split
  · exact three
  · rfl

theorem State.grantsNow_cases (s : State) :
    (s.link.taken = some s.swing → s.link.header ≠ none ∨ s.link.accepted = some s.swing ∨ s.swing ∈ s.link.acceptedLog →
      s.grantsNow = s.link.grants) ∧
    (s.link.taken ≠ some s.swing ∨ (s.link.header = none ∧ s.link.accepted ≠ some s.swing ∧ s.swing ∉ s.link.acceptedLog) →
      s.grantsNow = [0, 0, 0]) := by
  refine ⟨fun took sound => if_pos ?_, fun none => if_neg ?_⟩
  · simpa [took, LinkSt.wasAccepted, Option.isSome_iff_ne_none] using sound
  · rcases none with other | ⟨header, accepted, log⟩
    · simp [other]
    · simp [LinkSt.wasAccepted, header, accepted, log]

theorem State.portRepeats_sends {s : State} {p : Nat} (sends : s.portSends p = true) : s.portRepeats p = true := by
  unfold State.portSends at sends
  simp only [Bool.and_eq_true] at sends
  obtain ⟨⟨on, up⟩, en⟩ := sends
  exact State.portRepeats_up on en up

/-- What a branch end sends (R125). -/
theorem State.upStart_sends {s : State} {p : Nat} (two : p < 2) (up : s.upstream = some p) (sends : s.portSends p = true)
    (three : s.link.grants.length = 3) : let f := (s.upStart.port p).frame
    f.length = 334 ∧ (s.upStart.port p).frameAt = some s.now ∧ s.upStart.link.upSent = some s.swing ∧
      leAt f 2 2 = s.swing % 65536 ∧ crc8 (slice f 1 6) = byteAt f 7 ∧ (∀ i, 8 ≤ i → i < 134 → byteAt f i = 0) ∧
      (∀ i : Fin 3, byteAt f (4 + i) = s.grantsNow.getD i 0 % 256) := by
  obtain ⟨a, b, c, grants⟩ := List.length_eq_three.mp (State.grantsNow_length three)
  have leaves := State.upStart_leaves up (State.portRepeats_sends sends) grants
  obtain ⟨frame, at'⟩ := ({ s with link := { s.link with upSent := some s.swing } } : State).upLeaves_port two s.swing s.now
    (emptyFrame (b2n s.branchBit) s.swing a b c)
  dsimp only
  rw [leaves, frame, at', State.upLeaves_upSent, grants]
  exact ⟨emptyFrame_length _ _ _ _ _, rfl, rfl, emptyFrame_swing _ _ _ _ _, emptyFrame_check _ _ _ _ _,
    fun i => emptyFrame_words _ _ _ _ _, emptyFrame_grants _ _ _ _ _⟩

/-! ### A frame that passes (R106, R114) -/

/-- Code groups in error and a header that fails its check count as an up frame passes. -/
def State.upErrors (b : List Byte) (bad : List Nat) (s : State) : State :=
  let t := match s.downstream with
    | none => s
    | some d => s.codeErrors d bad.length
  if bad.any (fun i => decide (i < 8)) || crc8 (slice b 1 6) != byteAt b 7 then t.bump F.LINK_CNT0_HCRC_ERR else t

theorem State.upErrors_only (s : State) (b : List Byte) (bad : List Nat) : s.PassesOnly (s.upErrors b bad) := by
  have count (t : State) (h : s.PassesOnly t) : s.PassesOnly
      (if bad.any (fun i => decide (i < 8)) || crc8 (slice b 1 6) != byteAt b 7 then t.bump F.LINK_CNT0_HCRC_ERR else t) := by
    split
    · exact h.trans (.bump t _ 0 1 rfl)
    · exact h
  refine count _ ?_
  cases s.downstream with
  | none => exact .refl s
  | some d => exact .codeErrors s d _

theorem State.portSends_passes {s t : State} (h : s.PassesOnly t) (p : Fin 2) : t.portSends p = s.portSends p := by
  have phase : t.phase = s.phase := by rw [h.rest]
  have state : t.portState p = s.portState p := h.get F.LINK_PORT_STAT_STATE p (State.portStat_counts p)
  unfold State.portSends State.linkOn State.portEn State.portUp
  rw [phase, state, h.regs _ (by decide)]

/-- A frame that passes leaves upstream 24 ticks later, with the worker's own fields (R114, R126, R127). -/
theorem State.upForward_passes {s : State} (b : List Byte) (bad : List Nat) {p : Nat} (two : p < 2) (up : s.upstream = some p)
    (sends : s.portSends p = true) : let u := s.upForward b bad
    (u.port p).frame = b ∧ (u.port p).frameAt = some (s.now + 24) ∧
      (s.hasNumber = true → ∃ k, (s.now + 24 + 10 * (8 + 2 * (s.devNo - 1)), LineEvent.ownWord p k) ∈ u.link.lineDue ∧
        (s.now + 24 + 10 * (326 + s.devNo / 8), LineEvent.ownMap p k) ∈ u.link.lineDue) := by
  let t := s.upErrors b bad
  have only : s.PassesOnly t := s.upErrors_only b bad
  have repeats : t.portRepeats p = true :=
    State.portRepeats_sends ((State.portSends_passes only ⟨p, two⟩).trans sends)
  have now : t.now = s.now := by rw [only.rest]
  have stat (f : Fld) (base : f.addr 0 = F.HIER_STAT.base) : t.get f = s.get f := only.get f 0 (by rw [base]; decide)
  have dev : t.devNo = s.devNo := stat F.HIER_STAT_DEV rfl
  have number : t.hasNumber = s.hasNumber := by
    unfold State.hasNumber
    rw [stat F.HIER_STAT_DEV_SRC rfl]
  have model : s.upForward b bad = t.upLeaves p (t.swing - (t.swing + 2 ^ 16 - leAt b 2 2) % 2 ^ 16) (t.now + 24) b := by
    have ends : s.upForward b bad = match t.upstream with
        | none => t
        | some u => if t.portRepeats u then
          t.upLeaves u (t.swing - (t.swing + 2 ^ 16 - leAt b 2 2) % 2 ^ 16) (t.now + 24) b else t := rfl
    rw [ends, only.upstream, up]
    exact if_pos repeats
  obtain ⟨frame, at'⟩ := t.upLeaves_port two (t.swing - (t.swing + 2 ^ 16 - leAt b 2 2) % 2 ^ 16) (t.now + 24) b
  dsimp only
  rw [model]
  refine ⟨frame, by rw [at', now], fun has => ⟨t.swing - (t.swing + 2 ^ 16 - leAt b 2 2) % 2 ^ 16, ?_⟩⟩
  rw [← now, ← dev]
  exact State.upLeaves_own p _ _ b (number.trans has)

end Sys2Proof.Machine
end


/-! # A worker's own fields in an up frame (R126–R128, R134, R149) -/

section
namespace Sys2Proof.Machine

/-! ### The check of a status word (R126) -/

/-- CRC-5 is over bits 15:5: a word and the word with its check have one CRC. -/
theorem crc5_withCheck (w : Nat) : crc5 (withCheck w) = crc5 w := by
  have bits (i : Nat) (most : i < 11) : (withCheck w).testBit (15 - i) = w.testBit (15 - i) := by
    have above : (withCheck w).testBit (15 - i) = (w / 2 ^ 5).testBit (15 - i - 5) := by
      rw [withCheck, Nat.mul_comm, show 32 = 2 ^ 5 from rfl, Nat.testBit_two_pow_mul_add _ (crc5_lt w), if_neg (by omega)]
    rw [above, Nat.testBit_div_two_pow]
    congr 1
    omega
  unfold crc5
  congr 1
  exact List.map_congr_left fun i mem => bits i (List.mem_range.mp mem)

theorem wordValid_withCheck (w : Nat) : wordValid (withCheck w) = true := by
  unfold wordValid
  have check := crc5_lt w
  rw [crc5_withCheck, withCheck, beq_iff_eq]
  omega

theorem withCheck_lt {w : Nat} (fits : w < 65536) : withCheck w < 65536 := by
  have := crc5_lt w
  unfold withCheck
  omega

theorem b2n_le (b : Bool) : b2n b ≤ 1 := by cases b <;> decide

/-- The bits of a status word above its check. -/
def wordBits (alarm err irq req : Bool) (ans : Nat) (dlost held down synced alt : Bool) : Nat :=
  b2n alarm * 2 ^ 15 + b2n err * 2 ^ 14 + b2n irq * 2 ^ 13 + b2n req * 2 ^ 12 +
    ans % 4 * 2 ^ 10 + b2n dlost * 2 ^ 9 + b2n held * 2 ^ 8 + b2n down * 2 ^ 7 + b2n synced * 2 ^ 6 + b2n alt * 2 ^ 5

theorem State.statusWord_eq (s : State) (p k : Nat) : ∃ ans, s.statusWord p k = withCheck (wordBits s.link.alarmWord s.errLow
    s.irqAsserted (s.asksSlot p k) ans (k == 0 || !s.link.wasAccepted (k - 1)) (s.on F.SYS_DOM_STAT_LINK_HELD) s.pdown
    (s.sync == syncSynced) (!s.link.alt)) := ⟨_, rfl⟩

theorem wordBits_spec (alarm err irq req : Bool) (ans : Nat) (dlost held down synced alt : Bool) :
    let w := wordBits alarm err irq req ans dlost held down synced alt
    w < 65536 ∧ (withCheck w).testBit 14 = err ∧ (withCheck w).testBit 9 = dlost ∧ (withCheck w).testBit 5 = alt := by
  have shown (b : Bool) (n : Nat) (same : n = b2n b) : decide (n = 1) = b := by subst same; cases b <;> rfl
  have check := crc5_lt (wordBits alarm err irq req ans dlost held down synced alt)
  have := b2n_le alarm
  have := b2n_le err
  have := b2n_le irq
  have := b2n_le req
  have := b2n_le dlost
  have := b2n_le held
  have := b2n_le down
  have := b2n_le synced
  have := b2n_le alt
  simp only [Nat.testBit_eq_decide_div_mod_eq, withCheck]
  generalize crc5 _ = c at check ⊢
  unfold wordBits
  exact ⟨by omega, shown _ _ (by omega), shown _ _ (by omega), shown _ _ (by omega)⟩

/-! ### The fields enter the frame -/

theorem State.frameSplice_frame (s : State) {p : Nat} (two : p < 2) (o : Nat) (x : List Byte) :
    ((s.frameSplice p o x).port p).frame = splice (s.port p).frame o x :=
  congrArg PortSt.frame (s.port_setPort ⟨p, two⟩ _)

theorem State.ownWord_enters {s : State} {p : Nat} (k : Nat) (two : p < 2) (whole : (s.port p).frame.length = 334)
    (has : s.hasNumber = true) (runs : s.link.dupStop = false) (least : 1 ≤ s.devNo) (most : s.devNo ≤ 63)
    (free : wordValid (leAt (s.port p).frame (wordOffset s.devNo) 2) = false) : let u := s.ownWord p k
    (u.port p).frame.length = 334 ∧ leAt (u.port p).frame (wordOffset s.devNo) 2 = s.statusWord p k ∧
      u.link.alt = !s.link.alt ∧ (∀ d, 1 ≤ d → d ≤ 63 → d ≠ s.devNo →
        leAt (u.port p).frame (wordOffset d) 2 = leAt (s.port p).frame (wordOffset d) 2) := by
  have length := length_leBytes (s.statusWord p k) 2
  have place : wordOffset s.devNo + 2 ≤ (s.port p).frame.length := by
    rw [whole]
    unfold wordOffset
    omega
  have fits : wordOffset s.devNo + (leBytes (s.statusWord p k) 2).length ≤ (s.port p).frame.length := by rwa [length]
  let t := s.frameSplice p (wordOffset s.devNo) (leBytes (s.statusWord p k) 2)
  have model : s.ownWord p k = { t with link := { t.link with alt := !t.link.alt, alarmWord := false } } := by
    unfold State.ownWord
    rw [if_neg (by simp [has, runs])]
    exact if_neg (by simp [free])
  have alt : t.link.alt = s.link.alt := rfl
  have frame : ((s.ownWord p k).port p).frame = splice (s.port p).frame (wordOffset s.devNo) (leBytes (s.statusWord p k) 2) := by
    rw [model]
    exact s.frameSplice_frame two _ _
  dsimp only
  rw [frame]
  refine ⟨(length_splice fits).trans whole, ?_, ?_, fun d one sixty other => ?_⟩
  · obtain ⟨ans, word⟩ := s.statusWord_eq p k
    obtain ⟨bits, -⟩ := wordBits_spec s.link.alarmWord s.errLow s.irqAsserted (s.asksSlot p k) ans
      (k == 0 || !s.link.wasAccepted (k - 1)) (s.on F.SYS_DOM_STAT_LINK_HELD) s.pdown (s.sync == syncSynced) (!s.link.alt)
    rw [leAt_splice _ place, Nat.mod_eq_of_lt]
    rw [word]
    exact withCheck_lt bits
  · rw [model]
    exact congrArg not alt
  · refine leAt_congr fun i first last => byteAt_splice_ne fits ?_
    rw [length]
    unfold wordOffset at *
    omega

theorem State.ownWord_duplicate {s : State} {p : Nat} (k : Nat) (has : s.hasNumber = true) (runs : s.link.dupStop = false)
    (taken : wordValid (leAt (s.port p).frame (wordOffset s.devNo) 2) = true) : let u := s.ownWord p k
    (u.port p).frame = (s.port p).frame ∧ u.on F.HIER_STAT_DUP = true ∧ u.link.dupStop = true := by
  let t : State := { s.put F.HIER_STAT_DUP 1 with link := { s.link with dupStop := true } }
  have model : s.ownWord p k = t.raise 11 19 s.devNo ((s.put F.HIER_STAT_DUP 1).reg (F.HIER_STAT.addr 0)) (some s.devNo) := by
    unfold State.ownWord
    rw [if_neg (by simp [has, runs])]
    exact if_pos taken
  dsimp only
  rw [model]
  refine ⟨?_, ?_, ?_⟩
  · have port (v : State) (same : v.link = t.link) : (v.port p).frame = (t.port p).frame := by
      unfold State.port
      rw [same]
    exact port _ (raise_link ..)
  · rw [on_raise]
    exact on_put_same s F.HIER_STAT_DUP 1 0 (by decide)
  · rw [raise_link]

/-- A long slot granted to this worker takes what it has to send. -/
theorem State.ownSlot_enters {s : State} {p : Nat} (k : Nat) (i : Fin 3) (two : p < 2) (whole : (s.port p).frame.length = 334)
    (has : s.hasNumber = true) (runs : s.link.dupStop = false) :
    slice ((s.ownSlot p k i).port p).frame (slotOffset i) 64 = s.link.slotBytes s.devNo k s.tick := by
  have length : (s.link.slotBytes s.devNo k s.tick).length = 64 := by
    unfold LinkSt.slotBytes
    split
    · exact longSlot_length ..
    · split <;> exact longSlot_length ..
  have model : s.ownSlot p k i =
      { s.frameSplice p (slotOffset i) (s.link.slotBytes s.devNo k s.tick) with
        link := (s.frameSplice p (slotOffset i) (s.link.slotBytes s.devNo k s.tick)).link.slotTakes k s.tick } := by
    unfold State.ownSlot
    rw [if_neg (by simp [has, runs])]
  have frame : ((s.ownSlot p k i).port p).frame = splice (s.port p).frame (slotOffset i) (s.link.slotBytes s.devNo k s.tick) := by
    rw [model]
    have takes (l : LinkSt) : (l.slotTakes k s.tick).port = l.port := by
      unfold LinkSt.slotTakes
      split <;> rfl
    refine Eq.trans ?_ (s.frameSplice_frame two (slotOffset i) (s.link.slotBytes s.devNo k s.tick))
    exact congrArg (fun ports => (tget ports p).frame) (takes _)
  have within := slice_splice (b := (s.port p).frame) (x := s.link.slotBytes s.devNo k s.tick) (o := slotOffset i) (by
    rw [whole, length]
    unfold slotOffset
    omega)
  rw [frame]
  rwa [length] at within

end Sys2Proof.Machine
end


/-! # Up frames as a worker's rows (R114, R121, R125–R128, R134, R149) -/

section
namespace Sys2Proof.Machine

/-! ### What UP_FRAME_START and UP_FRAME_FORWARD do -/

theorem upFrameStart_rests {s : State} (rests : s.sendsUp = false) : Completes .upFrameStart s (fun u => u = s) :=
  completes_done rfl (if_neg (by simp [rests]))

theorem upFrameStart_sends {s : State} (sends : s.sendsUp = true) :
    Completes .upFrameStart s (fun u => u = (s.passToTick s.upDue).upStart) :=
  completes_done rfl (if_pos sends)

theorem upFrameForward_row {b : List Byte} (bad : List Nat) (whole : b.length = 334) (s : State) :
    exec (.upFrameForward b bad) s = done (if s.isManager then s else s.onLink (State.upForward b bad)) :=
  if_pos whole

theorem upFrameForward_rests {b : List Byte} (bad : List Nat) (whole : b.length = 334) {s : State}
    (rests : s.isManager = true ∨ s.linkOn = false) : Completes (.upFrameForward b bad) s (fun u => u = s) := by
  refine completes_done (upFrameForward_row bad whole s) ?_
  rcases rests with manager | off
  · exact if_pos manager
  · by_cases manager : s.isManager = true
    · exact if_pos manager
    · exact (if_neg manager).trans (if_neg (by simp [off]))

theorem upFrameForward_passes {b : List Byte} (bad : List Nat) (whole : b.length = 334) {s : State} (worker : s.isManager = false)
    (on : s.linkOn = true) : Completes (.upFrameForward b bad) s (fun u => u = s.upForward b bad) :=
  completes_done (upFrameForward_row bad whole s) ((if_neg (by simp [worker])).trans (if_pos on))

/-! ### The content of what a branch end and a worker send -/

theorem upStart_content {s : State} {p : Nat} (two : p < 2) (up : s.upstream = some p) (sends : s.portSends p = true)
    (three : s.link.grants.length = 3) : let f := (s.upStart.port p).frame
    f.length = 334 ∧ (s.upStart.port p).frameAt = some s.now ∧ s.upStart.link.upSent = some s.swing ∧
      leAt f 2 2 = s.swing % 65536 ∧ crc8 (slice f 1 6) = byteAt f 7 ∧ (∀ i, 8 ≤ i → i < 134 → byteAt f i = 0) ∧
      (s.link.taken = some s.swing → s.link.header ≠ none ∨ s.link.accepted = some s.swing ∨ s.swing ∈ s.link.acceptedLog →
        ∀ i : Fin 3, byteAt f (4 + i) = s.link.grants.getD i 0 % 256) ∧
      (s.link.taken ≠ some s.swing ∨ (s.link.header = none ∧ s.link.accepted ≠ some s.swing ∧ s.swing ∉ s.link.acceptedLog) →
        ∀ i : Fin 3, byteAt f (4 + i) = 0) := by
  obtain ⟨length, at', sent, number, check, words, grants⟩ := State.upStart_sends two up sends three
  obtain ⟨known, none⟩ := s.grantsNow_cases
  refine ⟨length, at', sent, number, check, words, fun took sound i => ?_, fun lost i => ?_⟩
  · rw [grants i, known took sound]
  · rw [grants i, none lost]
    fin_cases i <;> rfl

theorem statusWord_content (s : State) (p k : Nat) : wordValid (s.statusWord p k) = true ∧
    (s.statusWord p k).testBit 14 = s.errLow ∧ (s.statusWord p k).testBit 5 = !s.link.alt ∧
    (1 ≤ k → (s.statusWord p k).testBit 9 = !(s.link.accepted == some (k - 1) || s.link.acceptedLog.contains (k - 1))) := by
  obtain ⟨ans, word⟩ := s.statusWord_eq p k
  obtain ⟨-, err, lost, alt⟩ := wordBits_spec s.link.alarmWord s.errLow s.irqAsserted (s.asksSlot p k) ans
    (k == 0 || !s.link.wasAccepted (k - 1)) (s.on F.SYS_DOM_STAT_LINK_HELD) s.pdown (s.sync == syncSynced) (!s.link.alt)
  rw [word]
  refine ⟨wordValid_withCheck _, err, alt, fun least => ?_⟩
  rw [lost, show (k == 0) = false from beq_false_of_ne (by omega)]
  rfl

end Sys2Proof.Machine
end


/-! # Up frames on a manager (R126, R127, R137, R144, R173) -/

section
namespace Sys2Proof.Machine

/-! ### Bits of a mask in two words -/

theorem State.maskBit_setMaskBit (s : State) {f : Fld} (one : f.stride = 1) (n m : Nat) (b : Bool) :
    (s.setMaskBit f n b).maskBit f m = if m = n then b else s.maskBit f m := by
  have place (i : Nat) : f.addr i = f.base + i := by rw [Fld.addr, one, Nat.one_mul]
  have short (k : Nat) : k % 32 < 32 := Nat.mod_lt _ (by decide)
  unfold State.maskBit State.setMaskBit bitOf
  rw [State.reg_setReg, place, place]
  by_cases word : m / 32 = n / 32
  · rw [if_pos (congrArg (f.base + ·) word), getLsbD_withBits _ _ _ _ _ (short m), word]
    by_cases same : m = n
    · rw [same, if_pos (by omega), if_pos rfl, Nat.sub_self]
      cases b <;> rfl
    · rw [if_neg (by omega), if_neg same]
  · rw [if_neg (by omega), if_neg (by rintro rfl; exact word rfl)]

theorem State.maskBit_setMaskBit_same (s : State) {f : Fld} (one : f.stride = 1) (n : Nat) (b : Bool) :
    (s.setMaskBit f n b).maskBit f n = b := by
  rw [State.maskBit_setMaskBit s one, if_pos rfl]

theorem State.maskBit_setMaskBit_ne (s : State) {f : Fld} (one : f.stride = 1) {n m : Nat} (other : m ≠ n) (b : Bool) :
    (s.setMaskBit f n b).maskBit f m = s.maskBit f m := by
  rw [State.maskBit_setMaskBit s one, if_neg other]

/-- The words of two masks of 64 bits lie apart. -/
abbrev Fld.MaskApart (f g : Fld) : Prop := ∀ i < 2, ∀ j < 2, f.addr i ≠ g.addr j

theorem State.maskBit_setMaskBit_apart (s : State) {f g : Fld} (apart : g.MaskApart f) {n m : Nat} (hn : n < 64) (hm : m < 64)
    (b : Bool) : (s.setMaskBit f n b).maskBit g m = s.maskBit g m := by
  unfold State.maskBit State.setMaskBit
  rw [State.reg_setReg_ne _ (apart _ (by omega) _ (by omega))]

theorem State.maskBit_of_regs {s t : State} (same : t.regs = s.regs) (f : Fld) (n : Nat) : t.maskBit f n = s.maskBit f n :=
  congrArg (fun w => bitOf w (n % 32)) (State.reg_of_regs same _)

/-! ### The masks of workers (R127, R173) -/

/-- The words of LINK_WKR, HIER_WERR and HIER_WIRQ. -/
def workerMasks : List Nat := [0xC08, 0xC09, 0x1010, 0x1011, 0x1012, 0x1013]

/-- The masks of workers stand as they stood. -/
def State.MasksStand (s t : State) : Prop := ∀ a ∈ workerMasks, t.reg a = s.reg a

theorem State.MasksStand.refl (s : State) : s.MasksStand s := fun _ _ => rfl

theorem State.MasksStand.trans {s t u : State} (h : s.MasksStand t) (g : t.MasksStand u) : s.MasksStand u :=
  fun a mem => (g a mem).trans (h a mem)

theorem State.MasksStand.of_regs {s t : State} (same : t.regs = s.regs) : s.MasksStand t :=
  fun _ _ => State.reg_of_regs same _

theorem State.MasksStand.put (s : State) (f : Fld) (v i : Nat) (apart : f.addr i ∉ workerMasks) : s.MasksStand (s.put f v i) :=
  fun a mem => s.reg_put_ne (by rintro rfl; exact apart mem) v

theorem State.MasksStand.mark (s : State) (f : Fld) {n : Nat} (hn : n < 64) (b : Bool)
    (apart : ∀ i < 2, f.addr i ∉ workerMasks) : s.MasksStand (s.setMaskBit f n b) :=
  fun a mem => s.reg_setReg_ne (by rintro rfl; exact apart _ (by omega) mem) _

theorem State.MasksStand.ite {s t u : State} {c : Prop} [Decidable c] (h : s.MasksStand t) (g : s.MasksStand u) :
    s.MasksStand (if c then t else u) := by
  split <;> assumption

theorem State.MasksStand.maskBit {s t : State} (h : s.MasksStand t) {f : Fld} (mask : ∀ i < 2, f.addr i ∈ workerMasks) {n : Nat}
    (hn : n < 64) : t.maskBit f n = s.maskBit f n :=
  congrArg (fun w => bitOf w (n % 32)) (h _ (mask _ (by omega)))

/-! ### What an answer leaves unchanged (R135, R157, R160, R165) -/

theorem State.raDone_stands (s : State) (party result : Nat) : s.MasksStand (s.raDone party result) := by
  have apart : 0x1006 + 65536 * party ∉ workerMasks := by simp [workerMasks]; omega
  exact (State.MasksStand.put s (F.HIER_RA_STAT_BUSY.bk party) 0 0 apart).trans (.put _ (F.HIER_RA_STAT_RESULT.bk party) _ 0 apart)

theorem State.dlvAnswer_stands (s : State) {d : Nat} (hd : d < 64) (ans : Nat) : s.MasksStand (s.dlvAnswer d ans) := by
  unfold State.dlvAnswer State.mark
  exact .ite (.mark s F.HIER_DLV_OK hd true (by decide)) (.ite (.mark s F.HIER_DLV_FAIL hd true (by decide)) (.refl s))

theorem State.closeId_stands (s : State) (id : Nat) : s.MasksStand (s.closeId id) := by
  unfold State.closeId
  exact .ite (.refl s) (.of_regs rfl)

theorem State.stageFree_stands (s : State) : s.MasksStand s.stageFree :=
  ((State.MasksStand.put s F.HIER_STAT_STG_STATE stgNone 0 (by decide)).trans
    (.put _ F.HIER_STAT_STG_ID 0 0 (by decide))).trans (.of_regs rfl)

theorem State.cmtClose_stands (s : State) : s.MasksStand s.cmtClose := by
  unfold State.cmtClose
  dsimp only
  refine .trans (.trans (.trans ?_ (.put _ F.HIER_CMT_STAT_PHASE cmtIdlePh 0 (by decide)))
    (.put _ F.HIER_CMT_STAT_ID 0 0 (by decide))) (.put _ F.HIER_CMT_STAT_OWNER 0 0 (by decide))
  refine .trans ((s.closeId_stands s.cmtId).trans ?_) (.of_regs rfl)
  exact .ite (State.stageFree_stands _) (.refl _)

theorem State.cmtDoneCheck_stands (s : State) : s.MasksStand s.cmtDoneCheck := by
  unfold State.cmtDoneCheck
  exact .ite s.cmtClose_stands (.refl s)

theorem State.cmtReady_stands (s : State) {d : Nat} (hd : d < 64) (ans : Nat) : s.MasksStand (s.cmtReady d ans) := by
  unfold State.cmtReady State.mark
  refine .ite ?_ (.ite ?_ (.refl s))
  · exact (State.MasksStand.mark s F.HIER_CMT_READY hd true (by decide)).trans (.mark _ F.HIER_CMT_REFUSE hd false (by decide))
  · exact (State.MasksStand.mark s F.HIER_CMT_REFUSE hd true (by decide)).trans (.mark _ F.HIER_CMT_READY hd false (by decide))

theorem State.cmtAnswer_stands (s : State) (what : CmdFor) {d : Nat} (hd : d < 64) (ans : Nat) :
    s.MasksStand (s.cmtAnswer what d ans) := by
  unfold State.cmtAnswer State.mark
  refine .ite (.refl s) ?_
  split
  case h_1 => exact .ite (.mark s F.HIER_CMT_REFUSE hd true (by decide)) (.refl s)
  case h_2 => exact s.cmtReady_stands hd ans
  case h_3 =>
    refine .ite (.mark s F.HIER_CMT_STALE hd true (by decide)) (.ite ?_ (.ite (.refl s)
      (.mark s F.HIER_CMT_STALE hd false (by decide))))
    exact ((State.MasksStand.mark s F.HIER_CMT_DONE hd true (by decide)).trans
      (.mark _ F.HIER_CMT_STALE hd false (by decide))).trans (State.cmtDoneCheck_stands _)
  case h_4 => exact .refl s

theorem State.answerTake_stands (s : State) (what : CmdFor) {d : Nat} (hd : d < 64) (ans : Nat) :
    s.MasksStand (s.answerTake what d ans) := by
  unfold State.answerTake
  split
  · exact s.raDone_stands _ _
  · exact s.dlvAnswer_stands hd ans
  · exact s.cmtAnswer_stands what hd ans

/-! ### A valid word (R127, R173) -/

/-- A valid word sets the worker's bit of LINK_WKR and then puts its error and interrupt state. -/
theorem State.wordTake_masks (s : State) (p k w : Nat) {d : Nat} (hd : d < 64) : ∃ t : State, t.maskBit F.LINK_WKR d = true ∧
    ((t.setMaskBit F.HIER_WERR d (w.testBit 14)).setMaskBit F.HIER_WIRQ d (w.testBit 13)).MasksStand (s.wordTake p k d w) := by
  unfold State.wordTake
  extract_lets bit x duplicate before known present rejoined alarmed states down y lost link worker waits mark marks marked
  refine ⟨alarmed, ?_, ?_⟩
  · have here : present.maskBit F.LINK_WKR d = true := before.maskBit_setMaskBit_same rfl d true
    have rejoins : present.MasksStand rejoined := .ite (.mark _ F.HIER_REJOIN hd true (by decide)) (.refl _)
    have alarms : rejoined.MasksStand alarmed := .ite (.mark _ F.LINK_ALARM hd true (by decide)) (.refl _)
    exact ((rejoins.trans alarms).maskBit (by decide) hd).trans here
  · have raised : states.MasksStand down := .ite (.of_regs (State.raise_regs ..)) (.refl _)
    have answered : marked.MasksStand (waits.foldl (fun s a => s.answerTake a.purpose d (w / 1024 % 4)) marked) :=
      List.foldlRecOn waits _ (motive := marked.MasksStand) (.refl _)
        fun t stands a _ => stands.trans (t.answerTake_stands a.purpose hd _)
    exact (raised.trans (.of_regs rfl)).trans answered

theorem State.wordSeen_valid (s : State) (p k w : Nat) (d : Fin 64) (valid : wordValid w = true) :
    let t := s.wordSeen p k d w true
    t.maskBit F.LINK_WKR d = true ∧ t.maskBit F.HIER_WERR d = w.testBit 14 ∧ t.maskBit F.HIER_WIRQ d = w.testBit 13 := by
  obtain ⟨t, here, stands⟩ := s.wordTake_masks p k w d.isLt
  have model : s.wordSeen p k d w true = s.wordTake p k d w := if_pos (by simp [valid])
  dsimp only
  rw [model, stands.maskBit (by decide) d.isLt, stands.maskBit (by decide) d.isLt, stands.maskBit (by decide) d.isLt]
  refine ⟨?_, ?_, State.maskBit_setMaskBit_same _ rfl _ _⟩
  · rw [State.maskBit_setMaskBit_apart _ (by decide) d.isLt d.isLt, State.maskBit_setMaskBit_apart _ (by decide) d.isLt d.isLt, here]
  · rw [State.maskBit_setMaskBit_apart _ (by decide) d.isLt d.isLt, State.maskBit_setMaskBit_same _ rfl]

/-- A word that fails its check counts, and its worker then asks for no slot. -/
theorem State.wordSeen_invalid {s : State} {p w : Nat} (k : Nat) {d : Fin 64} {good : Bool}
    (fails : good = false ∨ wordValid w = false) (own : (tget s.link.wkr d).lastPort = p) (there : s.maskBit F.LINK_WKR d = true) :
    (s.wordSeen p k d w good).get F.LINK_CNT1_STATUS_ERR =
      min (s.get F.LINK_CNT1_STATUS_ERR + 1) (2 ^ F.LINK_CNT1_STATUS_ERR.width - 1) ∧
    (tget (s.wordSeen p k d w good).link.wkr d).req = false := by
  let t : State := { s with link := { s.link with wkr := tset s.link.wkr d { tget s.link.wkr d with req := false } } }
  have model : s.wordSeen p k d w good = t.bump F.LINK_CNT1_STATUS_ERR := by
    unfold State.wordSeen
    rw [if_neg (by rcases fails with h | h <;> simp [h])]
    exact (if_neg fun other => other.1 own).trans (if_pos there)
  rw [model]
  refine ⟨t.get_bump_same F.LINK_CNT1_STATUS_ERR 0 1 (by decide), ?_⟩
  change (tget (tset s.link.wkr d _) d).req = false
  rw [tget_tset, if_pos ⟨rfl, d.isLt⟩]

/-- A bit of an alarm byte that is set reaches LINK_ALARM. -/
theorem State.mapTake_alarm (s : State) (i : Fin 8) (w : Nat) (j : Fin 8) (device : 0 < 8 * i.val + j.val)
    (alarm : w.testBit j = true) : (s.mapTake i w).maskBit F.LINK_ALARM (8 * i.val + j.val) = true := by
  have reaches := foldl_reaches (f := fun (s : State) (j : Nat) =>
      if w.testBit j && decide (0 < 8 * i.val + j) then s.setMaskBit F.LINK_ALARM (8 * i.val + j) true else s)
    (fun j t => w.testBit j = true → 0 < 8 * i.val + j → t.maskBit F.LINK_ALARM (8 * i.val + j) = true) (List.range 8)
    (fun t a _ set device => by
      rw [if_pos (by simp [set]; omega)]
      exact t.maskBit_setMaskBit_same rfl _ true)
    (fun t a _ b shown set device => by
      split
      · rw [State.maskBit_setMaskBit _ rfl, shown set device, ite_self]
      · exact shown set device) s
  exact reaches j (List.mem_range.mpr j.isLt) alarm device

end Sys2Proof.Machine
end


/-! # Fields of an up frame registered, workers and tags that expire (R127, R132, R137) -/

section
namespace Sys2Proof.Machine

/-! ### The fields of a frame and their times (R127) -/

/-- `n` bytes of an up frame from `o` on came without a code error. -/
def bytesFine (bad : List Nat) (o n : Nat) : Bool := (List.range n).all (fun i => !bad.contains (o + i))

/-- The header of an up frame passes its check. -/
def upHeadFine (b : List Byte) (bad : List Nat) : Bool := bytesFine bad 0 8 && crc8 (slice b 1 6) == byteAt b 7

/-- The status words of up frame `k`, its first byte arriving in cycle `now`, and when each is registered. -/
def upWords (p k now : Nat) (b : List Byte) (bad : List Nat) : List (Nat × LineEvent) :=
  (List.range 63).map (fun i =>
    (now + 10 * (10 + 2 * i) + 2, LineEvent.word p k (i + 1) (leAt b (8 + 2 * i) 2) (bytesFine bad (8 + 2 * i) 2)))

/-- Its long slots. -/
def upSlots (p k now : Nat) (b : List Byte) (bad : List Nat) : List (Nat × LineEvent) :=
  (List.range 3).map (fun i => (now + 10 * (slotOffset i + 64) + 2,
    LineEvent.slot p k i (slice b (slotOffset i) 64) (bytesFine bad (slotOffset i) 64)))

/-- The bytes of its alarm map. -/
def upMaps (p k now : Nat) (b : List Byte) (bad : List Nat) : List (Nat × LineEvent) :=
  ((List.range 8).filter (fun i => bytesFine bad (326 + i) 1)).map (fun i =>
    (now + 10 * (327 + i) + 2, LineEvent.map p k i (byteAt b (326 + i))))

/-- All that it brings. -/
def upFields (p k now : Nat) (b : List Byte) (bad : List Nat) : List (Nat × LineEvent) :=
  upWords p k now b bad ++ upSlots p k now b bad ++ upMaps p k now b bad ++ [(now + 3342, LineEvent.last p k)]

/-- The swing of an up frame that arrives. -/
def State.upNumber (b : List Byte) (bad : List Nat) (s : State) : Nat :=
  if upHeadFine b bad then s.swing - (s.swing + 2 ^ 16 - leAt b 2 2) % 2 ^ 16 else swingOf (s.tick - 2200)

/-- The errors of an up frame counted. -/
def State.upCounted (p : Nat) (b : List Byte) (bad : List Nat) (s : State) : State :=
  if upHeadFine b bad then s.codeErrors p bad.length else (s.codeErrors p bad.length).bump F.LINK_CNT0_HCRC_ERR

theorem State.upReceive_rests {s : State} {p : Nat} (b : List Byte) (bad : List Nat)
    (rests : s.sendsFrames = false ∨ s.portUp p = false) : s.upReceive p b bad = s :=
  if_pos (by rcases rests with h | h <;> simp [h])

theorem State.upReceive_fields {s : State} {p : Nat} (b : List Byte) (bad : List Nat) (sends : s.sendsFrames = true)
    (up : s.portUp p = true) : ∃ k, (s.upReceive p b bad).regs = (s.upCounted p b bad).regs ∧
      ∀ e ∈ upFields p k s.now b bad, e ∈ (s.upReceive p b bad).link.lineDue := by
  have passes : ¬ (!s.sendsFrames || !s.portUp p) = true := by simp [sends, up]
  let k := (s.codeErrors p bad.length).upNumber b bad
  have regs : (s.upReceive p b bad).regs = (s.upCounted p b bad).regs := by
    unfold State.upReceive
    rw [if_neg passes]
    rfl
  have due : (s.upReceive p b bad).link.lineDue = (s.upCounted p b bad).link.lineDue ++ upWords p k s.now b bad ++
      upSlots p k s.now b bad ++ upMaps p k s.now b bad ++ [(s.now + 3342, LineEvent.last p k)] :=
    congrArg (fun t : State => t.link.lineDue) (if_neg passes)
  refine ⟨k, regs, fun e field => ?_⟩
  rw [due]
  simp only [List.append_assoc]
  exact List.mem_append_right _ (by simpa only [upFields, List.append_assoc] using field)

theorem upFields_word (p k now : Nat) (b : List Byte) (bad : List Nat) {d : Fin 64} (device : d ≠ 0) :
    let o := 8 + 2 * (d.val - 1)
    (now + 10 * (o + 2) + 2, LineEvent.word p k d (leAt b o 2) (!bad.contains o && !bad.contains (o + 1))) ∈
      upFields p k now b bad := by
  have least : 1 ≤ d.val := Nat.one_le_iff_ne_zero.mpr fun zero => device (Fin.ext zero)
  have fine (o : Nat) : bytesFine bad o 2 = (!bad.contains o && !bad.contains (o + 1)) := by simp [bytesFine, List.range_succ]
  refine List.mem_append_left _ (List.mem_append_left _ (List.mem_append_left _ (List.mem_map.mpr
    ⟨d.val - 1, List.mem_range.mpr (by omega), ?_⟩)))
  rw [fine, Nat.sub_add_cancel least, show 10 + 2 * (d.val - 1) = 8 + 2 * (d.val - 1) + 2 by omega]

theorem upFields_map (p k now : Nat) (b : List Byte) {bad : List Nat} (i : Fin 8) (fine : 326 + i.val ∉ bad) :
    (now + 10 * (327 + i.val) + 2, LineEvent.map p k i (byteAt b (326 + i))) ∈ upFields p k now b bad :=
  List.mem_append_left _ (List.mem_append_right _ (List.mem_map.mpr
    ⟨i, List.mem_filter.mpr ⟨List.mem_range.mpr i.isLt, by simp [bytesFine, fine]⟩, rfl⟩))

theorem upFields_last (p k now : Nat) (b : List Byte) (bad : List Nat) :
    (now + 3342, LineEvent.last p k) ∈ upFields p k now b bad :=
  List.mem_append_right _ (List.mem_singleton.mpr rfl)

theorem upHeadFine_of {b : List Byte} {bad : List Nat} (check : crc8 (slice b 1 6) = byteAt b 7) (fine : ∀ i ∈ bad, 8 ≤ i) :
    upHeadFine b bad = true := by
  have clean : bytesFine bad 0 8 = true := List.all_eq_true.mpr fun i mem => by
    have small := List.mem_range.mp mem
    simp only [Nat.zero_add, List.contains_eq_mem, Bool.not_eq_true', decide_eq_false_iff_not]
    exact fun late => by have := fine i late; omega
  simp [upHeadFine, clean, check]

theorem upHeadFine_fails {b : List Byte} {bad : List Nat} (fails : crc8 (slice b 1 6) ≠ byteAt b 7 ∨ ∃ i ∈ bad, i < 8) :
    upHeadFine b bad = false := by
  rcases fails with check | ⟨i, mem, small⟩
  · simp [upHeadFine, check]
  · have dirty : bytesFine bad 0 8 = false := List.all_eq_false.mpr ⟨i, List.mem_range.mpr small, by simpa using mem⟩
    simp [upHeadFine, dirty]

/-! ### UP_FRAME_RECEIVE -/

theorem upFrameReceive_rests {s : State} {p : Fin 2} {b : List Byte} (bad : List Nat) (whole : b.length = 334)
    (rests : s.sendsFrames = false ∨ s.portUp p = false) : Completes (.upFrameReceive p b bad) s (fun u => u = s) :=
  completes_done (if_pos whole) (State.upReceive_rests b bad rests)

theorem upFrameReceive_fields {s : State} {p : Fin 2} {b : List Byte} (bad : List Nat) (whole : b.length = 334)
    (sends : s.sendsFrames = true) (up : s.portUp p = true) : Completes (.upFrameReceive p b bad) s (fun u =>
      u.regs = (s.upCounted p b bad).regs ∧ ∃ k, ∀ e ∈ upFields p k s.now b bad, e ∈ u.link.lineDue) := by
  obtain ⟨k, regs, fields⟩ := State.upReceive_fields b bad sends up
  exact completes_done (if_pos whole) ⟨regs, k, fields⟩

theorem Completes.imp {i : Instr} {s : State} {P Q : State → Prop} (h : Completes i s P) (weaker : ∀ u, P u → Q u) :
    Completes i s Q := by
  obtain ⟨u, ends, holds⟩ := h
  exact ⟨u, ends, weaker u holds⟩

theorem upFrameReceive_badHeader {s : State} {p : Fin 2} {b : List Byte} {bad : List Nat} (whole : b.length = 334)
    (sends : s.sendsFrames = true) (up : s.portUp p = true) (fails : crc8 (slice b 1 6) ≠ byteAt b 7 ∨ ∃ i ∈ bad, i < 8) :
    Completes (.upFrameReceive p b bad) s (fun u => u.regs = ((s.codeErrors p bad.length).bump F.LINK_CNT0_HCRC_ERR).regs) :=
  (upFrameReceive_fields bad whole sends up).imp fun u ⟨regs, _⟩ => by
    rw [regs, State.upCounted, if_neg (by simp [upHeadFine_fails fails])]

theorem upFrameReceive_goodHeader {s : State} {p : Fin 2} {b : List Byte} {bad : List Nat} (whole : b.length = 334)
    (sends : s.sendsFrames = true) (up : s.portUp p = true) (check : crc8 (slice b 1 6) = byteAt b 7) (fine : ∀ i ∈ bad, 8 ≤ i) :
    Completes (.upFrameReceive p b bad) s (fun u => u.regs = (s.codeErrors p bad.length).regs) :=
  (upFrameReceive_fields bad whole sends up).imp fun u ⟨regs, _⟩ => by
    rw [regs, State.upCounted, if_pos (upHeadFine_of check fine)]

theorem State.lineRun_idle {s : State} (later : ∀ e ∈ s.link.lineDue, s.now < e.1) : s.lineRun = s := by
  have none : s.link.lineDue.filter (fun e => decide (e.1 ≤ s.now)) = [] :=
    List.filter_eq_nil_iff.mpr fun e mem => by simpa using later e mem
  unfold State.lineRun
  dsimp only
  rw [none]
  rfl

/-! ### Workers that are lost (R137, R173, R305) -/

/-- Worker `d` has been without a valid word for five up frames. -/
def State.LostNow (s : State) (d : Nat) : Prop := ∃ t, s.lostAt d = some t ∧ t ≤ s.tick

/-- Worker `d` is out of LINK_WKR, HIER_WERR and HIER_WIRQ, and its mirror is stale. -/
def State.Gone (s : State) (d : Nat) : Prop := s.maskBit F.LINK_WKR d = false ∧ s.maskBit F.HIER_WERR d = false ∧
  s.maskBit F.HIER_WIRQ d = false ∧ s.maskBit F.SEQ_MIR_STALE d = true

/-- Worker `d` leaves the masks. -/
def State.unmasked (d : Nat) (s : State) : State :=
  ((s.setMaskBit F.LINK_WKR d false).setMaskBit F.HIER_WERR d false).setMaskBit F.HIER_WIRQ d false

/-- Worker `d` is lost. -/
def State.loses (d : Nat) (s : State) : State :=
  let t := s.unmasked d
  (({ t with link := { t.link with wkr := tset t.link.wkr d { wasIn := true } } } : State).raise 11 4 d 0 (some d)).mirrorStale d

/-- Worker `d` is judged. -/
def State.judgeLost (s : State) (d : Nat) : State :=
  if ((s.lostAt d).map (fun t => decide (t ≤ s.tick))).getD false then s.loses d else s

theorem State.workersLost_eq (s : State) : s.workersLost = (List.range 64).foldl State.judgeLost s := rfl

theorem State.lostNow_iff (s : State) (d : Nat) :
    ((s.lostAt d).map (fun t => decide (t ≤ s.tick))).getD false = true ↔ s.LostNow d := by
  unfold State.LostNow
  cases s.lostAt d <;> simp

theorem State.judgeLost_lost {s : State} {d : Nat} (lost : s.LostNow d) : s.judgeLost d = s.loses d :=
  if_pos ((s.lostNow_iff d).mpr lost)

theorem State.judgeLost_stays {s : State} {d : Nat} (here : ¬ s.LostNow d) : s.judgeLost d = s :=
  if_neg fun h => here ((s.lostNow_iff d).mp h)

/-- The masks of the loss of worker `e`: each of its bits moves. -/
theorem State.maskBit_loses (s : State) (f : Fld) (e d : Nat) :
    (s.loses e).maskBit f d = ((s.unmasked e).setMaskBit F.SEQ_MIR_STALE e true).maskBit f d := by
  let t : State := { s.unmasked e with link := { (s.unmasked e).link with wkr := tset (s.unmasked e).link.wkr e { wasIn := true } } }
  have same : (t.raise 11 4 e 0 (some e)).regs = (s.unmasked e).regs := State.raise_regs ..
  refine State.maskBit_of_regs ?_ f d
  change ((t.raise 11 4 e 0 (some e)).setMaskBit F.SEQ_MIR_STALE e true).regs = _
  unfold State.setMaskBit State.setReg State.reg
  rw [same]

theorem State.loses_gone (s : State) {d : Nat} (hd : d < 64) : (s.loses d).Gone d := by
  refine ⟨?_, ?_, ?_, ?_⟩ <;> rw [State.maskBit_loses, State.unmasked]
  · rw [State.maskBit_setMaskBit_apart _ (by decide) hd hd, State.maskBit_setMaskBit_apart _ (by decide) hd hd,
      State.maskBit_setMaskBit_apart _ (by decide) hd hd, State.maskBit_setMaskBit_same _ rfl]
  · rw [State.maskBit_setMaskBit_apart _ (by decide) hd hd, State.maskBit_setMaskBit_apart _ (by decide) hd hd,
      State.maskBit_setMaskBit_same _ rfl]
  · rw [State.maskBit_setMaskBit_apart _ (by decide) hd hd, State.maskBit_setMaskBit_same _ rfl]
  · exact State.maskBit_setMaskBit_same _ rfl _ _

/-- A bit of another worker, in the same mask or in one that lies apart. -/
theorem State.maskBit_setMaskBit_other (s : State) {f g : Fld} (one : f.stride = 1) (masks : g = f ∨ g.MaskApart f) {n m : Nat}
    (hn : n < 64) (hm : m < 64) (other : m ≠ n) (b : Bool) : (s.setMaskBit f n b).maskBit g m = s.maskBit g m := by
  rcases masks with rfl | apart
  · exact s.maskBit_setMaskBit_ne one other b
  · exact s.maskBit_setMaskBit_apart apart hn hm b

/-- The masks that the loss of a worker moves. -/
def lossMasks : List Fld := [F.LINK_WKR, F.HIER_WERR, F.HIER_WIRQ, F.SEQ_MIR_STALE]

theorem lossMasks_apart : ∀ g ∈ lossMasks, ∀ f ∈ lossMasks, f.stride = 1 ∧ (g = f ∨ g.MaskApart f) := by decide

theorem State.loses_others (s : State) {e d : Nat} (he : e < 64) (hd : d < 64) (other : d ≠ e) {g : Fld} (mask : g ∈ lossMasks) :
    (s.loses e).maskBit g d = s.maskBit g d := by
  have keeps (t : State) (f : Fld) (b : Bool) (mem : f ∈ lossMasks) : (t.setMaskBit f e b).maskBit g d = t.maskBit g d := by
    obtain ⟨one, masks⟩ := lossMasks_apart g mask f mem
    exact t.maskBit_setMaskBit_other one masks he hd other b
  rw [State.maskBit_loses, State.unmasked, keeps _ F.SEQ_MIR_STALE _ (by decide), keeps _ F.HIER_WIRQ _ (by decide),
    keeps _ F.HIER_WERR _ (by decide), keeps _ F.LINK_WKR _ (by decide)]

theorem State.loses_link (s : State) (e : Nat) : (s.loses e).link.wkr = tset s.link.wkr e { wasIn := true } :=
  congrArg LinkSt.wkr (State.raise_link ..)

theorem State.loses_tick (s : State) (e : Nat) : (s.loses e).tick = s.tick := State.raise_tick ..

theorem State.loses_lostNow {s : State} {e d : Nat} (he : e < 64) (hd : d < 64) (other : d ≠ e) (lost : s.LostNow d) :
    (s.loses e).LostNow d := by
  have bit := s.loses_others he hd other (g := F.LINK_WKR) (by decide)
  have held : tget (s.loses e).link.wkr d = tget s.link.wkr d := by
    rw [State.loses_link, tget_tset, if_neg fun h => other h.1]
  unfold State.LostNow State.lostAt at *
  rwa [bit, held, State.loses_tick]

theorem State.Gone.not_lostNow {s : State} {d : Nat} (gone : s.Gone d) : ¬ s.LostNow d := by
  rintro ⟨t, at', -⟩
  obtain ⟨out, -⟩ := gone
  rw [State.lostAt, if_pos (.inr (by simp [out]))] at at'
  exact absurd at' (by simp)

theorem State.judgeLost_gone {s : State} {e d : Nat} (he : e < 64) (hd : d < 64) (gone : s.Gone d) : (s.judgeLost e).Gone d := by
  by_cases lost : s.LostNow e
  · have other : d ≠ e := by rintro rfl; exact gone.not_lostNow lost
    rw [State.judgeLost_lost lost]
    unfold State.Gone at *
    rwa [s.loses_others he hd other (by decide), s.loses_others he hd other (by decide), s.loses_others he hd other (by decide),
      s.loses_others he hd other (by decide)]
  · rwa [State.judgeLost_stays lost]

theorem State.judgeLost_other {s : State} {e d : Nat} (he : e < 64) (hd : d < 64) (other : d ≠ e) (lost : s.LostNow d) :
    (s.judgeLost e).LostNow d := by
  by_cases own : s.LostNow e
  · rw [State.judgeLost_lost own]
    exact State.loses_lostNow he hd other lost
  · rwa [State.judgeLost_stays own]

/-- A worker whose time has passed is gone: until its turn the loss of others leaves it as it was, and after it too. -/
theorem State.workersLost_gone {s : State} (d : Fin 64) (lost : s.LostNow d) : s.workersLost.Gone d := by
  have waits (t : State) (open' : t.LostNow d ∨ t.Gone d) (e : Nat) (mem : e ∈ List.range 64) :
      (t.judgeLost e).LostNow d ∨ (t.judgeLost e).Gone d := by
    have he := List.mem_range.mp mem
    rcases open' with lost | gone
    · by_cases same : d.val = e
      · rw [← same, State.judgeLost_lost lost]
        exact .inr (t.loses_gone d.isLt)
      · exact .inl (State.judgeLost_other he d.isLt same lost)
    · exact .inr (State.judgeLost_gone he d.isLt gone)
  have judged (t : State) (open' : t.LostNow d ∨ t.Gone d) : (t.judgeLost d).Gone d := by
    rcases open' with lost | gone
    · rw [State.judgeLost_lost lost]
      exact t.loses_gone d.isLt
    · exact State.judgeLost_gone d.isLt d.isLt gone
  obtain ⟨before, after, split⟩ := List.append_of_mem (List.mem_range.mpr d.isLt)
  rw [State.workersLost_eq, split, List.foldl_append, List.foldl_cons]
  refine List.foldlRecOn after _ (motive := fun t => State.Gone t d) (judged _ ?_) fun t gone e mem =>
    State.judgeLost_gone (List.mem_range.mp (split ▸ by simp [mem])) d.isLt gone
  exact List.foldlRecOn before _ (motive := fun t => State.LostNow t d ∨ State.Gone t d) (.inl lost) fun t open' e mem =>
    waits t open' e (split ▸ by simp [mem])

/-! ### Tags of transactions (R132) -/

theorem State.tagClose_link (s : State) (x : Txn) : (s.tagClose x).link = { s.link with
    txns := s.link.txns.filter (fun y => y.tag != x.tag), tagQuar := s.link.tagQuar ++ [(x.tag % 64, s.tick)] } := rfl

theorem State.tagClose_tick (s : State) (x : Txn) : (s.tagClose x).tick = s.tick := rfl

/-- A transaction that closes is gone, and its number is busy in its quarantine. -/
theorem State.tagClose_quarantines (s : State) (x : Txn) :
    (s.tagClose x).link.tagQuar = s.link.tagQuar ++ [(x.tag % 64, s.tick)] ∧
      (∀ y ∈ (s.tagClose x).link.txns, y.tag ≠ x.tag) ∧ (s.tagClose x).tagBusy (x.tag % 64) = true := by
  have quar : (s.tagClose x).link.tagQuar = s.link.tagQuar ++ [(x.tag % 64, s.tick)] := by rw [State.tagClose_link]
  refine ⟨quar, fun y mem => ?_, ?_⟩
  · rw [State.tagClose_link] at mem
    simpa using (List.mem_filter.mp mem).2
  · unfold State.tagBusy
    rw [quar, State.tagClose_tick]
    simp

/-! ### O21 -/

/-- Settles O21: a branch end by `upStart_content`, a frame that passes by `upForward_passes`, a worker's own fields by
`ownWord_enters`, `statusWord_content` and `ownSlot_enters`, a frame received by `upFrameReceive_fields`, a word by
`wordSeen_valid`, a lost worker by `workersLost_gone`, a tag by `tagClose_quarantines`. -/
theorem upFrames : Obligations.UpFrames := by
  unfold Obligations.UpFrames
  refine ⟨⟨fun s => upFrameStart_rests, fun s => upFrameStart_sends, fun s p two up sends three => upStart_content two up sends three,
    fun s b bad whole => upFrameForward_rests bad whole, fun s b bad whole => upFrameForward_passes bad whole,
    fun s b bad p two up sends => State.upForward_passes b bad two up sends, ?ownWord, statusWord_content,
    fun s p k i two whole has runs => State.ownSlot_enters k i two whole has runs⟩,
    ⟨fun s p b bad whole => upFrameReceive_rests bad whole, fun s p b bad whole => upFrameReceive_badHeader whole,
      fun s p b bad whole => upFrameReceive_goodHeader whole, ?fields, fun s => State.lineRun_idle,
      fun s p k w d valid => s.wordSeen_valid p k w d valid, fun s p k w d good fails own there =>
        State.wordSeen_invalid k fails own there, fun s i w j => s.mapTake_alarm i w j⟩,
    ⟨fun s => comesAtTick_intro rfl, fun s d t due past => State.workersLost_gone d ⟨t, due, past⟩, fun s => comesAtTick_intro rfl,
      fun s x => s.tagClose_quarantines x, fun s => comesAtTick_intro rfl⟩⟩
  case ownWord =>
    exact fun s p k two whole has runs least most => ⟨State.ownWord_enters k two whole has runs least most,
      State.ownWord_duplicate k has runs⟩
  case fields =>
    refine fun s p b bad whole sends up => (upFrameReceive_fields bad whole sends up).imp fun u ⟨_, k, due⟩ => ⟨k, ?_, ?_, ?_⟩
    · exact fun d device => due _ (upFields_word p k s.now b bad device)
    · exact fun i fine => due _ (upFields_map p k s.now b i fine)
    · exact due _ (upFields_last p k s.now b bad)

end Sys2Proof.Machine
end

/-! # A margin that a strike writes through a rail's point (R29, R203, R303) -/

section
namespace Sys2Proof.Machine

/-- A device whose RAIL0 has loop 0 for its target, and whose point 0 names that rail, with the ACCESS bit of the strike unit. -/
def marginPoint : State :=
  { State.reset with
    phase := .running, railGraph := tset State.reset.railGraph 0 [1]
    sram := [(sramKey 9 2048, BitVec.ofNat 32 (1 + 4 * 65536))] }

theorem quiet_marginPoint : marginPoint.Quiet := ⟨rfl, rfl, rfl, rfl, rfl, rfl, rfl, rfl⟩

theorem pointRec_marginPoint : marginPoint.pointRec 0 = (1, 0, 4) := by decide +kernel

theorem exec_pointRailMargin (p : Party) (q : Fin 2048) (v : BitVec 8) (s : State) :
    exec (.pointRailMargin p q v) s = .next (s.pointCommand p q 2 v.toNat) := rfl

/-- The strike takes the block of the rail alone: the access that forwards the margin to the loop is granted in the same
cycle. -/
theorem pointCommand_marginPoint : (marginPoint.pointCommand .strike (0 : Fin 2048) 2 (5 : BitVec 8).toNat).waiting = [] := by
  decide +kernel

/-- A write of MARGIN, of a value that it admits, is held up by nothing, and starts the access to the loop (R303). -/
theorem State.ownedStore_margin_waits {c : State} {p : Party} (named : Nat) (n : Fin 64) {w : Word} (loop : c.railKind n = 1)
    (sound : c.reservedWord (F.SEQ_RAILn_CTRL_ON.addr n) (c.wouldBe p (F.SEQ_RAILn_CTRL_ON.addr n) w 0xFF00) = false) :
    (c.ownedStore p named (F.SEQ_RAILn_CTRL_ON.addr n) w 0xFF00).waiting ≠ [] := by
  have at' := railCtrl_addr n
  have lt := n.isLt
  have writer := c.writerOk_all p (a := F.SEQ_RAILn_CTRL_ON.addr n) (d := railCtrl) rfl
    (by unfold F.SEQ_CTRL F.SEQ_HOLD; dsimp only; omega)
  have bound (v : Word) : c.engineBounded p (F.SEQ_RAILn_CTRL_ON.addr n) v = false := by
    simp [State.engineBounded, blockOf_railCtrl]
  have held : (if p = .reaction then 0 else c.heldBits (F.SEQ_RAILn_CTRL_ON.addr n) &&& 0xFF00) = 0 := by
    rw [c.heldBits_railOn]
    split_ifs <;> decide
  have closed : c.closedBits p (F.SEQ_RAILn_CTRL_ON.addr n) = 0 := if_neg (by simp [blockOf_railCtrl])
  have stored : c.ownedStore p named (F.SEQ_RAILn_CTRL_ON.addr n) w 0xFF00 =
      c.store p (F.SEQ_RAILn_CTRL_ON.addr n) w 0xFF00 := by
    unfold State.ownedStore
    simp only [regDef_railCtrl, writer, sound, bound, held, closed, Bool.not_true, Bool.or_self, Bool.false_eq_true, if_false]
    rfl
  rw [stored, c.store_free p w 0xFF00 (regDef_railCtrl n) rfl (by omega), State.afterStore_seq _ _ _ _ (blockOf_railCtrl n)]
  unfold State.seqStored State.marginForward
  have index : (F.SEQ_RAILn_CTRL_ON.addr n - 0x3840) / 8 = n := by omega
  rw [if_pos (by omega), if_pos ⟨by omega, by decide⟩, index, if_pos (by exact loop)]
  exact List.append_ne_nil_of_right_ne_nil _ (List.cons_ne_nil _ _)

/-- The same, of the accesses that wait when the cycle has settled. -/
theorem State.settle_waiting_later (s : State) : (s.eventsLater 0).settle.waiting = s.waiting := by
  refine (State.aside_settle _ fun e he => ?_).same_waiting
  simp only [State.eventsLater, List.take_zero, List.nil_append, List.drop_zero, List.mem_map] at he
  obtain ⟨x, -, rfl⟩ := he
  rfl

theorem State.NextCycle.railGraph {s c : State} (h : s.NextCycle c) : c.railGraph = s.railGraph := by
  rw [State.Aside.rest h]

/-- A margin of 5 is admitted in the cycle after the write. -/
theorem State.NextCycle.margin_sound {c : State} (next : marginPoint.NextCycle c) :
    c.railKind 0 = 1 ∧ c.reservedWord 0x3840 (c.wouldBe .strike 0x3840 0x500 0xFF00) = false := by
  have kind : c.railKind 0 = 1 := by
    unfold State.railKind State.railByte
    rw [next.railGraph]
    decide
  have word : c.reg 0x3840 = 0 := (next.reg (by decide)).trans (by decide)
  have row : regDef 0x3840 = some railCtrl := by decide
  have block : blockOf 0x3840 = 8 := by decide
  have would : c.wouldBe .strike 0x3840 0x500 0xFF00 = 0x500 := by
    unfold State.wouldBe
    simp only [row, bankKey, show railCtrl.banked = false from rfl, Bool.false_eq_true, if_false, word]
    decide
  refine ⟨kind, ?_⟩
  unfold State.reservedWord State.rulesOk State.marginAllowed
  rw [would]
  simp only [row, block]
  have ranges : ∀ r ∈ rangesOf railCtrl.base, r.admits 0x500 = true := by decide
  simpa [kind] using ranges

/-- Refutes O35: its first clause. A strike writes the MARGIN of a rail on a loop through its point; the access that forwards
it to the loop (R303) does not wait for another cycle, as the clause has it, but is granted in that of the write. -/
theorem not_pointCommands : ¬ Obligations.PointCommands := by
  unfold Obligations.PointCommands
  rintro ⟨acts, -⟩
  have record := pointRec_marginPoint
  obtain ⟨-, runs⟩ := acts _ _ 0 1 _ _ marginPoint (.railMargin .strike 0 5) rfl (by rw [Fin.val_zero, record])
    (by rw [Fin.val_zero, record]; decide)
  obtain ⟨u, ends, c, next, stored⟩ := runs quiet_marginPoint rfl
  rw [exec_pointRailMargin, Host.Outcome.next.injEq] at ends
  obtain ⟨kind, sound⟩ := next.margin_sound
  have word : withBits 0 F.SEQ_RAILn_CTRL_MARGIN.lo F.SEQ_RAILn_CTRL_MARGIN.width (bitsOf (BitVec.ofNat 32
      (2 * 2 ^ 30 + (5 : BitVec 8).toNat)) 0 F.SEQ_RAILn_CTRL_MARGIN.width) = 0x500 := by decide
  have mask : withBits 0 F.SEQ_RAILn_CTRL_MARGIN.lo F.SEQ_RAILn_CTRL_MARGIN.width
      (2 ^ F.SEQ_RAILn_CTRL_MARGIN.width - 1) = 0xFF00 := by decide
  dsimp only at stored
  rw [word, mask, Fin.val_zero, record] at stored
  have waits : u.waiting ≠ [] := by
    rw [stored]
    exact State.ownedStore_margin_waits _ 0 kind sound
  refine waits ?_
  rw [stored, ← pointCommand_marginPoint, ends, stored, State.settle_waiting_later]
  rfl

end Sys2Proof.Machine
end

/-! # The windows of the hierarchy block: the stage window and the commit command (R158–R167) -/

section
namespace Sys2Proof.Machine

/-! ### Writes of the block -/

theorem State.writeWord_hier (s : State) (p : Party) {a : Nat} (w m : Word) (block : blockOf a = 4)
    (row : (regDef a).isNone = false) : s.writeWord p a w m = s.writeHier p a w m := by
  unfold State.writeWord
  rw [block]
  simp only [row, Bool.false_eq_true, if_false]

/-- A write whose effect is known in the cycle after its request, and starts no access there. -/
theorem grants_of_next {i : Instr} {s : State} {f : State → State} (p : Party) (a : Nat) (w : Word)
    (row : exec i s = .next (s.written p a w)) (effect : ∀ c, s.NextCycle c → c.writeWord p a w allBits = f c)
    (keeps : ∀ c, s.NextCycle c → (f c).waiting = c.waiting) : Grants p i s f := by
  refine ⟨fun off => by rw [row, s.written_shut p a w off], fun quiet admits => ?_⟩
  refine (grants_intro p a w row effect fun c next => ?_).2 quiet admits
  rw [State.reactions_waiting_later, keeps c next]
  exact (State.Aside.same_waiting next).trans quiet.waiting

/-! ### The stage window (R158) -/

/-- Its words are the 6,144 of the stage area, and WORD wraps behind the last. -/
theorem State.stgNext_eq (s : State) : s.stgNext = s.put F.HIER_STG_ADDR_WORD
    (if s.get F.HIER_STG_ADDR_WORD + 1 < 6144 then s.get F.HIER_STG_ADDR_WORD + 1 else 0) := rfl

theorem State.get_notice (s : State) (p : Party) (a : Nat) (f : Fld) (i : Nat := 0) : (s.notice p a).get f i = s.get f i :=
  State.get_eq_of_reg (State.reg_notice _ _ _ _)

theorem State.get_portWrite (s : State) (p : Party) (k : Nat) (w : Word) (f : Fld) (i : Nat := 0) :
    (s.portWrite p k w).get f i = s.get f i := by
  unfold State.portWrite
  split <;> rfl

theorem State.stgWrite_eq (s : State) (p : Party) (w : Word) : s.stgWrite p w =
    let word := s.get F.HIER_STG_ADDR_WORD
    let next := if word + 1 < 6144 then word + 1 else 0
    if s.isManager = false then s.notice p F.HIER_STG_DATA.base
    else if s.cmtPhase ≠ 0 ∨ s.stgState ≠ 0 then (s.notice p F.HIER_STG_DATA.base).put F.HIER_STG_ADDR_WORD next
    else (s.portWrite p (sramKey 8 (10240 + word)) w).put F.HIER_STG_ADDR_WORD next := by
  unfold State.stgWrite
  simp only [State.stgNext_eq, State.get_notice, State.get_portWrite, Bool.not_eq_true']
  rfl

theorem grants_hierStgData (s : State) (p : Party) (w : Word) : Grants p (.hierStgData p w) s (State.stgWrite p w) := by
  refine grants_of_keeps p F.HIER_STG_DATA.base w rfl (fun c => ?_) fun c => (c.stgWrite_keeps p w).2
  exact c.writeWord_hier p w allBits (by decide) (by decide)

/-! ### The commit command -/

theorem cmtWord_op {op dev : Nat} (ops : op < 16) (devs : dev < 64) : bitsOf (cmtWord op dev) 28 4 = op := by
  simp only [bitsOf, cmtWord, BitVec.toNat_ofNat, Nat.shiftRight_eq_div_pow]
  omega

theorem cmtWord_dev {op dev : Nat} (devs : dev < 64) : bitsOf (cmtWord op dev) 0 6 = dev := by
  simp only [bitsOf, cmtWord, BitVec.toNat_ofNat, Nat.shiftRight_zero]
  omega

theorem State.writeWord_cmtCmd (s : State) (p : Party) {op dev : Nat} (ops : op < 16) (devs : dev < 64) :
    s.writeWord p F.HIER_CMT_CMD.base (cmtWord op dev) allBits = s.cmtCmd p op dev := by
  rw [State.writeWord_hier _ _ _ _ (by decide) (by decide), State.writeHier, if_neg (by decide), if_neg (by decide),
    if_pos rfl, cmtWord_op ops devs, cmtWord_dev devs]

/-- The commands of HIER_CMT_CMD, each with its OP and the device it names. -/
def cmtRows (p : Party) (dev : BitVec 6) : List (Instr × Nat × Nat) :=
  [(.openCmt p, opOpen, 0), (.sendCmt p, opSend, 0), (.prepareCmt p, opPrepare, 0), (.cmtCommit p, opCommit, 0),
    (.cmtAbort p, opAbort, 0), (.repairCommit p dev, opRepairCommit, dev.toNat),
    (.repairAbort p dev, opRepairAbort, dev.toNat), (.close p, opClose, 0)]

theorem exec_cmtRows (p : Party) (dev : BitVec 6) (s : State) : ∀ r ∈ cmtRows p dev,
    exec r.1 s = .next (s.written p F.HIER_CMT_CMD.base (cmtWord r.2.1 r.2.2)) := by
  simp only [cmtRows, List.forall_mem_cons]
  exact ⟨rfl, rfl, rfl, rfl, rfl, rfl, rfl, rfl, List.forall_mem_nil _⟩

theorem cmtRows_bounds (p : Party) (dev : BitVec 6) : ∀ r ∈ cmtRows p dev, 1 ≤ r.2.1 ∧ r.2.1 ≤ 8 ∧ r.2.2 < 64 := by
  have lt := dev.isLt
  simp [cmtRows, opOpen, opSend, opPrepare, opCommit, opAbort, opRepairCommit, opRepairAbort, opClose, lt]

theorem cmtRows_notOpen (p : Party) (dev : BitVec 6) : ∀ r ∈ (cmtRows p dev).drop 1, r.2.1 ≠ opOpen := by
  simp [cmtRows, opOpen, opSend, opPrepare, opCommit, opAbort, opRepairCommit, opRepairAbort, opClose]

theorem cmtRows_early (p : Party) : ∀ r ∈ ((cmtRows p 0).drop 1).take 4,
    r.2.1 ≠ opOpen ∧ r.2.1 ≠ opClose ∧ r.2.1 ≠ opRepairCommit ∧ r.2.1 ≠ opRepairAbort := by
  simp [cmtRows, opOpen, opSend, opPrepare, opCommit, opAbort, opRepairCommit, opRepairAbort, opClose]

/-- A command of the commit unit, by what it does in the cycle after its request. -/
theorem grants_cmtRow {p : Party} {dev : BitVec 6} {i : Instr} {op n : Nat} (mem : (i, op, n) ∈ cmtRows p dev) {s : State}
    {f : State → State} (effect : ∀ c, s.NextCycle c → c.cmtCmd p op n = f c) : Grants p i s f := by
  obtain ⟨-, ops, devs⟩ := cmtRows_bounds p dev _ mem
  refine grants_of_next p _ _ (exec_cmtRows p dev s _ mem) (fun c next => ?_) fun c next => ?_
  · rw [c.writeWord_cmtCmd p (by omega) devs, effect c next]
  · rw [← effect c next]
    exact (c.cmtCmd_keeps p _ _).2

/-! ### What the next cycle finds -/

theorem State.NextCycle.isManager {s c : State} (next : s.NextCycle c) : c.isManager = s.isManager := by
  unfold State.isManager State.on
  rw [next.get F.SYS_DOM_STAT_ROLE 0 (by decide)]

theorem State.NextCycle.cmtPhase {s c : State} (next : s.NextCycle c) : c.cmtPhase = s.cmtPhase :=
  next.get F.HIER_CMT_STAT_PHASE 0 (by decide)

theorem State.NextCycle.cmtOwner {s c : State} (next : s.NextCycle c) :
    c.get F.HIER_CMT_STAT_OWNER = s.get F.HIER_CMT_STAT_OWNER :=
  next.get F.HIER_CMT_STAT_OWNER 0 (by decide)

/-! ### Commands out of place -/

theorem State.cmtCmd_worker {s : State} (p : Party) (op dev : Nat) (worker : s.isManager = false) :
    s.cmtCmd p op dev = s.notice p F.HIER_CMT_CMD.base := by
  unfold State.cmtCmd
  rw [if_pos (by simp [worker])]

/-- On a manager, past the first test. -/
theorem State.cmtCmd_manager {s : State} (p : Party) {op : Nat} (dev : Nat) (manager : s.isManager = true) (least : 1 ≤ op)
    (most : op ≤ 8) : s.cmtCmd p op dev =
      if s.cmtPhase ≠ 0 ∧ s.get F.HIER_CMT_STAT_OWNER ≠ p.code then s.put F.HIER_CMT_STAT_RESULT cmtBusy
      else if op = opOpen then s.cmtOpen p
      else if s.cmtPhase = 0 then s.put F.HIER_CMT_STAT_RESULT cmtOrder
      else if op = opClose then s.cmtClose.cmtResult cmtOk
      else if op = opRepairCommit then s.cmtRepair true dev
      else if op = opRepairAbort then s.cmtRepair false dev
      else if s.cmtPhase ≠ cmtStaging ∧ s.cmtPhase ≠ cmtPreparing then s.put F.HIER_CMT_STAT_RESULT cmtOrder
      else if op = opSend then s.cmtSend
      else if op = opPrepare then s.cmtPrepare
      else s.cmtDecide (op == opCommit) := by
  have known : (!s.isManager || op == 0 || decide (8 < op)) = false := by
    simp [manager]
    omega
  unfold State.cmtCmd
  rw [if_neg (by rw [known]; decide)]
  rfl

theorem grants_cmt_worker (s : State) (p : Party) (dev : BitVec 6) (i : Instr) (mem : i ∈ (cmtRows p dev).map Prod.fst)
    (worker : s.isManager = false) : Grants p i s (fun c => c.notice p F.HIER_CMT_CMD.base) := by
  obtain ⟨⟨_, op, n⟩, row, rfl⟩ := List.mem_map.1 mem
  exact grants_cmtRow row fun c next => c.cmtCmd_worker p _ _ (next.isManager.trans worker)

theorem grants_cmt_otherOwner (s : State) (p : Party) (dev : BitVec 6) (i : Instr) (mem : i ∈ (cmtRows p dev).map Prod.fst)
    (manager : s.isManager = true) (phase : s.cmtPhase ≠ 0) (other : s.get F.HIER_CMT_STAT_OWNER ≠ p.code) :
    Grants p i s (fun c => c.put F.HIER_CMT_STAT_RESULT cmtBusy) := by
  obtain ⟨⟨_, op, n⟩, row, rfl⟩ := List.mem_map.1 mem
  obtain ⟨least, most, -⟩ := cmtRows_bounds p dev _ row
  refine grants_cmtRow row fun c next => ?_
  rw [c.cmtCmd_manager p _ (next.isManager.trans manager) least most, next.cmtPhase, next.cmtOwner, if_pos ⟨phase, other⟩]

theorem grants_openCmt_again (s : State) (p : Party) (manager : s.isManager = true) (phase : s.cmtPhase ≠ 0)
    (own : s.get F.HIER_CMT_STAT_OWNER = p.code) :
    Grants p (.openCmt p) s (fun c => c.put F.HIER_CMT_STAT_RESULT cmtBusy) := by
  refine grants_cmtRow (dev := 0) (List.mem_cons_self ..) fun c next => ?_
  rw [c.cmtCmd_manager p _ (next.isManager.trans manager) (by decide) (by decide), next.cmtPhase, next.cmtOwner,
    if_neg (fun h => h.2 own), if_pos rfl, State.cmtOpen, if_pos (by rw [next.cmtPhase]; exact phase)]
  rfl

theorem grants_cmt_idle (s : State) (p : Party) (dev : BitVec 6) (i : Instr)
    (mem : i ∈ ((cmtRows p dev).drop 1).map Prod.fst) (manager : s.isManager = true) (phase : s.cmtPhase = 0) :
    Grants p i s (fun c => c.put F.HIER_CMT_STAT_RESULT cmtOrder) := by
  obtain ⟨⟨i, op, n⟩, later, rfl⟩ := List.mem_map.1 mem
  have mem := List.mem_of_mem_drop later
  obtain ⟨least, most, -⟩ := cmtRows_bounds p dev _ mem
  have notOpen := cmtRows_notOpen p dev _ later
  refine grants_cmtRow mem fun c next => ?_
  rw [c.cmtCmd_manager p _ (next.isManager.trans manager) least most, next.cmtPhase, if_neg (fun h => h.1 phase),
    if_neg notOpen, if_pos phase]

theorem grants_cmt_decided (s : State) (p : Party) (i : Instr) (mem : i ∈ (((cmtRows p 0).drop 1).take 4).map Prod.fst)
    (manager : s.isManager = true) (phase : s.cmtPhase ≠ 0) (staged : s.cmtPhase ≠ cmtStaging)
    (prepared : s.cmtPhase ≠ cmtPreparing) (own : s.get F.HIER_CMT_STAT_OWNER = p.code) :
    Grants p i s (fun c => c.put F.HIER_CMT_STAT_RESULT cmtOrder) := by
  obtain ⟨⟨i, op, n⟩, later, rfl⟩ := List.mem_map.1 mem
  have mem := List.mem_of_mem_drop (List.mem_of_mem_take later)
  obtain ⟨least, most, -⟩ := cmtRows_bounds p 0 _ mem
  obtain ⟨notOpen, notClose, notRepair, notRepairAbort⟩ := cmtRows_early p _ later
  refine grants_cmtRow mem fun c next => ?_
  rw [c.cmtCmd_manager p _ (next.isManager.trans manager) least most, next.cmtPhase, next.cmtOwner,
    if_neg (fun h => h.2 own), if_neg notOpen, if_neg phase, if_neg notClose, if_neg notRepair, if_neg notRepairAbort,
    if_pos ⟨staged, prepared⟩]

/-- Settles O27: the stage window by its equation, the commands by the branch of `cmtCmd` they take in the cycle after the
request. -/
theorem commitsAreStaged : Obligations.CommitsAreStaged := by
  unfold Obligations.CommitsAreStaged
  refine ⟨fun s p w => ?window, grants_cmt_worker, grants_cmt_otherOwner, grants_openCmt_again, grants_cmt_idle,
    grants_cmt_decided⟩
  have window : State.stgWrite p w = _ := funext fun c => c.stgWrite_eq p w
  exact window ▸ grants_hierStgData s p w

end Sys2Proof.Machine
end

/-! # A remote access as its party starts it on the manager (R155–R157) -/

section
namespace Sys2Proof.Machine

/-- A write of ranks 4 to 14, whatever accesses it starts. -/
theorem grants_plain {i : Instr} {s : State} {f : State → State} (p : Party) (a : Nat) (w : Word)
    (row : exec i s = .next (s.written p a w)) (plain : p.urgent = false)
    (effect : ∀ c, s.NextCycle c → c.writeWord p a w allBits = f c) : Grants p i s f := by
  refine ⟨fun off => by rw [row, s.written_shut p a w off], fun quiet admits => ?_⟩
  obtain ⟨c, next, -, ends⟩ := s.written_plain p a w quiet admits plain
  refine ⟨_, by rw [row, ends], c, next, ?_⟩
  rw [c.writeReg_eq p a w (next.events_nil quiet.events), effect c next]

theorem Party.urgent_iff (p : Party) : p.urgent = true ↔ p.code < 3 := by
  cases p <;> simp [Party.urgent, Party.code]; omega

/-- The command of HIER_RA_CMD of an OP. -/
def raInstr (p : Party) (op : Fin 4) : Instr := if op = 1 then .raRead p else if op = 2 then .raWrite p else .raWriteAns p

theorem exec_raInstr (s : State) (p : Party) {op : Fin 4} (some : op ≠ 0) :
    exec (raInstr p op) s = .next (s.written p F.HIER_RA_CMD.base (BitVec.ofNat 32 op)) := by
  match op, some with
  | 1, _ => rfl
  | 2, _ => rfl
  | 3, _ => rfl

theorem State.writeWord_raCmd (s : State) (p : Party) (op : Fin 4) :
    s.writeWord p F.HIER_RA_CMD.base (BitVec.ofNat 32 op) allBits = s.raCmd p op := by
  have field : bitsOf (BitVec.ofNat 32 op) 0 2 = op := by revert op; decide
  rw [State.writeWord_hier _ _ _ _ (by decide) (by decide), State.writeHier, if_pos rfl, field]

/-- The first word of an access to device 0. -/
theorem State.raLocal_first (s : State) (p : Party) (write : Bool) (a n : Nat) (word : Nat → Word) (least : 0 < n) :
    s.raLocal p write a 0 n (if write then (List.range n).map word else []) = { s with
      waiting := s.waiting ++ [{
        party := p, addr := a, word := if write then some (word 0) else none
        ra := some (.word 0 n (if write then ((List.range n).map word).drop 1 else [])) }] } := by
  obtain ⟨m, rfl⟩ := Nat.exists_eq_succ_of_ne_zero least.ne'
  unfold State.raLocal
  rw [if_pos least]
  cases write <;> simp [List.range_succ_eq_map]

theorem State.raCmd_refused {s : State} {p : Party} (op : Nat) (h : s.isManager = false ∨ p.urgent = true) :
    s.raCmd p op = s.notice p F.HIER_RA_CMD.base := by
  rw [Party.urgent_iff] at h
  unfold State.raCmd
  rw [if_pos (by simp; tauto)]

theorem State.raCmd_known {s : State} {p : Party} {op : Fin 4} (some' : op ≠ 0)
    (h : ¬(s.isManager = false ∨ p.urgent = true)) :
    (!s.isManager || (op : Nat) == 0 || decide (p.code < 3)) = false := by
  rw [Party.urgent_iff] at h
  simp [Fin.val_eq_zero_iff, some']
  simpa using h

/-- A command of HIER_RA_CMD, by what it does in the cycle after its request. -/
theorem grants_raCmd {s : State} {p : Party} {op : Fin 4} {f : State → State} (some' : op ≠ 0)
    (effect : ∀ c : State, c.raCmd p op = f c) : Grants p (raInstr p op) s f := by
  have written (c : State) : c.writeWord p F.HIER_RA_CMD.base (BitVec.ofNat 32 op) allBits = f c :=
    (c.writeWord_raCmd p op).trans (effect c)
  cases urgent : p.urgent with
  | false => exact grants_plain p _ _ (exec_raInstr s p some') urgent fun c _ => written c
  | true =>
    refine grants_of_next p _ _ (exec_raInstr s p some') (fun c _ => written c) fun c _ => ?_
    rw [← effect, State.raCmd_refused op (.inr urgent)]
    exact (c.notice_keeps p _).2

/-- Settles O26: branch by branch of `raCmd`, the accesses it starts waiting from the grant on. -/
theorem remoteAccessIsQueued : Obligations.RemoteAccessIsQueued := by
  unfold Obligations.RemoteAccessIsQueued
  refine fun s p op some' => grants_raCmd some' fun c => ?_
  by_cases refused : c.isManager = false ∨ p.urgent = true
  · rw [State.raCmd_refused op refused]
    exact (if_pos refused).symm
  have known := State.raCmd_known some' refused
  have write : ((op : Nat) != 1) = (op != 1) := by clear some' known; revert op; decide
  have answered : ((op : Nat) == 3) = (op == 3) := by clear some' known write; revert op; decide
  have second : op ≠ 1 → op ≠ 3 → op = 2 := by omega
  unfold State.raCmd
  simp only [known, refused, write, answered, Bool.false_eq_true, if_false]
  refine if_congr Iff.rfl rfl (if_congr (by simp [and_assoc, or_assoc]) rfl (if_congr (by simp) ?alone
    (if_congr (by simp) rfl ?queue)))
  case alone =>
    refine (ite_not ..).trans (if_congr Iff.rfl ((State.raLocal_first (least := Nat.succ_pos _) ..).trans ?_) rfl)
    by_cases first : op = 1
    · subst first; rfl
    · simp only [bne_iff_ne.2 first, first, if_true, if_false]
  case queue =>
    by_cases first : op = 1
    · subst first
      simp [b2n]
    · by_cases third : op = 3
      · subst third
        cases c.on (F.HIER_RA_ADDR_BCAST.bk p.code) <;> simp [b2n]
      · simp [second first third, b2n]

end Sys2Proof.Machine
end

/-! # The commit unit of a manager (R158–R167) -/

section
namespace Sys2Proof.Machine

/-! ### What a reading of the memory and a queueing of commands leave -/

/-- `t` is `s` with `n` commands more in the queue, as far as the hierarchy block goes: its registers, the stage and the commit
are those of `s`, but for the chunks the commit has to send. -/
structure State.Queues (s t : State) (n : Nat) : Prop where
  regs : ∀ k, 0x1000 ≤ k → k < 0x2000 → t.reg k = s.reg k
  stage : t.stage = s.stage
  commit : t.commit = { s.commit with dataLeft := t.commit.dataLeft }
  queue : t.link.queue.length = s.link.queue.length + n

theorem State.Queues.refl (s : State) : s.Queues s 0 := ⟨fun _ _ _ => rfl, rfl, rfl, rfl⟩

theorem State.Queues.trans {s t u : State} {n m : Nat} (h : s.Queues t n) (g : t.Queues u m) : s.Queues u (n + m) where
  regs k least most := (g.regs k least most).trans (h.regs k least most)
  stage := g.stage.trans h.stage
  commit := by rw [g.commit, h.commit]
  queue := by rw [g.queue, h.queue, Nat.add_assoc]

theorem State.Queues.get {s t : State} {n : Nat} (h : s.Queues t n) (f : Fld) (i : Nat := 0)
    (least : 0x1000 ≤ f.addr i := by decide) (most : f.addr i < 0x2000 := by decide) : t.get f i = s.get f i :=
  State.get_eq_of_reg (h.regs _ least most)

/-- What else of the state follows does not matter. -/
theorem State.Queues.congr {s t u : State} {n : Nat} (h : s.Queues t n) (regs : u.regs = t.regs) (stage : u.stage = t.stage)
    (commit : u.commit = t.commit) (link : u.link = t.link) : s.Queues u n where
  regs k least most := (State.reg_of_regs regs k).trans (h.regs k least most)
  stage := stage.trans h.stage
  commit := by rw [commit, h.commit]
  queue := by rw [link, h.queue]

theorem State.Queues.setReg (s : State) {k : Nat} (w : Word) (out : k < 0x1000 ∨ 0x2000 ≤ k) : s.Queues (s.setReg k w) 0 where
  regs j least most := s.reg_setReg_ne (by omega) w
  stage := rfl
  commit := rfl
  queue := rfl

theorem State.Queues.put (s : State) (f : Fld) (v i : Nat) (out : 0x2000 ≤ f.base) : s.Queues (s.put f v i) 0 :=
  .setReg s _ (.inr (out.trans (Nat.le_add_right ..)))

theorem State.Queues.bump (s : State) (f : Fld) (i : Nat) (out : 0x2000 ≤ f.base) : s.Queues (s.bump f i) 0 :=
  .put s f _ i out

theorem State.Queues.raise (s : State) (cls ev obj : Nat) (d : Word) : s.Queues (s.raise cls ev obj d) 0 := by
  unfold State.raise
  split
  · exact .refl s
  · exact (State.Queues.refl s).congr rfl rfl rfl rfl

theorem State.Queues.memFound (s : State) (src k bit : Nat) (last ecc cause : Fld) (outLast : 0x2000 ≤ last.base)
    (outEcc : 0x2000 ≤ ecc.base) (outCause : 0x2000 ≤ cause.base) : s.Queues (s.memFound src k bit last ecc cause) 0 := by
  simp -implicitDefEqProofs only [State.memFound]
  generalize BitVec.ofNat 32 _ = word
  split
  · split
    · exact .refl s
    · exact .setReg s word (.inr outLast)
  · have noted := (State.Queues.bump s ecc (k / 16384) outEcc).trans (.setReg _ word (.inr outLast))
    exact (noted.trans (.put _ cause 1 0 outCause)).congr rfl rfl rfl rfl

/-- No live statistic stands in the hierarchy block. -/
theorem liveReg_outside {k a : Nat} (live : liveReg k = some a) : a < 0x1000 ∨ 0x2000 ≤ a := by
  have all : ∀ w ∈ bankRegs, w.2 < 0x1000 ∨ 0x2000 ≤ w.2 := by decide +kernel
  unfold liveReg at live
  split at live
  · obtain ⟨w, found, rfl⟩ := Option.map_eq_some_iff.1 live
    exact all w (List.mem_of_find?_eq_some found)
  · exact absurd live (Option.some_ne_none a).symm

theorem State.Queues.statRestart (s : State) (k : Nat) : s.Queues (s.statRestart k) 0 := by
  unfold State.statRestart
  split
  · exact .refl s
  · next a live =>
    have first := State.Queues.setReg s 0 (liveReg_outside live)
    dsimp only
    split_ifs
    · have meter (f : Fld) (out : 0x2000 ≤ f.base) (i : Nat) : 0x2000 ≤ f.addr i := out.trans (Nat.le_add_right ..)
      have low := meter F.MEAS_METERk_E_LO (by decide) ((k - liveKey 0 - 4) / 2)
      have high := meter F.MEAS_METERk_E_HI (by decide) ((k - liveKey 0 - 4) / 2)
      have both := first.trans ((State.Queues.setReg _ 0 (.inr low)).trans (.setReg _ 0 (.inr high)))
      exact both.congr rfl rfl rfl rfl
    · exact first.congr rfl rfl rfl rfl
    · exact first

theorem State.Queues.sramRead (s : State) (src k : Nat) : s.Queues (s.sramRead src k).2.2 0 := by
  have corrected (b : Nat) : s.Queues (s.memFound src k b F.MEM_LAST_CE F.MEM_ECC_CE F.MEM_CAUSE_CE) 0 :=
    .memFound s src k b _ _ _ (by decide) (by decide) (by decide)
  have lost : s.Queues (s.memFound src k 0 F.MEM_LAST_UE F.MEM_ECC_UE F.MEM_CAUSE_UE) 0 :=
    .memFound s src k 0 _ _ _ (by decide) (by decide) (by decide)
  have raised (again : Bool) (t : State) (cls ev r : Nat) : t.Queues (if again then t else t.raise cls ev r) 0 := by
    cases again
    · exact .raise t _ _ _ _
    · exact .refl t
  have regional (again : Bool) (t : State) (r : Nat) :
      t.Queues (if again then t else if r < 8 then t.raise 12 2 r else t.raise 12 3 r) 0 := by
    split_ifs
    · exact .refl t
    · exact .raise t _ _ _ _
    · exact .raise t _ _ _ _
  unfold State.sramRead
  dsimp only
  split
  · exact .refl s
  · next b _ =>
    refine State.Queues.trans (n := 0) ?_ (raised _ _ 12 1 _)
    exact (corrected b).congr rfl rfl rfl rfl
  · split
    · refine State.Queues.trans (n := 0) ?_ (.statRestart _ k)
      exact (lost.trans (regional _ _ _)).congr rfl rfl rfl rfl
    · exact lost.trans (regional _ _ _)

theorem State.Queues.ownRead (s : State) (src lo hi : Nat) : s.Queues (s.ownRead src lo hi) 0 := by
  unfold State.ownRead
  split
  · exact .refl s
  · next raw =>
    clear raw
    generalize sortBy _ _ = keys
    induction keys generalizing s with
    | nil => exact .refl s
    | cons k keys ih => exact (State.Queues.sramRead s src k).trans (ih _)

theorem State.Queues.queueCmd (s : State) (grp : Nat) (bytes : List Byte) (p : CmdFor) :
    s.Queues (s.queueCmd grp bytes p) 1 where
  regs _ _ _ := rfl
  stage := rfl
  commit := rfl
  queue := by simp [State.queueCmd]

/-! ### The chunks of a stage -/

theorem State.Queues.chunks (dest : Nat) (l : List Nat) (s : State) : s.Queues (l.foldl (fun s i =>
    s.queueCmd 5 (cmdBytes 0x29 0 dest (i % 256) (i / 256) 0 (s.stageChunk i)) .stgData) s) l.length := by
  induction l generalizing s with
  | nil => exact .refl s
  | cons i l ih =>
    rw [List.length_cons, Nat.add_comm]
    exact (State.Queues.queueCmd s _ _ _).trans (ih _)

theorem State.Queues.readStage (s : State) (len : Nat) : s.Queues (s.readStage len) 0 := .ownRead s _ _ _

theorem State.Queues.queueChunks (s : State) (dest : Nat) :
    s.Queues (s.queueChunks dest) (chunksOf (s.get F.HIER_CMT_LEN_STAGE_LEN)) := by
  have chunks := State.Queues.chunks dest (List.range (chunksOf (s.get F.HIER_CMT_LEN_STAGE_LEN)))
    (s.readStage (s.get F.HIER_CMT_LEN_STAGE_LEN))
  obtain ⟨regs, stage, commit, queue⟩ := (State.Queues.readStage s _).trans chunks
  rw [List.length_range, Nat.zero_add] at queue
  refine ⟨regs, stage, ?_, queue⟩
  unfold State.queueChunks
  dsimp only
  rw [commit]

theorem State.Queues.sends (s : State) (dests : List Nat) :
    s.Queues (dests.foldl (fun s d => s.queueChunks d) s) (dests.length * chunksOf (s.get F.HIER_CMT_LEN_STAGE_LEN)) := by
  induction dests generalizing s with
  | nil => simpa using State.Queues.refl s
  | cons d dests ih =>
    have first := State.Queues.queueChunks s d
    have rest := ih (s.queueChunks d)
    rw [first.get F.HIER_CMT_LEN_STAGE_LEN] at rest
    rw [List.length_cons, Nat.succ_mul, Nat.add_comm]
    exact first.trans rest

/-! ### Values of two words -/

theorem State.get64_of_regs {s t : State} {f : Fld} (low : t.reg (f.addr 0) = s.reg (f.addr 0))
    (high : t.reg (f.addr 0 + 1) = s.reg (f.addr 0 + 1)) : t.get64 f = s.get64 f := by
  unfold State.get64
  rw [low, high]

theorem State.get64_put_ne (s : State) (f g : Fld) (v i : Nat) (low : g.addr 0 ≠ f.addr i) (high : g.addr 0 + 1 ≠ f.addr i) :
    (s.put f v i).get64 g = s.get64 g := State.get64_of_regs (s.reg_put_ne low v) (s.reg_put_ne high v)

theorem State.reg_put64_ne (s : State) {f : Fld} {k : Nat} (low : k ≠ f.addr 0) (high : k ≠ f.addr 0 + 1) (v : Nat) :
    (s.put64 f v).reg k = s.reg k := by
  unfold State.put64
  rw [State.reg_setReg_ne _ high, State.reg_setReg_ne _ low]

theorem State.get_put64_ne (s : State) (f g : Fld) (v i : Nat) (low : g.addr i ≠ f.addr 0) (high : g.addr i ≠ f.addr 0 + 1) :
    (s.put64 f v).get g i = s.get g i := State.get_eq_of_reg (s.reg_put64_ne low high v)

theorem State.get64_put64_ne (s : State) (f g : Fld) (v : Nat) (apart : g.addr 0 + 1 < f.addr 0 ∨ f.addr 0 + 1 < g.addr 0) :
    (s.put64 f v).get64 g = s.get64 g :=
  State.get64_of_regs (s.reg_put64_ne (by omega) (by omega) v) (s.reg_put64_ne (by omega) (by omega) v)

theorem State.get64_put64_zero (s : State) (f : Fld) : (s.put64 f 0).get64 f = 0 := by
  unfold State.get64 State.put64
  rw [State.reg_setReg_same, State.reg_setReg_ne _ (by omega), State.reg_setReg_same]
  rfl

theorem State.Queues.get64 {s t : State} {n : Nat} (h : s.Queues t n) (f : Fld) (least : 0x1000 ≤ f.addr 0 := by decide)
    (most : f.addr 0 + 1 < 0x2000 := by decide) : t.get64 f = s.get64 f :=
  State.get64_of_regs (h.regs _ least (by omega)) (h.regs _ (by omega) most)

/-! ### What the next cycle finds of the commit -/

theorem aside_hier : ∀ k ∈ aside, k < 0x1000 ∨ 0x2000 ≤ k := by decide

theorem State.NextCycle.queues {s c : State} (next : s.NextCycle c) : s.Queues c 0 where
  regs k least most := next.reg fun mem => by
    have := aside_hier k mem
    omega
  stage := by rw [State.Aside.rest next]
  commit := by rw [State.Aside.rest next]
  queue := by rw [State.Aside.rest next]; rfl

theorem State.NextCycle.commit {s c : State} (next : s.NextCycle c) : c.commit = s.commit := by rw [State.Aside.rest next]
theorem State.NextCycle.link {s c : State} (next : s.NextCycle c) : c.link = s.link := by rw [State.Aside.rest next]

theorem State.Queues.cmtWorkers {s t : State} {n : Nat} (h : s.Queues t n) : t.cmtWorkers = s.cmtWorkers := by
  unfold State.cmtWorkers State.cmtTgt
  rw [h.get64 F.HIER_CMT_TGT]

theorem State.Queues.cmtSelf {s t : State} {n : Nat} (h : s.Queues t n) : t.cmtSelf = s.cmtSelf := by
  unfold State.cmtSelf State.cmtTgt
  rw [h.get64 F.HIER_CMT_TGT]

theorem State.Queues.stgState {s t : State} {n : Nat} (h : s.Queues t n) : t.stgState = s.stgState := h.get F.HIER_STAT_STG_STATE

theorem State.Queues.notReady {s t : State} {n : Nat} (h : s.Queues t n) : t.notReady = s.notReady := by
  unfold State.notReady
  rw [h.cmtWorkers]
  refine List.filter_congr fun d mem => ?_
  have lt : d < 64 := List.mem_range.1 (List.mem_of_mem_filter mem)
  have least : 0x1000 ≤ F.HIER_CMT_READY.addr (d / 32) := le_trans (by decide) (Nat.le_add_right ..)
  have most : F.HIER_CMT_READY.addr (d / 32) < 0x2000 := by
    show 0x102A + 1 * (d / 32) < 0x2000
    omega
  unfold State.maskBit
  rw [h.regs _ least most]

/-! ### The manager's own stage -/

theorem State.selfCheck_leaves (s : State) : (∀ k, k ≠ F.HIER_STAT.base → s.selfCheck.reg k = s.reg k) ∧
    s.selfCheck.commit = s.commit ∧ s.selfCheck.link = s.link := by
  unfold State.selfCheck
  split
  · exact ⟨fun k other => s.reg_put_ne other _, rfl, rfl⟩
  · exact ⟨fun _ _ => rfl, rfl, rfl⟩

/-- It is in PREPARING at once where it is the only target. -/
theorem State.prepares_leaves (s : State) (alone : Prop) [Decidable alone] :
    let t := if alone then (s.put F.HIER_CMT_STAT_PHASE cmtPreparing).selfCheck else s
    (∀ k, k ≠ F.HIER_STAT.base → k ≠ F.HIER_CMT_STAT.base → t.reg k = s.reg k) ∧ t.commit = s.commit ∧ t.link = s.link ∧
      t.get F.HIER_CMT_STAT_RESULT = s.get F.HIER_CMT_STAT_RESULT ∧ t.get F.HIER_CMT_STAT_OWNER = s.get F.HIER_CMT_STAT_OWNER ∧
      t.cmtId = s.cmtId ∧ t.cmtPhase = if alone then cmtPreparing else s.cmtPhase := by
  by_cases h : alone
  case neg =>
    simp only [if_neg h, implies_true, and_self]
  case pos =>
    simp only [if_pos h]
    obtain ⟨regs, commit, link⟩ := (s.put F.HIER_CMT_STAT_PHASE cmtPreparing).selfCheck_leaves
    have field (f : Fld) (other : f.addr 0 ≠ F.HIER_STAT.base := by decide) := State.get_eq_of_reg (regs (f.addr 0) other)
    refine ⟨fun k own stat => (regs k own).trans (s.reg_put_ne stat _), commit, link, (field _).trans ?_, (field _).trans ?_,
      (field _).trans ?_, (field _).trans ?_⟩
    · exact State.get_put_disj _ _ _ _ _ _ (by decide) (by decide)
    · exact State.get_put_disj _ _ _ _ _ _ (by decide) (by decide)
    · exact State.get_put_disj _ _ _ _ _ _ (by decide) (by decide)
    · exact State.get_put_same _ _ _ _ (by decide)

/-! ### SEND and PREPARE (R160) -/

/-- The commit is in STAGING again, and asks the workers `dests` for readiness. -/
def State.cmtStaged (dests : List Nat) (s : State) : State :=
  { (s.cmtResult cmtOk).put F.HIER_CMT_STAT_PHASE cmtStaging with
    commit := { s.commit with prepareDue := !dests.isEmpty, prepareTo := dests } }

theorem State.cmtStaged_shows (dests : List Nat) (s : State) : let u := s.cmtStaged dests
    u.get F.HIER_CMT_STAT_RESULT = cmtOk ∧ u.cmtPhase = cmtStaging ∧ u.cmtWorkers = s.cmtWorkers := by
  refine ⟨(State.get_put_disj (s.cmtResult cmtOk) _ F.HIER_CMT_STAT_RESULT cmtStaging _ _ (by decide) (by decide)).trans
    (s.get_put_same _ cmtOk _ (by decide)), (s.cmtResult cmtOk).get_put_same _ cmtStaging _ (by decide), ?_⟩
  have tgt : (s.cmtStaged dests).get64 F.HIER_CMT_TGT = s.get64 F.HIER_CMT_TGT :=
    ((s.cmtResult cmtOk).get64_put_ne _ _ _ _ (by decide) (by decide)).trans (s.get64_put_ne _ _ _ _ (by decide) (by decide))
  exact congrArg (fun m => m / 2 * 2) tgt

theorem State.cmtSend_eq (s : State) : s.cmtSend =
    let u := (s.notReady.foldl (fun s d => s.queueChunks d) s).cmtStaged s.notReady
    if u.cmtWorkers = 0 then (u.put F.HIER_CMT_STAT_PHASE cmtPreparing).selfCheck else u := rfl

theorem State.cmtSend_shows (s : State) : let u := s.cmtSend
    u.get F.HIER_CMT_STAT_RESULT = cmtOk ∧ u.cmtPhase = (if s.cmtWorkers = 0 then cmtPreparing else cmtStaging) ∧
      u.commit.prepareTo = s.notReady ∧
      u.link.queue.length = s.link.queue.length + s.notReady.length * chunksOf (s.get F.HIER_CMT_LEN_STAGE_LEN) := by
  have sends := State.Queues.sends s s.notReady
  rw [State.cmtSend_eq]
  generalize s.notReady.foldl (fun s d => s.queueChunks d) s = t at sends ⊢
  obtain ⟨ok, staging, workers⟩ := t.cmtStaged_shows s.notReady
  obtain ⟨-, commit, link, result, -, -, phase⟩ := (t.cmtStaged s.notReady).prepares_leaves
    ((t.cmtStaged s.notReady).cmtWorkers = 0)
  exact ⟨result.trans ok, phase.trans (by rw [staging, workers, sends.cmtWorkers]), congrArg CommitSt.prepareTo commit,
    (congrArg (fun l => l.queue.length) link).trans sends.queue⟩

theorem State.cmtPrepare_eq (s : State) : s.cmtPrepare =
    (let t := s.put F.HIER_CMT_STAT_RESULT cmtOk
    if s.cmtWorkers = 0 then (t.put F.HIER_CMT_STAT_PHASE cmtPreparing).selfCheck
    else { t with commit := { t.commit with prepareDue := true, prepareTo := [] } }) := by
  have tgt : (s.put F.HIER_CMT_STAT_RESULT cmtOk).cmtTgt = s.cmtTgt := s.get64_put_ne _ _ _ _ (by decide) (by decide)
  unfold State.cmtPrepare State.cmtResult State.cmtWorkers
  dsimp only
  rw [tgt]

/-! ### COMMIT and ABORT (R161) -/

theorem State.cmtLead_eq (s : State) : s.cmtLead = if s.cmtWorkers = 0 then 200 else 12000 := ite_not ..

theorem State.cmtDecide_notReady {s : State} {commit : Bool}
    (unready : ¬(commit = true → s.get64 F.HIER_CMT_READY = s.cmtTgt)) :
    s.cmtDecide commit = s.put F.HIER_CMT_STAT_RESULT cmtNotReady := if_pos (Classical.not_imp.1 unready)

theorem State.cmtDecide_late {s : State} {commit : Bool} (ready : commit = true → s.get64 F.HIER_CMT_READY = s.cmtTgt)
    (late : s.tickOf (s.get F.HIER_CMT_TICK_VALUE) - s.tick < s.cmtLead) :
    s.cmtDecide commit = s.put F.HIER_CMT_STAT_RESULT cmtLate := (if_neg fun h => h.2 (ready h.1)).trans (if_pos late)

theorem State.cmtDecide_range {s : State} {commit : Bool} (ready : commit = true → s.get64 F.HIER_CMT_READY = s.cmtTgt)
    (early : s.cmtLead ≤ s.tickOf (s.get F.HIER_CMT_TICK_VALUE) - s.tick)
    (past : s.commit.dead ≤ s.tickOf (s.get F.HIER_CMT_TICK_VALUE)) :
    s.cmtDecide commit = s.put F.HIER_CMT_STAT_RESULT cmtRange :=
  (if_neg fun h => h.2 (ready h.1)).trans ((if_neg (not_lt.2 early)).trans (if_pos past))

/-- The decision is taken, for the tick `tick`. -/
def State.cmtDecided (commit : Bool) (tick : Nat) (s : State) : State :=
  { (s.cmtResult cmtOk).put F.HIER_CMT_STAT_PHASE (if commit then cmtCommit else cmtAborting) with
    commit := { s.commit with decided := some commit, tick := tick, prepareDue := false } }

/-- The workers are told. -/
def State.cmtTold (commit : Bool) (tick : Nat) (s : State) : State :=
  if s.cmtWorkers ≠ 0 then
    s.queueCmd 2 (cmdBytes (if commit then 0x2B else 0x2C) 0 (destSet 3) 0 0 0 (leBytes s.cmtId 2 ++ [0, 0] ++ leBytes tick 8))
  else s

/-- The manager's own stage is armed. -/
def State.cmtArmed (commit : Bool) (tick : Nat) (s : State) : State :=
  if s.cmtSelf && s.stgState != stgNone then
    { s.put F.HIER_STAT_STG_STATE (if commit then stgCommit else stgAbort) with stage := { s.stage with armedAt := some tick } }
  else s

theorem State.cmtDecide_decides {s : State} {commit : Bool} (ready : commit = true → s.get64 F.HIER_CMT_READY = s.cmtTgt)
    (early : s.cmtLead ≤ s.tickOf (s.get F.HIER_CMT_TICK_VALUE) - s.tick)
    (ahead : s.tickOf (s.get F.HIER_CMT_TICK_VALUE) < s.commit.dead) :
    let tick := (s.tickOf (s.get F.HIER_CMT_TICK_VALUE)).toNat
    s.cmtDecide commit = ((s.cmtDecided commit tick).cmtTold commit tick).cmtArmed commit tick :=
  (if_neg fun h => h.2 (ready h.1)).trans ((if_neg (not_lt.2 early)).trans (if_neg (not_le.2 ahead)))

theorem State.cmtDecided_shows (commit : Bool) (tick : Nat) (s : State) : let u := s.cmtDecided commit tick
    u.get F.HIER_CMT_STAT_RESULT = cmtOk ∧ u.cmtPhase = (if commit then cmtCommit else cmtAborting) ∧ u.cmtId = s.cmtId ∧
      u.cmtTgt = s.cmtTgt ∧ u.stgState = s.stgState := by
  have put (f : Fld) (other : f.addr 0 ≠ F.HIER_CMT_STAT.base) : (s.cmtDecided commit tick).get f = s.get f :=
    ((s.cmtResult cmtOk).get_put_ne _ _ _ _ _ other).trans (s.get_put_ne _ _ _ _ _ other)
  refine ⟨((s.cmtResult cmtOk).get_put_disj _ _ _ _ _ (by decide) (by decide)).trans (s.get_put_same _ cmtOk _ (by decide)),
    ((s.cmtResult cmtOk).get_put_same _ _ _ (by decide)).trans (by cases commit <;> rfl),
    ((s.cmtResult cmtOk).get_put_disj _ _ _ _ _ (by decide) (by decide)).trans
      (s.get_put_disj _ _ _ _ _ (by decide) (by decide)),
    ((s.cmtResult cmtOk).get64_put_ne _ _ _ _ (by decide) (by decide)).trans (s.get64_put_ne _ _ _ _ (by decide) (by decide)),
    put _ (by decide)⟩

theorem State.cmtTold_leaves (commit : Bool) (tick : Nat) (s : State) : let u := s.cmtTold commit tick
    u.regs = s.regs ∧ u.commit = s.commit ∧ u.stage = s.stage := by
  unfold State.cmtTold
  split <;> exact ⟨rfl, rfl, rfl⟩

theorem State.cmtTold_queue (commit : Bool) (tick : Nat) (s : State) : (s.cmtTold commit tick).link.queue =
    if s.cmtWorkers = 0 then s.link.queue else s.link.queue ++ [⟨2, cmdBytes (if commit then 0x2B else 0x2C) 0 (destSet 3) 0 0 0
      (leBytes s.cmtId 2 ++ [0, 0] ++ leBytes tick 8), .none⟩] := by
  unfold State.cmtTold
  rw [ite_not]
  split <;> rfl

theorem State.cmtArmed_leaves (commit : Bool) (tick : Nat) (s : State) : let u := s.cmtArmed commit tick
    (∀ k, k ≠ F.HIER_STAT.base → u.reg k = s.reg k) ∧ u.commit = s.commit ∧ u.link = s.link := by
  unfold State.cmtArmed
  split
  · exact ⟨fun k other => s.reg_put_ne other _, rfl, rfl⟩
  · exact ⟨fun _ _ => rfl, rfl, rfl⟩

theorem State.cmtArmed_own {s : State} (commit : Bool) (tick : Nat) (self : s.cmtSelf = true) (stage : s.stgState ≠ 0) :
    let u := s.cmtArmed commit tick
    u.stage.armedAt = some tick ∧ u.stgState = if commit then stgCommit else stgAbort := by
  unfold State.cmtArmed
  rw [if_pos (by simpa [self, stgNone] using stage)]
  exact ⟨rfl, (s.get_put_same _ _ _ (by decide)).trans (by cases commit <;> rfl)⟩

theorem State.cmtDecide_shows {s : State} {commit : Bool} (ready : commit = true → s.get64 F.HIER_CMT_READY = s.cmtTgt)
    (early : s.cmtLead ≤ s.tickOf (s.get F.HIER_CMT_TICK_VALUE) - s.tick)
    (ahead : s.tickOf (s.get F.HIER_CMT_TICK_VALUE) < s.commit.dead) :
    let tick := (s.tickOf (s.get F.HIER_CMT_TICK_VALUE)).toNat
    let u := s.cmtDecide commit
    u.get F.HIER_CMT_STAT_RESULT = cmtOk ∧ u.cmtPhase = (if commit then cmtCommit else cmtAborting) ∧
      u.commit.decided = some commit ∧ u.commit.tick = tick ∧
      u.link.queue = (if s.cmtWorkers = 0 then s.link.queue else s.link.queue ++ [⟨2,
        cmdBytes (if commit then 0x2B else 0x2C) 0 (destSet 3) 0 0 0 (leBytes s.cmtId 2 ++ [0, 0] ++ leBytes tick 8), .none⟩]) ∧
      (s.cmtSelf = true → s.stgState ≠ 0 → u.stage.armedAt = some tick ∧
        u.stgState = (if commit then stgCommit else stgAbort)) := by
  dsimp only
  rw [State.cmtDecide_decides ready early ahead]
  generalize (s.tickOf (s.get F.HIER_CMT_TICK_VALUE)).toNat = tick
  obtain ⟨ok, phase, id, tgt, own⟩ := s.cmtDecided_shows commit tick
  obtain ⟨toldRegs, toldCommit, toldStage⟩ := (s.cmtDecided commit tick).cmtTold_leaves commit tick
  obtain ⟨armedRegs, armedCommit, armedLink⟩ := ((s.cmtDecided commit tick).cmtTold commit tick).cmtArmed_leaves commit tick
  have workers : (s.cmtDecided commit tick).cmtWorkers = s.cmtWorkers := congrArg (fun m => m / 2 * 2) tgt
  have field (f : Fld) (other : f.addr 0 ≠ F.HIER_STAT.base) : State.get _ f = (s.cmtDecided commit tick).get f :=
    State.get_eq_of_reg ((armedRegs _ other).trans (State.reg_of_regs toldRegs _))
  have commits := armedCommit.trans toldCommit
  refine ⟨(field _ (by decide)).trans ok, (field _ (by decide)).trans phase, congrArg CommitSt.decided commits,
    congrArg CommitSt.tick commits, ?queue, fun self stage => ?armed⟩
  case queue =>
    rw [armedLink, State.cmtTold_queue, workers, id]
    rfl
  case armed =>
    refine State.cmtArmed_own commit tick ?_ ?_
    · rw [← self]
      unfold State.cmtSelf State.cmtTgt
      rw [State.get64_of_regs (State.reg_of_regs toldRegs _) (State.reg_of_regs toldRegs _)]
      exact congrArg (fun m => m % 2 == 1) tgt
    · refine ne_of_eq_of_ne ((State.get_eq_of_reg (State.reg_of_regs toldRegs _)).trans own) stage

/-! ### OPEN (R158) -/

/-- The commit takes its ID and its deadline. -/
def State.openStarts (s : State) : State :=
  { s.takeId.2 with
    openIds := s.takeId.2.openIds ++ [s.takeId.1], commit := { dead := s.tickOf (s.get F.HIER_CMT_DEAD_VALUE) } }

/-- HIER_CMT_STAT shows it, and its masks are clear. -/
def State.openShows (p : Party) (id : Nat) (s : State) : State :=
  let t := (((s.put F.HIER_CMT_STAT_ID id).put F.HIER_CMT_STAT_OWNER p.code).cmtResult cmtOk).put
    F.HIER_CMT_STAT_PHASE cmtStaging
  (((t.clearMask F.HIER_CMT_READY).clearMask F.HIER_CMT_REFUSE).clearMask F.HIER_CMT_STALE).clearMask F.HIER_CMT_DONE

/-- The workers get the stage. -/
def State.openTells (id npar td len : Nat) (s : State) : State :=
  if s.cmtWorkers ≠ 0 then
    let t := s.queueCmd 3 (selectBytes 3 s.cmtWorkers)
    let t := t.queueCmd 4 (cmdBytes 0x28 flagAns (destSet 3) 0 0 0
      (leBytes id 2 ++ leBytes npar 2 ++ leBytes td 8 ++ leBytes len 4)) .stgOpen
    let t := t.queueChunks (destSet 3)
    { t with commit := { t.commit with prepareDue := true, checkAt := some td } }
  else s

/-- The manager opens a stage of its own. -/
def State.openOwns (id npar td len : Nat) (s : State) : State :=
  if s.cmtSelf then
    let t := s.stageBegin id npar len td (List.range (chunksOf len))
    if t.cmtWorkers = 0 then (t.put F.HIER_CMT_STAT_PHASE cmtPreparing).selfCheck else t
  else s

/-- What OPEN needs of the registers of a commit (R158). -/
def State.openOk (s : State) : Prop :=
  let lead := s.tickOf (s.get F.HIER_CMT_DEAD_VALUE) - s.tick
  36000 ≤ lead ∧ lead ≤ 2 ^ 31 - 1 ∧ s.cmtTgt ≠ 0 ∧ 20 ≤ s.get F.HIER_CMT_LEN_STAGE_LEN ∧
    s.get F.HIER_CMT_LEN_STAGE_LEN ≤ 24576 ∧ s.get F.HIER_CMT_LEN_NPAR ≠ 0

theorem State.cmtOpen_range {s : State} (p : Party) (idle : s.cmtPhase = 0) (bad : ¬s.openOk) :
    s.cmtOpen p = s.put F.HIER_CMT_STAT_RESULT cmtRange := by
  unfold State.openOk at bad
  exact (if_neg (not_not.2 idle)).trans (if_pos (by omega))

theorem State.cmtOpen_order {s : State} (p : Party) (idle : s.cmtPhase = 0) (ok : s.openOk) (self : s.cmtSelf = true)
    (stage : s.stgState ≠ 0) : s.cmtOpen p = s.put F.HIER_CMT_STAT_RESULT cmtOrder := by
  unfold State.openOk at ok
  exact (if_neg (not_not.2 idle)).trans ((if_neg (by omega)).trans (if_pos ⟨self, stage⟩))

theorem State.cmtOpen_opens {s : State} (p : Party) (idle : s.cmtPhase = 0) (ok : s.openOk)
    (free : s.cmtSelf = false ∨ s.stgState = 0) : s.cmtOpen p =
      let id := s.takeId.1
      let td := (s.tickOf (s.get F.HIER_CMT_DEAD_VALUE)).toNat
      let npar := s.get F.HIER_CMT_LEN_NPAR
      let len := s.get F.HIER_CMT_LEN_STAGE_LEN
      ((s.openStarts.openShows p id).openTells id npar td len).openOwns id npar td len := by
  unfold State.openOk at ok
  have owned : ¬(s.cmtSelf = true ∧ s.stgState ≠ stgNone) := fun h => free.elim (by simp [h.1]) h.2
  exact (if_neg (not_not.2 idle)).trans ((if_neg (by omega)).trans (if_neg owned))

theorem State.openStarts_leaves (s : State) :
    s.openStarts.regs = s.regs ∧ s.openStarts.link = s.link ∧ s.openStarts.stage = s.stage := by
  unfold State.openStarts State.takeId
  split
  · exact ⟨rfl, rfl, rfl⟩
  · dsimp only
    split <;> exact ⟨rfl, rfl, rfl⟩

theorem State.openShows_leaves (p : Party) (id : Nat) (s : State) : let u := s.openShows p id
    u.link = s.link ∧ u.commit = s.commit ∧ u.stage = s.stage ∧ u.cmtTgt = s.cmtTgt ∧
      u.get F.HIER_CMT_LEN_STAGE_LEN = s.get F.HIER_CMT_LEN_STAGE_LEN := by
  refine ⟨?_, ?_, ?_, ?_, ?_⟩
  · simp [State.openShows, State.clearMask, State.cmtResult, State.put64]
  · simp [State.openShows, State.clearMask, State.cmtResult, State.put64]
  · simp [State.openShows, State.clearMask, State.cmtResult, State.put64]
  · unfold State.openShows State.clearMask State.cmtResult State.cmtTgt
    simp (disch := decide) only [State.get64_put64_ne, State.get64_put_ne]
  · unfold State.openShows State.clearMask State.cmtResult
    simp (disch := decide) only [State.get_put64_ne, State.get_put_ne]

theorem State.openShows_shows (p : Party) (id : Nat) (s : State) : let u := s.openShows p id
    u.get F.HIER_CMT_STAT_RESULT = cmtOk ∧ u.get F.HIER_CMT_STAT_OWNER = p.code ∧ u.cmtId = id % 65536 ∧
      u.cmtPhase = cmtStaging ∧ u.get64 F.HIER_CMT_READY = 0 ∧ u.get64 F.HIER_CMT_DONE = 0 := by
  unfold State.openShows State.clearMask State.cmtResult State.cmtId State.cmtPhase
  simp (disch := decide) only [State.get64_put64_ne, State.get64_put64_zero, State.get_put64_ne, State.get_put_same,
    State.get_put_disj]
  exact ⟨rfl, Nat.mod_eq_of_lt (partyCode_lt p), rfl, rfl, trivial, trivial⟩

theorem State.openTells_alone {s : State} (id npar td len : Nat) (alone : s.cmtWorkers = 0) :
    s.openTells id npar td len = s := if_neg (not_not.2 alone)

theorem State.openTells_workers {s : State} (id npar td len : Nat) (workers : s.cmtWorkers ≠ 0) : ∃ t : State,
    s.Queues t (2 + chunksOf (s.get F.HIER_CMT_LEN_STAGE_LEN)) ∧
      s.openTells id npar td len = { t with commit := { t.commit with prepareDue := true, checkAt := some td } } :=
  ⟨_, ((State.Queues.queueCmd s _ _ _).trans (.queueCmd _ _ _ _)).trans (.queueChunks _ _), if_pos workers⟩

theorem State.openTells_leaves (id npar td len : Nat) (s : State) : let u := s.openTells id npar td len
    (∀ k, 0x1000 ≤ k → k < 0x2000 → u.reg k = s.reg k) ∧ u.stage = s.stage ∧ u.commit.dead = s.commit.dead := by
  by_cases workers : s.cmtWorkers = 0
  · rw [State.openTells_alone id npar td len workers]
    exact ⟨fun _ _ _ => rfl, rfl, rfl⟩
  · obtain ⟨t, queues, told⟩ := State.openTells_workers id npar td len workers
    rw [told]
    exact ⟨queues.regs, queues.stage, by dsimp only; rw [queues.commit]⟩

theorem State.openTells_queue {s : State} (id npar td len : Nat) (workers : s.cmtWorkers ≠ 0) :
    (s.openTells id npar td len).link.queue.length = s.link.queue.length + 2 + chunksOf (s.get F.HIER_CMT_LEN_STAGE_LEN) := by
  obtain ⟨t, queues, told⟩ := State.openTells_workers id npar td len workers
  rw [told, Nat.add_assoc]
  exact queues.queue

theorem State.stageBegin_leaves (id npar len dead : Nat) (got : List Nat) (s : State) : let u := s.stageBegin id npar len dead got
    (∀ k, k ≠ F.HIER_STAT.base → u.reg k = s.reg k) ∧ u.commit = s.commit ∧ u.link = s.link ∧ u.stgState = stgOpen ∧
      u.stgId = id % 65536 ∧ u.stage = { npar := npar, len := len, dead := dead, got := got } := by
  refine ⟨fun k other => ?_, rfl, rfl, ?_, ?_, rfl⟩
  · exact ((s.put F.HIER_STAT_STG_STATE stgOpen).reg_put_ne other _).trans (s.reg_put_ne other _)
  · exact ((s.put F.HIER_STAT_STG_STATE stgOpen).get_put_disj _ _ _ _ _ (by decide) (by decide)).trans
      (s.get_put_same _ stgOpen _ (by decide))
  · exact (s.put F.HIER_STAT_STG_STATE stgOpen).get_put_same _ _ _ (by decide)

/-- An open stage that is checked again is open still. -/
theorem State.selfCheck_open {s : State} (opened : s.stgState = stgOpen) :
    s.selfCheck.stgState = stgOpen ∧ s.selfCheck.stage.dead = s.stage.dead := by
  unfold State.selfCheck
  split
  · exact ⟨s.get_put_same F.HIER_STAT_STG_STATE stgOpen 0 (by decide), rfl⟩
  · exact ⟨opened, rfl⟩

theorem State.openOwns_leaves (id npar td len : Nat) (s : State) : let u := s.openOwns id npar td len
    (∀ k, k ≠ F.HIER_STAT.base → k ≠ F.HIER_CMT_STAT.base → u.reg k = s.reg k) ∧ u.commit = s.commit ∧ u.link = s.link ∧
      u.get F.HIER_CMT_STAT_RESULT = s.get F.HIER_CMT_STAT_RESULT ∧ u.get F.HIER_CMT_STAT_OWNER = s.get F.HIER_CMT_STAT_OWNER ∧
      u.cmtId = s.cmtId ∧ u.cmtPhase = if s.cmtSelf = true ∧ s.cmtWorkers = 0 then cmtPreparing else s.cmtPhase := by
  unfold State.openOwns
  split
  case isFalse other =>
    rw [if_neg fun h => other h.1]
    exact ⟨fun _ _ _ => rfl, rfl, rfl, rfl, rfl, rfl, rfl⟩
  case isTrue self =>
    obtain ⟨began, commit, link, -⟩ := s.stageBegin_leaves id npar len td (List.range (chunksOf len))
    generalize s.stageBegin id npar len td (List.range (chunksOf len)) = t at began commit link ⊢
    have field (f : Fld) (other : f.addr 0 ≠ F.HIER_STAT.base) : t.get f = s.get f := State.get_eq_of_reg (began _ other)
    have workers : t.cmtWorkers = s.cmtWorkers := congrArg (fun m => m / 2 * 2)
      (State.get64_of_regs (f := F.HIER_CMT_TGT) (began _ (by decide)) (began _ (by decide)))
    obtain ⟨regs, commit', link', result, owner, id', phase⟩ := t.prepares_leaves (t.cmtWorkers = 0)
    refine ⟨fun k own stat => (regs k own stat).trans (began k own), commit'.trans commit, link'.trans link,
      result.trans (field _ (by decide)), owner.trans (field _ (by decide)), id'.trans (field _ (by decide)), phase.trans ?_⟩
    rw [workers, show t.cmtPhase = s.cmtPhase from field _ (by decide)]
    exact if_congr (by simp [self]) rfl rfl

theorem State.openOwns_own {s : State} (id npar td len : Nat) (self : s.cmtSelf = true) : let u := s.openOwns id npar td len
    u.stgState = stgOpen ∧ u.stage.dead = td := by
  obtain ⟨-, -, -, opened, -, stage⟩ := s.stageBegin_leaves id npar len td (List.range (chunksOf len))
  unfold State.openOwns
  rw [if_pos self]
  generalize s.stageBegin id npar len td (List.range (chunksOf len)) = t at opened stage ⊢
  have dead : t.stage.dead = td := congrArg StageSt.dead stage
  have phase : (t.put F.HIER_CMT_STAT_PHASE cmtPreparing).stgState = stgOpen :=
    (t.get_put_ne _ _ _ _ _ (by decide)).trans opened
  dsimp only
  split
  · obtain ⟨checked, same⟩ := State.selfCheck_open phase
    exact ⟨checked, same.trans dead⟩
  · exact ⟨opened, dead⟩

/-- Once the commit is taken: what the telling of the workers and the stage of the manager leave and do. -/
theorem State.opened_shows (id npar td len : Nat) (s : State) (some' : s.cmtTgt ≠ 0) (staging : s.cmtPhase = cmtStaging) :
    let u := (s.openTells id npar td len).openOwns id npar td len
    u.get F.HIER_CMT_STAT_RESULT = s.get F.HIER_CMT_STAT_RESULT ∧ u.get F.HIER_CMT_STAT_OWNER = s.get F.HIER_CMT_STAT_OWNER ∧
      u.cmtId = s.cmtId ∧ u.cmtPhase = (if s.cmtWorkers = 0 then cmtPreparing else cmtStaging) ∧ u.commit.dead = s.commit.dead ∧
      u.get64 F.HIER_CMT_READY = s.get64 F.HIER_CMT_READY ∧ u.get64 F.HIER_CMT_DONE = s.get64 F.HIER_CMT_DONE ∧
      (s.cmtSelf = true → u.stgState = stgOpen ∧ u.stage.dead = td) ∧
      (s.cmtWorkers = 0 → u.link.queue = s.link.queue) ∧
      (s.cmtWorkers ≠ 0 → u.link.queue.length = s.link.queue.length + 2 + chunksOf (s.get F.HIER_CMT_LEN_STAGE_LEN)) := by
  have tells := State.openTells_queue (s := s) id npar td len
  have alone := State.openTells_alone (s := s) id npar td len
  obtain ⟨told, -, toldDead⟩ := s.openTells_leaves id npar td len
  dsimp only
  generalize s.openTells id npar td len = t at tells alone told toldDead ⊢
  obtain ⟨regs, commit, link, result, owner, cid, phase⟩ := t.openOwns_leaves id npar td len
  have owns := State.openOwns_own (s := t) id npar td len
  generalize t.openOwns id npar td len = u at regs commit link result owner cid phase owns ⊢
  have field (f : Fld) (least : 0x1000 ≤ f.addr 0) (most : f.addr 0 < 0x2000) : t.get f = s.get f :=
    State.get_eq_of_reg (told _ least most)
  have tgt : t.cmtTgt = s.cmtTgt := State.get64_of_regs (told _ (by decide) (by decide)) (told _ (by decide) (by decide))
  have self : t.cmtSelf = s.cmtSelf := congrArg (fun m => m % 2 == 1) tgt
  have workers : t.cmtWorkers = s.cmtWorkers := congrArg (fun m => m / 2 * 2) tgt
  have mask (f : Fld) (least : 0x1000 ≤ f.addr 0) (most : f.addr 0 + 1 < 0x2000)
      (apart : F.HIER_CMT_STAT.base < f.addr 0) : u.get64 f = s.get64 f := by
    have ordered : F.HIER_STAT.base < F.HIER_CMT_STAT.base := by decide
    exact State.get64_of_regs ((regs _ (by omega) (by omega)).trans (told _ least (by omega)))
      ((regs _ (by omega) (by omega)).trans (told _ (by omega) most))
  refine ⟨result.trans (field _ (by decide) (by decide)), owner.trans (field _ (by decide) (by decide)),
    cid.trans (field _ (by decide) (by decide)), phase.trans ?phase, (congrArg CommitSt.dead commit).trans toldDead,
    mask _ (by decide) (by decide) (by decide), mask _ (by decide) (by decide) (by decide), fun own => owns (self.trans own),
    fun none => ?_, fun some => ?_⟩
  case phase =>
    have only : s.cmtWorkers = 0 → s.cmtSelf = true := by
      unfold State.cmtWorkers State.cmtSelf
      simp only [beq_iff_eq]
      omega
    rw [self, workers, show t.cmtPhase = s.cmtPhase from field _ (by decide) (by decide), staging]
    exact if_congr ⟨And.right, fun none => ⟨only none, none⟩⟩ rfl rfl
  · rw [link, alone none]
  · rw [link, tells some]

theorem State.cmtOpen_shows {s : State} (p : Party) (idle : s.cmtPhase = 0) (ok : s.openOk)
    (free : s.cmtSelf = false ∨ s.stgState = 0) :
    let u := s.cmtOpen p
    let td := s.tickOf (s.get F.HIER_CMT_DEAD_VALUE)
    u.get F.HIER_CMT_STAT_RESULT = cmtOk ∧ u.get F.HIER_CMT_STAT_OWNER = p.code ∧ u.cmtId = s.takeId.1 % 65536 ∧
      u.cmtPhase = (if s.cmtWorkers = 0 then cmtPreparing else cmtStaging) ∧ u.commit.dead = td ∧
      u.get64 F.HIER_CMT_READY = 0 ∧ u.get64 F.HIER_CMT_DONE = 0 ∧
      (s.cmtSelf = true → u.stgState = stgOpen ∧ u.stage.dead = td.toNat) ∧
      (s.cmtWorkers = 0 → u.link.queue = s.link.queue) ∧
      (s.cmtWorkers ≠ 0 → u.link.queue.length = s.link.queue.length + 2 + chunksOf (s.get F.HIER_CMT_LEN_STAGE_LEN)) := by
  dsimp only
  rw [State.cmtOpen_opens p idle ok free]
  obtain ⟨-, -, some', -⟩ := ok
  obtain ⟨startRegs, startLink, -⟩ := s.openStarts_leaves
  have startDead : s.openStarts.commit.dead = s.tickOf (s.get F.HIER_CMT_DEAD_VALUE) := rfl
  generalize s.openStarts = t at startRegs startLink startDead ⊢
  obtain ⟨ok, owner, id, phase, ready, done⟩ := t.openShows_shows p s.takeId.1
  obtain ⟨link, commit, -, tgt, len⟩ := t.openShows_leaves p s.takeId.1
  have targets : (t.openShows p s.takeId.1).cmtTgt = s.cmtTgt :=
    tgt.trans (State.get64_of_regs (State.reg_of_regs startRegs _) (State.reg_of_regs startRegs _))
  have shows := State.opened_shows s.takeId.1 (s.get F.HIER_CMT_LEN_NPAR) (s.tickOf (s.get F.HIER_CMT_DEAD_VALUE)).toNat
    (s.get F.HIER_CMT_LEN_STAGE_LEN) _ (targets ▸ some') phase
  dsimp only at shows ⊢
  rw [ok, owner, id, ready, done, link, startLink, commit, startDead, len, State.get_eq_of_reg (State.reg_of_regs startRegs _),
    show (t.openShows p s.takeId.1).cmtWorkers = s.cmtWorkers from congrArg (fun m => m / 2 * 2) targets,
    show (t.openShows p s.takeId.1).cmtSelf = s.cmtSelf from congrArg (fun m => m % 2 == 1) targets] at shows
  exact shows

/-! ### Repairs and CLOSE (R166, R167) -/

theorem State.cmtRepair_eq (s : State) (commit : Bool) (dev : Nat) : s.cmtRepair commit dev =
    (let tc := s.tickOf (s.get F.HIER_CMT_TICK_VALUE)
    if s.commit.decided.getD false ≠ commit ∨ s.maskBit F.HIER_CMT_STALE dev = false then s.put F.HIER_CMT_STAT_RESULT cmtOrder
    else if tc - s.tick < 12000 then s.put F.HIER_CMT_STAT_RESULT cmtLate
    else
      let t := (s.put F.HIER_CMT_STAT_RESULT cmtOk).queueCmd 2 (cmdBytes (if commit then 0x2B else 0x2C) 0 dev 0 0 0
        (leBytes s.cmtId 2 ++ [0, 0] ++ leBytes tc.toNat 8))
      { t with commit := { t.commit with
        decided := some commit
        repairs := t.commit.repairs.filter (fun r => r.1 != dev) ++ [(dev, tc.toNat)] } }) := by
  unfold State.cmtRepair State.cmtResult
  simp only [Bool.not_eq_true']

/-- The manager's own stage, where it is not armed, goes with the commit. -/
def State.cmtFrees (s : State) : State :=
  if s.isManager && (s.stgState == stgOpen || s.stgState == stgReady) then s.stageFree else s

/-- And its commands leave the queue. -/
def State.cmtLeaves (s : State) : State :=
  { s with commit := {}, link := { s.link with queue := s.link.queue.filter (fun c => !commitPurpose c.purpose) } }

/-- And HIER_CMT_STAT is idle. -/
def State.cmtRests (s : State) : State :=
  ((s.put F.HIER_CMT_STAT_PHASE cmtIdlePh).put F.HIER_CMT_STAT_ID 0).put F.HIER_CMT_STAT_OWNER 0

theorem State.cmtClose_eq (s : State) : s.cmtClose = (s.closeId s.cmtId).cmtFrees.cmtLeaves.cmtRests := rfl

theorem State.cmtRests_shows (s : State) : let u := s.cmtRests.cmtResult cmtOk
    u.cmtPhase = 0 ∧ u.cmtId = 0 ∧ u.get F.HIER_CMT_STAT_RESULT = cmtOk ∧ u.commit = s.commit ∧ u.link = s.link ∧
      u.stgState = s.stgState := by
  unfold State.cmtRests State.cmtResult State.cmtPhase State.cmtId State.stgState
  simp (disch := decide) only [State.get_put_same, State.get_put_disj, State.get_put_ne, State.put_commit, State.put_link]
  decide

theorem State.cmtFrees_leaves (s : State) : s.cmtFrees.link = s.link := by
  unfold State.cmtFrees
  split <;> rfl

theorem State.cmtFrees_stage {s : State} (manager : s.isManager = true) (unarmed : s.stgState = stgOpen ∨ s.stgState = stgReady) :
    s.cmtFrees.stgState = 0 := by
  unfold State.cmtFrees
  rw [if_pos (by simpa [manager] using unarmed)]
  exact ((s.put F.HIER_STAT_STG_STATE stgNone).get_put_disj _ _ _ _ _ (by decide) (by decide)).trans
    (s.get_put_same _ stgNone _ (by decide))

theorem State.closeId_leaves (id : Nat) (s : State) : (s.closeId id).regs = s.regs ∧ (s.closeId id).link = s.link := by
  unfold State.closeId
  split <;> exact ⟨rfl, rfl⟩

theorem State.cmtClose_shows {s : State} (manager : s.isManager = true) : let u := s.cmtClose.cmtResult cmtOk
    u.cmtPhase = 0 ∧ u.cmtId = 0 ∧ u.get F.HIER_CMT_STAT_RESULT = cmtOk ∧ u.commit = {} ∧
      (∀ c ∈ u.link.queue, c ∈ s.link.queue ∧ commitPurpose c.purpose = false) ∧
      (s.stgState = stgOpen ∨ s.stgState = stgReady → u.stgState = 0) := by
  rw [State.cmtClose_eq]
  obtain ⟨phase, id, ok, commit, link, stage⟩ := (s.closeId s.cmtId).cmtFrees.cmtLeaves.cmtRests_shows
  obtain ⟨regs, closed⟩ := s.closeId_leaves s.cmtId
  have freed := (s.closeId s.cmtId).cmtFrees_leaves.trans closed
  generalize s.closeId s.cmtId = t at phase id ok commit link stage regs freed ⊢
  refine ⟨phase, id, ok, commit, fun c mem => ?_, fun unarmed => stage.trans ?_⟩
  · rw [link] at mem
    obtain ⟨mem, purpose⟩ := List.mem_filter.1 mem
    rw [freed] at mem
    exact ⟨mem, by simpa using purpose⟩
  · refine State.cmtFrees_stage (s := t) ?_ ?_
    · unfold State.isManager
      rw [State.on_eq_of_reg (State.reg_of_regs regs _)]
      exact manager
    · rw [show t.stgState = s.stgState from State.get_eq_of_reg (State.reg_of_regs regs _)]
      exact unarmed

/-! ### The commands in their places -/

/-- A write that raises no event leaves none to be taken later. -/
theorem State.eventsLater_none {s : State} (calm : s.events = []) : s.eventsLater 0 = s := by
  unfold State.eventsLater
  rw [calm]
  show ({ s with events := [] } : State) = s
  rw [← calm]

theorem State.cmtCmd_open {s : State} (p : Party) (manager : s.isManager = true) (idle : s.cmtPhase = 0) :
    s.cmtCmd p opOpen 0 = s.cmtOpen p := by
  rw [s.cmtCmd_manager p 0 manager (by decide) (by decide), if_neg (fun h => h.1 idle), if_pos rfl]

section
variable {s : State} {p : Party} (manager : s.isManager = true) (own : s.get F.HIER_CMT_STAT_OWNER = p.code)
include manager own

theorem State.cmtCmd_close (run : s.cmtPhase ≠ 0) : s.cmtCmd p opClose 0 = s.cmtClose.cmtResult cmtOk := by
  rw [s.cmtCmd_manager p 0 manager (by decide) (by decide), if_neg (fun h => h.2 own), if_neg (by decide), if_neg run,
    if_pos rfl]

theorem State.cmtCmd_repair (run : s.cmtPhase ≠ 0) (commit : Bool) (dev : Nat) :
    s.cmtCmd p (if commit then opRepairCommit else opRepairAbort) dev = s.cmtRepair commit dev := by
  cases commit
  · rw [s.cmtCmd_manager p dev manager (by decide) (by decide), if_neg (fun h => h.2 own), if_neg (by decide), if_neg run,
      if_neg (by decide), if_neg (by decide), if_pos (by decide)]
  · rw [s.cmtCmd_manager p dev manager (by decide) (by decide), if_neg (fun h => h.2 own), if_neg (by decide), if_neg run,
      if_neg (by decide), if_pos (by decide)]

/-- The commands of a commit that is not decided. -/
theorem State.cmtCmd_undecided (staged : s.cmtPhase = cmtStaging ∨ s.cmtPhase = cmtPreparing) {op : Nat} (least : opSend ≤ op)
    (most : op ≤ opAbort) : s.cmtCmd p op 0 =
      if op = opSend then s.cmtSend else if op = opPrepare then s.cmtPrepare else s.cmtDecide (op == opCommit) := by
  have run : s.cmtPhase ≠ 0 := by rcases staged with h | h <;> rw [h] <;> decide
  simp only [opSend, opAbort] at least most
  rw [s.cmtCmd_manager p 0 manager (by omega) (by omega), if_neg (fun h => h.2 own), if_neg (by unfold opOpen; omega),
    if_neg run,
    if_neg (by unfold opClose; omega), if_neg (by unfold opRepairCommit; omega), if_neg (by unfold opRepairAbort; omega),
    if_neg (by tauto)]

end

/-- A command of the commit unit with nothing else under way. -/
theorem completes_cmtRow {p : Party} {dev : BitVec 6} {i : Instr} {op n : Nat} (mem : (i, op, n) ∈ cmtRows p dev) {s : State}
    (quiet : s.Quiet) (admits : s.admits p = true) {P : State → Prop}
    (shows : ∀ c, s.NextCycle c → c.events = [] → P ((c.cmtCmd p op n).eventsLater 0)) : Completes i s P := by
  refine ((grants_cmtRow (f := State.cmtCmd p op n) mem fun _ _ => rfl).2 quiet admits).imp ?_
  rintro _ ⟨c, next, rfl⟩
  exact shows c next (next.events_nil quiet.events)

theorem completes_openCmt (s : State) (p : Party) (manager : s.isManager = true) (idle : s.cmtPhase = 0) :
    let td (c : State) : Int := c.tickOf (s.get F.HIER_CMT_DEAD_VALUE)
    s.Quiet → s.admits p = true → Completes (.openCmt p) s (fun u => ∃ c, s.NextCycle c ∧
      (td c - c.tick < 36000 ∨ 2 ^ 31 - 1 < td c - c.tick ∨ s.cmtTgt = 0 ∨ s.get F.HIER_CMT_LEN_STAGE_LEN < 20 ∨
        24576 < s.get F.HIER_CMT_LEN_STAGE_LEN ∨ s.get F.HIER_CMT_LEN_NPAR = 0 →
        u = c.put F.HIER_CMT_STAT_RESULT cmtRange) ∧
      (36000 ≤ td c - c.tick → td c - c.tick ≤ 2 ^ 31 - 1 → s.cmtTgt ≠ 0 → 20 ≤ s.get F.HIER_CMT_LEN_STAGE_LEN →
        s.get F.HIER_CMT_LEN_STAGE_LEN ≤ 24576 → s.get F.HIER_CMT_LEN_NPAR ≠ 0 →
        (s.cmtSelf = true ∧ s.stgState ≠ 0 → u = c.put F.HIER_CMT_STAT_RESULT cmtOrder) ∧
        (s.cmtSelf = false ∨ s.stgState = 0 →
          u.get F.HIER_CMT_STAT_RESULT = cmtOk ∧ u.get F.HIER_CMT_STAT_OWNER = p.code ∧ u.cmtId = c.takeId.1 % 65536 ∧
            u.cmtPhase = (if s.cmtWorkers = 0 then cmtPreparing else cmtStaging) ∧ u.commit.dead = td c ∧
            u.get64 F.HIER_CMT_READY = 0 ∧ u.get64 F.HIER_CMT_DONE = 0 ∧
            (s.cmtSelf = true → u.stgState = stgOpen ∧ u.stage.dead = (td c).toNat) ∧
            (s.cmtWorkers = 0 → u.link.queue = c.link.queue) ∧
            (s.cmtWorkers ≠ 0 → u.link.queue.length =
              c.link.queue.length + 2 + chunksOf (s.get F.HIER_CMT_LEN_STAGE_LEN))))) := by
  intro td quiet admits
  refine completes_cmtRow (dev := 0) (List.mem_cons_self ..) quiet admits fun c next calm => ⟨c, next, ?_⟩
  have same := next.queues
  have idle' : c.cmtPhase = 0 := next.cmtPhase.trans idle
  rw [State.cmtCmd_open p (next.isManager.trans manager) idle']
  have tgt : c.cmtTgt = s.cmtTgt := same.get64 F.HIER_CMT_TGT
  dsimp only [td]
  rw [← same.get F.HIER_CMT_DEAD_VALUE, ← tgt, ← same.get F.HIER_CMT_LEN_STAGE_LEN, ← same.get F.HIER_CMT_LEN_NPAR,
    ← same.cmtSelf, ← same.stgState, ← same.cmtWorkers]
  refine ⟨fun bad => ?_, fun least most some len lenMost npar => ?_⟩
  · rw [State.cmtOpen_range p idle' (by unfold State.openOk; omega)]
    exact State.eventsLater_none calm
  · have ok : c.openOk := ⟨least, most, some, len, lenMost, npar⟩
    refine ⟨fun own => ?_, fun free => State.cmtOpen_shows p idle' ok free⟩
    rw [State.cmtOpen_order p idle' ok own.1 own.2]
    exact State.eventsLater_none calm

theorem completes_sendCmt (s : State) (p : Party) (manager : s.isManager = true)
    (staged : s.cmtPhase = cmtStaging ∨ s.cmtPhase = cmtPreparing) (own : s.get F.HIER_CMT_STAT_OWNER = p.code)
    (quiet : s.Quiet) (admits : s.admits p = true) : Completes (.sendCmt p) s (fun u =>
      u.get F.HIER_CMT_STAT_RESULT = cmtOk ∧ u.cmtPhase = (if s.cmtWorkers = 0 then cmtPreparing else cmtStaging) ∧
        u.commit.prepareTo = s.notReady ∧
        u.link.queue.length = s.link.queue.length + s.notReady.length * chunksOf (s.get F.HIER_CMT_LEN_STAGE_LEN)) := by
  refine completes_cmtRow (dev := 0) (.tail _ (List.mem_cons_self ..)) quiet admits fun c next calm => ?_
  have same := next.queues
  rw [State.cmtCmd_undecided (next.isManager.trans manager) (next.cmtOwner.trans own) (by rwa [next.cmtPhase]) (by decide)
    (by decide), if_pos rfl, ← same.cmtWorkers, ← same.notReady, ← next.link, ← same.get F.HIER_CMT_LEN_STAGE_LEN]
  exact c.cmtSend_shows

theorem grants_prepareCmt (s : State) (p : Party) (manager : s.isManager = true)
    (staged : s.cmtPhase = cmtStaging ∨ s.cmtPhase = cmtPreparing) (own : s.get F.HIER_CMT_STAT_OWNER = p.code) :
    Grants p (.prepareCmt p) s (fun c =>
      let t := c.put F.HIER_CMT_STAT_RESULT cmtOk
      if s.cmtWorkers = 0 then (t.put F.HIER_CMT_STAT_PHASE cmtPreparing).selfCheck
      else { t with commit := { t.commit with prepareDue := true, prepareTo := [] } }) := by
  refine grants_cmtRow (dev := 0) (.tail _ (.tail _ (List.mem_cons_self ..))) fun c next => ?_
  rw [State.cmtCmd_undecided (next.isManager.trans manager) (next.cmtOwner.trans own) (by rwa [next.cmtPhase]) (by decide)
    (by decide), if_neg (by decide), if_pos rfl, State.cmtPrepare_eq, next.queues.cmtWorkers]

theorem cmtDecide_row (p : Party) (commit : Bool) :
    ((if commit then Instr.cmtCommit p else .cmtAbort p), (if commit then opCommit else opAbort), 0) ∈ cmtRows p 0 := by
  cases commit <;> simp [cmtRows]

theorem State.cmtCmd_decide {s : State} {p : Party} (commit : Bool) (manager : s.isManager = true)
    (own : s.get F.HIER_CMT_STAT_OWNER = p.code) (staged : s.cmtPhase = cmtStaging ∨ s.cmtPhase = cmtPreparing) :
    s.cmtCmd p (if commit then opCommit else opAbort) 0 = s.cmtDecide commit := by
  have op : ((if commit then opCommit else opAbort) == opCommit) = commit := by cases commit <;> decide
  rw [State.cmtCmd_undecided manager own staged (by cases commit <;> decide) (by cases commit <;> decide),
    if_neg (by cases commit <;> decide), if_neg (by cases commit <;> decide), op]

theorem completes_cmtDecide (s : State) (p : Party) (commit : Bool) (manager : s.isManager = true)
    (staged : s.cmtPhase = cmtStaging ∨ s.cmtPhase = cmtPreparing) (own : s.get F.HIER_CMT_STAT_OWNER = p.code)
    (quiet : s.Quiet) (admits : s.admits p = true) :
    Completes (if commit then .cmtCommit p else .cmtAbort p) s (fun u => ∃ c, s.NextCycle c ∧
      let tc := c.tickOf (s.get F.HIER_CMT_TICK_VALUE)
      let ready := commit = true → s.get64 F.HIER_CMT_READY = s.cmtTgt
      let lead : Int := if s.cmtWorkers = 0 then 200 else 12000
      (¬ready → u = c.put F.HIER_CMT_STAT_RESULT cmtNotReady) ∧
      (ready → tc - c.tick < lead → u = c.put F.HIER_CMT_STAT_RESULT cmtLate) ∧
      (ready → lead ≤ tc - c.tick → s.commit.dead ≤ tc → u = c.put F.HIER_CMT_STAT_RESULT cmtRange) ∧
      (ready → lead ≤ tc - c.tick → tc < s.commit.dead →
        u.get F.HIER_CMT_STAT_RESULT = cmtOk ∧ u.cmtPhase = (if commit then cmtCommit else cmtAborting) ∧
          u.commit.decided = some commit ∧ u.commit.tick = tc.toNat ∧
          u.link.queue = (if s.cmtWorkers = 0 then c.link.queue else c.link.queue ++ [⟨2,
            cmdBytes (if commit then 0x2B else 0x2C) 0 (destSet 3) 0 0 0
              (leBytes s.cmtId 2 ++ [0, 0] ++ leBytes tc.toNat 8), .none⟩]) ∧
          (s.cmtSelf = true → s.stgState ≠ 0 → u.stage.armedAt = some tc.toNat ∧
            u.stgState = (if commit then stgCommit else stgAbort)))) := by
  refine completes_cmtRow (cmtDecide_row p commit) quiet admits fun c next calm => ⟨c, next, ?_⟩
  have same := next.queues
  have tgt : c.cmtTgt = s.cmtTgt := same.get64 F.HIER_CMT_TGT
  have id : c.cmtId = s.cmtId := same.get F.HIER_CMT_STAT_ID
  rw [State.cmtCmd_decide commit (next.isManager.trans manager) (next.cmtOwner.trans own) (by rwa [next.cmtPhase]),
    ← same.get F.HIER_CMT_TICK_VALUE, ← same.get64 F.HIER_CMT_READY, ← tgt, ← same.cmtWorkers, ← next.commit, ← id,
    ← same.cmtSelf, ← same.stgState]
  dsimp only
  rw [← c.cmtLead_eq]
  refine ⟨fun unready => ?_, fun ready late => ?_, fun ready early past => ?_, State.cmtDecide_shows⟩
  · rw [State.cmtDecide_notReady unready]
    exact State.eventsLater_none calm
  · rw [State.cmtDecide_late ready late]
    exact State.eventsLater_none calm
  · rw [State.cmtDecide_range ready early past]
    exact State.eventsLater_none calm

theorem grants_cmtRepair (s : State) (p : Party) (commit : Bool) (dev : BitVec 6) (manager : s.isManager = true)
    (run : s.cmtPhase ≠ 0) (own : s.get F.HIER_CMT_STAT_OWNER = p.code) :
    Grants p (if commit then .repairCommit p dev else .repairAbort p dev) s (State.cmtRepair commit dev.toNat) := by
  have row : ((if commit then Instr.repairCommit p dev else .repairAbort p dev), (if commit then opRepairCommit else opRepairAbort),
      dev.toNat) ∈ cmtRows p dev := by
    cases commit <;> simp [cmtRows]
  exact grants_cmtRow row fun c next => State.cmtCmd_repair (next.isManager.trans manager) (next.cmtOwner.trans own)
    (by rwa [next.cmtPhase]) commit _

theorem completes_closeCmt (s : State) (p : Party) (manager : s.isManager = true) (run : s.cmtPhase ≠ 0)
    (own : s.get F.HIER_CMT_STAT_OWNER = p.code) (quiet : s.Quiet) (admits : s.admits p = true) :
    Completes (.close p) s (fun u => u.cmtPhase = 0 ∧ u.cmtId = 0 ∧ u.get F.HIER_CMT_STAT_RESULT = cmtOk ∧
      u.commit = {} ∧ (∀ c ∈ u.link.queue, c ∈ s.link.queue ∧ commitPurpose c.purpose = false) ∧
      (s.stgState = stgOpen ∨ s.stgState = stgReady → u.stgState = 0)) := by
  refine completes_cmtRow (dev := 0) (op := opClose) (n := 0) (by simp [cmtRows]) quiet admits fun c next calm => ?_
  rw [State.cmtCmd_close (next.isManager.trans manager) (next.cmtOwner.trans own) (by rwa [next.cmtPhase]), ← next.link,
    ← next.queues.stgState]
  have shows := State.cmtClose_shows (next.isManager.trans manager)
  generalize c.cmtClose.cmtResult cmtOk = u at shows ⊢
  exact shows

/-- Settles O28: each command by what `cmtCmd` does in the cycle after its request. -/
theorem commitsOpenAndDecide : Obligations.CommitsOpenAndDecide := by
  unfold Obligations.CommitsOpenAndDecide
  refine ⟨⟨completes_openCmt, completes_sendCmt, grants_prepareCmt⟩, completes_cmtDecide,
    fun s p commit dev manager run own => ?_, completes_closeCmt⟩
  have repairs : State.cmtRepair commit dev.toNat = _ := funext fun c => c.cmtRepair_eq commit dev.toNat
  exact repairs ▸ grants_cmtRepair s p commit dev manager run own

end Sys2Proof.Machine
end

/-! # The stage and the image delivery of a worker (R159–R165, R170, R171) -/

section
namespace Sys2Proof.Machine

/-! ### STG_OPEN (R159) -/

theorem leAt_lt (b : List Byte) (o n : Nat) : leAt b o n < 256 ^ n := by
  induction n generalizing o with
  | zero => exact Nat.one_pos
  | succ n ih =>
    have first : byteAt b o < 256 := BitVec.isLt _
    have rest := ih (o + 1)
    rw [leAt, Nat.pow_succ]
    omega

theorem State.ansIf_wanted {b : List Byte} (ans : wantsAns b = true) (s : State) (a : Nat) : s.ansIf b a = s.setAnswer a :=
  if_pos ans

theorem State.setAnswer_head (s : State) (a : Nat) :
    (s.setAnswer a).link.answers.head? = some (s.link.accepted.getD (s.tick / 4000), a) := rfl

theorem State.stageOpen_refused {s : State} {id : Nat} (npar dead len : Nat) (refused : s.calState ≠ calLoaded ∨
    s.idQuarantined id = true ∨ s.stgState = stgStale ∨ (s.stgState ≠ 0 ∧ s.stgId ≠ id)) :
    s.stageOpen id npar dead len = (ansRefuse, s) := if_pos refused

theorem State.stageOpen_new {s : State} {id : Nat} (npar dead len : Nat) (loaded : s.calState = calLoaded)
    (fresh : s.idQuarantined id = false) (none : s.stgState = 0) : s.stageOpen id npar dead len =
      (ansReady, { s.stageBegin id npar len dead [] with openIds := s.openIds ++ [id] }) := by
  have stale : (0 : Nat) ≠ stgStale := by decide
  exact (if_neg (by simp [loaded, fresh, none, stale, stgNone])).trans (if_pos none)

theorem State.stageOpen_again {s : State} {id : Nat} (npar dead len : Nat) (loaded : s.calState = calLoaded)
    (fresh : s.idQuarantined id = false) (some : s.stgState ≠ 0) (whole : s.stgState ≠ stgStale) (same : s.stgId = id) :
    s.stageOpen id npar dead len = (ansReady, s) :=
  (if_neg (by simp [loaded, fresh, whole, same])).trans (if_neg some)

theorem hears_stgOpen (s : State) (b : List Byte) (hears : Hears 0x28 b s) (ans : wantsAns b = true) : let id := leAt b 8 2
    Completes (.stgOpen b) s (fun u =>
      (s.calState ≠ calLoaded ∨ s.idQuarantined id = true ∨ s.stgState = stgStale ∨ (s.stgState ≠ 0 ∧ s.stgId ≠ id) →
        u = s.setAnswer ansRefuse) ∧
      (s.calState = calLoaded → s.idQuarantined id = false → s.stgState = 0 →
        u.stgState = stgOpen ∧ u.stgId = id ∧ u.openIds = s.openIds ++ [id] ∧
          u.stage = { npar := leAt b 10 2, dead := leAt b 12 8, len := leAt b 20 4 } ∧
          u.link.answers.head? = some (s.link.accepted.getD (s.tick / 4000), ansReady)) ∧
      (s.calState = calLoaded → s.idQuarantined id = false → s.stgState ≠ 0 → s.stgState ≠ stgStale → s.stgId = id →
        u = s.setAnswer ansReady)) := by
  refine hears.completes_dest (by decide) rfl ?_
  dsimp only
  rw [State.ansIf_wanted ans]
  refine ⟨fun refused => ?_, fun loaded fresh none => ?_, fun loaded fresh some whole same => ?_⟩
  · rw [State.stageOpen_refused _ _ _ refused]
  · rw [State.stageOpen_new _ _ _ loaded fresh none]
    obtain ⟨-, -, link, opened, id, stage⟩ := s.stageBegin_leaves (leAt b 8 2) (leAt b 10 2) (leAt b 20 4) (leAt b 12 8) []
    have bound : leAt b 8 2 < 65536 := leAt_lt b 8 2
    refine ⟨opened, id.trans (Nat.mod_eq_of_lt bound), rfl, stage, ?_⟩
    rfl
  · rw [State.stageOpen_again _ _ _ loaded fresh some whole same]

/-! ### STG_DATA (R159, R160) -/

/-- One word of a chunk. -/
def State.stageWord (chunk : Nat) (b : List Byte) (n : Nat) (s : State) (i : Nat) : State :=
  let k := sramKey 8 (10240 + 8 * chunk + i)
  let m : Nat := min 4 (n - 4 * i)
  let s := if m < 4 then s.ownRead 3 k (k + 1) else s
  let old := (s.sramPeek k).toNat / 256 ^ m * 256 ^ m
  s.sramWrite k (BitVec.ofNat 32 (old + leAt b (4 * i) m))

theorem State.stageStore_eq (chunk : Nat) (b : List Byte) (s : State) : s.stageStore chunk b =
    (List.range ((min 32 (s.stage.len - 32 * chunk) + 3) / 4)).foldl
      (State.stageWord chunk b (min 32 (s.stage.len - 32 * chunk))) s := rfl

theorem State.stageWord_stage (chunk : Nat) (b : List Byte) (n : Nat) (s : State) (i : Nat) :
    (s.stageWord chunk b n i).stage = s.stage := by
  unfold State.stageWord
  dsimp only
  split
  · exact (State.Queues.ownRead s 3 _ _).stage
  · rfl

theorem State.stageStore_stage (chunk : Nat) (b : List Byte) (s : State) : (s.stageStore chunk b).stage = s.stage := by
  rw [State.stageStore_eq]
  exact foldl_keeps State.stage (fun t i => t.stageWord_stage chunk b _ i) _ s

/-- Where no word was left by a raw write, the reading of the words before finds nothing. -/
theorem State.stageWord_sound (chunk : Nat) (b : List Byte) (n : Nat) {s : State} (i : Nat) (sound : s.sramRaw = []) :
    (s.stageWord chunk b n i).regs = s.regs ∧ (s.stageWord chunk b n i).sramRaw = [] := by
  unfold State.stageWord
  dsimp only
  rw [State.ownRead_sound _ _ _ sound, ite_self]
  exact ⟨rfl, by simp [State.sramWrite, sound]⟩

theorem State.stageStore_sound (chunk : Nat) (b : List Byte) {s : State} (sound : s.sramRaw = []) :
    (s.stageStore chunk b).regs = s.regs := by
  rw [State.stageStore_eq]
  generalize min 32 (s.stage.len - 32 * chunk) = n
  generalize List.range _ = words
  induction words generalizing s with
  | nil => rfl
  | cons i words ih =>
    obtain ⟨regs, still⟩ := State.stageWord_sound chunk b n i sound
    exact (ih still).trans regs

/-- The chunks received, once `chunk` is among them. -/
def StageSt.gotWith (g : StageSt) (chunk : Nat) : List Nat := if g.got.contains chunk then g.got else chunk :: g.got

theorem StageSt.mem_gotWith (g : StageSt) (chunk c : Nat) : c ∈ g.gotWith chunk ↔ c = chunk ∨ c ∈ g.got := by
  unfold StageSt.gotWith
  split
  case isTrue has =>
    rw [List.contains_iff_mem] at has
    constructor
    · exact .inr
    · rintro (rfl | mem)
      · exact has
      · exact mem
  case isFalse => exact List.mem_cons

theorem State.stageData_idle {s : State} {chunk : Nat} (b : List Byte)
    (idle : (s.stgState ≠ stgOpen ∧ s.stgState ≠ stgReady) ∨ chunksOf s.stage.len ≤ chunk) :
    s.stageData chunk b = s := by
  unfold State.stageData
  split_ifs with closed beyond
  · rfl
  · rfl
  · exact absurd idle (by tauto)

theorem State.stageData_takes {s : State} {chunk : Nat} (b : List Byte)
    (opened : s.stgState = stgOpen ∨ s.stgState = stgReady)
    (within : chunk < chunksOf s.stage.len) : let u := s.stageData chunk b
    u.stgState = stgOpen ∧ u.regs = ((s.stageStore chunk b).put F.HIER_STAT_STG_STATE stgOpen).regs ∧
      u.stage.got = s.stage.gotWith chunk ∧
      (u.stage.checking = true ↔ ∀ c, c < chunksOf s.stage.len → c ∈ s.stage.gotWith chunk) := by
  have stage := s.stageStore_stage chunk b
  unfold State.stageData
  rw [if_neg (by tauto), if_neg (by omega)]
  generalize s.stageStore chunk b = t at stage ⊢
  refine ⟨t.get_put_same F.HIER_STAT_STG_STATE stgOpen 0 (by decide), rfl, ?_, ?_⟩
  · show (if t.stage.got.contains chunk then t.stage.got else chunk :: t.stage.got) = _
    rw [stage]
    rfl
  · show (List.range (chunksOf t.stage.len)).all
      (if t.stage.got.contains chunk then t.stage.got else chunk :: t.stage.got).contains = true ↔ _
    rw [stage]
    simp [StageSt.gotWith]

theorem hears_stgData (s : State) (b : List Byte) (hears : Hears 0x29 b s) : Completes (.stgData b) s (fun u =>
    ((s.stgState ≠ stgOpen ∧ s.stgState ≠ stgReady) ∨ chunksOf s.stage.len ≤ leAt b 5 2 → u = s) ∧
    (s.stgState = stgOpen ∨ s.stgState = stgReady → leAt b 5 2 < chunksOf s.stage.len →
      u.stgState = stgOpen ∧ leAt b 5 2 ∈ u.stage.got ∧ (∀ c, c ≠ leAt b 5 2 → (c ∈ u.stage.got ↔ c ∈ s.stage.got)) ∧
      (u.stage.checking = true ↔ ∀ c, c < chunksOf s.stage.len → c = leAt b 5 2 ∨ c ∈ s.stage.got) ∧
      (s.sramRaw = [] → ∀ k, k ≠ F.HIER_STAT.base → u.reg k = s.reg k))) := by
  refine hears.completes_dest (by decide) rfl ⟨State.stageData_idle _, fun opened within => ?_⟩
  obtain ⟨state, regs, got, checking⟩ := State.stageData_takes (slice b 8 32) opened within
  simp only [StageSt.mem_gotWith] at checking
  refine ⟨state, ?_, fun c other => ?_, checking, fun sound k other => ?_⟩
  · rw [got, StageSt.mem_gotWith]
    exact .inl rfl
  · rw [got, StageSt.mem_gotWith]
    exact or_iff_right other
  · rw [State.reg_of_regs regs, State.reg_put_ne _ other, State.reg_of_regs (State.stageStore_sound _ _ sound)]

/-! ### STG_PREPARE, CMT_CHECK, COMMIT and ABORT (R160, R162, R165) -/

theorem State.stagePrepare_eq (s : State) (id npar len : Nat) : s.stagePrepare id npar len =
    if (s.stgState ≠ stgOpen ∧ s.stgState ≠ stgReady) ∨ ¬(s.stgId = id ∧ s.stage.npar = npar ∧ s.stage.len = len) then ansNone
    else if s.stgState = stgReady then ansReady
    else if s.stageWhole = false then ansStale
    else if s.stage.failed = true then ansRefuse else ansNone := by
  unfold State.stagePrepare
  simp only [not_and_or, Bool.not_eq_true']

theorem State.stageOutcome_eq (s : State) (id : Nat) : s.stageOutcome id =
    if s.get F.HIER_LAST_OUT = 1 ∧ s.get F.HIER_LAST_ID = id then ansReady
    else if s.stgState = stgStale ∧ s.stgId = id then ansStale else ansRefuse := rfl

section
variable {s : State} (c : Bool) {id : Nat} (t : Nat)

theorem State.stageArm_other (other : s.stgState = 0 ∨ s.stgId ≠ id) : s.stageArm c id t = s.bump F.ESC_CNT_STALE_ID :=
  if_pos other

variable (same : s.stgId = id)
include same

theorem State.stageArm_armed (armed : s.stgState = stgCommit ∨ s.stgState = stgAbort) : s.stageArm c id t = s := by
  have some : ¬(s.stgState = stgNone ∨ s.stgId ≠ id) := by
    rcases armed with h | h <;> simp [h, same, stgNone, stgCommit, stgAbort]
  exact (if_neg some).trans (if_pos armed)

variable (held : s.stgState ≠ 0) (unarmed : s.stgState ≠ stgCommit) (live : s.stgState ≠ stgAbort)
include held unarmed live

/-- A stage with nothing armed takes a decision by its tick, its deadline and, for a commit, its readiness. -/
theorem State.stageArm_eq : s.stageArm c id t =
    if s.tick + 200 ≤ t ∧ (t < s.stage.dead ∨ s.stgState = stgStale) ∧ (c = true → s.stgState = stgReady ∨
      (s.stgState = stgStale ∧ s.stage.failed = false ∧ s.stage.checking = false ∧ s.stageWhole = true)) then
      { s.put F.HIER_STAT_STG_STATE (if c then stgCommit else stgAbort) with stage := { s.stage with armedAt := some t } }
    else s.raiseReg 13 4 0 F.HIER_STAT := by
  have taken : ¬(s.stgState = stgNone ∨ s.stgId ≠ id) := not_or.2 ⟨held, not_not.2 same⟩
  refine (if_neg taken).trans ((if_neg (not_or.2 ⟨unarmed, live⟩)).trans ((ite_not ..).symm.trans (if_congr ?_ rfl rfl)))
  have readyLives : s.stgState = stgReady → s.stgState ≠ stgStale := fun h => by rw [h]; decide
  simp only [not_or, not_lt, not_le, not_and_or, not_not, Bool.not_eq_true', Bool.not_eq_true, Bool.not_eq_false]
  cases c
  · simp
  · simp only [true_implies, reduceCtorEq, false_or]
    tauto

end

theorem hears_stageArm (s : State) (b : List Byte) (c : Bool) (hears : if c then Hears 0x2B b s else Hears 0x2C b s) :
    let st := s.stgState
    let t := leAt b 12 8
    let ready := st = stgReady ∨ (st = stgStale ∧ s.stage.failed = false ∧ s.stage.checking = false ∧ s.stageWhole = true)
    Completes (if c then .commit b else .abortStage b) s (fun u =>
      (st = 0 ∨ s.stgId ≠ leAt b 8 2 → u = s.bump F.ESC_CNT_STALE_ID) ∧
      (s.stgId = leAt b 8 2 → st = stgCommit ∨ st = stgAbort → u = s) ∧
      (s.stgId = leAt b 8 2 → st ≠ 0 → st ≠ stgCommit → st ≠ stgAbort →
        s.tick + 200 ≤ t ∧ (t < s.stage.dead ∨ st = stgStale) ∧ (c = true → ready) →
        u.stgState = (if c then stgCommit else stgAbort) ∧ u.stage.armedAt = some t ∧ u.stgId = s.stgId) ∧
      (s.stgId = leAt b 8 2 → st ≠ 0 → st ≠ stgCommit → st ≠ stgAbort →
        ¬(s.tick + 200 ≤ t ∧ (t < s.stage.dead ∨ st = stgStale) ∧ (c = true → ready)) →
        u = s.raiseReg 13 4 0 F.HIER_STAT)) := by
  have heard (P : State → Prop) (h : P (s.stageArm c (leAt b 8 2) (leAt b 12 8))) :
      Completes (if c then .commit b else .abortStage b) s P := by
    cases c
    · exact Hears.completes_dest (op := 0x2C) hears (by decide) rfl h
    · exact Hears.completes_dest (op := 0x2B) hears (by decide) rfl h
  refine heard _ ⟨State.stageArm_other c _, State.stageArm_armed c _, fun same held unarmed live fits => ?_,
    fun same held unarmed live unfit => ?_⟩
  · rw [State.stageArm_eq c _ same held unarmed live, if_pos fits]
    refine ⟨(s.get_put_same F.HIER_STAT_STG_STATE _ 0 (by decide)).trans (by cases c <;> rfl), rfl, ?_⟩
    exact s.get_put_disj F.HIER_STAT_STG_STATE F.HIER_STAT_STG_ID _ 0 0 (by decide) (by decide)
  · rw [State.stageArm_eq c _ same held unarmed live, if_neg unfit]

/-! ### DLV_START (R170) -/

/-- The worker takes part in a delivery. -/
def State.dlvTakes (s : State) : State :=
  { s.stageDiscard.loadBegin srcDelivery with deliv := { s.deliv with takes := true, next := 0, outcome := 0 } }

/-- It takes no part. -/
def State.dlvAside (s : State) : State := { s with deliv := { s.deliv with takes := false, outcome := 0 } }

theorem State.dlvTakes_shows (s : State) : let u := s.dlvTakes
    u.calState = calLoading ∧ u.load.src = srcDelivery ∧ u.load.bytes = [] ∧ u.load.stage = 0 ∧ u.deliv.takes = true ∧
      u.deliv.next = 0 :=
  ⟨s.stageDiscard.get_put_same F.CAL_STAT_STATE calLoading 0 (by decide), rfl, rfl, rfl, rfl, rfl⟩

theorem State.stageDiscard_worker {s : State} (worker : s.isManager = false) : s.stageDiscard.stgState = 0 := by
  unfold State.stageDiscard
  rw [worker]
  dsimp only
  rw [if_neg Bool.false_ne_true]
  split
  case isTrue none => exact none
  case isFalse =>
    exact (((s.closeId s.stgId).put F.HIER_STAT_STG_STATE stgNone).get_put_disj _ _ _ _ _ (by decide) (by decide)).trans
      ((s.closeId s.stgId).get_put_same F.HIER_STAT_STG_STATE stgNone 0 (by decide))

theorem State.dlvTakes_stage {s : State} (worker : s.isManager = false) : s.dlvTakes.stgState = 0 :=
  (s.stageDiscard.get_put_ne F.CAL_STAT_STATE F.HIER_STAT_STG_STATE calLoading 0 0 (by decide)).trans
    (State.stageDiscard_worker worker)

/-- DLV_START, case by case. -/
theorem State.dlvStart_eq (reload : Bool) (s : State) : s.dlvStart reload =
    if s.isManager || s.phase != .running || s.calState == calRestrict then s.dlvAside
    else if s.load.src = srcDelivery then s.dlvTakes
    else if s.load.src ≠ 0 then s.dlvAside
    else if s.calState = calWaiting then (if s.load.nextSrc = 0 then s.dlvTakes else s.dlvAside)
    else if !reload then s.dlvAside
    else if s.reloadOk then s.stageDiscard.clearConfig.dlvTakes
    else { s.failCode 0x10 srcDelivery with deliv := { s.deliv with takes := false, outcome := ansRefuse } } := rfl

theorem Hears.worker {op : Nat} {b : List Byte} {s : State} (hears : Hears op b s) : s.isManager = false := by
  obtain ⟨-, worker, -, -⟩ := hears
  exact worker

section
variable {s : State} {b : List Byte} (hears : Hears 0x30 b s)
include hears

theorem Hears.dlvStart {P : State → Prop} (h : P (s.dlvStart ((byteAt b 5).testBit 0))) : Completes (.dlvStart b) s P :=
  hears.completes_dest (by decide) rfl h

theorem hears_dlvStart_takes (running : s.phase = .running)
    (takes : (s.calState = calWaiting ∧ s.load.src = 0 ∧ s.load.nextSrc = 0) ∨
      (s.calState ≠ calRestrict ∧ s.load.src = srcDelivery)) :
    Completes (.dlvStart b) s (fun u => u.calState = calLoading ∧ u.load.src = srcDelivery ∧ u.load.bytes = [] ∧
      u.load.stage = 0 ∧ u.deliv.takes = true ∧ u.deliv.next = 0 ∧ u.stgState = 0) := by
  have waits : calWaiting ≠ calRestrict := by decide
  have lifted : s.calState ≠ calRestrict := takes.elim (fun h => by rw [h.1]; exact waits) And.left
  have started : s.dlvStart ((byteAt b 5).testBit 0) = s.dlvTakes := by
    rw [State.dlvStart_eq, if_neg (by simp [hears.worker, running, lifted])]
    rcases takes with ⟨waiting, free, none⟩ | ⟨-, streams⟩
    · rw [if_neg (by rw [free]; decide), if_neg (not_not.2 free), if_pos waiting, if_pos none]
    · rw [if_pos streams]
  refine hears.dlvStart ?_
  obtain ⟨state, src, bytes, stage, part, next⟩ := s.dlvTakes_shows
  rw [started]
  exact ⟨state, src, bytes, stage, part, next, State.dlvTakes_stage hears.worker⟩

theorem hears_dlvStart_aside (aside : s.phase ≠ .running ∨ s.calState = calRestrict ∨
      (s.load.src ≠ 0 ∧ s.load.src ≠ srcDelivery) ∨ (s.calState = calWaiting ∧ s.load.src = 0 ∧ s.load.nextSrc ≠ 0) ∨
      (s.calState = calLoaded ∧ s.load.src = 0 ∧ (byteAt b 5).testBit 0 = false)) :
    Completes (.dlvStart b) s (fun u => u = { s with deliv := { s.deliv with takes := false, outcome := 0 } }) := by
  refine hears.dlvStart ?_
  show _ = s.dlvAside
  have none : (0 : Nat) ≠ srcDelivery := by decide
  rw [State.dlvStart_eq]
  by_cases off : s.isManager || s.phase != .running || s.calState == calRestrict
  · rw [if_pos off]
  rw [if_neg off]
  simp only [Bool.or_eq_true, bne_iff_ne, beq_iff_eq, not_or, not_not] at off
  obtain ⟨⟨-, running⟩, lifted⟩ := off
  rcases aside with h | h | ⟨busy, other⟩ | ⟨waiting, free, later⟩ | ⟨loaded, free, fresh⟩
  · exact absurd running h
  · exact absurd h lifted
  · rw [if_neg other, if_pos busy]
  · rw [if_neg (by rw [free]; exact none), if_neg (not_not.2 free), if_pos waiting, if_neg later]
  · rw [if_neg (by rw [free]; exact none), if_neg (not_not.2 free), if_neg (by rw [loaded]; decide),
      if_pos (by rw [fresh]; rfl)]

section
variable (running : s.phase = .running) (loaded : s.calState = calLoaded) (free : s.load.src = 0)
  (reload : (byteAt b 5).testBit 0 = true)
include running loaded free reload

/-- DLV_START for a reload, on a worker that is loaded. -/
theorem State.dlvStart_reload : s.dlvStart ((byteAt b 5).testBit 0) =
    if s.reloadOk then s.stageDiscard.clearConfig.dlvTakes
    else { s.failCode 0x10 srcDelivery with deliv := { s.deliv with takes := false, outcome := ansRefuse } } := by
  have lifted : calLoaded ≠ calRestrict := by decide
  rw [State.dlvStart_eq, if_neg (by simp [hears.worker, running, loaded, lifted]), if_neg (by rw [free]; decide),
    if_neg (not_not.2 free), if_neg (by rw [loaded]; decide), if_neg (by simp [reload])]

theorem hears_dlvStart_refused (unfit : s.reloadOk = false) : Completes (.dlvStart b) s (fun u =>
    u = { s.failCode 0x10 srcDelivery with deliv := { s.deliv with takes := false, outcome := ansRefuse } }) := by
  refine hears.dlvStart ?_
  rw [State.dlvStart_reload hears running loaded free reload, if_neg (by rw [unfit]; exact Bool.false_ne_true)]

theorem hears_dlvStart_reload (fit : s.reloadOk = true) : Completes (.dlvStart b) s (fun u =>
    u.calState = calLoading ∧ u.load.src = srcDelivery ∧ u.deliv.takes = true ∧ u.deliv.next = 0) := by
  refine hears.dlvStart ?_
  obtain ⟨state, src, -, -, part, next⟩ := s.stageDiscard.clearConfig.dlvTakes_shows
  rw [State.dlvStart_reload hears running loaded free reload, if_pos fit]
  exact ⟨state, src, part, next⟩

end
end

/-! ### DLV_DATA and DLV_QUERY (R170, R171, R175) -/

theorem State.dlvData_idle {s : State} (chunk : Nat) (b : List Byte)
    (idle : s.deliv.takes = false ∨ s.load.src ≠ srcDelivery ∨ s.load.stage = 3) : s.dlvData chunk b = s :=
  if_pos (by simp; tauto)

section
variable {s : State} {chunk : Nat} (b : List Byte) (takes : s.deliv.takes = true) (src : s.load.src = srcDelivery)
  (stage : s.load.stage ≠ 3)

theorem State.dlvData_past (past : chunk < s.deliv.next) : s.dlvData chunk b = s := if_pos (by simp [past])

include takes src stage

theorem State.dlvData_gap (gap : s.deliv.next < chunk) : s.dlvData chunk b =
    { s.loadFail 0x0E with deliv := { s.deliv with takes := false, outcome := ansStale } } :=
  (if_neg (by simp [takes, src, stage]; omega)).trans (if_pos gap)

theorem State.dlvData_next (next : chunk = s.deliv.next) : s.dlvData chunk b =
    let t := ({ s with load := { s.load with lastAt := s.now } } : State).loadFeed b
    if t.load.src = 0 then { t with deliv := { s.deliv with takes := false, outcome := ansRefuse } }
    else { t with deliv := { s.deliv with next := s.deliv.next + 1 } } :=
  (if_neg (by simp [takes, src, stage, next])).trans (if_neg (by omega))

end

theorem hears_dlvData (s : State) (b : List Byte) (hears : Hears 0x31 b s) (takes : s.deliv.takes = true)
    (src : s.load.src = srcDelivery) (stage : s.load.stage ≠ 3) : let c := leAt b 5 3
    Completes (.dlvData b) s (fun u =>
      (c < s.deliv.next → u = s) ∧
      (s.deliv.next < c → u = { s.loadFail 0x0E with deliv := { s.deliv with takes := false, outcome := ansStale } }) ∧
      (c = s.deliv.next → let t := ({ s with load := { s.load with lastAt := s.now } } : State).loadFeed (slice b 8 32)
        (t.load.src = 0 → u = { t with deliv := { s.deliv with takes := false, outcome := ansRefuse } }) ∧
        (t.load.src ≠ 0 → u = { t with deliv := { s.deliv with next := s.deliv.next + 1 } }))) := by
  refine hears.completes_dest (by decide) rfl ⟨State.dlvData_past _, State.dlvData_gap _ takes src stage, fun next => ?_⟩
  rw [State.dlvData_next (slice b 8 32) takes src stage next]
  exact ⟨fun ended => if_pos ended, fun goes => if_neg goes⟩

theorem State.dlvBroken_idle {s : State} (idle : s.deliv.takes = false ∨ s.load.src ≠ srcDelivery ∨ s.load.stage = 3) :
    s.dlvBroken = s :=
  if_neg (by rcases idle with h | h | h <;> simp [h])

theorem State.dlvBroken_breaks {s : State} (takes : s.deliv.takes = true) (src : s.load.src = srcDelivery)
    (stage : s.load.stage ≠ 3) : let u := s.dlvBroken
    u.deliv.takes = false ∧ u.deliv.outcome = ansStale ∧ u.get F.CAL_STAT_FAIL_CODE = 0x0E ∧ u.calState = calWaiting := by
  have broken : s.dlvBroken = { s.loadFail 0x0E with deliv := { s.deliv with takes := false, outcome := ansStale } } :=
    if_pos (by simp [takes, src, stage])
  rw [broken]
  have shown (k : Nat) := s.loadFail_reg 0x0E k
  generalize s.loadFail 0x0E = t at shown ⊢
  exact ⟨rfl, rfl, (State.get_eq_of_reg (shown _)).trans (State.failShown_code _ (by decide) _),
    (State.get_eq_of_reg (shown _)).trans (State.failShown_waits _ _ _)⟩

/-- Settles O25: each command by the case of its operation. -/
theorem stageAndDeliveryCommandsAct : Obligations.StageAndDeliveryCommandsAct := by
  unfold Obligations.StageAndDeliveryCommandsAct
  refine ⟨⟨hears_stgOpen, hears_stgData, fun s b hears ans => ?prepare, hears_stageArm, fun s b hears ans => ?check⟩,
    fun s b hears => hears_dlvStart_takes hears, fun s b hears => hears_dlvStart_aside hears,
    fun s b hears => hears_dlvStart_refused hears, fun s b hears => hears_dlvStart_reload hears, hears_dlvData,
    fun s b hears idle => ?data, fun s b hears => ?query, fun s => State.dlvBroken_idle, fun s => State.dlvBroken_breaks⟩
  case prepare =>
    refine hears.completes_dest (by decide) rfl ?_
    rw [State.ansIf_wanted ans, State.stagePrepare_eq]
  case check =>
    refine hears.completes_dest (by decide) rfl ?_
    rw [State.ansIf_wanted ans, State.stageOutcome_eq]
  case data => exact hears.completes_dest (by decide) rfl (State.dlvData_idle _ _ idle)
  case query => exact hears.completes_dest (by decide) rfl rfl

end Sys2Proof.Machine
end

/-! # Questions sent, image deliveries and mirrors of a manager (R165, R169, R171, R305–R307) -/

section
namespace Sys2Proof.Machine

/-! ### The questions of the commit and delivery units (R165, R171) -/

theorem exec_cmtCheckSend (s : State) : exec .cmtCheckSend s = done (
    match earlier s.commit.checkAt (earliest (s.commit.repairs.map (fun r => some r.2))) with
    | none => s
    | some t => s.downSendAt ((t + 3999) / 4000)) := rfl

theorem completes_cmtCheckSend_idle (s : State) (none' : s.commit.checkAt = none) (sound : s.commit.repairs = []) :
    Completes .cmtCheckSend s (fun u => u = s) := by
  refine completes_done ?_ rfl
  rw [exec_cmtCheckSend, none', sound]
  rfl

theorem completes_cmtCheckSend (s : State) (t : Nat)
    (due : earlier s.commit.checkAt (earliest (s.commit.repairs.map (fun r => some r.2))) = some t) :
    Completes .cmtCheckSend s (fun u => u = s.downSendAt ((t + 3999) / 4000)) := by
  refine completes_done ?_ rfl
  rw [exec_cmtCheckSend, due]

theorem exec_dlvQuerySend (s : State) : exec .dlvQuerySend s = done (
    match s.deliv.queryAt with
    | none => s
    | some k => s.downSendAt k) := rfl

theorem completes_dlvQuerySend_idle (s : State) (none' : s.deliv.queryAt = none) :
    Completes .dlvQuerySend s (fun u => u = s) := by
  refine completes_done ?_ rfl
  rw [exec_dlvQuerySend, none']

theorem completes_dlvQuerySend (s : State) (q : Nat) (due : s.deliv.queryAt = some q) :
    Completes .dlvQuerySend s (fun u => u = s.downSendAt q) := by
  refine completes_done ?_ rfl
  rw [exec_dlvQuerySend, due]

theorem State.downSendAt_sends (s : State) (k : Nat) (sends : s.sendsFrames = true) : let n := max k s.nextSwing
    (s.passToTick (4000 * n)).sendsFrames = true → s.downSendAt k = ((s.passToTick (4000 * n)).downBuild n).settle := by
  intro n still
  unfold State.downSendAt
  rw [if_neg (by rw [sends]; decide)]
  exact if_pos still

/-- `t` asks what `s` asks: the date of the commit's question and the delivery are those of `s`, and no command has left the
queue. -/
structure State.Asks (s t : State) : Prop where
  checkAt : t.commit.checkAt = s.commit.checkAt
  deliv : t.deliv = s.deliv
  queue : s.link.queue <+: t.link.queue

theorem State.Asks.refl (s : State) : s.Asks s := ⟨rfl, rfl, List.prefix_rfl⟩

theorem State.Asks.trans {s t u : State} (h : s.Asks t) (g : t.Asks u) : s.Asks u :=
  ⟨g.checkAt.trans h.checkAt, g.deliv.trans h.deliv, h.queue.trans g.queue⟩

theorem State.Asks.queueCmd (s : State) (grp : Nat) (bytes : List Byte) (p : CmdFor) : s.Asks (s.queueCmd grp bytes p) :=
  ⟨rfl, rfl, List.prefix_append ..⟩

theorem State.Asks.foldl {α : Type} {f : State → α → State} (each : ∀ (s : State) a, s.Asks (f s a)) (l : List α)
    (s : State) : s.Asks (l.foldl f s) := by
  induction l generalizing s with
  | nil => exact .refl s
  | cons a l ih => exact (each s a).trans (ih _)

theorem State.Asks.ite {s t u : State} (c : Prop) [Decidable c] (h : s.Asks t) (g : s.Asks u) :
    s.Asks (if c then t else u) := by
  split
  · exact h
  · exact g

/-- What a swing queues before the questions: the repeats of strike commands (R136). -/
def State.swingRepeats (s : State) : State :=
  { s with link := { s.link with
    queue := s.link.queue ++ s.link.sentFrames.flatMap repeatsOf
    sentFrames := s.link.sentFrames.map (fun (f : SentFrame) => { f with lost := 0 }) } }

/-- BEAT for the boundary four swings on (R96). -/
def State.swingBeat (k : Nat) (b : Option Nat) (s : State) : State :=
  if b = some (4000 * k + 16000) then
    s.queueCmd 2 (body40 (leBytes 3 1 ++ [0, 0, 0] ++ leBytes (4000 * k + 16000) 8 ++ leBytes (2 ^ 64 - 2) 8 ++
      leBytes s.beat.nextNum 4))
  else s

/-- REST (R428). -/
def State.swingRest (k : Nat) (s : State) : State :=
  let t := (s.link.restCopies.filter (fun c => c.1 == k)).foldl (fun s c =>
    s.queueCmd 3 (cmdBytes 0x13 0 0xFF 0 0 0 (leBytes c.2 8))) s
  { t with link := { t.link with restCopies := t.link.restCopies.filter (fun c => decide (k < c.1)) } }

/-- ASSIGN (R147). -/
def State.swingAssign (k : Nat) (s : State) : State :=
  let assign := s.on F.HIER_CTRL_AUTO_ASSIGN && s.calState == calLoaded && (s.link.assignDue || k % 256 == 0)
  let t := if s.calState == calLoaded then { s with link := { s.link with assignDue := false } } else s
  if assign then t.queueCmd 3 (cmdBytes 0x20 0 0xFF (t.get F.HIER_CTRL_BASE_A) (t.get F.HIER_CTRL_BASE_B) 0 []) else t

/-- STG_PREPARE (R160). -/
def State.swingPrepare (k : Nat) (s : State) : State :=
  let c := s.commit
  let ready := c.prepareDue && c.dataLeft == 0 && (c.lastData.map (fun d => decide (d + 3 ≤ k))).getD false
  if ready then
    let dests := if c.prepareTo.isEmpty then [destSet 3] else c.prepareTo
    let t : State := { s with commit := { c with prepareDue := false } }
    dests.foldl (fun s d => s.queueCmd 4 (cmdBytes 0x2A flagAns d 0 0 0 s.prepareBody) .prepare) t
  else s

/-- CMT_CHECK to one destination (R165). -/
def State.askCheck (d : Nat) (s : State) : State :=
  s.queueCmd 4 (cmdBytes 0x2D flagAns d 0 0 0 (leBytes s.cmtId 2 ++ [0, 0])) .check

/-- The question of the commit to all its workers. -/
def State.swingCheck (k : Nat) (s : State) : State :=
  if (s.commit.checkAt.map (fun t => decide (t ≤ 4000 * k))).getD false then
    { s.askCheck (destSet 3) with commit := { s.commit with checkAt := none } }
  else s

/-- And to those that a repair is under way for (R166). -/
def State.swingRepairs (k : Nat) (s : State) : State :=
  let t := (s.commit.repairs.filter (fun r => decide (r.2 ≤ 4000 * k))).foldl (fun s r => s.askCheck r.1) s
  { t with commit := { t.commit with repairs := t.commit.repairs.filter (fun r => decide (4000 * k < r.2)) } }

/-- The question of the delivery (R171). -/
def State.swingQuery (k : Nat) (s : State) : State :=
  if (s.deliv.queryAt.map (fun q => decide (q ≤ k))).getD false then
    { s.queueCmd 4 (cmdBytes 0x32 flagAns (destSet 2) 0 0 0 []) .dlvQuery with deliv := { s.deliv with queryAt := none } }
  else s

/-- What a swing queues before its questions. -/
def State.swingEarly (k : Nat) (s : State) : State :=
  let t := s.swingRepeats
  ((((t.swingBeat k t.beat.accepted).swingBeat k t.beat.next).swingRest k).swingAssign k).swingPrepare k

theorem State.swingCmds_eq (k : Nat) (s : State) :
    s.swingCmds k = (((s.swingEarly k).swingCheck k).swingRepairs k).swingQuery k := rfl

theorem State.Asks.swingBeat (k : Nat) (b : Option Nat) (s : State) : s.Asks (s.swingBeat k b) :=
  .ite _ (.queueCmd s _ _ _) (.refl s)

theorem State.Asks.swingRest (k : Nat) (s : State) : s.Asks (s.swingRest k) := by
  have sent := State.Asks.foldl (f := fun t c => t.queueCmd 3 (cmdBytes 0x13 0 0xFF 0 0 0 (leBytes c.2 8)))
    (fun t _ => .queueCmd t _ _ _) (s.link.restCopies.filter (fun c => c.1 == k)) s
  exact ⟨sent.checkAt, sent.deliv, sent.queue⟩

theorem State.Asks.swingAssign (k : Nat) (s : State) : s.Asks (s.swingAssign k) := by
  have taken : s.Asks (if s.calState == calLoaded then { s with link := { s.link with assignDue := false } } else s) :=
    .ite _ ⟨rfl, rfl, List.prefix_rfl⟩ (.refl s)
  exact .ite _ (taken.trans (.queueCmd _ _ _ _)) taken

theorem State.Asks.swingPrepare (k : Nat) (s : State) : s.Asks (s.swingPrepare k) := by
  refine .ite _ (State.Asks.trans (t := { s with commit := { s.commit with prepareDue := false } }) ?_ ?_) (.refl s)
  · exact ⟨rfl, rfl, List.prefix_rfl⟩
  · exact .foldl (fun t d => .queueCmd t _ _ _) _ _

theorem State.Asks.swingEarly (k : Nat) (s : State) : s.Asks (s.swingEarly k) := by
  have repeats : s.Asks s.swingRepeats := ⟨rfl, rfl, List.prefix_append ..⟩
  exact ((((repeats.trans (.swingBeat k _ _)).trans (.swingBeat k _ _)).trans (.swingRest k _)).trans
    (.swingAssign k _)).trans (.swingPrepare k _)

theorem State.Asks.swingRepairs (k : Nat) (s : State) : s.Asks (s.swingRepairs k) := by
  have sent := State.Asks.foldl (f := fun t r => t.askCheck r.1) (fun t r => .queueCmd t _ _ _)
    (s.commit.repairs.filter (fun r => decide (r.2 ≤ 4000 * k))) s
  exact ⟨sent.checkAt, sent.deliv, sent.queue⟩

theorem State.swingCheck_asks {s : State} {k t : Nat} (due : s.commit.checkAt = some t) (comes : t ≤ 4000 * k) :
    (s.swingCheck k).commit.checkAt = none ∧ ∃ c ∈ (s.swingCheck k).link.queue, c.purpose = .check ∧ c.op = 0x2D := by
  unfold State.swingCheck
  rw [due, if_pos (by simpa using comes)]
  exact ⟨rfl, _, List.mem_append_right _ (List.mem_singleton_self _), rfl, rfl⟩

/-- The questions of the commit leave the delivery. -/
theorem State.swingCheck_deliv (k : Nat) (s : State) : (s.swingCheck k).deliv = s.deliv := by
  unfold State.swingCheck
  split <;> rfl

theorem State.swingQuery_commit (k : Nat) (s : State) :
    (s.swingQuery k).commit = s.commit ∧ s.link.queue <+: (s.swingQuery k).link.queue := by
  unfold State.swingQuery
  split
  · exact ⟨rfl, List.prefix_append ..⟩
  · exact ⟨rfl, List.prefix_rfl⟩

theorem State.swingQuery_asks {s : State} {k q : Nat} (due : s.deliv.queryAt = some q) (comes : q ≤ k) :
    (s.swingQuery k).deliv.queryAt = none ∧ ∃ c ∈ (s.swingQuery k).link.queue, c.purpose = .dlvQuery ∧ c.op = 0x32 := by
  unfold State.swingQuery
  rw [due, if_pos (by simpa using comes)]
  exact ⟨rfl, _, List.mem_append_right _ (List.mem_singleton_self _), rfl, rfl⟩

theorem State.swingCmds_checks (s : State) (k t : Nat) (due : s.commit.checkAt = some t) (comes : t ≤ 4000 * k) :
    (s.swingCmds k).commit.checkAt = none ∧ (∃ c ∈ (s.swingCmds k).link.queue, c.purpose = .check ∧ c.op = 0x2D) := by
  obtain ⟨asked, c, mem, purpose, op⟩ := State.swingCheck_asks ((State.Asks.swingEarly k s).checkAt.trans due) comes
  have repairs := State.Asks.swingRepairs k ((s.swingEarly k).swingCheck k)
  obtain ⟨commit, queue⟩ := State.swingQuery_commit k (((s.swingEarly k).swingCheck k).swingRepairs k)
  rw [State.swingCmds_eq]
  exact ⟨(congrArg CommitSt.checkAt commit).trans (repairs.checkAt.trans asked), c,
    queue.subset (repairs.queue.subset mem), purpose, op⟩

theorem State.swingCmds_queries (s : State) (k q : Nat) (due : s.deliv.queryAt = some q) (comes : q ≤ k) :
    (s.swingCmds k).deliv.queryAt = none ∧ (∃ c ∈ (s.swingCmds k).link.queue, c.purpose = .dlvQuery ∧ c.op = 0x32) := by
  rw [State.swingCmds_eq]
  refine State.swingQuery_asks ?_ comes
  rw [(State.Asks.swingRepairs k _).deliv, State.swingCheck_deliv, (State.Asks.swingEarly k s).deliv, due]

/-! ### HIER_DLV_CMD (R169) -/

theorem State.dlvBegin_busy {s : State} (reload : Bool) (flash : List Byte) (busy : s.on F.HIER_DLV_STAT_BUSY = true) :
    s.dlvBegin reload flash = s.put F.HIER_DLV_STAT_RESULT 1 := if_pos busy

theorem State.dlvBegin_noImage {s : State} (reload : Bool) {flash : List Byte} (free : s.on F.HIER_DLV_STAT_BUSY = false)
    (none' : hasMagic flash = false) : s.dlvBegin reload flash = s.put F.HIER_DLV_STAT_RESULT 2 :=
  (if_neg (by simp [free])).trans (if_pos (by simp [none']))

/-- The delivery is under way, and shows no outcome yet. -/
def State.dlvShows (s : State) : State :=
  ((((s.put F.HIER_DLV_STAT_RESULT 0).put F.HIER_DLV_STAT_BUSY 1).put F.HIER_DLV_STAT_NEXT 0).clearMask F.HIER_DLV_OK).clearMask
    F.HIER_DLV_FAIL

/-- SELECT, DLV_START and every chunk of the image are queued. -/
def State.dlvQueues (reload : Bool) (flash : List Byte) (s : State) : State :=
  let t := s.queueCmd 3 (selectBytes 2 (s.get64 F.HIER_DLV_TGT)) .dlvStart
  let t := t.queueCmd 4 (cmdBytes 0x30 0 (destSet 2) (b2n reload) 0 0
    (leBytes (leAt flash 0xC 4) 4 ++ slice flash 0x10 4)) .dlvStart
  let data (i : Nat) : LinkCmd :=
    ⟨5, cmdBytes 0x31 0 (destSet 2) (i % 256) (i / 256 % 256) (i / 65536) (slice flash (32 * i) 32), .dlvData⟩
  { t with
    deliv := { t.deliv with queryAt := none }
    link := { t.link with queue := t.link.queue ++ (List.range (chunksOf (min (leAt flash 0xC 4) 524288))).map data } }

theorem State.dlvBegin_starts {s : State} (reload : Bool) {flash : List Byte} (free : s.on F.HIER_DLV_STAT_BUSY = false)
    (image : hasMagic flash = true) : s.dlvBegin reload flash = s.dlvShows.dlvQueues reload flash :=
  (if_neg (by simp [free])).trans (if_neg (by simp [image]))

theorem State.dlvShows_shows (s : State) : let u := s.dlvShows
    u.on F.HIER_DLV_STAT_BUSY = true ∧ u.get F.HIER_DLV_STAT_RESULT = 0 ∧ u.get64 F.HIER_DLV_OK = 0 ∧
      u.get64 F.HIER_DLV_FAIL = 0 ∧ u.link = s.link := by
  unfold State.dlvShows State.clearMask State.on
  simp (disch := decide) only [State.get_put64_ne, State.get64_put64_ne, State.get64_put64_zero, State.get_put_disj,
    State.get_put_same]
  exact ⟨rfl, rfl, trivial, trivial, by simp [State.put64]⟩

theorem State.dlvQueues_leaves (reload : Bool) (flash : List Byte) (s : State) :
    (s.dlvQueues reload flash).regs = s.regs ∧ (s.dlvQueues reload flash).link.queue.length =
      s.link.queue.length + 2 + chunksOf (min (leAt flash 0xC 4) 524288) := by
  refine ⟨rfl, ?_⟩
  unfold State.dlvQueues State.queueCmd
  simp only [List.length_append, List.length_map, List.length_range, List.length_singleton]

theorem State.dlvBegin_shows (s : State) (reload : Bool) (flash : List Byte) (free : s.on F.HIER_DLV_STAT_BUSY = false)
    (image : hasMagic flash = true) : let u := s.dlvBegin reload flash
    u.on F.HIER_DLV_STAT_BUSY = true ∧ u.get F.HIER_DLV_STAT_RESULT = 0 ∧ u.get64 F.HIER_DLV_OK = 0 ∧
      u.get64 F.HIER_DLV_FAIL = 0 ∧
      u.link.queue.length = s.link.queue.length + 2 + chunksOf (min (leAt flash 0xC 4) 524288) := by
  rw [State.dlvBegin_starts reload free image]
  obtain ⟨busy, result, ok, fail, link⟩ := s.dlvShows_shows
  obtain ⟨regs, queue⟩ := s.dlvShows.dlvQueues_leaves reload flash
  generalize s.dlvShows.dlvQueues reload flash = u at regs queue ⊢
  have same (k : Nat) := State.reg_of_regs regs k
  exact ⟨(State.on_eq_of_reg (same _)).trans busy, (State.get_eq_of_reg (same _)).trans result,
    (State.get64_of_regs (same _) (same _)).trans ok, (State.get64_of_regs (same _) (same _)).trans fail,
    queue.trans (by rw [link])⟩

theorem State.dlvBegin_calm (s : State) (reload : Bool) (flash : List Byte) :
    (s.dlvBegin reload flash).events = s.events ∧ (s.dlvBegin reload flash).waiting = s.waiting := by
  cases free : s.on F.HIER_DLV_STAT_BUSY with
  | true =>
    rw [State.dlvBegin_busy reload flash free]
    exact ⟨rfl, rfl⟩
  | false =>
    cases image : hasMagic flash with
    | false =>
      rw [State.dlvBegin_noImage reload free image]
      exact ⟨rfl, rfl⟩
    | true =>
      rw [State.dlvBegin_starts reload free image]
      simp [State.dlvQueues, State.queueCmd, State.dlvShows, State.clearMask, State.put64]

theorem State.dlvAbort_eq (s : State) : s.dlvAbort =
    if s.on F.HIER_DLV_STAT_BUSY = false then s
    else
      let t := (s.put F.HIER_DLV_STAT_BUSY 0).put F.HIER_DLV_STAT_RESULT 0
      { t with
        deliv := { t.deliv with queryAt := none }
        link := { t.link with queue := t.link.queue.filter (fun x =>
          x.purpose != .dlvStart && x.purpose != .dlvData && x.purpose != .dlvQuery) } } := by
  have purposes : (fun c : LinkCmd => !deliveryPurpose c.purpose) =
      fun c => c.purpose != .dlvStart && c.purpose != .dlvData && c.purpose != .dlvQuery := by
    funext c
    cases c.purpose <;> rfl
  unfold State.dlvAbort
  simp only [Bool.not_eq_true', purposes]

theorem State.dlvAbort_waiting (s : State) : s.dlvAbort.waiting = s.waiting := by
  unfold State.dlvAbort
  split <;> rfl

/-! ### The command as a write -/

theorem State.eventsLater_calm {s : State} (calm : ∀ e ∈ s.events, e.ready = false) : s.eventsLater 0 = s := by
  have same : s.events.map (fun (e : Event) => { e with ready := false }) = s.events :=
    (List.map_congr_left (g := id) fun e mem => by rw [← calm e mem]; rfl).trans (List.map_id _)
  unfold State.eventsLater
  rw [List.take_zero, List.drop_zero, List.nil_append, same]

/-- A Notice waits for no reaction in the cycle of its write. -/
theorem State.notice_calm {s : State} (p : Party) (a : Nat) (calm : s.events = []) :
    ∀ e ∈ (s.notice p a).events, e.ready = false := by
  unfold State.notice State.raise
  rw [calm]
  cases p.noticeClass with
  | none => simp [calm]
  | some cls => split_ifs <;> simp [calm]

theorem State.writeWord_dlvCmd (s : State) (p : Party) {op : Nat} (ops : op < 4) :
    s.writeWord p F.HIER_DLV_CMD.base (BitVec.ofNat 32 (op * 2 ^ 30)) allBits = s.dlvCmd p op s.bootFlash := by
  have field : bitsOf (BitVec.ofNat 32 (op * 2 ^ 30)) 30 2 = op := by
    simp only [bitsOf, BitVec.toNat_ofNat, Nat.shiftRight_eq_div_pow]
    omega
  rw [State.writeWord_hier _ _ _ _ (by decide) (by decide), State.writeHier, if_neg (by decide), if_neg (by decide),
    if_neg (by decide), if_pos rfl, field]

theorem State.dlvCmd_worker {s : State} (p : Party) (op : Nat) (flash : List Byte) (worker : s.isManager = false) :
    s.dlvCmd p op flash = s.notice p F.HIER_DLV_CMD.base := if_pos (by simp [worker])

theorem State.dlvCmd_abort {s : State} (p : Party) (flash : List Byte) (manager : s.isManager = true) :
    s.dlvCmd p dlvAbortOp flash = s.dlvAbort :=
  (if_neg (by simp [manager, dlvAbortOp])).trans (if_pos rfl)

/-- The OP of START and of START_RELOAD. -/
def dlvOp (reload : Bool) : Nat := if reload then dlvReloadOp else dlvStartOp

theorem State.dlvCmd_start {s : State} (p : Party) (reload : Bool) (flash : List Byte) (manager : s.isManager = true) :
    s.dlvCmd p (dlvOp reload) flash = s.dlvBegin reload flash := by
  cases reload
  · exact (if_neg (by simp [manager, dlvOp, dlvStartOp])).trans (if_neg (by decide))
  · exact (if_neg (by simp [manager, dlvOp, dlvReloadOp])).trans (if_neg (by decide))

theorem grants_dlvAbort (s : State) (p : Party) (manager : s.isManager = true) : Grants p (.dlvAbort p) s State.dlvAbort := by
  refine grants_of_next p F.HIER_DLV_CMD.base (BitVec.ofNat 32 (dlvAbortOp * 2 ^ 30)) rfl (fun c next => ?_)
    fun c _ => c.dlvAbort_waiting
  rw [State.writeWord_dlvCmd _ _ (by decide), State.dlvCmd_abort p _ (next.isManager.trans manager)]

theorem grants_dlvAbort_worker (s : State) (p : Party) (worker : s.isManager = false) :
    Grants p (.dlvAbort p) s (fun c => c.notice p F.HIER_DLV_CMD.base) := by
  refine grants_of_next p F.HIER_DLV_CMD.base (BitVec.ofNat 32 (dlvAbortOp * 2 ^ 30)) rfl (fun c next => ?_)
    fun c _ => (c.notice_keeps p _).2
  rw [State.writeWord_dlvCmd _ _ (by decide), State.dlvCmd_worker p _ _ (next.isManager.trans worker)]

theorem exec_dlvStart (s : State) (p : Party) (flash : List Byte) (reload : Bool) :
    exec (if reload then .startReload p flash else .dlvStartOp p flash) s = .next { State.written p F.HIER_DLV_CMD.base
      (BitVec.ofNat 32 (dlvOp reload * 2 ^ 30)) { s with flash := some flash } with flash := none } := by
  cases reload <;> rfl

theorem exec_dlvStart_shut (s : State) (p : Party) (flash : List Byte) (reload : Bool)
    (shut : s.fabricOn = false ∨ s.admits p = false) :
    exec (if reload then .startReload p flash else .dlvStartOp p flash) s = .next { s with flash := none } := by
  rw [exec_dlvStart, State.written_shut { s with flash := some flash } _ _ _ shut]

/-- What a write of START or START_RELOAD does. -/
theorem State.dlvCmd_started (c : State) (p : Party) (flash : List Byte) (reload : Bool) : c.dlvCmd p (dlvOp reload) flash =
    if c.isManager = false then c.notice p F.HIER_DLV_CMD.base
    else if c.on F.HIER_DLV_STAT_BUSY then c.put F.HIER_DLV_STAT_RESULT 1
    else if hasMagic flash = false then c.put F.HIER_DLV_STAT_RESULT 2
    else c.dlvBegin reload flash := by
  split_ifs with worker busy image
  · exact c.dlvCmd_worker p _ _ worker
  all_goals rw [Bool.not_eq_false] at worker; rw [State.dlvCmd_start p reload flash worker]
  · exact State.dlvBegin_busy reload flash busy
  · exact State.dlvBegin_noImage reload (by simpa using busy) image

theorem State.dlvCmd_calm {c : State} (p : Party) (flash : List Byte) (reload : Bool) (calm : c.events = []) :
    (c.dlvCmd p (dlvOp reload) flash).waiting = c.waiting ∧
      (c.dlvCmd p (dlvOp reload) flash).eventsLater 0 = c.dlvCmd p (dlvOp reload) flash := by
  cases manager : c.isManager with
  | false =>
    rw [State.dlvCmd_worker p _ _ manager]
    exact ⟨(c.notice_keeps p _).2, State.eventsLater_calm (State.notice_calm p _ calm)⟩
  | true =>
    rw [State.dlvCmd_start p reload flash manager]
    obtain ⟨events, waiting⟩ := c.dlvBegin_calm reload flash
    exact ⟨waiting, State.eventsLater_none (events.trans calm)⟩

theorem completes_dlvStart (s : State) (p : Party) (flash : List Byte) (reload : Bool) (quiet : s.Quiet)
    (admits : s.admits p = true) : ∃ c, ({ s with flash := some flash } : State).NextCycle c ∧
      exec (if reload then .startReload p flash else .dlvStartOp p flash) s = .next { State.settle (
        if s.isManager = false then c.notice p F.HIER_DLV_CMD.base
        else if s.on F.HIER_DLV_STAT_BUSY then c.put F.HIER_DLV_STAT_RESULT 1
        else if hasMagic flash = false then c.put F.HIER_DLV_STAT_RESULT 2
        else c.dlvBegin reload flash) with flash := none } := by
  have quiet' : ({ s with flash := some flash } : State).Quiet :=
    ⟨quiet.fabric, quiet.waiting, quiet.barred, quiet.due, quiet.events, quiet.trigs, quiet.line, quiet.burst⟩
  have written (c : State) (next : ({ s with flash := some flash } : State).NextCycle c) :
      c.writeReg p F.HIER_DLV_CMD.base (BitVec.ofNat 32 (dlvOp reload * 2 ^ 30)) = c.dlvCmd p (dlvOp reload) flash := by
    have calm := next.events_nil quiet.events
    have image : c.bootFlash = flash := by
      unfold State.bootFlash
      rw [show c.flash = some flash by rw [State.Aside.rest next]]
      rfl
    rw [c.writeReg_eq _ _ _ calm, State.writeWord_dlvCmd c p (by cases reload <;> decide), image,
      (State.dlvCmd_calm p flash reload calm).2]
  obtain ⟨c, next, ends⟩ := State.written_quiet _ p F.HIER_DLV_CMD.base (BitVec.ofNat 32 (dlvOp reload * 2 ^ 30)) quiet' admits
    fun c next => by
      have calm := next.events_nil quiet.events
      obtain ⟨waiting, later⟩ := State.dlvCmd_calm (c := c) p flash reload calm
      rw [written c next, ← later, State.reactions_waiting_later, waiting]
      exact (State.Aside.same_waiting next).trans quiet.waiting
  have manager : c.isManager = s.isManager := next.isManager
  have busy : c.on F.HIER_DLV_STAT_BUSY = s.on F.HIER_DLV_STAT_BUSY := State.on_eq_of_reg (next.reg (by decide))
  exact ⟨c, next, by rw [exec_dlvStart, ends, written c next, State.dlvCmd_started, manager, busy]⟩

end Sys2Proof.Machine
end

/-! # The relay of a manager (R305–R307) -/

section
namespace Sys2Proof.Machine

/-! ### The words that the relay writes (R309) -/

/-- The mirrors and SEQ_HOLD. -/
def relayWord (a : Nat) : Prop := (0x3B00 ≤ a ∧ a < 0x3C80) ∨ a = F.SEQ_HOLD.base ∨ a = F.SEQ_HOLD.base + 1

def mirrorRow : RegDef := ⟨0x3B00, 0x6, 64, 1, 6, 0xFFFFFFFF, 0, 0, 0, 0, false, false⟩
def holdRow : RegDef := ⟨0x3802, 0x1, 2, 0, 1, 0xFFFFFFFF, 0, 0, 0, 0, false, false⟩

theorem regDef_mirror (i : Fin 384) : regDef (0x3B00 + i) = some mirrorRow := by revert i; decide +kernel

/-- Each holds any word, and has no bank. -/
theorem relayWord_row {a : Nat} (own : relayWord a) :
    ∃ d, regDef a = some d ∧ d.banked = false ∧ d.managerOnly = false ∧ rangesOf d.base = [] := by
  rcases own with ⟨least, most⟩ | rfl | rfl
  · obtain ⟨i, rfl⟩ := Nat.exists_eq_add_of_le least
    exact ⟨mirrorRow, regDef_mirror ⟨i, by omega⟩, rfl, rfl, by decide⟩
  · exact ⟨holdRow, by decide, rfl, rfl, by decide⟩
  · exact ⟨holdRow, by decide, rfl, rfl, by decide⟩

theorem relayWord_bounds {a : Nat} (own : relayWord a) :
    0x3800 ≤ a ∧ a < 0x3C80 ∧ ¬(0x3840 ≤ a ∧ a < 0x3A40) ∧ a ≠ F.SEQ_CTRL.base ∧ blockOf a = 8 := by
  have places : 0x3800 < F.SEQ_HOLD.base ∧ F.SEQ_HOLD.base < 0x380F ∧ F.SEQ_CTRL.base = 0x3800 := by decide
  obtain ⟨least, most, ctrl⟩ := places
  have range : 0x3800 < a ∧ a < 0x3C80 ∧ ¬(0x3840 ≤ a ∧ a < 0x3A40) := by
    rcases own with mirror | rfl | rfl <;> omega
  obtain ⟨lo, hi, apart⟩ := range
  refine ⟨lo.le, hi, apart, by omega, ?_⟩
  unfold blockOf
  rw [if_neg (by omega), if_neg (by omega), if_pos (by omega)]
  omega

/-- A store of the relay: the word, and in a mirror what shows it fresh. -/
structure State.RelayStores (s t : State) : Prop where
  rest : t = { s with regs := t.regs, mirAt := t.mirAt }
  low : ∀ k, k < 0x3800 → t.reg k = s.reg k

theorem State.mirrorFreshen_stores (s : State) (d : Nat) : s.RelayStores (s.mirrorFreshen d) := by
  have most : F.SEQ_MIR_STALE.base ≤ F.SEQ_MIR_STALE.addr (d / 32) := Nat.le_add_right ..
  have least : 0x3800 ≤ F.SEQ_MIR_STALE.base := by decide
  refine ⟨rfl, fun k low => ?_⟩
  have other : k ≠ F.SEQ_MIR_STALE.addr (d / 32) := by omega
  have regs : (s.mirrorFreshen d).regs = (s.setMaskBit F.SEQ_MIR_STALE d false).regs := rfl
  rw [State.reg_of_regs regs, State.setMaskBit, State.reg_setReg_ne _ other]

theorem State.seqStored_relay (s : State) {a : Nat} (own : relayWord a) (m : Word) : s.RelayStores (s.seqStored a m) := by
  obtain ⟨-, -, apart, -, -⟩ := relayWord_bounds own
  unfold State.seqStored
  rw [if_neg apart]
  split
  · exact s.mirrorFreshen_stores _
  · exact ⟨rfl, fun _ _ => rfl⟩

theorem State.ownedStore_relay {s : State} (manager : s.isManager = true) {a : Nat} (own : relayWord a) (w : Word) :
    s.RelayStores (s.ownedStore .seq a a w allBits) := by
  obtain ⟨d, row, bank, managerOnly, ranges⟩ := relayWord_row own
  obtain ⟨least, most, apart, ctrl, block⟩ := relayWord_bounds own
  have writer : s.writerOk .seq a d = true := by
    unfold State.writerOk
    exact (if_neg (by simp [managerOnly, ctrl])).trans ((if_pos own).trans manager)
  have sound (v : Word) : s.reservedWord a v = false := by
    unfold State.reservedWord State.rulesOk
    rw [row, block]
    simp [ranges]
    omega
  have bound (v : Word) : s.engineBounded .seq a v = false := by simp [State.engineBounded, block]
  have held : s.heldBits a = 0 := by
    unfold State.heldBits
    rw [if_neg (by simp [block]), if_neg (by tauto)]
  have closed : s.closedBits .seq a = 0 := if_neg (by simp [block])
  have stored : s.ownedStore .seq a a w allBits = s.store .seq a w allBits := by
    unfold State.ownedStore
    simp only [row, writer, sound, bound, held, closed, Bool.not_true, Bool.or_self, Bool.false_eq_true, if_false]
    rfl
  rw [stored, s.store_free .seq w allBits row bank (by omega), State.afterStore_seq _ _ _ _ block]
  obtain ⟨rest, low⟩ := (s.setReg a (mergedWord d (s.reg a) w allBits)).seqStored_relay own allBits
  exact ⟨by rw [rest]; rfl, fun k small => (low k small).trans (s.reg_setReg_ne (by omega) _)⟩

/-! ### The accesses of the relay -/

/-- As much is under way in `t` as in `s`, and the link and the round of the relay are those of `s`. -/
structure State.StandsAs (s t : State) : Prop where
  phase : t.phase = s.phase
  waiting : t.waiting = s.waiting
  barred : t.barred = s.barred
  due : t.due = s.due
  events : t.events = s.events
  link : t.link = s.link
  hostBurst : t.hostBurst = s.hostBurst
  relay : t.relay = s.relay

theorem State.StandsAs.trans {s t u : State} (h : s.StandsAs t) (g : t.StandsAs u) : s.StandsAs u :=
  ⟨g.phase.trans h.phase, g.waiting.trans h.waiting, g.barred.trans h.barred, g.due.trans h.due, g.events.trans h.events,
    g.link.trans h.link, g.hostBurst.trans h.hostBurst, g.relay.trans h.relay⟩

theorem State.Aside.standsAs {s t : State} (h : s.Aside t) : s.StandsAs t := by
  constructor <;> rw [h.rest]

theorem State.NextCycle.standsAs {s c : State} (next : s.NextCycle c) : s.StandsAs c := by
  obtain ⟨phase, waiting, barred, due, events, link, hostBurst, relay⟩ := State.Aside.standsAs next
  exact ⟨phase, waiting, barred, due, events, link, hostBurst, relay⟩

theorem State.RelayStores.standsAs {s t : State} (h : s.RelayStores t) : s.StandsAs t := by
  constructor <;> rw [h.rest]

theorem State.StandsAs.quiet {s t : State} (h : s.StandsAs t) (quiet : s.Quiet) (trigs : t.trigs = []) : t.Quiet where
  fabric := by
    unfold State.fabricOn
    rw [h.phase]
    exact quiet.fabric
  waiting := h.waiting.trans quiet.waiting
  barred := h.barred.trans quiet.barred
  due := h.due.trans quiet.due
  events := h.events.trans quiet.events
  trigs := trigs
  line := by rw [h.link, quiet.line]
  burst := h.hostBurst.trans quiet.burst

/-- `t` is ready for the relay's next write as `s` is: nothing else is under way, and its round and its queue are those of `s`. -/
structure State.RelayWrites (s t : State) : Prop where
  quiet : t.Quiet
  manager : t.isManager = true
  relay : t.relay = s.relay
  link : t.link = s.link
  phase : t.phase = s.phase

theorem State.RelayWrites.refl {s : State} (quiet : s.Quiet) (manager : s.isManager = true) : s.RelayWrites s :=
  ⟨quiet, manager, rfl, rfl, rfl⟩

theorem State.RelayWrites.trans {s t u : State} (h : s.RelayWrites t) (g : t.RelayWrites u) : s.RelayWrites u :=
  ⟨g.quiet, g.manager, g.relay.trans h.relay, g.link.trans h.link, g.phase.trans h.phase⟩

theorem State.RelayWrites.access {s : State} (quiet : s.Quiet) (manager : s.isManager = true) {a : Nat} (own : relayWord a)
    (w : Word) : s.RelayWrites (s.access .seq a (some w)).2.2 := by
  have written : s.written .seq a w = (s.access .seq a (some w)).2.2 := by
    unfold State.written
    rw [if_neg (by simp [quiet.fabric, State.admits]), if_neg (by decide)]
  obtain ⟨c, next, -, ends⟩ := s.written_plain .seq a w quiet (by simp [State.admits]) rfl
  have calm := next.events_nil quiet.events
  obtain ⟨-, -, -, -, block⟩ := relayWord_bounds own
  obtain ⟨d, row, -⟩ := relayWord_row own
  have word : c.writeWord .seq a w allBits = c.ownedStore .seq a a w allBits := by
    unfold State.writeWord
    rw [block, row]
    rfl
  have manager' := next.isManager.trans manager
  have stores := State.ownedStore_relay manager' own w
  rw [← written, ends, c.writeReg_eq .seq a w calm, word]
  generalize c.ownedStore .seq a a w allBits = t at stores ⊢
  have none : t.events = [] := stores.standsAs.events.trans calm
  rw [State.eventsLater_none none]
  have manages : t.settle.isManager = true := by
    have role : t.settle.reg F.SYS_DOM_STAT_ROLE.base = c.reg F.SYS_DOM_STAT_ROLE.base :=
      ((t.aside_settle (by simp [none])).regs _ (by decide)).trans (stores.low _ (by decide))
    rw [← manager']
    exact congrArg not (State.on_eq_of_reg role)
  have stands := (next.standsAs.trans stores.standsAs).trans (t.aside_settle (by simp [none])).standsAs
  exact ⟨stands.quiet quiet rfl, manages, stands.relay, stands.link, stands.phase⟩

theorem State.RelayWrites.burst {s : State} (quiet : s.Quiet) (manager : s.isManager = true) (ws : List Word) (a : Nat)
    (own : ∀ i, i < ws.length → relayWord (a + i)) : s.RelayWrites (s.burst .seq 1 a ws) := by
  induction ws generalizing s a with
  | nil => exact .refl quiet manager
  | cons w ws ih =>
    have here : relayWord a := own 0 (Nat.zero_lt_succ _)
    obtain ⟨-, most, -⟩ := relayWord_bounds here
    have first := State.RelayWrites.access quiet manager here w
    unfold State.burst
    dsimp only
    rw [if_pos first.phase, Nat.mod_eq_of_lt (by omega)]
    refine first.trans (ih first.quiet first.manager (a + 1) fun i lt => ?_)
    rw [Nat.add_assoc, Nat.add_comm 1]
    exact own (i + 1) (Nat.succ_lt_succ lt)

/-! ### What a turn of the relay keeps (R306, R307) -/

/-- The rail parameters that the relay holds are those of `s`, and no command has left the queue. -/
structure State.RelayKeeps (s t : State) : Prop where
  rpar : t.relay.rpar = s.relay.rpar
  queue : s.link.queue <+: t.link.queue

theorem State.RelayKeeps.refl (s : State) : s.RelayKeeps s := ⟨rfl, List.prefix_rfl⟩

theorem State.RelayKeeps.trans {s t u : State} (h : s.RelayKeeps t) (g : t.RelayKeeps u) : s.RelayKeeps u :=
  ⟨g.rpar.trans h.rpar, h.queue.trans g.queue⟩

theorem State.RelayKeeps.relayGot (s : State) (d part : Nat) (ws : List Word) : s.RelayKeeps (s.relayGot d part ws) := by
  unfold State.relayGot
  dsimp only
  split
  · exact .refl s
  · split <;> exact ⟨rfl, List.prefix_rfl⟩

theorem State.RelayKeeps.relaySend (fuel : Nat) (s : State) : s.RelayKeeps (s.relaySend fuel) := by
  induction fuel generalizing s with
  | zero => exact .refl s
  | succ fuel ih =>
    unfold State.relaySend
    dsimp only
    split
    · exact .refl s
    · next d part rest _ =>
      have mine (n : Nat) (ws : List Word) :
          s.RelayKeeps (State.relayGot 0 n ws { s with relay := { s.relay with todo := rest } }) :=
        State.RelayKeeps.trans (t := { s with relay := { s.relay with todo := rest } }) ⟨rfl, List.prefix_rfl⟩ (.relayGot ..)
      split_ifs
      · exact .refl s
      all_goals refine State.RelayKeeps.trans ?_ (ih _)
      · exact mine _ _
      · exact mine _ _
      · exact ⟨rfl, List.prefix_append ..⟩
      · exact ⟨rfl, List.prefix_append ..⟩

theorem State.RelayKeeps.relayMove (s : State) : s.RelayKeeps s.relayMove := by
  unfold State.relayMove
  dsimp only
  have round (t : State) : t.RelayKeeps (t.relayRound.relaySend 128) :=
    State.RelayKeeps.trans (t := t.relayRound) ⟨rfl, List.prefix_rfl⟩ (.relaySend _ _)
  split_ifs
  · exact ⟨rfl, List.prefix_rfl⟩
  · exact round s
  · exact State.RelayKeeps.trans (t := s.bump F.SEQ_RLY_CNT_ROUNDS) ⟨rfl, List.prefix_rfl⟩ (round _)
  · exact .relaySend _ s

theorem State.relayMove_off {s : State} (off : s.isManager = false ∨ s.on F.SEQ_CTRL_RLY_EN = false) :
    (s.relayMove).relay.running = false ∧ (s.relayMove).relay.todo = [] ∧ (s.relayMove).relay.out = [] ∧
      (s.relayMove).relay.got = [] := by
  have stops : s.relayMove = { s with relay := { s.relay with running := false, todo := [], out := [], got := [] } } :=
    if_pos (by simpa using off)
  rw [stops]
  exact ⟨rfl, rfl, rfl, rfl⟩

/-- The hold map of a device, where it has changed, goes to the device (R306). -/
def State.relayMap (s : State) (e : Nat) : State :=
  let m : BitVec 64 := s.holdMap e
  let old : BitVec 64 := ((s.relay.maps.find? (fun x => x.1 == e)).map (fun x => x.2)).getD 0
  if m = old then s
  else
    let ws : List Word := [m.setWidth 32, (m >>> 32).setWidth 32]
    let s := { s with relay := { s.relay with
      maps := s.relay.maps.filter (fun (x : Nat × BitVec 64) => x.1 != e) ++ [(e, m)] } }
    if e = 0 then s.burst .seq 1 F.SEQ_HOLD.base ws else s.queueCmd 4 (regWriteBytes e F.SEQ_HOLD.base ws)

/-- `t` follows `s` in a turn of the relay: it keeps what the relay keeps, and nothing else is under way in either. -/
structure State.RelayTurns (s t : State) : Prop where
  quiet : t.Quiet
  manager : t.isManager = true
  keeps : s.RelayKeeps t

theorem State.RelayWrites.turns {s t : State} (h : s.RelayWrites t) : s.RelayTurns t :=
  ⟨h.quiet, h.manager, by rw [h.relay], by rw [h.link]⟩

/-- What changes in the round of the relay and in the queue starts nothing else. -/
theorem State.Quiet.withRelay {s : State} (quiet : s.Quiet) (r : RelaySt) (q : List LinkCmd) :
    ({ s with relay := r, link := { s.link with queue := q } } : State).Quiet :=
  ⟨quiet.fabric, quiet.waiting, quiet.barred, quiet.due, quiet.events, quiet.trigs, quiet.line, quiet.burst⟩

theorem State.RelayTurns.after {s t u : State} (h : s.RelayKeeps t) (g : t.RelayTurns u) : s.RelayTurns u :=
  ⟨g.quiet, g.manager, h.trans g.keeps⟩

theorem State.RelayTurns.relayMap {s : State} (quiet : s.Quiet) (manager : s.isManager = true) (e : Nat) :
    s.RelayTurns (s.relayMap e) := by
  unfold State.relayMap
  dsimp only
  split_ifs with same own
  · exact ⟨quiet, manager, .refl s⟩
  · refine State.RelayTurns.after ?_ (State.RelayWrites.turns (.burst ?_ ?_ _ _ fun i lt => ?_))
    · exact ⟨rfl, List.prefix_rfl⟩
    · exact quiet.withRelay _ s.link.queue
    · exact manager
    have two : i < 2 := lt
    interval_cases i
    · exact .inr (.inl rfl)
    · exact .inr (.inr rfl)
  · exact ⟨quiet.withRelay _ _, manager, rfl, List.prefix_append ..⟩

theorem State.RelayTurns.maps {s : State} (quiet : s.Quiet) (manager : s.isManager = true) (devs : List Nat) :
    s.RelayTurns (devs.foldl State.relayMap s) := by
  induction devs generalizing s with
  | nil => exact ⟨quiet, manager, .refl s⟩
  | cons e devs ih =>
    obtain ⟨quiet', manager', keeps⟩ := State.RelayTurns.relayMap quiet manager e
    exact .after keeps (ih quiet' manager')

/-! ### The update of a device (R307) -/

/-- The words of the second part and of the end of the first are the device's rail parameters. -/
def State.relayTakes (d : Nat) (rpar : List Word) (s : State) : State :=
  { s with relay := { s.relay with
    got := s.relay.got.filter (fun h => h.1 != d)
    rpar := s.relay.rpar.filter (fun (e : Nat × List Word) => e.1 != d) ++ [(d, rpar)] } }

/-- What both reads of device `d` mean: its summary goes into every mirror, and the hold maps that have changed to their devices. -/
theorem State.relayUpdate_pair {s : State} {d : Nat} {w0 w1 : List Word} (got : s.relay.got = [(d, 0, w0), (d, 1, w1)]) :
    s.relayUpdate = ((List.range 64).foldl State.relayMap
      (((s.relayTakes d (w0.drop 6 ++ w1)).queueCmd 4 (regWriteBytes 0xFF (0x3B00 + 6 * d) (w0.take 6))).burst .seq 1
        (0x3B00 + 6 * d) (w0.take 6))).relayMove := by
  have first : s.relay.got.find? (fun g => g.2.1 == 0 && s.relay.got.any (fun h => h.1 == g.1 && h.2.1 == 1)) =
      some (d, 0, w0) := by
    rw [got]
    simp
  have second : s.relay.got.find? (fun h => h.1 == d && h.2.1 == 1) = some (d, 1, w1) := by
    rw [got]
    simp
  unfold State.relayUpdate
  dsimp only
  rw [first]
  dsimp only
  rw [second]
  rfl

theorem State.relayUpdate_none {s : State}
    (unpaired : ∀ g ∈ s.relay.got, ¬(g.2.1 = 0 ∧ ∃ h ∈ s.relay.got, h.1 = g.1 ∧ h.2.1 = 1)) :
    s.relayUpdate = s.relayMove := by
  have none : s.relay.got.find? (fun g => g.2.1 == 0 && s.relay.got.any (fun h => h.1 == g.1 && h.2.1 == 1)) = none := by
    rw [List.find?_eq_none]
    intro g mem both
    refine unpaired g mem ?_
    simpa using both
  unfold State.relayUpdate
  dsimp only
  rw [none]

theorem State.relayUpdate_takes {s : State} (d : Fin 64) {w0 w1 : List Word}
    (got : s.relay.got = [(d.val, 0, w0), (d.val, 1, w1)])
    (quiet : s.Quiet) (manager : s.isManager = true) (eight : w0.length = 8) :
    (d.val, w0.drop 6 ++ w1) ∈ s.relayUpdate.relay.rpar ∧
      ⟨4, regWriteBytes 0xFF (0x3B00 + 6 * d.val) (w0.take 6), .none⟩ ∈ s.relayUpdate.link.queue := by
  rw [State.relayUpdate_pair got]
  set t := (s.relayTakes d (w0.drop 6 ++ w1)).queueCmd 4 (regWriteBytes 0xFF (0x3B00 + 6 * d) (w0.take 6)) with ht
  have own (i : Nat) (lt : i < (w0.take 6).length) : relayWord (0x3B00 + 6 * d.val + i) := by
    rw [List.length_take, eight] at lt
    have := d.isLt
    exact .inl (by omega)
  have written := (State.RelayWrites.burst (s := t) (quiet.withRelay _ _) manager _ _ own).turns
  have maps := State.RelayTurns.maps written.quiet written.manager (List.range 64)
  have keeps := (written.keeps.trans maps.keeps).trans (.relayMove _)
  refine ⟨?_, keeps.queue.subset (List.mem_append_right _ (List.mem_singleton_self _))⟩
  rw [keeps.rpar]
  exact List.mem_append_right _ (List.mem_singleton_self _)

/-- Settles O30: the questions by the steps of a swing's commands, the deliveries by `dlvCmd` in the cycle after the request,
the relay by what its turns keep. -/
theorem deliveriesAndRelay : Obligations.DeliveriesAndRelay := by
  unfold Obligations.DeliveriesAndRelay
  refine ⟨⟨completes_cmtCheckSend_idle, completes_cmtCheckSend, State.downSendAt_sends, State.swingCmds_checks,
      completes_dlvQuerySend_idle, completes_dlvQuerySend, State.swingCmds_queries⟩,
    ⟨exec_dlvStart_shut, completes_dlvStart, State.dlvBegin_shows, fun s p manager => ?abort, grants_dlvAbort_worker⟩,
    fun s unpaired => ?unpaired, fun s d w0 w1 got running quiet manager enabled eight => ?pair, fun s => State.relayMove_off,
    fun s d => comes_intro rfl⟩
  case abort =>
    have aborts : State.dlvAbort = _ := funext State.dlvAbort_eq
    exact aborts ▸ grants_dlvAbort s p manager
  case unpaired => exact completes_done (u := s.relayUpdate) rfl (State.relayUpdate_none unpaired)
  case pair => exact completes_done (u := s.relayUpdate) rfl (State.relayUpdate_takes d got quiet manager eight)

end Sys2Proof.Machine
end

/-! # Loops and phase cells: what their updates leave, and what a turn of a fold decides (R45, R201) -/

section
namespace Sys2Proof.Machine

/-! ### The tables of loops and of phase cells -/

theorem State.lp_setLp_same (s : State) (n : Fin 8) (x : LoopSt) : (s.setLp n x).lp n = x :=
  (tget_tset _ _ _ _).trans (if_pos ⟨rfl, n.isLt⟩)

theorem State.lp_setLp_ne (s : State) {n m : Nat} (h : m ≠ n) (x : LoopSt) : (s.setLp n x).lp m = s.lp m :=
  (tget_tset _ _ _ _).trans (if_neg fun e => h e.1)

theorem State.phs_setPhs_same (s : State) (p : Fin 24) (x : PhaseSt) : (s.setPhs p x).phs p = x :=
  (tget_tset _ _ _ _).trans (if_pos ⟨rfl, p.isLt⟩)

theorem State.phs_setPhs_ne (s : State) {p q : Nat} (h : p ≠ q) (x : PhaseSt) : (s.setPhs q x).phs p = s.phs p :=
  (tget_tset _ _ _ _).trans (if_neg fun e => h e.1)

@[simp] theorem State.lp_put (s : State) (f : Fld) (v i n : Nat) : (s.put f v i).lp n = s.lp n := rfl
@[simp] theorem State.lp_raise (s : State) (cls ev obj : Nat) (d : Word) (dev : Option Nat) (n : Nat) :
    (s.raise cls ev obj d dev).lp n = s.lp n := by rw [State.lp, State.raise_loop, State.lp]
@[simp] theorem State.get_setLp (s : State) (n : Nat) (x : LoopSt) (f : Fld) (i : Nat) : (s.setLp n x).get f i = s.get f i := rfl

theorem State.loopPhases_lt {s : State} {n p : Nat} (mem : p ∈ s.loopPhases n) : p < 24 :=
  List.mem_range.mp (List.mem_filter.mp mem).1

theorem State.loopPhases_nodup (s : State) (n : Nat) : (s.loopPhases n).Nodup := List.nodup_range.filter _

/-! ### Fields -/

/-- A field that a write of `g` in the same copy leaves: one of another word, or of other bits of the word. -/
abbrev Fld.Beside (f g : Fld) : Prop :=
  f.stride = g.stride ∧ f.base ≠ g.base ∨ (f.lo + f.width ≤ g.lo ∨ g.lo + g.width ≤ f.lo) ∧ f.lo + f.width ≤ 32

/-- A field of the words of the loops, and one of the words of the phases (R504). -/
abbrev Fld.OfLoop (f : Fld) : Prop := f.stride = 0x100 ∧ f.base / 0x100 = 0x20
abbrev Fld.OfPhase (f : Fld) : Prop := f.stride = 0x20 ∧ f.base / 0x20 = 0x140

theorem Fld.OfLoop.block {f : Fld} (h : f.OfLoop) (n : Nat) : f.addr n / 0x100 = 0x20 + n := by
  obtain ⟨stride, base⟩ := h
  rw [Fld.addr, stride]
  omega

theorem Fld.OfPhase.block {f : Fld} (h : f.OfPhase) (p : Nat) : f.addr p / 0x20 = 0x140 + p := by
  obtain ⟨stride, base⟩ := h
  rw [Fld.addr, stride]
  omega

theorem State.get_put_beside (s : State) {f g : Fld} (h : f.Beside g) (v i : Nat) : (s.put g v i).get f i = s.get f i := by
  rcases h with ⟨stride, base⟩ | ⟨apart, fits⟩
  · exact s.get_put_ne g f v i i (by unfold Fld.addr; rw [stride]; omega)
  · exact s.get_put_disj g f v i i apart fits

theorem State.get_put_fits (s : State) {f : Fld} {v : Nat} (h : f.lo + f.width ≤ 32) (i : Nat) (fits : v < 2 ^ f.width) :
    (s.put f v i).get f i = v := (s.get_put_same f v i h).trans (Nat.mod_eq_of_lt fits)

theorem State.lf_lt (s : State) (n : Nat) (f : Fld) : s.lf n f < 2 ^ f.width := by
  unfold State.lf
  split
  · split
    · exact Nat.mod_lt _ (Nat.two_pow_pos _)
    · exact s.get_lt f n
  · exact s.get_lt f n

/-! ### What leaves everything but one loop -/

/-- `t` is `s` but for loop `n`, its words, and events. -/
structure State.LoopOnly (n : Nat) (s t : State) : Prop where
  regs : ∀ k, k / 0x100 ≠ 0x20 + n → t.reg k = s.reg k
  loops : ∀ m, m ≠ n → t.lp m = s.lp m
  rest : t = { s with regs := t.regs, loop := t.loop, events := t.events }

namespace State.LoopOnly

variable {n : Nat} {s t u : State}

theorem refl (n : Nat) (s : State) : s.LoopOnly n s := ⟨fun _ _ => rfl, fun _ _ => rfl, rfl⟩

theorem trans (h : s.LoopOnly n t) (g : t.LoopOnly n u) : s.LoopOnly n u where
  regs k hk := (g.regs k hk).trans (h.regs k hk)
  loops m hm := (g.loops m hm).trans (h.loops m hm)
  rest := by rw [g.rest, h.rest]

theorem put (h : s.LoopOnly n t) (f : Fld) (v : Nat) (loop : f.OfLoop) : s.LoopOnly n (t.put f v n) :=
  h.trans ⟨fun k hk => t.reg_put_ne (fun e => hk (by rw [e, loop.block n])) v, fun _ _ => rfl, rfl⟩

theorem setLp (h : s.LoopOnly n t) (x : LoopSt) : s.LoopOnly n (t.setLp n x) :=
  h.trans ⟨fun _ _ => rfl, fun _ hm => t.lp_setLp_ne hm x, rfl⟩

theorem raise (h : s.LoopOnly n t) (cls ev obj : Nat) (d : Word) (dev : Option Nat) : s.LoopOnly n (t.raise cls ev obj d dev) :=
  h.trans ⟨fun k _ => t.reg_raise cls ev obj d dev k, fun _ _ => t.lp_raise .., by rw [State.raise_eq]⟩

theorem phs (h : s.LoopOnly n t) (p : Nat) : t.phs p = s.phs p := by rw [h.rest]; rfl
theorem loopPhases (h : s.LoopOnly n t) (m : Nat) : t.loopPhases m = s.loopPhases m := by rw [h.rest]; rfl
theorem now (h : s.LoopOnly n t) : t.now = s.now := by rw [h.rest]

theorem phaseReg (h : s.LoopOnly n t) (loop : n < 8) {k : Nat} (phase : 0x2800 ≤ k) : t.reg k = s.reg k :=
  h.regs k (by omega)

theorem phState (h : s.LoopOnly n t) (loop : n < 8) (p : Nat) : t.phState p = s.phState p :=
  State.get_eq_of_reg (h.phaseReg loop (Nat.le_trans (by decide) (Nat.le_add_right _ _)))

end State.LoopOnly

/-! ### What leaves one phase, what leaves one loop -/

/-- `t` shows what `s` shows of phase `p`. -/
structure State.SamePhase (p : Nat) (s t : State) : Prop where
  loop : t.loop = s.loop
  cell : t.phs p = s.phs p
  regs : ∀ k, k / 0x20 = 0x140 + p → t.reg k = s.reg k

namespace State.SamePhase

variable {p : Nat} {s t u : State}

theorem refl (p : Nat) (s : State) : s.SamePhase p s := ⟨rfl, rfl, fun _ _ => rfl⟩

theorem trans (h : s.SamePhase p t) (g : t.SamePhase p u) : s.SamePhase p u :=
  ⟨g.loop.trans h.loop, g.cell.trans h.cell, fun k hk => (g.regs k hk).trans (h.regs k hk)⟩

theorem setPhs (h : s.SamePhase p t) {q : Nat} (other : q ≠ p) (x : PhaseSt) : s.SamePhase p (t.setPhs q x) :=
  h.trans ⟨rfl, t.phs_setPhs_ne other.symm x, fun _ _ => rfl⟩

theorem put (h : s.SamePhase p t) {q : Nat} (other : q ≠ p) (f : Fld) (v : Nat) (phase : f.OfPhase) :
    s.SamePhase p (t.put f v q) :=
  h.trans ⟨rfl, rfl, fun _ hk => t.reg_put_ne (fun e => other (by have := phase.block q; omega)) v⟩

theorem putLoop (h : s.SamePhase p t) (n : Fin 8) (f : Fld) (v : Nat) (loop : f.OfLoop) : s.SamePhase p (t.put f v n) :=
  h.trans ⟨rfl, rfl, fun _ hk => t.reg_put_ne (fun e => by have := loop.block n; omega) v⟩

theorem get (h : s.SamePhase p t) (f : Fld) (phase : f.OfPhase) : t.get f p = s.get f p :=
  State.get_eq_of_reg (h.regs _ (phase.block p))

theorem phState (h : s.SamePhase p t) : t.phState p = s.phState p := h.get F.PHn_STAT_STATE (by decide)

theorem phCtrl (h : s.SamePhase p t) (n : Nat) : t.phCtrl n p = s.phCtrl n p := by
  have loopOn : t.loopOn n = s.loopOn n := by rw [State.loopOn, State.lp, h.loop]; rfl
  rw [State.phCtrl, loopOn, h.cell, h.regs _ (Fld.OfPhase.block (f := F.PHn_CTRL) (by decide) p)]
  rfl

theorem phCurrent (h : s.SamePhase p t) (n : Nat) (raw : Int) : t.phCurrent n p raw = s.phCurrent n p raw := by
  rw [State.phCurrent, h.phCtrl n]; rfl

end State.SamePhase

/-- `t` shows what `s` shows of loop `n`. -/
structure State.SameLoop (n : Nat) (s t : State) : Prop where
  cell : t.lp n = s.lp n
  regs : ∀ k, k / 0x100 = 0x20 + n → t.reg k = s.reg k

namespace State.SameLoop

variable {n : Nat} {s t u : State}

theorem refl (n : Nat) (s : State) : s.SameLoop n s := ⟨rfl, fun _ _ => rfl⟩

theorem trans (h : s.SameLoop n t) (g : t.SameLoop n u) : s.SameLoop n u :=
  ⟨g.cell.trans h.cell, fun k hk => (g.regs k hk).trans (h.regs k hk)⟩

theorem ofLoopOnly {m : Nat} (h : s.LoopOnly m t) (other : m ≠ n) : s.SameLoop n t :=
  ⟨h.loops n other.symm, fun k hk => h.regs k (by omega)⟩

theorem get (h : s.SameLoop n t) (f : Fld) (loop : f.OfLoop) : t.get f n = s.get f n :=
  State.get_eq_of_reg (h.regs _ (loop.block n))

theorem loopOn (h : s.SameLoop n t) : t.loopOn n = s.loopOn n := congrArg (fun x => x.bnd.isSome) h.cell

theorem lf (h : s.SameLoop n t) (f : Fld) (loop : f.OfLoop) : t.lf n f = s.lf n f := by
  rw [State.lf, h.loopOn, h.cell, h.get f loop]; rfl

end State.SameLoop

/-- A fold over distinct entries, of which every other leaves what `R` compares: what it brings of `p` is decided at `p`'s turn,
which finds what stood before. -/
theorem foldl_turn {α β : Type} {f : β → α → β} {p : α} (R : β → β → Prop) (refl : ∀ b, R b b)
    (trans : ∀ {a b c}, R a b → R b c → R a c) {l : List α} (nodup : l.Nodup) (mem : p ∈ l)
    (others : ∀ b a, a ≠ p → R b (f b a)) (b : β) : ∃ c, R b c ∧ R (f c p) (l.foldl f b) := by
  have keeps (l : List α) (out : p ∉ l) (b : β) : R b (l.foldl f b) :=
    List.foldlRecOn l f (refl b) (fun c h a ha => trans h (others c a (ne_of_mem_of_not_mem ha out)))
  obtain ⟨before, after, rfl⟩ := List.append_of_mem mem
  have apart := List.nodup_append.mp nodup
  refine ⟨before.foldl f b, keeps before (fun h => apart.2.2 p h p List.mem_cons_self rfl) b, ?_⟩
  rw [List.foldl_append, List.foldl_cons]
  exact keeps after (List.nodup_cons.mp apart.2.1).1 _

/-- The turn of a phase in a fold over the phases of a loop. -/
theorem State.foldl_phases {f : State → Nat → State} {p : Nat} (others : ∀ (s : State) q, q ≠ p → s.SamePhase p (f s q)) (s t : State)
    {n : Nat} (mem : p ∈ s.loopPhases n) : ∃ u, t.SamePhase p u ∧ (f u p).SamePhase p ((s.loopPhases n).foldl f t) :=
  foldl_turn (State.SamePhase p) (SamePhase.refl p) SamePhase.trans (s.loopPhases_nodup n) mem others t

end Sys2Proof.Machine
end

/-! # Carrier boundaries: the active set, the demand, the on-times and the period (R181–R197, R210) -/

section
namespace Sys2Proof.Machine

theorem comes_carrierBoundary (s : State) (n : Fin 8) (x : LoopSample) (sampled : x.iph.length = 24) :
    Comes (.carrierBoundary n x) s ((s.lp n).bnd.map (fun t => t / 32)) (State.carrierBoundary n x) :=
  comes_intro (if_pos sampled)

/-! ### The active set (R181, R210) -/

/-- NACT at the next boundary: as many phases as NMIN, the shed count and a hint ask for, of those that are available. -/
def State.nactNext (s : State) (n : Nat) : Nat :=
  min (max (min (s.lf n F.LOOPn_SHED_NMIN) (s.loopNph n)) (max (s.lp n).nShed (s.lp n).nHint)) (s.availPhases n).length

/-- The phases active from the next boundary on. -/
def State.activeNext (s : State) (n : Nat) : List Nat := (s.availPhases n).take (s.nactNext n)

/-- A phase shows whether it is dropped, disabled, active or shed. -/
def State.phaseShown (n : Nat) (active : List Nat) (s : State) (p : Nat) : State :=
  if s.phState p == phDropped then s
  else if bitsOf (s.phCtrl n p) 16 1 == 1 then s.setPhState p phDisabled
  else if active.contains p then s.setPhState p phActive else s.setPhState p phShed

/-- The compensator's state `x` in `s` after a change of the active set from `was` to `nact` phases. -/
def State.rescale (s : State) (was nact i : Nat) (x : Int) : Int :=
  if !(was != nact) then x else if nact = 0 then (Config.freeWord (s.free + i)).toInt else s.fdiv i (x * was) nact

/-- The count and the mask of the active phases and the count of those available are shown. -/
def State.setShownActive (n nact mask avail : Nat) (s : State) : State :=
  ((s.put F.LOOPn_STAT_NACT nact n).put F.LOOPn_ACTIVE_MASK mask n).put F.LOOPn_TSTAT_NAVAIL avail n

theorem State.fixActive_eq (s : State) (n : Nat) : s.fixActive n =
    let mask := (s.activeNext n).foldl (fun m p => m + 2 ^ p) 0
    let t := ((s.loopPhases n).foldl (State.phaseShown n (s.activeNext n)) s).setShownActive n (s.nactNext n) mask
      (s.availPhases n).length
    let sc (i : Nat) (x : Int) := t.rescale (s.lp n).nactPrev (s.nactNext n) i x
    t.setLp n { t.lp n with
      int := sc 2 (s.lp n).int, y1 := sc 3 (s.lp n).y1, y2 := sc 4 (s.lp n).y2
      nactChanged := (s.lp n).nactPrev != s.nactNext n, nactPrev := s.nactNext n, activePrev := mask } := rfl

theorem State.phaseShown_others (n : Nat) (active : List Nat) {p : Nat} (s : State) (q : Nat) (other : q ≠ p) :
    s.SamePhase p (State.phaseShown n active s q) := by
  have set (st : Nat) : s.SamePhase p (s.setPhState q st) := (SamePhase.refl p s).put other _ _ (by decide)
  unfold State.phaseShown
  split_ifs
  · exact .refl p s
  all_goals exact set _

theorem State.phState_setPhState (s : State) {p st : Nat} (code : st < 8) : (s.setPhState p st).phState p = st :=
  s.get_put_fits (by decide) p code

/-- The phase states that the fold leaves stand in the end: what follows it writes words of the loop. -/
theorem State.phState_fixActive (s : State) (n : Fin 8) (p : Nat) : (s.fixActive n).phState p =
    ((s.loopPhases n).foldl (State.phaseShown n (s.activeNext n)) s).phState p := by
  rw [State.fixActive_eq]
  exact (((((LoopOnly.refl n _).put F.LOOPn_STAT_NACT _ (by decide)).put F.LOOPn_ACTIVE_MASK _ (by decide)).put
    F.LOOPn_TSTAT_NAVAIL _ (by decide)).setLp _).phState n.isLt p

theorem State.fixActive_active (s : State) (n : Fin 8) (p : Nat) (active : p ∈ s.activeNext n) :
    (s.fixActive n).phState p = phActive := by
  have avail : p ∈ s.availPhases n := List.mem_of_mem_take active
  obtain ⟨mem, fit⟩ := List.mem_filter.mp avail
  simp only [Bool.and_eq_true, bne_iff_ne, ne_eq, beq_iff_eq] at fit
  obtain ⟨u, before, after⟩ := State.foldl_phases (State.phaseShown_others n (s.activeNext n)) s s mem
  have turn : State.phaseShown n (s.activeNext n) u p = u.setPhState p phActive := by
    simp [State.phaseShown, before.phState, before.phCtrl n, fit, active]
  rw [State.phState_fixActive, after.phState, turn]
  exact u.phState_setPhState (by decide)

theorem State.fixActive_dropped (s : State) (n : Fin 8) (p : Nat) (dropped : s.phState p = phDropped) :
    (s.fixActive n).phState p = phDropped := by
  rw [State.phState_fixActive]
  refine List.foldlRecOn (motive := fun t : State => t.phState p = phDropped) _ _ dropped (fun t stands q _ => ?_)
  by_cases own : q = p
  · subst own
    rw [State.phaseShown, if_pos (by simp [stands])]
    exact stands
  · exact ((State.phaseShown_others n _ t q own).phState).trans stands

theorem State.availPhases_length_lt (s : State) (n : Nat) : (s.availPhases n).length < 2 ^ 5 :=
  calc (s.availPhases n).length ≤ (s.loopPhases n).length := List.length_filter_le _ _
    _ ≤ (List.range 24).length := List.length_filter_le _ _
    _ < 2 ^ 5 := by simp

theorem State.fixActive_nact (s : State) (n : Fin 8) : (s.fixActive n).get F.LOOPn_STAT_NACT n = s.nactNext n := by
  rw [State.fixActive_eq, State.get_setLp, State.setShownActive, State.get_put_beside _ (by decide),
    State.get_put_beside _ (by decide)]
  exact State.get_put_fits _ (by decide) _ (Nat.lt_of_le_of_lt (Nat.min_le_right _ _) (s.availPhases_length_lt n))

/-- The quotient with its free last place misses the exact one by less than one. -/
theorem State.fdiv_close (s : State) (k : Nat) (a : Int) {m : Nat} (pos : 0 < m) :
    ((m : Int) * s.fdiv k a m - a).natAbs < m := by
  have whole := Int.mul_ediv_add_emod a m
  have least := Int.emod_nonneg a (b := (m : Int)) (by omega)
  have most := Int.emod_lt_of_pos a (b := (m : Int)) (by omega)
  unfold State.fdiv
  rw [if_neg (by omega)]
  split_ifs
  · omega
  · cases Config.freeBit (s.free + k)
    · simp only [b2n, Bool.false_eq_true, if_false, Nat.cast_zero, add_zero]; omega
    · simp only [b2n, if_true, Nat.cast_one, mul_add, mul_one]; omega

theorem State.rescale_same (s : State) {was nact : Nat} (same : was = nact) (i : Nat) (x : Int) : s.rescale was nact i x = x :=
  if_pos (by simp [same])

theorem State.rescale_close (s : State) {was nact : Nat} (changed : was ≠ nact) (pos : 0 < nact) (i : Nat) (x : Int) :
    ((nact : Int) * s.rescale was nact i x - x * was).natAbs < nact := by
  rw [State.rescale, if_neg (by simp [changed]), if_neg (by omega)]
  exact s.fdiv_close i _ pos

theorem State.fixActive_shows (s : State) (n : Fin 8) : let t := s.fixActive n
    t.get F.LOOPn_STAT_NACT n = s.nactNext n ∧ (t.lp n).nactPrev = s.nactNext n ∧
      (t.lp n).activePrev = (s.activeNext n).foldl (fun m p => m + 2 ^ p) 0 ∧
      (∀ p : Fin 24, p.val ∈ s.activeNext n → t.phState p = phActive) ∧
      (∀ p : Fin 24, s.phState p = phDropped → t.phState p = phDropped) ∧
      ((s.lp n).nactPrev = s.nactNext n → (t.lp n).int = (s.lp n).int ∧ (t.lp n).y1 = (s.lp n).y1 ∧
        (t.lp n).y2 = (s.lp n).y2) ∧
      ((s.lp n).nactPrev ≠ s.nactNext n → 0 < s.nactNext n →
        (((s.nactNext n : Nat) : Int) * (t.lp n).int - (s.lp n).int * (s.lp n).nactPrev).natAbs < s.nactNext n) := by
  refine ⟨s.fixActive_nact n, ?_, ?_, fun p => s.fixActive_active n p, fun p => s.fixActive_dropped n p, fun same => ?_,
    fun changed pos => ?_⟩ <;> rw [State.fixActive_eq, State.lp_setLp_same]
  · exact ⟨State.rescale_same _ same _ _, State.rescale_same _ same _ _, State.rescale_same _ same _ _⟩
  · exact State.rescale_close _ changed pos _ _

/-! ### The demand (R196, R197) -/

/-- C of a boundary: the least of IMAX_PH, the thermal ceiling and the ceiling of an overload. -/
def State.demandCeil (s : State) (n nact : Nat) : Nat :=
  min (s.lf n F.LOOPn_CLAMP_IMAX_PH) (min (s.thermCeil n) (s.ovlCeil n nact))

/-- The demand `dk` under the ceiling `c` and over the floor `lo` is shown. -/
def State.demandShown (n dk c lo : Nat) (s : State) : State :=
  ((s.put F.LOOPn_DEMAND_D dk n).putB F.LOOPn_STAT_CLAMP_HI (dk == c) n).putB F.LOOPn_STAT_CLAMP_LO (dk == lo) n

theorem State.compensate_eq (s : State) (n nact : Nat) (e : Int) : ∃ dk lo x, s.compensate n nact e =
      (s.demandShown n dk (s.demandCeil n nact) lo).setLp n x ∧
    dk ≤ s.demandCeil n nact ∧ x.ceil = s.demandCeil n nact ∧
      (s.on F.LOOPn_TSTAT_BRAKING n = true → x.int = (s.lp n).int) :=
  ⟨_, _, _, rfl, Nat.min_le_left _ _, rfl, fun brakes => if_pos (by rw [brakes]; rfl)⟩

theorem State.demandShown_shows (s : State) (n : Nat) {dk c : Nat} (lo : Nat) (fits : dk < 2 ^ 10) :
    (s.demandShown n dk c lo).get F.LOOPn_DEMAND_D n = dk ∧
      (s.demandShown n dk c lo).on F.LOOPn_STAT_CLAMP_HI n = (dk == c) := by
  unfold State.demandShown
  constructor
  · rw [State.putB, State.get_put_beside _ (by decide), State.putB, State.get_put_beside _ (by decide)]
    exact s.get_put_fits (by decide) n fits
  · rw [State.on, State.putB, State.get_put_beside _ (by decide)]
    exact State.on_putB_same _ _ _ _ (by decide) rfl

theorem State.compensate_shows (s : State) (n : Fin 8) (nact : Nat) (e : Int) :
    (s.compensate n nact e).get F.LOOPn_DEMAND_D n ≤ s.demandCeil n nact ∧
      (s.compensate n nact e).on F.LOOPn_STAT_CLAMP_HI n =
        ((s.compensate n nact e).get F.LOOPn_DEMAND_D n == s.demandCeil n nact) ∧
      ((s.compensate n nact e).lp n).ceil = s.demandCeil n nact ∧
      (s.on F.LOOPn_TSTAT_BRAKING n = true → ((s.compensate n nact e).lp n).int = (s.lp n).int) := by
  obtain ⟨dk, lo, x, t, most, ceil, int⟩ := s.compensate_eq n nact e
  have fits : dk < 2 ^ 10 :=
    Nat.lt_of_le_of_lt (Nat.le_trans most (Nat.min_le_left _ _)) (s.lf_lt n F.LOOPn_CLAMP_IMAX_PH)
  obtain ⟨demand, clampHi⟩ := s.demandShown_shows n (c := s.demandCeil n nact) lo fits
  rw [t, State.get_setLp, demand, State.lp_setLp_same]
  exact ⟨most, clampHi, ceil, int⟩

/-! ### The on-times of a cycle (R183, R189, R190) -/

/-- The turn of phase `p`, the phases `act` being active, in the schedule that `s` gives for the cycle from `t` on. -/
def State.phaseScheduled (n t dOld : Nat) (act : List Nat) (s u : State) (p : Nat) : State :=
  if !act.contains p then u.phaseMidZ p
  else
    let o := phaseStart (act.idxOf p) (s.lp n).per act.length
    let going := (u.phs p).starts.filter (fun e => decide (t < e.1 + e.2.1))
    u.setPhs p { u.phs p with
      starts := if (s.lp n).skip || s.on F.LOOPn_TSTAT_BRAKING n then going
        else going ++ [(t + o, s.lf n F.LOOPn_FSW_DMAX * (s.lp n).per / 256,
          if 640 ≤ o then s.get F.LOOPn_DEMAND_D n else dOld)]
      skipFrom := if (s.lp n).skip then some ((u.phs p).skipFrom.getD (t + o)) else (u.phs p).skipFrom }

/-- The active phases of a loop. -/
def State.activePhases (s : State) (n : Nat) : List Nat := (s.loopPhases n).filter (fun p => s.phState p == phActive)

theorem State.schedule_eq (s : State) (n t d : Nat) :
    s.schedule n t d = (s.loopPhases n).foldl (s.phaseScheduled n t d (s.activePhases n)) s := rfl

theorem State.phaseScheduled_others (n t d : Nat) (act : List Nat) (s : State) {p : Nat} (u : State) (q : Nat) (other : q ≠ p) :
    u.SamePhase p (s.phaseScheduled n t d act u q) := by
  unfold State.phaseScheduled
  split
  · exact (SamePhase.refl p u).setPhs other _
  · exact (SamePhase.refl p u).setPhs other _

theorem State.schedule_starts (s : State) (n : Fin 8) (t d : Nat) (p : Fin 24) (mem : p.val ∈ s.loopPhases n) :
    let o := (s.activePhases n).idxOf p.val * (s.lp n).per / (s.activePhases n).length
    let going := (s.phs p).starts.filter (fun e => decide (t < e.1 + e.2.1))
    ((s.schedule n t d).phs p).starts =
      if s.phState p ≠ phActive then []
      else if ((s.lp n).skip || s.on F.LOOPn_TSTAT_BRAKING n) = true then going
      else going ++ [(t + o, s.lf n F.LOOPn_FSW_DMAX * (s.lp n).per / 256,
        if 640 ≤ o then s.get F.LOOPn_DEMAND_D n else d)] := by
  intro o going
  obtain ⟨u, before, after⟩ := State.foldl_phases (s.phaseScheduled_others n t d (s.activePhases n)) s s mem
  have member : p.val ∈ s.activePhases n ↔ s.phState p = phActive := by simp [State.activePhases, mem]
  rw [State.schedule_eq, after.cell, State.phaseScheduled]
  by_cases active : s.phState p = phActive
  · rw [if_neg (by simp [member, active]), if_neg (by simp [active]), State.phs_setPhs_same, before.cell]
    rfl
  · rw [if_pos (by simp [member, active]), if_pos active, State.phaseMidZ, State.phs_setPhs_same]

/-! ### The period (R185) -/

theorem State.carrierNext_free (s : State) (n : Fin 8) (t : Nat) (free : s.loopClock n = 0) :
    let p : Int := s.lf n F.LOOPn_FSW_PERIOD
    let u := s.carrierNext n t
    (u.lp n).bnd = some (t + (u.lp n).per) ∧
      (((s.lp n).per : Int) + clampI (-(p / 100)) (p / 100) (p - (s.lp n).per)).toNat = (u.lp n).per := by
  have noTarget : s.phaseError n t = none := by rw [State.phaseError, free]; rfl
  intro p u
  have cell : u.lp n = { s.lp n with
      per := ((s.lp n).per + clampI (-(p / 100)) (p / 100) (p - (s.lp n).per)).toNat
      bnd := some (t + ((s.lp n).per + clampI (-(p / 100)) (p / 100) (p - (s.lp n).per)).toNat) } := by
    show (s.carrierNext n t).lp n = _
    rw [State.carrierNext, noTarget]
    exact State.lp_setLp_same _ n _
  rw [cell]
  exact ⟨rfl, rfl⟩

/-- Settles O31: the active set turn by turn of its phases (`fixActive_shows`), the demand by what `compensate_eq` shows of it,
each phase's on-times by its turn in the schedule, the period of a carrier without a target by `carrierNext_free`. -/
theorem loopBoundaries : Obligations.LoopBoundaries := by
  unfold Obligations.LoopBoundaries
  exact ⟨comes_carrierBoundary, State.fixActive_shows, State.compensate_shows, State.schedule_starts,
    fun s n t _ free => s.carrierNext_free n t free⟩

end Sys2Proof.Machine
end

/-! # SYNC_IN, SYNC_OUT, the ends of on-times and the PWM pins (R176–R190, R206, R221) -/

section
namespace Sys2Proof.Machine

/-! ### The loss of SYNC_IN (R186) -/

/-- The loss of SYNC_IN by a loop that was locked is shown and counted. -/
def State.syncLostShown (n : Nat) (s : State) : State :=
  ((s.put F.LOOPn_STAT_SYNC_LOST 1 n).put F.LOOPn_STAT_CLK_STATE 3 n).bump ((F.LOOPn_STATS_V).off 7) n

/-- The loop waits for the next lock. -/
def State.syncUnlocked (n : Nat) (s : State) : State :=
  s.setLp n { s.lp n with locked := false, edges := 0, lost := (s.lp n).locked || (s.lp n).lost }

theorem State.syncLoss_locked {s : State} {n : Nat} (locked : (s.lp n).locked = true) :
    s.syncLoss n = ((s.syncUnlocked n).syncLostShown n).raiseReg 0 1 n F.LOOPn_STAT n := if_pos locked

theorem State.syncLoss_free {s : State} {n : Nat} (free : (s.lp n).locked = false) : s.syncLoss n = s.syncUnlocked n :=
  if_neg (by rw [free]; exact Bool.false_ne_true)

theorem State.syncLostShown_loopOnly (n : Nat) (s : State) : s.LoopOnly n (s.syncLostShown n) :=
  (((LoopOnly.refl n s).put _ _ (by decide)).put _ _ (by decide)).put ((F.LOOPn_STATS_V).off 7) _ (by decide)

theorem State.syncLoss_loopOnly (n : Nat) (s : State) : s.LoopOnly n (s.syncLoss n) := by
  have unlocked : s.LoopOnly n (s.syncUnlocked n) := (LoopOnly.refl n s).setLp _
  cases locked : (s.lp n).locked with
  | true =>
    rw [State.syncLoss_locked locked]
    exact (unlocked.trans (State.syncLostShown_loopOnly n _)).raise ..
  | false => rwa [State.syncLoss_free locked]

theorem State.lp_syncLoss (s : State) (n : Nat) : (s.syncLoss n).lp n = (s.syncUnlocked n).lp n := by
  cases locked : (s.lp n).locked with
  | true =>
    rw [State.syncLoss_locked locked, State.raiseReg, State.lp_raise]
    rfl
  | false => rw [State.syncLoss_free locked]

theorem State.syncLoss_shown {s : State} {n : Nat} (locked : (s.lp n).locked = true) :
    (s.syncLoss n).on F.LOOPn_STAT_SYNC_LOST n = true ∧ (s.syncLoss n).get F.LOOPn_STAT_CLK_STATE n = 3 := by
  rw [State.syncLoss_locked locked, State.raiseReg, State.on_raise, State.get_raise, State.syncLostShown, State.bump]
  constructor
  · rw [State.on, State.get_put_beside _ (by decide), State.get_put_beside _ (by decide), State.get_put_same _ _ _ _ (by decide)]
    rfl
  · rw [State.get_put_beside _ (by decide), State.get_put_same _ _ _ _ (by decide)]
    rfl

theorem State.syncLoss_shows (s : State) (n : Fin 8) : ((s.syncLoss n).lp n).locked = false ∧ ((s.syncLoss n).lp n).edges = 0 ∧
    ((s.lp n).locked = true →
      (s.syncLoss n).on F.LOOPn_STAT_SYNC_LOST n = true ∧ (s.syncLoss n).get F.LOOPn_STAT_CLK_STATE n = 3) ∧
    ((s.lp n).locked = false → (s.syncLoss n).regs = s.regs ∧ (s.syncLoss n).events = s.events) := by
  rw [State.lp_syncLoss, State.syncUnlocked, State.lp_setLp_same]
  exact ⟨rfl, rfl, State.syncLoss_shown, fun free => by rw [State.syncLoss_free free]; exact ⟨rfl, rfl⟩⟩

theorem comes_syncInLost (s : State) (n : Fin 8) : Comes (.syncInLost n) s
    (if n.val ∈ s.syncLoops ∧ s.syncIn.interval ≠ 0 then
      s.syncIn.last.map (fun e => (4 * e + 5 * s.syncIn.interval + 127) / 128) else none) (State.syncLoss n) := by
  refine comes_intro (show execSyncInLost n s = _ from ?_)
  unfold execSyncInLost
  by_cases counts : n.val ∈ s.syncLoops ∧ s.syncIn.interval ≠ 0
  · rw [if_pos counts, if_pos (by simpa using counts)]
  · rw [if_neg counts, if_neg (by simpa using counts)]
    rfl

/-! ### An edge of SYNC_IN (R186) -/

/-- An interval of `d` fine units that a period of `per` qualifies. -/
abbrev syncFits (d per : Nat) : Prop := 1600 ≤ d ∧ d ≤ 16000 ∧ 8 * per ≤ 10 * d ∧ 10 * d ≤ 12 * per

/-- The loop counts an edge, and locks at the fourth in a row where it runs. -/
def State.syncCounted (n : Nat) (s : State) : State :=
  let l := s.lp n
  let lock := l.locked || (4 ≤ l.edges + 1 && s.loopOn n)
  let t := s.setLp n { l with edges := l.edges + 1, locked := lock, lost := l.lost && !lock }
  t.put F.LOOPn_STAT_CLK_STATE (t.clkState n) n

/-- What an edge `d` fine units after the last is to a loop. -/
def State.syncJudged (d : Nat) (s : State) (n : Nat) : State :=
  if syncFits d (s.lf n F.LOOPn_FSW_PERIOD) then s.syncCounted n else s.syncLoss n

theorem State.syncEdge_first {s : State} (t : Nat) (first : s.syncIn.last = none) :
    s.syncEdge t = { s with syncIn := { last := some t, interval := 0 } } := by
  simp [State.syncEdge, first]

theorem State.syncEdge_next {s : State} {e : Nat} (d : Nat) (last : s.syncIn.last = some e) : s.syncEdge (e + d) =
    s.syncLoops.foldl (State.syncJudged d) { s with syncIn := { last := some (e + d), interval := d } } := by
  simp only [State.syncEdge, last, Nat.add_sub_cancel_left, Option.isNone_some, Bool.false_eq_true, if_false]
  rfl

theorem State.syncCounted_loopOnly (n : Nat) (s : State) : s.LoopOnly n (s.syncCounted n) :=
  ((LoopOnly.refl n s).setLp _).put F.LOOPn_STAT_CLK_STATE _ (by decide)

theorem State.syncJudged_loopOnly (d : Nat) (s : State) (n : Nat) : s.LoopOnly n (s.syncJudged d n) := by
  unfold State.syncJudged
  split
  · exact s.syncCounted_loopOnly n
  · exact s.syncLoss_loopOnly n

theorem State.syncLoops_nodup (s : State) : s.syncLoops.Nodup := List.nodup_range.filter _

/-- The turn of a loop at an edge: it finds its cells and words as they stood, and they stay as it leaves them. -/
theorem State.syncEdge_turn {s : State} {n e : Nat} (d : Nat) (last : s.syncIn.last = some e) (mem : n ∈ s.syncLoops) :
    ∃ t, s.SameLoop n t ∧ (t.syncJudged d n).SameLoop n (s.syncEdge (e + d)) := by
  obtain ⟨t, before, after⟩ := foldl_turn (State.SameLoop n) (SameLoop.refl n) SameLoop.trans s.syncLoops_nodup mem
    (fun t m other => .ofLoopOnly (t.syncJudged_loopOnly d m) other)
    { s with syncIn := { last := some (e + d), interval := d } }
  exact ⟨t, ⟨before.cell, before.regs⟩, State.syncEdge_next d last ▸ after⟩

theorem State.syncIn_syncEdge {s : State} {e : Nat} (d : Nat) (last : s.syncIn.last = some e) :
    (s.syncEdge (e + d)).syncIn = { last := some (e + d), interval := d } := by
  rw [State.syncEdge_next d last]
  exact foldl_keeps State.syncIn (fun t m => by rw [(t.syncJudged_loopOnly d m).rest]) _ _

theorem State.syncEdge_counts {s : State} (n : Fin 8) {e d : Nat} (last : s.syncIn.last = some e) (mem : n.val ∈ s.syncLoops)
    (fits : syncFits d (s.lf n F.LOOPn_FSW_PERIOD)) : ((s.syncEdge (e + d)).lp n).edges = (s.lp n).edges + 1 ∧
    ((s.syncEdge (e + d)).lp n).locked = ((s.lp n).locked || (decide (4 ≤ (s.lp n).edges + 1) && s.loopOn n)) := by
  obtain ⟨t, before, after⟩ := State.syncEdge_turn d last mem
  rw [after.cell, State.syncJudged, before.lf _ (by decide), if_pos fits, State.syncCounted, State.lp_put, State.lp_setLp_same,
    before.cell, before.loopOn]
  exact ⟨rfl, rfl⟩

theorem State.syncEdge_loses {s : State} (n : Fin 8) {e d : Nat} (last : s.syncIn.last = some e) (mem : n.val ∈ s.syncLoops)
    (unfit : ¬syncFits d (s.lf n F.LOOPn_FSW_PERIOD)) : ((s.syncEdge (e + d)).lp n).edges = 0 ∧
    ((s.syncEdge (e + d)).lp n).locked = false ∧
    ((s.lp n).locked = true → (s.syncEdge (e + d)).on F.LOOPn_STAT_SYNC_LOST n = true ∧
      (s.syncEdge (e + d)).get F.LOOPn_STAT_CLK_STATE n = 3) := by
  obtain ⟨t, before, after⟩ := State.syncEdge_turn d last mem
  rw [State.syncJudged, before.lf _ (by decide), if_neg unfit] at after
  rw [after.cell, State.on, after.get _ (by decide), after.get _ (by decide), ← before.cell]
  obtain ⟨locked, edges, shown, -⟩ := t.syncLoss_shows n
  exact ⟨edges, locked, shown⟩

/-! ### SYNC_OUT (R188) -/

theorem State.syncOut_low (s : State) (t : Nat) (stands : 8 ≤ s.cell 162 ∨ s.loopOn (s.cell 162) = false) : s.syncOut t = false := by
  unfold State.syncOut
  rcases stands with none' | off
  · simp [Nat.not_lt.mpr none']
  · have : (s.lp (s.cell 162)).bnd = none := by simpa [State.loopOn] using off
    simp [this]

theorem State.syncOut_rises (s : State) (n : Fin 8) (b k : Nat) (named : s.cell 162 = n.val)
    (due : (s.lp n).bnd = some (b + (s.lp n).per)) (past : (s.lp n).vSense ≠ none) :
    s.syncOut (b + k) = decide (k < (s.lp n).per / 2) := by
  unfold State.syncOut
  simp [named, n.isLt, due, Option.isSome_iff_ne_none, past]

/-! ### The end of an on-time (R177, R189, R206, R221) -/

theorem State.trips_blanked (s : State) (n t d : Nat) (i : Int) (blanked : t < 64 + 32 * s.lf n F.LOOPn_PWM_BLANK) :
    s.trips n t d i = none := if_pos blanked

theorem State.trips_past (s : State) (n t d : Nat) (i : Int) (past : 64 + 32 * s.lf n F.LOOPn_PWM_BLANK ≤ t) :
    (s.trips n t d i = some .peak ↔ 32000 * ((d : Int) - 200) ≤ 320 * i + (s.lf n F.LOOPn_PWM_SLOPE : Int) * t) ∧
    (s.trips n t d i = some .limit ↔ 320 * i + (s.lf n F.LOOPn_PWM_SLOPE : Int) * t < 32000 * ((d : Int) - 200) ∧
      100 * ((s.lf n F.LOOPn_OCP_IPK_LIM : Int) - 200) ≤ i) := by
  unfold State.trips State.blankTime
  rw [if_neg (Nat.not_lt.mpr past)]
  by_cases peak : 320 * i + (s.lf n F.LOOPn_PWM_SLOPE : Int) * t ≥ 32000 * ((d : Int) - 200)
  · simp [peak.le, not_lt.mpr peak]
  · rw [if_neg peak]
    by_cases limit : i ≥ 100 * ((s.lf n F.LOOPn_OCP_IPK_LIM : Int) - 200)
    · simp [limit.le, peak, not_le.mp peak]
    · simp [limit, peak]

theorem State.onTimeOf_length_le (s : State) (n mx d : Nat) (xs : List (Nat × Int)) : (s.onTimeOf n mx d xs).2.1 ≤ mx := by
  unfold State.onTimeOf
  dsimp only
  split
  · next x found =>
    have early := (List.mem_filter.mp (List.mem_of_find?_eq_some found)).2
    exact (of_decide_eq_true early).le
  · exact Nat.le_refl mx

theorem State.peakDac_lt (s : State) (n p d : Nat) : s.peakDac n p d < 2 ^ 10 := by
  unfold State.peakDac clampI
  dsimp only
  omega

theorem State.onTimeDue_some {s : State} {p n t0 mx d : Nat} {tl : List (Nat × Nat × Nat)} (owner : s.loopOfPhase p = some n)
    (runs : s.loopOn n = true) (active : s.phState p = phActive) (due : (s.phs p).starts = (t0, mx, d) :: tl) :
    s.onTimeDue p = some (n, t0, mx, d) := by
  simp [State.onTimeDue, owner, runs, active, due]

theorem State.onTimeDue_none {s : State} {p : Nat} (stands : s.loopOfPhase p = none ∨
    (∃ n, s.loopOfPhase p = some n ∧ s.loopOn n = false) ∨ s.phState p ≠ phActive ∨ (s.phs p).starts = []) :
    s.onTimeDue p = none := by
  unfold State.onTimeDue
  split
  · next n x l owner starts =>
    refine if_neg fun due => ?_
    obtain ⟨runs, active⟩ : s.loopOn n = true ∧ s.phState p = phActive := by simpa using due
    rcases stands with no | ⟨m, own, off⟩ | idle | none'
    · exact nomatch no.symm.trans owner
    · obtain rfl := Option.some.inj (own.symm.trans owner)
      exact Bool.false_ne_true (off.symm.trans runs)
    · exact idle active
    · exact nomatch none'.symm.trans starts
  · rfl

theorem State.loopOfPhase_lt {s : State} {p n : Nat} (owner : s.loopOfPhase p = some n) : n < 8 :=
  List.mem_range.mp (List.mem_of_find?_eq_some owner)

/-- What an on-time that ends leaves of phase `p`: how it ended, `r`, and what of its current the phase checks and the PWM pin
take. -/
def State.onTimeShown (p t0 d : Nat) (r : OnEnd × Nat × Int) (iS : Int) (fell : Option Nat) (ipk : Nat) (s : State) : State :=
  let code := match r.1 with
    | .peak => 0
    | .limit => 1
    | .maximum => 2
  (s.setPhs p { s.phs p with
    onEnd := some (code, iS, r.2.2, r.2.1, d), skipFrom := none, starts := (s.phs p).starts.drop 1
    on := some (t0, t0 + r.2.1), zero := fell }).put F.PHn_STAT_IPK ipk p

theorem State.onTimeShown_shows (s : State) (p : Fin 24) (t0 d : Nat) (r : OnEnd × Nat × Int) (iS : Int) (fell : Option Nat)
    {ipk : Nat} (fits : ipk < 2 ^ 10) : let u := s.onTimeShown p t0 d r iS fell ipk
    u.get F.PHn_STAT_IPK p = ipk ∧ u.phState p = s.phState p ∧ (u.phs p).starts = (s.phs p).starts.drop 1 ∧
      (u.phs p).on = some (t0, t0 + r.2.1) ∧ u.lp = s.lp ∧ (∀ k, k ≠ F.PHn_STAT_IPK.addr p → u.reg k = s.reg k) := by
  refine ⟨State.get_put_fits _ (by decide) _ fits, State.get_put_beside _ (by decide) _ _, ?_, ?_, rfl,
    fun k other => State.reg_put_ne _ other _⟩
  · exact congrArg PhaseSt.starts (s.phs_setPhs_same p _)
  · exact congrArg PhaseSt.on (s.phs_setPhs_same p _)

/-- An on-time that ended at the limit marks the cycle of loop `n`. -/
def State.truncMarked (n : Nat) (how : OnEnd) (s : State) : State :=
  match how with
  | .limit => s.setLp n { s.lp n with trunc := true }
  | _ => s

theorem State.onTimeEnd_eq {s : State} {p n t0 mx d : Nat} (xs : List (Nat × Int)) (due : s.onTimeDue p = some (n, t0, mx, d)) :
    ∃ iS fell, let r := s.onTimeOf n mx d (s.phaseWave n p xs)
      s.onTimeEnd p xs = (s.onTimeShown p t0 d r iS fell (s.peakDac n p d)).draw.truncMarked n r.1 := by
  rw [State.onTimeEnd, due]
  exact ⟨_, _, rfl⟩

theorem State.onTimeEndAt_due {s : State} {p n t0 mx d : Nat} (xs : List (Nat × Int)) (due : s.onTimeDue p = some (n, t0, mx, d)) :
    s.onTimeEndAt p xs = some (t0 + (s.onTimeOf n mx d (s.phaseWave n p xs)).2.1) := by
  rw [State.onTimeEndAt, due, Option.map_some]

theorem State.truncMarked_shows (s : State) (n : Fin 8) (how : OnEnd) : (∀ k, (s.truncMarked n how).reg k = s.reg k) ∧
    (∀ p, (s.truncMarked n how).phs p = s.phs p) ∧
    ((s.truncMarked n how).lp n).trunc = (decide (how = .limit) || (s.lp n).trunc) := by
  cases how with
  | limit => exact ⟨fun _ => rfl, fun _ => rfl, congrArg LoopSt.trunc (s.lp_setLp_same n _)⟩
  | peak => exact ⟨fun _ => rfl, fun _ => rfl, rfl⟩
  | maximum => exact ⟨fun _ => rfl, fun _ => rfl, rfl⟩

theorem State.onTimeEnd_ends (s : State) (p : Fin 24) (xs : List (Nat × Int)) (n t0 mx d : Nat) (tl : List (Nat × Nat × Nat))
    (owner : s.loopOfPhase p = some n) (runs : s.loopOn n = true) (active : s.phState p = phActive)
    (starts : (s.phs p).starts = (t0, mx, d) :: tl) :
    let r := s.onTimeOf n mx d (xs.map (fun x => (x.1, s.phCurrent n p x.2)))
    let u := s.onTimeEnd p xs
    s.onTimeEndAt p xs = some (t0 + r.2.1) ∧ r.2.1 ≤ mx ∧
      u.get F.PHn_STAT_IPK p = s.peakDac n p d ∧ u.phState p = phActive ∧ (u.phs p).starts = tl ∧
      (u.phs p).on = some (t0, t0 + r.2.1) ∧ (u.lp n).trunc = (decide (r.1 = .limit) || (s.lp n).trunc) ∧
      (∀ k, k ≠ F.PHn_STAT_IPK.addr p → u.reg k = s.reg k) := by
  intro r u
  lift n to Fin 8 using State.loopOfPhase_lt owner
  have due := State.onTimeDue_some owner runs active starts
  obtain ⟨iS, fell, ends⟩ := State.onTimeEnd_eq xs due
  obtain ⟨ipk, state, next, on, cell, others⟩ := s.onTimeShown_shows p t0 d r iS fell (s.peakDac_lt n p d)
  obtain ⟨regs, cells, trunc⟩ := (s.onTimeShown p t0 d r iS fell (s.peakDac n p d)).draw.truncMarked_shows n r.1
  have ended : u = (s.onTimeShown p t0 d r iS fell (s.peakDac n p d)).draw.truncMarked n r.1 := ends
  rw [← ended] at regs cells trunc
  exact ⟨State.onTimeEndAt_due xs due, s.onTimeOf_length_le n mx d _, (State.get_eq_of_reg (regs _)).trans ipk,
    (State.get_eq_of_reg (regs _)).trans (state.trans active),
    (congrArg PhaseSt.starts (cells p)).trans (next.trans (congrArg (List.drop 1) starts)),
    (congrArg PhaseSt.on (cells p)).trans on, trunc.trans (congrArg (fun l => decide (r.1 = .limit) || (l n).trunc) cell),
    fun k other => (regs k).trans (others k other)⟩

theorem completes_onTimeEnd_idle (s : State) (p : Fin 24) (xs : List (Nat × Int)) (stands : s.loopOfPhase p = none ∨
    (∃ n, s.loopOfPhase p = some n ∧ s.loopOn n = false) ∨ s.phState p ≠ phActive ∨ (s.phs p).starts = []) :
    Completes (.onTimeEnd p xs) s (fun u => u = s) :=
  (comes_intro rfl : Comes (.onTimeEnd p xs) s ((s.onTimeEndAt p xs).map (fun t => t / 32)) (State.onTimeEnd p xs)).1
    (by rw [State.onTimeEndAt, State.onTimeDue_none stands]; rfl)

/-! ### The PWM pins (R179, R180, R219) -/

theorem State.pwm_midZ (s : State) (p t : Nat) (stands : s.loopOfPhase p = none ∨ s.phState p ≠ phActive ∨
    ∃ n, s.loopOfPhase p = some n ∧ (s.loopOn n = false ∨ s.on F.LOOPn_TSTAT_BRAKING n = true)) : s.pwm p t = .midZ := by
  unfold State.pwm
  split
  · rfl
  · next n owner =>
    refine if_pos ?_
    rcases stands with no | idle | ⟨m, own, off | brakes⟩
    · exact nomatch no.symm.trans owner
    · simp [idle]
    all_goals obtain rfl := Option.some.inj (own.symm.trans owner)
    · simp [off]
    · simp [brakes]

/-- Settles O32: an edge by each loop's turn (`syncEdge_counts`, `syncEdge_loses`), a loss by `syncLoss_shows`, SYNC_OUT by its
period, an on-time's end by `onTimeEnd_ends` and what trips it. -/
theorem syncAndOnTimes : Obligations.SyncAndOnTimes := by
  unfold Obligations.SyncAndOnTimes
  exact ⟨⟨fun _ => State.syncEdge_first, fun s d => completes_done rfl rfl,
      fun s n e d last mem => ⟨congrArg SyncSt.last (State.syncIn_syncEdge d last), congrArg SyncSt.interval (State.syncIn_syncEdge d last),
        State.syncEdge_counts n last mem, State.syncEdge_loses n last mem⟩,
      comes_syncInLost, State.syncLoss_shows, State.syncOut_low,
      fun s n b k named due past _ => s.syncOut_rises n b k named due past⟩,
    fun s p xs => comes_intro rfl, State.onTimeEnd_ends, State.trips_blanked, State.trips_past, completes_onTimeEnd_idle,
    fun s p t => s.pwm_midZ p t⟩

end Sys2Proof.Machine
end

/-! # A loop's protection and timers (R200, R219, R222, R223, R229, R230) -/

section
namespace Sys2Proof.Machine

/-! ### THROTTLEn# and the overload budget (R223, R230) -/

/-- A field of a loop's words that neither the sources of THROTTLEn# nor the close of an overload bin write. -/
abbrev Fld.OutOfBin (f : Fld) : Prop := f.Beside F.LOOPn_OVLD_B_B ∧ f.Beside F.LOOPn_TSTAT_OVL ∧ f.Beside F.LOOPn_TSTAT_SRC ∧
  f.Beside F.LOOPn_TSTAT_THR

theorem State.throttle_loopOnly (n : Nat) (s : State) : s.LoopOnly n (s.throttle n) := by
  have sources (v : Nat) := (LoopOnly.refl n s).put F.LOOPn_TSTAT_SRC v (by decide)
  unfold State.throttle
  dsimp only
  split_ifs
  · exact ((sources _).put F.LOOPn_TSTAT_THR 1 (by decide)).setLp _
  · exact (sources _).setLp _
  · exact sources _

theorem State.get_throttle (s : State) (n : Nat) {f : Fld} (src : f.Beside F.LOOPn_TSTAT_SRC) (thr : f.Beside F.LOOPn_TSTAT_THR) :
    (s.throttle n).get f n = s.get f n := by
  unfold State.throttle
  dsimp only
  split_ifs
  · rw [State.get_setLp, State.get_put_beside _ thr, State.get_put_beside _ src]
  · rw [State.get_setLp, State.get_put_beside _ src]
  · exact s.get_put_beside src _ n

theorem State.lp_throttle (s : State) (n : Fin 8) :
    ∃ relAt, (s.throttle n).lp n = { s.lp n with relAt := relAt } := by
  unfold State.throttle
  dsimp only
  split_ifs
  · exact ⟨_, State.lp_setLp_same _ _ _⟩
  · exact ⟨_, State.lp_setLp_same _ _ _⟩
  · exact ⟨(s.lp n).relAt, rfl⟩

/-- The next overload bin begins. -/
def State.binOpened (n : Nat) (s : State) : State :=
  s.setLp n { s.lp n with binNo := s.tick / 16000, binSum := 0, binCnt := 0, binDue := false }

/-- B stands at `b`, shown. -/
def State.budgetSet (n b : Nat) (s : State) : State := (s.setLp n { s.lp n with b := b }).put F.LOOPn_OVLD_B_B b n

/-- The overload ends where B has come to 0, and begins where B trips. -/
def State.budgetJudged (n b ovlI : Nat) (s : State) : State :=
  let trip := decide (b ≥ 10 * (s.lf n F.LOOPn_OVLD_OVL_PK - ovlI) * s.lf n F.LOOPn_OVLD_T_NBIN)
  if b = 0 then (s.put F.LOOPn_TSTAT_OVL 0 n).throttle n
  else if trip ∧ s.get F.LOOPn_TSTAT_OVL n = 0 then
    ((s.put F.LOOPn_TSTAT_OVL 1 n).throttle n).raiseReg 0 3 n F.LOOPn_TSTAT n
  else s

theorem State.binClose_eq (s : State) (n : Nat) : s.binClose n =
    let ovlI := s.lf n F.LOOPn_OVLD_OVL_I
    let t := s.binOpened n
    let mean : Int := if (s.lp n).binCnt = 0 then 0 else t.fdiv 40 (s.lp n).binSum ((s.lp n).binCnt : Nat)
    let b := (((s.lp n).b : Int) + mean - 10 * ovlI).toNat
    if ovlI = 0 then t else (t.budgetSet n b).budgetJudged n b ovlI := rfl

theorem State.budgetJudged_loopOnly (n b ovlI : Nat) (s : State) : s.LoopOnly n (s.budgetJudged n b ovlI) := by
  have shown (v : Nat) := ((LoopOnly.refl n s).put F.LOOPn_TSTAT_OVL v (by decide)).trans (State.throttle_loopOnly n _)
  unfold State.budgetJudged
  dsimp only
  split_ifs
  · exact shown 0
  · exact (shown 1).raise ..
  · exact .refl n s

theorem State.get_budgetJudged (s : State) (n b ovlI : Nat) {f : Fld} (out : f.OutOfBin) :
    (s.budgetJudged n b ovlI).get f n = s.get f n := by
  obtain ⟨-, ovl, src, thr⟩ := out
  unfold State.budgetJudged
  dsimp only
  split_ifs
  · rw [State.get_throttle _ _ src thr, State.get_put_beside _ ovl]
  · rw [State.raiseReg, State.get_raise, State.get_throttle _ _ src thr, State.get_put_beside _ ovl]
  · rfl

theorem State.lp_budgetJudged (s : State) (n : Fin 8) (b ovlI : Nat) :
    ∃ relAt, (s.budgetJudged n b ovlI).lp n = { s.lp n with relAt := relAt } := by
  unfold State.budgetJudged
  dsimp only
  split_ifs
  · exact State.lp_throttle _ n
  · rw [State.raiseReg, State.lp_raise]
    exact State.lp_throttle _ n
  · exact ⟨(s.lp n).relAt, rfl⟩

theorem State.binClose_loopOnly (n : Nat) (s : State) : s.LoopOnly n (s.binClose n) := by
  have opened : s.LoopOnly n (s.binOpened n) := (LoopOnly.refl n s).setLp _
  rw [State.binClose_eq]
  dsimp only
  split
  · exact opened
  · exact ((opened.setLp _).put F.LOOPn_OVLD_B_B _ (by decide)).trans (State.budgetJudged_loopOnly n _ _ _)

theorem State.get_binClose (s : State) (n : Nat) {f : Fld} (out : f.OutOfBin) : (s.binClose n).get f n = s.get f n := by
  have budget := out.1
  rw [State.binClose_eq]
  dsimp only
  split
  · rfl
  · rw [State.get_budgetJudged _ _ _ _ out, State.budgetSet, State.get_put_beside _ budget]
    rfl

theorem State.lp_budgetSet (s : State) (n : Fin 8) (b : Nat) : (s.budgetSet n b).lp n = { s.lp n with b := b } :=
  s.lp_setLp_same n _

theorem State.lp_binOpened (s : State) (n : Fin 8) : (s.binOpened n).lp n =
    { s.lp n with binNo := s.tick / 16000, binSum := 0, binCnt := 0, binDue := false } := s.lp_setLp_same n _

theorem State.binClose_binDue (s : State) (n : Fin 8) : ((s.binClose n).lp n).binDue = false := by
  rw [State.binClose_eq]
  dsimp only
  split
  · rw [State.lp_binOpened]
  · obtain ⟨relAt, cell⟩ := State.lp_budgetJudged (State.budgetSet n _ (s.binOpened n)) n _ _
    rw [cell, State.lp_budgetSet, State.lp_binOpened]

/-- A bin without a cycle of the loop takes OVL_I off B. -/
theorem State.binClose_empty (s : State) (n : Fin 8) (on : s.lf n F.LOOPn_OVLD_OVL_I ≠ 0) (empty : (s.lp n).binCnt = 0) :
    let b := ((s.lp n).b : Int) - 10 * s.lf n F.LOOPn_OVLD_OVL_I
    ((s.binClose n).lp n).b = b.toNat ∧ (b ≤ 0 → (s.binClose n).on F.LOOPn_TSTAT_OVL n = false) := by
  intro b
  have closes : s.binClose n =
      ((s.binOpened n).budgetSet n b.toNat).budgetJudged n b.toNat (s.lf n F.LOOPn_OVLD_OVL_I) := by
    rw [State.binClose_eq, empty]
    simp only [if_true, add_zero, if_neg on]
    rfl
  rw [closes]
  constructor
  · obtain ⟨relAt, cell⟩ := State.lp_budgetJudged ((s.binOpened n).budgetSet n b.toNat) n b.toNat (s.lf n F.LOOPn_OVLD_OVL_I)
    rw [cell, State.lp_budgetSet]
  · intro spent
    rw [Int.toNat_of_nonpos spent, State.budgetJudged, if_pos rfl, State.on, State.get_throttle _ _ (by decide) (by decide),
      State.get_put_same _ _ _ _ (by decide)]
    rfl

/-! ### A loop goes off (R180, R222) -/

/-- A bin that has ended while the loop ran is closed. -/
def State.binSettled (n : Nat) (s : State) : State := if (s.lp n).binDue then s.binClose n else s

/-- Phase `p` is at mid-Z and idle, where it is not dropped and not unused. -/
def State.phaseIdled (s : State) (p : Nat) : State :=
  let s := s.phaseMidZ p
  let s := s.setPhs p { s.phs p with onEnd := none }
  if s.phState p == phDropped || s.phState p == phUnused then s else s.setPhState p phIdle

/-- The phases of a loop that goes off. -/
def State.phasesIdled (n : Nat) (s : State) : State := (s.loopPhases n).foldl State.phaseIdled s

/-- The fields that read 0 of a loop that is off. -/
def offFields : List Fld := [F.LOOPn_STAT_EN, F.LOOPn_STAT_SS_DONE, F.LOOPn_STAT_PG, F.LOOPn_STAT_NACT, F.LOOPn_ACTIVE,
  F.LOOPn_STAT_ALIGNED, F.LOOPn_STAT_CLAMP_HI, F.LOOPn_STAT_CLAMP_LO, F.LOOPn_TSTAT_BRAKING, F.LOOPn_TSTAT_HSTATE]

/-- The status of a loop that is off. -/
def State.offShown (n : Nat) (s : State) : State := offFields.foldl (fun s f => s.put f 0 n) s

/-- The loop without its carrier. -/
def State.carrierGone (n : Nat) (s : State) : State :=
  s.setLp n { s.lp n with
    bnd := none, withdraw := false, discharge := none, fA := 0, nHint := 0, withdrawn := false, hPend := 0, hRel := false
    clampRun := 0, clampSrc := false, openRun := 0, divRun := 0, localRun := 0, skip := false
    activePrev := 0, nactPrev := 0, trunc := false }

/-- The counts of the checks of phase `p` begin anew. -/
def State.countsCleared (s : State) (p : Nat) : State := (s.put F.PHn_FLT_PLA_CNT 0 p).put F.PHn_FLT_IMB_CNT 0 p

theorem State.loopOff_eq (s : State) (n : Nat) : s.loopOff n =
    let t := (((s.binSettled n).phasesIdled n).offShown n).carrierGone n
    (t.loopPhases n).foldl State.countsCleared (t.throttle n) := rfl

theorem State.binSettled_loopOnly (n : Nat) (s : State) : s.LoopOnly n (s.binSettled n) := by
  unfold State.binSettled
  split
  · exact s.binClose_loopOnly n
  · exact .refl n s

theorem State.get_binSettled (s : State) (n : Nat) {f : Fld} (out : f.OutOfBin) : (s.binSettled n).get f n = s.get f n := by
  unfold State.binSettled
  split
  · exact s.get_binClose n out
  · rfl

theorem State.binSettled_binDue (s : State) (n : Fin 8) : ((s.binSettled n).lp n).binDue = false := by
  unfold State.binSettled
  split
  · exact s.binClose_binDue n
  · next open' => exact Bool.eq_false_iff.mpr open'

theorem State.phaseIdled_keeps (s : State) (p : Nat) : (s.phaseIdled p).loop = s.loop ∧ (s.phaseIdled p).now = s.now ∧
    ∀ k, k < 0x2800 → (s.phaseIdled p).reg k = s.reg k := by
  unfold State.phaseIdled
  dsimp only
  split
  · exact ⟨rfl, rfl, fun _ _ => rfl⟩
  · exact ⟨rfl, rfl, fun k below => State.reg_put_ne _
      (fun e => by have := Fld.OfPhase.block (f := F.PHn_STAT_STATE) (by decide) p; omega) _⟩

theorem State.lp_phasesIdled (s : State) (n m : Nat) : (s.phasesIdled n).lp m = s.lp m :=
  congrArg (fun l => tget l m) (foldl_keeps State.loop (fun t p => (t.phaseIdled_keeps p).1) _ _)

theorem State.phasesIdled_now (s : State) (n : Nat) : (s.phasesIdled n).now = s.now :=
  foldl_keeps State.now (fun t p => (t.phaseIdled_keeps p).2.1) _ _

theorem State.get_phasesIdled (s : State) (n : Fin 8) {f : Fld} (loop : f.OfLoop) : (s.phasesIdled n).get f n = s.get f n :=
  State.get_eq_of_reg (foldl_keeps (State.reg · (f.addr n))
    (fun t p => (t.phaseIdled_keeps p).2.2 _ (by have := loop.block n; omega)) _ _)

theorem State.phaseIdled_others {p : Nat} (s : State) (q : Nat) (other : q ≠ p) : s.SamePhase p (s.phaseIdled q) := by
  have cells (x y : PhaseSt) : s.SamePhase p ((s.setPhs q x).setPhs q y) := ((SamePhase.refl p s).setPhs other x).setPhs other y
  unfold State.phaseIdled
  dsimp only
  split
  · exact cells _ _
  · exact (cells _ _).put other _ _ (by decide)

theorem State.phaseIdled_idle (s : State) (p : Fin 24) (stays : s.phState p ≠ phDropped) (used : s.phState p ≠ phUnused) :
    (s.phaseIdled p).phState p = phIdle ∧ ((s.phaseIdled p).phs p).starts = [] ∧ ((s.phaseIdled p).phs p).onEnd = none := by
  have idled : s.phaseIdled p =
      ((s.phaseMidZ p).setPhs p { (s.phaseMidZ p).phs p with onEnd := none }).setPhState p phIdle :=
    if_neg (by simpa using ⟨stays, used⟩)
  have cell : (s.phaseIdled p).phs p = { (s.phaseMidZ p).phs p with onEnd := none } := by
    rw [idled]
    exact State.phs_setPhs_same _ p _
  rw [cell, State.phaseMidZ, State.phs_setPhs_same, idled]
  exact ⟨State.phState_setPhState _ (by decide), rfl, rfl⟩

theorem State.phasesIdled_idle (s : State) (n : Nat) (p : Fin 24) (mem : p.val ∈ s.loopPhases n) (stays : s.phState p ≠ phDropped)
    (used : s.phState p ≠ phUnused) : (s.phasesIdled n).phState p = phIdle ∧ ((s.phasesIdled n).phs p).starts = [] ∧
    ((s.phasesIdled n).phs p).onEnd = none := by
  obtain ⟨u, before, after⟩ := State.foldl_phases State.phaseIdled_others s s mem
  rw [State.phasesIdled, after.phState, after.cell]
  exact u.phaseIdled_idle p (before.phState ▸ stays) (before.phState ▸ used)

theorem State.offShown_loopOnly (n : Nat) (s : State) : s.LoopOnly n (s.offShown n) :=
  have loop : ∀ f ∈ offFields, f.OfLoop := by decide
  List.foldlRecOn _ _ (.refl n s) (fun _ only f mem => only.put f 0 (loop f mem))

theorem State.lp_offShown (s : State) (n m : Nat) : (s.offShown n).lp m = s.lp m :=
  foldl_keeps (State.lp · m) (fun t f => t.lp_put f 0 n m) _ _

theorem State.get_offShown (s : State) (n : Nat) {f : Fld} (out : ∀ g ∈ offFields, f.Beside g) :
    (s.offShown n).get f n = s.get f n :=
  List.foldlRecOn (motive := fun t : State => t.get f n = s.get f n) _ _ rfl
    (fun t same g mem => (t.get_put_beside (out g mem) 0 n).trans same)

theorem State.offShown_off (s : State) (n : Nat) : (s.offShown n).get F.LOOPn_STAT_EN n = 0 ∧
    (s.offShown n).get F.LOOPn_STAT_PG n = 0 ∧ (s.offShown n).get F.LOOPn_STAT_NACT n = 0 := by
  simp (disch := decide) only [State.offShown, offFields, List.foldl_cons, List.foldl_nil, State.get_put_beside,
    State.get_put_same, Nat.zero_mod, and_self]

theorem State.countsCleared_keeps (l : List Nat) (s : State) : (l.foldl State.countsCleared s).loop = s.loop ∧
    (l.foldl State.countsCleared s).phCell = s.phCell ∧ (l.foldl State.countsCleared s).now = s.now ∧
    ∀ k, k < 0x2800 ∨ k % 0x20 = 1 → (l.foldl State.countsCleared s).reg k = s.reg k := by
  refine ⟨foldl_keeps State.loop (fun t p => ?_) l s, foldl_keeps State.phCell (fun t p => ?_) l s,
    foldl_keeps State.now (fun t p => ?_) l s, fun k out => foldl_keeps (State.reg · k) (fun t p => ?_) l s⟩
  · simp only [State.countsCleared, State.put_loop]
  · simp only [State.countsCleared, State.put_phCell]
  · simp only [State.countsCleared, State.put_now]
  have apart : k ≠ F.PHn_FLT_PLA_CNT.addr p ∧ k ≠ F.PHn_FLT_IMB_CNT.addr p := by
    rw [show F.PHn_FLT_PLA_CNT.addr p = 0x2802 + 0x20 * p from rfl, show F.PHn_FLT_IMB_CNT.addr p = 0x2802 + 0x20 * p from rfl]
    omega
  exact (State.reg_put_ne _ apart.2 _).trans (State.reg_put_ne _ apart.1 _)

/-- The loop as it stands off, before THROTTLEn# follows its sources. -/
def State.stoodOff (n : Nat) (s : State) : State := ((s.binSettled n).phasesIdled n).offShown n

/-- The same without its carrier, THROTTLEn# following. -/
def State.stoodStill (n : Nat) (s : State) : State := ((s.stoodOff n).carrierGone n).throttle n

/-- What a loop that goes off shows, beside the counts of its phases' checks. -/
theorem State.loopOff_after (s : State) (n : Nat) : (s.loopOff n).loop = (s.stoodStill n).loop ∧
    (s.loopOff n).phCell = (s.stoodStill n).phCell ∧ (s.loopOff n).now = (s.stoodStill n).now ∧
    ∀ k, k < 0x2800 ∨ k % 0x20 = 1 → (s.loopOff n).reg k = (s.stoodStill n).reg k := by
  rw [State.loopOff_eq]
  exact State.countsCleared_keeps _ _

theorem State.stoodStill_loopOnly (n : Nat) (s : State) : ((s.binSettled n).phasesIdled n).LoopOnly n (s.stoodStill n) :=
  ((State.offShown_loopOnly n _).setLp _).trans (State.throttle_loopOnly n _)

theorem State.get_loopOff_shown (s : State) (n : Fin 8) {f : Fld} (loop : f.OfLoop) (out : f.OutOfBin) :
    (s.loopOff n).get f n = (s.stoodOff n).get f n := by
  obtain ⟨-, -, -, regs⟩ := s.loopOff_after n
  obtain ⟨-, -, src, thr⟩ := out
  rw [State.get_eq_of_reg (regs _ (.inl (by have := loop.block n; omega))), State.stoodStill, State.get_throttle _ _ src thr,
    State.carrierGone, State.get_setLp]

/-- A field of the loop that going off leaves. -/
theorem State.get_loopOff_kept (s : State) (n : Fin 8) {f : Fld} (loop : f.OfLoop) (out : f.OutOfBin)
    (kept : ∀ g ∈ offFields, f.Beside g) : (s.loopOff n).get f n = s.get f n := by
  rw [s.get_loopOff_shown n loop out, State.stoodOff, State.get_offShown _ _ kept, State.get_phasesIdled _ n loop, s.get_binSettled n out]

theorem State.lp_loopOff (s : State) (n : Fin 8) : ((s.loopOff n).lp n).bnd = none ∧ ((s.loopOff n).lp n).discharge = none ∧
    ((s.loopOff n).lp n).binDue = false := by
  obtain ⟨relAt, cell⟩ := State.lp_throttle ((s.stoodOff n).carrierGone n) n
  obtain ⟨loop, -⟩ := s.loopOff_after n
  have off : (s.loopOff n).lp n = (s.stoodStill n).lp n := congrArg (fun l => tget l n.val) loop
  rw [off, State.stoodStill, cell, State.carrierGone, State.lp_setLp_same]
  refine ⟨rfl, rfl, ?_⟩
  show ((s.stoodOff n).lp n).binDue = false
  rw [State.stoodOff, State.lp_offShown, State.lp_phasesIdled, s.binSettled_binDue n]

theorem State.loopOff_shows (s : State) (n : Fin 8) : ((s.loopOff n).lp n).binDue = false ∧ (s.loopOff n).loopOn n = false ∧
    (s.loopOff n).on F.LOOPn_STAT_EN n = false ∧ (s.loopOff n).on F.LOOPn_STAT_PG n = false ∧
    ((s.loopOff n).lp n).discharge = none := by
  obtain ⟨bnd, discharge, binDue⟩ := s.lp_loopOff n
  obtain ⟨en, pg, -⟩ := ((s.binSettled n).phasesIdled n).offShown_off n
  refine ⟨binDue, by rw [State.loopOn, bnd]; rfl, ?_, ?_, discharge⟩
  · rw [State.on, s.get_loopOff_shown n (by decide) (by decide), State.stoodOff, en]; rfl
  · rw [State.on, s.get_loopOff_shown n (by decide) (by decide), State.stoodOff, pg]; rfl

theorem State.now_loopOff (s : State) (n : Fin 8) : (s.loopOff n).now = s.now := by
  obtain ⟨-, -, now, -⟩ := s.loopOff_after n
  calc (s.loopOff n).now
      = (s.stoodStill n).now := now
    _ = ((s.binSettled n).phasesIdled n).now := (s.stoodStill_loopOnly n).now
    _ = (s.binSettled n).now := State.phasesIdled_now _ n
    _ = s.now := (s.binSettled_loopOnly n).now

theorem State.loopOff_idle (s : State) (n : Fin 8) (p : Fin 24) (mem : p.val ∈ s.loopPhases n) (stays : s.phState p ≠ phDropped)
    (used : s.phState p ≠ phUnused) : (s.loopOff n).phState p = phIdle ∧ ((s.loopOff n).phs p).starts = [] ∧
    ((s.loopOff n).phs p).onEnd = none := by
  have settled := s.binSettled_loopOnly n
  have state := settled.phState n.isLt p
  obtain ⟨idle, starts, onEnd⟩ := (s.binSettled n).phasesIdled_idle n p (settled.loopPhases n ▸ mem) (state ▸ stays) (state ▸ used)
  obtain ⟨-, cells, -, regs⟩ := s.loopOff_after n
  have still := s.stoodStill_loopOnly n
  have cell : (s.loopOff n).phs p = ((s.binSettled n).phasesIdled n).phs p :=
    (congrArg (fun c => tget c p.val) cells).trans (still.phs p)
  have stat : F.PHn_STAT_STATE.addr p % 0x20 = 1 := by
    rw [show F.PHn_STAT_STATE.addr p = 0x2801 + 0x20 * p from rfl]
    omega
  have shown : (s.loopOff n).phState p = ((s.binSettled n).phasesIdled n).phState p :=
    (State.get_eq_of_reg (regs _ (.inr stat))).trans (still.phState n.isLt p)
  rw [cell, shown]
  exact ⟨idle, starts, onEnd⟩

/-! ### A loop stopped by its own protection (R222, R229) -/

theorem State.loopStop_stops (s : State) (n : Fin 8) (src : Nat) : (s.loopStop n src).loopOn n = false ∧
    ((s.loopStop n src).lp n).stopped = some src ∧ (s.loopStop n src).on F.LOOPn_STAT_EN n = false ∧
    (s.loopStop n src).now = s.now := by
  have cell : (s.loopStop n src).lp n = { (s.loopOff n).lp n with stopped := some src } := State.lp_setLp_same _ n _
  obtain ⟨-, off, en, -⟩ := s.loopOff_shows n
  refine ⟨?_, by rw [cell], en, s.now_loopOff n⟩
  rw [State.loopOn, cell]
  exact off

theorem State.loopStop_phases (s : State) (n : Fin 8) (src : Nat) (p : Fin 24) (mem : p.val ∈ s.loopPhases n)
    (stays : s.phState p ≠ phDropped) (used : s.phState p ≠ phUnused) :
    (s.loopStop n src).phState p = phIdle ∧ (s.loopStop n src).get F.LOOPn_STAT_NACT n = 0 ∧
      ((s.loopStop n src).phs p).starts = [] ∧ ((s.loopStop n src).phs p).onEnd = none := by
  obtain ⟨idle, starts, onEnd⟩ := s.loopOff_idle n p mem stays used
  obtain ⟨-, -, nact⟩ := ((s.binSettled n).phasesIdled n).offShown_off n
  exact ⟨idle, (s.get_loopOff_shown n (by decide) (by decide)).trans nact, starts, onEnd⟩

theorem State.loopFastShort_stops (s : State) (n : Fin 8) (p : Nat) (i : Int) (runs : s.loopOn n = true) (mem : p ∈ s.loopPhases n)
    (above : 100 * ((s.lf n F.LOOPn_OCP_ISC : Int) - 200) < s.phCurrent n p i) : let u := s.loopFastShort n p i
    u.on F.LOOPn_TSTAT_SC n = true ∧ u.loopOn n = false ∧ (u.lp n).stopped = some (sourceOf 0 4 n) ∧
      u.on F.LOOPn_STAT_EN n = false := by
  have stops : s.loopFastShort n p i =
      ((s.put F.LOOPn_TSTAT_SC 1 n).loopStop n (sourceOf 0 4 n)).raiseReg 0 4 n F.LOOPn_TSTAT n := by
    rw [State.loopFastShort, if_neg (by simp [runs, mem]), if_neg (not_le.mpr above)]
  obtain ⟨off, stopped, en, -⟩ := (s.put F.LOOPn_TSTAT_SC 1 n).loopStop_stops n (sourceOf 0 4 n)
  have sc : ((s.put F.LOOPn_TSTAT_SC 1 n).loopStop n (sourceOf 0 4 n)).get F.LOOPn_TSTAT_SC n = 1 :=
    (State.get_loopOff_kept _ n (by decide) (by decide) (by decide)).trans (s.get_put_same _ _ _ (by decide))
  rw [stops, State.raiseReg]
  refine ⟨?_, ?_, (congrArg LoopSt.stopped (State.lp_raise ..)).trans stopped, (State.on_raise ..).trans en⟩
  · rw [State.on_raise, State.on, sc]; rfl
  · rw [State.loopOn, State.lp_raise]; exact off

theorem State.loopFastShort_idle (s : State) (n : Fin 8) (p : Nat) (i : Int) (stands : s.loopOn n = false ∨ p ∉ s.loopPhases n ∨
    s.phCurrent n p i ≤ 100 * ((s.lf n F.LOOPn_OCP_ISC : Int) - 200)) : s.loopFastShort n p i = s := by
  unfold State.loopFastShort
  rcases stands with off | out | under
  · exact if_pos (by simp [off])
  · exact if_pos (by simp [out])
  · rw [if_pos under, ite_self]

theorem State.stgFall_stops (s : State) (n : Fin 8) : (s.stgFall n).get F.LOOPn_TSTAT_STGLINE n = s.get F.LOOPn_TSTAT_STGLINE n ∧
    (s.stgFall n).on F.LOOPn_TSTAT_STG n = true ∧ (s.stgFall n).loopOn n = false ∧
    ((s.stgFall n).lp n).stopped = some (sourceOf 1 3 n) ∧ ((s.stgFall n).lp n).stgAt = some s.now ∧
    ((s.stgFall n).lp n).stgSeen = true := by
  obtain ⟨off, stopped, -, now⟩ := (s.put F.LOOPn_TSTAT_STG 1 n).loopStop_stops n (sourceOf 1 3 n)
  have kept {f : Fld} (loop : f.OfLoop) (out : f.OutOfBin) (kept : ∀ g ∈ offFields, f.Beside g) :=
    State.get_loopOff_kept (s.put F.LOOPn_TSTAT_STG 1 n) n loop out kept
  have cell : (s.stgFall n).lp n = { ((s.put F.LOOPn_TSTAT_STG 1 n).loopStop n (sourceOf 1 3 n)).lp n with
      stgAt := some ((s.put F.LOOPn_TSTAT_STG 1 n).loopStop n (sourceOf 1 3 n)).now, stgSeen := true } :=
    (State.lp_raise ..).trans (State.lp_setLp_same _ n _)
  have fields (f : Fld) : (s.stgFall n).get f n = ((s.put F.LOOPn_TSTAT_STG 1 n).loopOff n).get f n := State.get_raise ..
  refine ⟨?_, ?_, ?_, by rw [cell]; exact stopped, by rw [cell, now]; rfl, by rw [cell]⟩
  · rw [fields, kept (by decide) (by decide) (by decide), State.get_put_beside _ (by decide)]
  · rw [State.on, fields, kept (by decide) (by decide) (by decide), State.get_put_same _ _ _ _ (by decide)]; rfl
  · rw [State.loopOn, cell]; exact off

theorem State.stgLow_registers (s : State) (n : Fin 8) (held : Nat) (used : s.loopUsed n = true) (fresh : (s.lp n).stgSeen = false)
    (third : 3 ≤ held) : let u := s.stgLow n held
    u.on F.LOOPn_TSTAT_STGLINE n = true ∧ u.on F.LOOPn_TSTAT_STG n = true ∧ u.loopOn n = false ∧
      (u.lp n).stopped = some (sourceOf 1 3 n) ∧ (u.lp n).stgAt = some s.now ∧ (u.lp n).stgSeen = true := by
  have falls : s.stgLow n held = (s.put F.LOOPn_TSTAT_STGLINE 1 n).stgFall n := by
    have stillUsed : (s.put F.LOOPn_TSTAT_STGLINE 1 n).loopUsed n = true := used
    rw [State.stgLow, if_neg (by simp [stillUsed, fresh, third])]
  obtain ⟨line, rest⟩ := (s.put F.LOOPn_TSTAT_STGLINE 1 n).stgFall_stops n
  rw [falls]
  refine ⟨?_, rest⟩
  rw [State.on, line, State.get_put_same _ _ _ _ (by decide)]
  rfl

theorem State.stgLow_line (s : State) (n : Fin 8) (held : Nat)
    (stands : s.loopUsed n = false ∨ (s.lp n).stgSeen = true ∨ held < 3) :
    s.stgLow n held = s.put F.LOOPn_TSTAT_STGLINE 1 n := by
  refine if_pos ?_
  rcases stands with unused | seen | early
  · simp [show (s.put F.LOOPn_TSTAT_STGLINE 1 n).loopUsed n = false from unused]
  · simp [seen]
  · simp [early]

/-! ### The brake (R219, R233) -/

/-- Every phase of the loop at mid-Z. -/
def State.phasesMidZ (n : Nat) (s : State) : State := (s.loopPhases n).foldl (fun s p => s.phaseMidZ p) s

theorem State.phasesMidZ_rest (s : State) (n : Nat) : ∃ cells, s.phasesMidZ n = { s with phCell := cells } :=
  List.foldlRecOn (motive := fun t : State => ∃ cells, t = { s with phCell := cells }) _ _ ⟨s.phCell, rfl⟩
    (fun t only p _ => by obtain ⟨cells, rfl⟩ := only; exact ⟨_, rfl⟩)

theorem State.phasesMidZ_still (s : State) (n : Nat) : ∀ p ∈ s.loopPhases n,
    ((s.phasesMidZ n).phs p).starts = [] ∧ ((s.phasesMidZ n).phs p).on = none := by
  have own (t : State) (p : Nat) (mem : p ∈ s.loopPhases n) :
      ((t.phaseMidZ p).phs p).starts = [] ∧ ((t.phaseMidZ p).phs p).on = none := by
    have cell := t.phs_setPhs_same ⟨p, State.loopPhases_lt mem⟩ { t.phs p with starts := [], on := none, zero := none, skipFrom := none }
    exact ⟨congrArg PhaseSt.starts cell, congrArg PhaseSt.on cell⟩
  refine foldl_reaches (fun p t => (State.phs t p).starts = [] ∧ (State.phs t p).on = none) _ own (fun t q mem p still => ?_) s
  by_cases same : p = q
  · exact same ▸ own t q mem
  · rwa [State.phaseMidZ, State.phs_setPhs_ne _ same]

theorem State.brakeEngage_engages (s : State) (n : Fin 8) (v vl : Int) (runs : s.loopOn n = true)
    (enabled : s.lf n F.LOOPn_BRAKE_EN ≠ 0) (done : s.on F.LOOPn_STAT_SS_DONE n = true) (going : (s.lp n).discharge = none)
    (free : s.on F.LOOPn_TSTAT_BRAKING n = false) (above : (s.lp n).vTgt + 64000 * (s.brakeOn n : Int) ≤ s.senseOf n v vl) :
    let u := s.brakeEngage n v vl
    u.on F.LOOPn_TSTAT_BRAKING n = true ∧ u.lp n = { s.lp n with brakeCyc := 0, braked := true } ∧
      (∀ p ∈ s.loopPhases n, (u.phs p).starts = [] ∧ (u.phs p).on = none) ∧
      (∀ (p : Fin 24) (t : Nat), s.loopOfPhase p = some n.val → u.pwm p t = .midZ) ∧
      (∀ k, k ≠ F.LOOPn_TSTAT_BRAKING.addr n → k ≠ ((F.LOOPn_TSTATS_V).off 3).addr n → u.reg k = s.reg k) := by
  have engages : s.brakeEngage n v vl = (((s.phasesMidZ n).put F.LOOPn_TSTAT_BRAKING 1 n).bump ((F.LOOPn_TSTATS_V).off 3) n).setLp n
      { (s.phasesMidZ n).lp n with brakeCyc := 0, braked := true } :=
    if_neg (by simp [runs, enabled, done, going, free, above])
  have still := s.phasesMidZ_still n
  obtain ⟨cells, rest⟩ := s.phasesMidZ_rest n
  rw [rest] at engages still
  have brakes : (s.brakeEngage n v vl).on F.LOOPn_TSTAT_BRAKING n = true := by
    rw [engages, State.on, State.get_setLp, State.bump, State.get_put_beside _ (by decide), State.get_put_same _ _ _ _ (by decide)]
    rfl
  refine ⟨brakes, by rw [engages]; exact State.lp_setLp_same _ n _, by rw [engages]; exact still, fun p t owner => ?_,
    fun k status count => ?_⟩
  · refine State.pwm_midZ _ p t (.inr (.inr ⟨n, ?_, .inr brakes⟩))
    rw [engages]
    exact owner
  · rw [engages]
    exact (State.reg_bump_ne _ count 1).trans (State.reg_put_ne _ status 1)

theorem State.brakeEngage_idle (s : State) (n : Fin 8) (v vl : Int) (stands : s.loopOn n = false ∨ s.lf n F.LOOPn_BRAKE_EN = 0 ∨
    s.on F.LOOPn_STAT_SS_DONE n = false ∨ (s.lp n).discharge ≠ none ∨ s.on F.LOOPn_TSTAT_BRAKING n = true ∨
    s.senseOf n v vl < (s.lp n).vTgt + 64000 * (s.brakeOn n : Int)) : s.brakeEngage n v vl = s := by
  refine if_pos ?_
  rcases stands with off | disabled | starting | going | brakes | below
  · simp [off]
  · simp [disabled]
  · simp [starting]
  · simp [Option.isSome_iff_ne_none.mpr going]
  · simp [brakes]
  · simp [below]

/-! ### Enables refused, stages identified, discharges ended (R200, R229, R349) -/

theorem State.loopEnable_shut (s : State) (n : Fin 8) (k : Fin 128) (third : s.get F.THM_NODEn_T_LEVEL k = 3)
    (names : s.get F.THM_NODEn_ACT_LOOP k = n.val) : s.loopEnable n = s := by
  have shut : s.loopShut n = true := List.any_eq_true.mpr ⟨k, List.mem_range.mpr k.isLt, by simp [third, names]⟩
  exact if_pos (by simp [State.loopTakesEnable, shut])

/-- Phase `p` of loop `n` is dropped with CAUSE stage line where it reads 82.3 A. -/
def State.stageJudged (n : Nat) (raw : List Int) (s : State) (p : Nat) : State :=
  if s.phCurrent n p (raw.getD p 0) ≥ 82300 then
    let t := ((s.phaseMidZ p).setPhState p phDropped).put F.PHn_FLT_CAUSE 4 p
    t.put F.LOOPn_TSTAT_NAVAIL (t.availPhases n).length n
  else s

theorem State.stageIdentify_eq (s : State) (n : Nat) (raw : List Int) : s.stageIdentify n raw =
    (s.loopPhases n).foldl (State.stageJudged n raw) (s.setLp n { s.lp n with stgAt := none }) := rfl

theorem State.stageJudged_others (n : Fin 8) (raw : List Int) {p : Nat} (s : State) (q : Nat) (other : q ≠ p) :
    s.SamePhase p (s.stageJudged n raw q) := by
  unfold State.stageJudged
  split
  · exact ((((SamePhase.refl p s).setPhs other _).put other F.PHn_STAT_STATE _ (by decide)).put other F.PHn_FLT_CAUSE _
      (by decide)).putLoop n F.LOOPn_TSTAT_NAVAIL _ (by decide)
  · exact .refl p s

theorem State.stageJudged_drops (s : State) (n : Fin 8) (raw : List Int) (p : Nat)
    (reads : 82300 ≤ s.phCurrent n p (raw.getD p 0)) :
    (s.stageJudged n raw p).phState p = phDropped ∧ (s.stageJudged n raw p).get F.PHn_FLT_CAUSE p = 4 := by
  have shown (t : State) (v : Nat) : t.SamePhase p (t.put F.LOOPn_TSTAT_NAVAIL v n) :=
    (SamePhase.refl p t).putLoop n F.LOOPn_TSTAT_NAVAIL v (by decide)
  rw [State.stageJudged, if_pos reads, (shown _ _).phState, (shown _ _).get _ (by decide)]
  exact ⟨(State.get_put_beside _ (by decide) _ _).trans (State.phState_setPhState _ (by decide)),
    State.get_put_same _ _ _ _ (by decide)⟩

theorem State.stageIdentify_drops (s : State) (n : Fin 8) (raw : List Int) (p : Fin 24) (mem : p.val ∈ s.loopPhases n)
    (reads : 82300 ≤ s.phCurrent n p (raw.getD p 0)) :
    (s.stageIdentify n raw).phState p = phDropped ∧ (s.stageIdentify n raw).get F.PHn_FLT_CAUSE p = 4 := by
  obtain ⟨u, before, after⟩ := State.foldl_phases (State.stageJudged_others n raw) s (s.setLp n { s.lp n with stgAt := none }) mem
  have loopOn : (s.setLp n { s.lp n with stgAt := none }).loopOn n = s.loopOn n := by
    rw [State.loopOn, State.lp_setLp_same]; rfl
  have current : u.phCurrent n p (raw.getD p 0) = s.phCurrent n p (raw.getD p 0) := by
    rw [before.phCurrent, State.phCurrent, State.phCtrl, loopOn]; rfl
  rw [State.stageIdentify_eq, after.phState, after.get _ (by decide)]
  exact u.stageJudged_drops n raw p (current ▸ reads)

/-- Settles O33: a stop by `loopStop_stops` and `loopStop_phases`, the brake by `brakeEngage_engages`, STGFLTn# by its third low
tick, the budget by `binClose_empty`, the end of a loop by `loopOff_shows`; what time brings comes at its time. -/
theorem loopProtectionAndTimers : Obligations.LoopProtectionAndTimers := by
  unfold Obligations.LoopProtectionAndTimers
  refine ⟨⟨fun s n p i runs mem above => completes_done rfl (s.loopFastShort_stops n p i runs mem above),
      fun s n p i stands => completes_done rfl (s.loopFastShort_idle n p i stands),
      fun s n v vl runs enabled done going free above =>
        completes_done rfl (s.brakeEngage_engages n v vl runs enabled done going free above),
      fun s n v vl stands => completes_done rfl (s.brakeEngage_idle n v vl stands),
      fun s n v vl => ⟨fun remote => if_neg (by simp [remote]), fun onLocal => if_pos onLocal⟩,
      fun s n held used fresh third => completes_done rfl (s.stgLow_registers n held used fresh third),
      fun s n held stands => completes_done rfl (s.stgLow_line n held stands),
      fun s n => completes_done rfl rfl, State.loopEnable_shut, State.loopStop_phases⟩,
    fun s n => comesAtTick_intro rfl, State.binClose_empty, fun s n l read => comes_intro (if_pos read),
    State.stageIdentify_drops, fun s n => comes_intro rfl, fun s n => comes_intro rfl, State.loopOff_shows⟩

end Sys2Proof.Machine
end
